-- ==== Sys2Proof/Word.lean ====
section
/-!
DEFINITION. The words of the DN9640 (00_scope.md, Notation): bit vectors for what the manual treats as bits, byte
lists for runs of memory, and sparse tables (sorted association lists that list no default value) for registers,
memories and every other large array of like things.
-/
namespace Sys2Proof

abbrev Byte := BitVec 8
abbrev W16 := BitVec 16
abbrev W32 := BitVec 32
abbrev W64 := BitVec 64

/-- A sparse table: keys strictly rising, no entry equal to the default its readers use. -/
abbrev SMap (α : Type) := List (Nat × α)

/-- The outcome of reading stored data with check bits (R62, R63, R102, R312, R315): no error, one corrected
error, or an uncorrectable one; for a store entry the flag says whether words 1 to 3, which hold TAG, decode. (DESIGN CHOICE, log 12.) -/
inductive Ecc where
  | ok
  | ce
  | ue (tagOk : Bool)
  deriving DecidableEq, Repr, Inhabited

/-- One bit as a bit vector. -/
def bit1 (b : Bool) : BitVec 1 := if b then 1#1 else 0#1

/-- The field hi:lo of a word. -/
def fld (v : BitVec n) (hi lo : Nat) : Nat := (v.toNat >>> lo) % 2 ^ (hi + 1 - lo)

/-- The word with its field hi:lo replaced. -/
def putFld (v : BitVec n) (hi lo x : Nat) : BitVec n :=
  let m : BitVec n := BitVec.ofNat n ((2 ^ (hi + 1 - lo) - 1) <<< lo)
  (v &&& ~~~m) ||| (BitVec.ofNat n (x <<< lo) &&& m)

/-- Little-endian value of a byte list (lowest address first). -/
def leNat : List Byte → Nat
  | [] => 0
  | b :: bs => b.toNat + 256 * leNat bs

/-- The n bytes of a value, lowest address first. -/
def leBytes : Nat → Nat → List Byte
  | 0, _ => []
  | n + 1, v => BitVec.ofNat 8 v :: leBytes n (v / 256)

/-- Big-endian value of a byte list (network order). -/
def beNat (bs : List Byte) : Nat := leNat bs.reverse

/-- The n bytes of a value, most significant first (network order). -/
def beBytes (n v : Nat) : List Byte := (leBytes n v).reverse

/-- Ceiling division. -/
def cdiv (a b : Nat) : Nat := (a + b - 1) / b

end Sys2Proof
end

