-- ==== Sys2Proof/Packet.lean ====
section
/-!
DEFINITION. Tokens, tags and the packets of the on-package network: R42 to R46 (02_tokens_exchange_store.md), R206
to R210 (06_progress_hurdles.md), R344 to R347 (11_package_network.md). Types only; the packing into bits and the
check sums stand in Machine/Token.lean.
-/
namespace Sys2Proof

/-- The 128-bit tag of a token (R42). -/
structure Tag where
  dev   : BitVec 14 := 0
  die   : BitVec 3 := 0
  rgn   : BitVec 2 := 0
  clu   : BitVec 4 := 0
  fu    : BitVec 3 := 0
  graph : BitVec 12 := 0
  ctx   : BitVec 22 := 0
  node  : BitVec 15 := 0
  port  : BitVec 2 := 0
  iter  : BitVec 8 := 0
  flow  : BitVec 20 := 0
  cls   : BitVec 3 := 0
  epoch : BitVec 8 := 0
  prio  : BitVec 4 := 0
  tcrc  : BitVec 8 := 0
  deriving DecidableEq, Repr, Inhabited

/-- A token: tag, 64-bit payload, type byte (R42 to R45). -/
structure Token where
  tag : Tag := {}
  pay : W64 := 0
  ty  : Byte := 0
  deriving DecidableEq, Repr, Inhabited

/-- A block address on the network: the layout of REQ and DEST (R206, R344). -/
structure Dest where
  die  : BitVec 3 := 0
  rgn  : BitVec 2 := 0
  tile : BitVec 5 := 0
  unit : BitVec 4 := 0
  deriving DecidableEq, Repr, Inhabited

/-- An L1 memory request (R206, R207); the data flits are held as bytes. -/
structure MemReq where
  op      : BitVec 4 := 0
  size    : BitVec 4 := 0
  addr    : BitVec 48 := 0
  req     : Dest := {}
  rtag    : BitVec 12 := 0
  prio    : BitVec 4 := 0
  operand : W64 := 0
  ctx     : BitVec 22 := 0
  graph   : BitVec 12 := 0
  data    : List Byte := []
  deriving DecidableEq, Repr, Inhabited

/-- An L2 memory response (R209). -/
structure MemResp where
  op     : BitVec 4 := 0
  status : BitVec 4 := 0
  req    : Dest := {}
  rtag   : BitVec 12 := 0
  result : W64 := 0
  prio   : BitVec 4 := 0
  data   : List Byte := []
  deriving DecidableEq, Repr, Inhabited

/-- An L4 management message (R202): faults and flags for a descriptor (R100, R109), flow messages, a request with a number of its cluster's (R180), horizons (R230), owner resets (R326),
heartbeats (R531), sweeps with the guard they carry and their acknowledgements by global FU (R88), BOOST (R185), the copy of NOC.PARK (R361),
forced spills of the stall watch (R237), and what an FU asks of a context pool of another region: a context, its answer, a free, and the
flags of a descriptor (R119, R121). `rtag` names the waiting operation of the FU. -/
inductive Mgmt where
  | fault (ctx : BitVec 22)
  | flags (ctx : BitVec 22) (f : BitVec 5)
  | flowReq (flow : BitVec 20) (clu : BitVec 8) (eprio : BitVec 4) (no : Nat)
  | flowGrant (flow : BitVec 20) (no : Nat)
  | flowRefuse (flow : BitVec 20) (no : Nat)
  | flowRel (flow : BitVec 20) (clu : BitVec 8)
  | flowCancel (flow : BitVec 20) (clu : BitVec 8) (no : Nat)
  | horizon (region slot epoch : BitVec 8)
  | importHz (slot entry epoch : BitVec 8)
  | ownerReset (ctx : BitVec 22)
  | heartbeat (island : Nat)
  | sweep (ctx : BitVec 22) (guard : BitVec 32) (fu : Nat)
  | sweepAck (ctx : BitVec 22) (fu : Nat)
  | boost (ctx : BitVec 22) (unit b : BitVec 4)
  | park (mask : BitVec 16)
  | forceSpill (n : Nat)
  | ctxReq (fu rtag : Nat) (ctx : BitVec 22) (graph : BitVec 12) (prio : BitVec 4)
  | ctxGive (rtag : Nat) (ctx : BitVec 22)
  | ctxFree (fu : Nat) (tag : Tag) (replay : Bool)
  | flagAsk (fu rtag : Nat) (ctx : BitVec 22) (clear : Bool)
  | flagAns (rtag : Nat) (f : BitVec 5)
  deriving DecidableEq, Repr, Inhabited

/-- The body of a packet; its lane follows from it (R202, R203). -/
inductive Body where
  | token (t : Token)
  | req (r : MemReq)
  | resp (r : MemResp)
  | mgmt (m : Mgmt)
  deriving DecidableEq, Repr, Inhabited

/-- A packet on the network with the sideband fields that travel with it (R344). `ends` marks the last result token
of a firing in service (the flow and its cluster), whose leaving the send stage ends that service (R179).
`src` is 1 + the number of the FU that asked, for the answer of an I/O block (R123), and 0 for none. `part` is the holder of the end-to-end credit that the token spent (R213, R215): the gateway of a global
region, 16 the hub's partition, 17 the measurement die, 18 + u the hub source u. -/
structure Packet where
  dest : Dest := {}
  log  : Bool := false
  prio : BitVec 4 := 0
  age  : BitVec 4 := 0
  repoch : Bool := false
  body : Body := .token {}
  ends : Option (BitVec 20 × Nat) := none
  src  : Nat := 0
  part : Option Nat := none
  deriving DecidableEq, Repr, Inhabited

/-- The stations of the network (R15, R19, R347): tile routers, gateways with their gateway routers, die fabrics,
the hub fabric, the measurement die's link, and the blocks that hang from them. (DESIGN CHOICE, log 16.) -/
inductive Node where
  | tile (g t : Nat)
  | gw (g : Nat)
  | die (d : Nat)
  | hub
  | meas
  | tileUnit (g t u : Nat)
  | regionUnit (g u : Nat)
  | hubUnit (u : Nat)
  deriving DecidableEq, Repr, Inhabited

/-- A link, from one station to the next. -/
structure LinkId where
  src : Node
  dst : Node
  deriving DecidableEq, Repr, Inhabited

/-- Where the classifier takes a frame from (R408): the oldest of a port's receive buffer, or a frame that arrives on a segment, without FCS,
with whether its FCS passed and whether its transmission exceeded its opportunity. -/
inductive FrameFrom where
  | port (p : Fin 2)
  | segment (s : Fin 8) (bs : List Byte) (fcs jabber : Bool)
  deriving DecidableEq, Repr, Inhabited

end Sys2Proof
end

