-- ==== Sys2Proof/Syntax.lean ====
section
/-!
DEFINITION. The commands of the DN9640: one constructor per row of spec/opcode_table.json, in the table's order, with
the operands that name the unit it acts on and what arrives from outside. A region is a global region, a tile a
physical tile, `Ecc` the outcome of a read of stored data, and a written value the 32 bits of a register write.
-/
namespace Sys2Proof

/-- The commands. -/
inductive Instr where
  /-- REGISTER_WRITE (R13). A write to a register field without behaviour of its own sets the field as its access code allows. -/
  | registerWrite (a : BitVec 48) (v : W32)
  /-- PAIR_LO_READ (R9). A read of a _LO register captures the matching _HI half for a later read. -/
  | pairLoRead (a : BitVec 48)
  /-- PAIR_HI_WRITE (R10). A write to a _HI register makes the held or last low half and the new high half take effect together. -/
  | pairHiWrite (a : BitVec 48) (v : W32)
  /-- CLK_FREQ_WRITE (R27). A write to CLU.CLK.FREQ is clamped, ignored or starts a tile frequency change with a PLL relock. -/
  | clkFreqWrite (g : Fin 16) (t : Fin 17) (v : W32)
  /-- PLL_RELOCK_DONE (R22). The tile PLL locks and the tile switches glitch-free from the fallback clock to the new frequency; BUSY clears. -/
  | pllRelockDone (g : Fin 16) (t : Fin 17)
  /-- PLL_LOCK_TIMEOUT (R27). The PLL is not locked 50 µs after a change starts; the tile stays at 0.4 GHz, LOCKFAIL is set and a cluster health event is raised. -/
  | pllLockTimeout (g : Fin 16) (t : Fin 17)
  /-- CLU_SRST_WRITE (R26). A write to CLU.SRST holds or releases the tile in block reset, discarding packets in its FIFOs. -/
  | cluSrstWrite (g : Fin 16) (t : Fin 17) (v : W32)
  /-- MAP_COMMIT (R36). A write of 1 to RGN.MAP_CTRL.COMMIT checks the shadow map and installs it in the inactive route tables, clearing reassigned tiles and flipping the route epoch. -/
  | mapCommit (g : Fin 16) (v : W32)
  /-- TILE_UNHEALTHY (R36). A mapped tile fails its checks; HEALTHY is cleared and a cluster health event is raised. -/
  | tileUnhealthy (g : Fin 16) (t : Fin 17)
  /-- ROUTE_EPOCH_FLIP_DONE (R355). No old-epoch flit remains in the domain; held packets are released in order and BUSY clears. -/
  | routeEpochFlipDone (k : Fin 21)
  /-- FLIT_RECEIVE (R346). A flit arrives at a link receiver; a flit failing LCRC is discarded and resent, others are buffered and routed. -/
  | flitReceive (l : LinkId) (err : BitVec 256)
  /-- AGE_INCREMENT (R352). Every 32 router cycles that a head flit waits at an output, its AGE rises by 1 up to 15. -/
  | ageIncrement (l : LinkId) (n : Nat)
  /-- LINK_DOWN (R346). After 8 consecutive failed attempts of one flit the link is down; the DOWN bit and a die event are raised, or mesh tiles are isolated, and traffic is rerouted. -/
  | linkDown (l : LinkId)
  /-- LINK_UP (R40). A die link is trained and passes credits again; its UP bit is set; `l` is the link with a write of its link register in
the same cycle (0 none). -/
  | linkUp (l : LinkId × W32)
  /-- DIEF_SRST_WRITE (R472). A write to DIEF.SRST holds or releases the die fabric in block reset. -/
  | diefSrstWrite (d : Fin 4) (v : W32)
  /-- CREDIT_RETURN (R204). An L3 credit packet arrives and is consumed in the same cycle, raising counters or adding to an accumulator. -/
  | creditReturn (l : LinkId)
  /-- TOKEN_TAG_CHECK (R56). A token is taken into an FU's tag check, tested in order and passed to the match stage; `f` is the FU with the ECC outcomes of slots it
reads. -/
  | tokenTagCheck (g : Fin 16) (t : Fin 17) (f : Fin 8 × List (Fin 2048 × Ecc))
  /-- TAG_CHECK_RETRY (R66). A token held in the tag check for lack of room is retried once room exists; `f` as for TOKEN_TAG_CHECK. -/
  | tagCheckRetry (g : Fin 16) (t : Fin 17) (f : Fin 8 × List (Fin 2048 × Ecc))
  /-- SPILL_WRITE_ISSUE (R71). The spill buffer issues a victim's write to its probe window once it holds an L1 credit and response room, raising the filter counters. -/
  | spillWriteIssue (g : Fin 16) (t : Fin 17) (f : Fin 8)
  /-- SPILL_WRITE_RESPONSE (R77). A spill write response returns; the buffer entry frees and, if the partner fired meanwhile, a delete is issued. -/
  | spillWriteResponse (g : Fin 16) (t : Fin 17) (f : Fin 8)
  /-- FILL_RESPONSE (R77). A fill returns its bucket; returned entries and waiting tokens of the key are matched in arrival order; `f` is
the FU with the ECC outcomes of the bucket's entries. -/
  | fillResponse (g : Fin 16) (t : Fin 17) (f : Fin 8 × List (Fin 8 × Ecc))
  /-- OVERFLOW_DELETE_DONE (R73). An overflow delete completes and decrements the two filter counters. -/
  | overflowDeleteDone (g : Fin 16) (t : Fin 17) (f : Fin 8)
  /-- ES_SCRUB (R62). Every 64 idle match cycles the scrubber reads one slice entry and corrects single-bit errors. -/
  | esScrub (g : Fin 16) (t : Fin 17) (f : Fin 8) (e : Ecc)
  /-- REBUILD (R74). A write of 1 to FU.ES_CTRL.REBUILD starts a filter rebuild from the bitmap and overflow area. -/
  | rebuild (g : Fin 16) (t : Fin 17) (f : Fin 8) (v : W32)
  /-- REBUILD_DONE (R74). A filter rebuild completes and REBUILD_BUSY clears. -/
  | rebuildDone (g : Fin 16) (t : Fin 17) (f : Fin 8)
  /-- OVERFLOW_REBUILD_DONE (R79). After warm reset an FU finishes reading every slot of its area and has rebuilt its bitmap and filter; `f` is the FU with
the slots whose ECC does not decode. -/
  | overflowRebuildDone (g : Fin 16) (t : Fin 17) (f : Fin 8 × List Nat)
  /-- ES_HWM_CLR (R81). A write of 1 to FU.ES_CTRL.HWM_CLR sets every HWM field of the FU to its current value. -/
  | esHwmClr (g : Fin 16) (t : Fin 17) (f : Fin 8) (v : W32)
  /-- HASH_SALT_WRITE (R77). A write to FU.HASH_SALT sets the salt, or is ignored while entries wait or are spilled. -/
  | hashSaltWrite (g : Fin 16) (t : Fin 17) (f : Fin 8) (v : W32)
  /-- OFL_CONFIG_WRITE (R92). A write to OFL.BASE or OFL.SIZE takes effect only while the region is closed with nothing spilled. -/
  | oflConfigWrite (g : Fin 16) (a : BitVec 4) (v : W32)
  /-- OFL_HWM_CLR (R91). A write of 1 to OFL.CTRL.HWM_CLR sets OFL.HWM to the current USED. -/
  | oflHwmClr (g : Fin 16) (v : W32)
  /-- CTX_LOW_CLR (R91). A write of 1 to CTX.CTRL.LOW_CLR sets CTX.LOW to the current free count. -/
  | ctxLowClr (g : Fin 16) (v : W32)
  /-- CTX_STARVE_TIMEOUT (R86). A CTXALLOC request has waited STARVE_DELAY; STARVING is set and one context-starvation event raised. -/
  | ctxStarveTimeout (g : Fin 16)
  /-- FAULT_MESSAGE (R109). A fault message reaches the home pool on L4 and sets FAULT in the context descriptor. -/
  | faultMessage (g : Fin 16)
  /-- FLAG_UPDATE (R100). A flag update reaches the context descriptor on L4 and is ORed into FPFLAGS. -/
  | flagUpdate (g : Fin 16)
  /-- SWEEP_RECEIVE (R88). An FU receives a sweep, removes the context's entries and held token, cancels queued items and enters a tombstone. -/
  | sweepReceive (g : Fin 16) (t : Fin 17) (f : Fin 8) (c : BitVec 22)
  /-- SWEEP_OVERFLOW_DONE (R90). The overflow part of a sweep finishes reading every occupied slot and the FU acknowledges. -/
  | sweepOverflowDone (g : Fin 16) (t : Fin 17) (f : Fin 8)
  /-- SWEEP_ACK_COMPLETE (R88). Every FU has acknowledged a sweep and the pool starts the reuse guard. -/
  | sweepAckComplete (g : Fin 16) (c : BitVec 18)
  /-- SWEEP_GUARD_EXPIRY (R88). REUSE_GUARD after the last acknowledgement the context is appended to the free list. -/
  | sweepGuardExpiry (g : Fin 16) (c : BitVec 18)
  /-- TOMBSTONE_LAPSE (R89). A tombstone lapses REUSE_GUARD after entry, freeing room for waiting sweep acknowledgements; `f` is the FU with its context. -/
  | tombstoneLapse (g : Fin 16) (t : Fin 17) (f : Fin 8 × BitVec 22)
  /-- NODE_SLOT_WRITE (R103). A write to a node slot's fourth word through the window makes the held words of the descriptor take effect together. -/
  | nodeSlotWrite (c : BitVec 8) (slot : BitVec 15) (w : Fin 4) (v : W32)
  /-- MASK_DATA_WRITE (R104). A write to NODE.MASK_DATA sets the selected mask table entry. -/
  | maskDataWrite (g : Fin 16) (t : Fin 17) (v : W32)
  /-- UNDEFINED_OPCODE (R133). A firing of an undefined opcode consumes its operands, sends UNDEFINED_OPCODE and faults the context. -/
  | undefinedOpcode (g : Fin 16) (t : Fin 17) (f : Fin 8)
  /-- MOV (R145). Integer MOV passes port 0 extended per TYPE. -/
  | mov (g : Fin 16) (t : Fin 17) (f : Fin 8)
  /-- ADD (R145). Integer ADD sums ports 0 and 1 modulo 2^width with OV. -/
  | add (g : Fin 16) (t : Fin 17) (f : Fin 8)
  /-- SUB (R145). Integer SUB subtracts port 1 from port 0 with OV. -/
  | sub (g : Fin 16) (t : Fin 17) (f : Fin 8)
  /-- NEG (R145). Integer NEG negates port 0, MINV giving MINV with OV. -/
  | neg (g : Fin 16) (t : Fin 17) (f : Fin 8)
  /-- ABS (R145). Integer ABS returns the magnitude, MINV giving MINV with OV. -/
  | abs (g : Fin 16) (t : Fin 17) (f : Fin 8)
  /-- MIN (R145). Integer MIN returns the smaller operand. -/
  | min (g : Fin 16) (t : Fin 17) (f : Fin 8)
  /-- MAX (R145). Integer MAX returns the larger operand. -/
  | max (g : Fin 16) (t : Fin 17) (f : Fin 8)
  /-- MUL (R145). Integer MUL returns the low half of the product with OV. -/
  | mul (g : Fin 16) (t : Fin 17) (f : Fin 8)
  /-- MULHI (R145). Integer MULHI returns the high half of the product. -/
  | mulhi (g : Fin 16) (t : Fin 17) (f : Fin 8)
  /-- DIV (R146). Integer DIV returns the truncated quotient over 2 + q cycles, with special cases. -/
  | div (g : Fin 16) (t : Fin 17) (f : Fin 8)
  /-- REM (R146). Integer REM returns the remainder with the dividend's sign, with special cases. -/
  | rem (g : Fin 16) (t : Fin 17) (f : Fin 8)
  /-- AND (R145). Bitwise AND over the width. -/
  | and (g : Fin 16) (t : Fin 17) (f : Fin 8)
  /-- OR (R145). Bitwise OR over the width. -/
  | or (g : Fin 16) (t : Fin 17) (f : Fin 8)
  /-- XOR (R145). Bitwise XOR over the width. -/
  | xor (g : Fin 16) (t : Fin 17) (f : Fin 8)
  /-- NOT (R145). Bitwise complement of port 0. -/
  | not (g : Fin 16) (t : Fin 17) (f : Fin 8)
  /-- ANDN (R145). Port 0 AND NOT port 1. -/
  | andn (g : Fin 16) (t : Fin 17) (f : Fin 8)
  /-- SHL (R147). Logical shift left by an unreduced unsigned amount. -/
  | shl (g : Fin 16) (t : Fin 17) (f : Fin 8)
  /-- SHR (R147). Logical shift right by an unreduced unsigned amount. -/
  | shr (g : Fin 16) (t : Fin 17) (f : Fin 8)
  /-- SRA (R147). Arithmetic shift right by an unreduced unsigned amount. -/
  | sra (g : Fin 16) (t : Fin 17) (f : Fin 8)
  /-- CLZ (R145). Counts leading zeros within the width. -/
  | clz (g : Fin 16) (t : Fin 17) (f : Fin 8)
  /-- CTZ (R145). Counts trailing zeros within the width. -/
  | ctz (g : Fin 16) (t : Fin 17) (f : Fin 8)
  /-- POPC (R145). Counts set bits within the width. -/
  | popc (g : Fin 16) (t : Fin 17) (f : Fin 8)
  /-- EQ (R145). Integer equal comparison giving 0 or 1. -/
  | eq (g : Fin 16) (t : Fin 17) (f : Fin 8)
  /-- NE (R145). Integer not-equal comparison giving 0 or 1. -/
  | ne (g : Fin 16) (t : Fin 17) (f : Fin 8)
  /-- LT (R145). Integer less-than comparison per TYPE. -/
  | lt (g : Fin 16) (t : Fin 17) (f : Fin 8)
  /-- LE (R145). Integer less-or-equal comparison per TYPE. -/
  | le (g : Fin 16) (t : Fin 17) (f : Fin 8)
  /-- GT (R145). Integer greater-than comparison per TYPE. -/
  | gt (g : Fin 16) (t : Fin 17) (f : Fin 8)
  /-- GE (R145). Integer greater-or-equal comparison per TYPE. -/
  | ge (g : Fin 16) (t : Fin 17) (f : Fin 8)
  /-- FADD (R153). Floating-point addition rounded once by RM with IEEE flags. -/
  | fadd (g : Fin 16) (t : Fin 17) (f : Fin 8)
  /-- FSUB (R153). Floating-point subtraction rounded once by RM. -/
  | fsub (g : Fin 16) (t : Fin 17) (f : Fin 8)
  /-- FMUL (R153). Floating-point multiplication rounded once by RM. -/
  | fmul (g : Fin 16) (t : Fin 17) (f : Fin 8)
  /-- FDIV (R153). Floating-point division through the bit-serial loop, lane by lane. -/
  | fdiv (g : Fin 16) (t : Fin 17) (f : Fin 8)
  /-- FSQRT (R153). Floating-point square root through the bit-serial loop. -/
  | fsqrt (g : Fin 16) (t : Fin 17) (f : Fin 8)
  /-- FMA (R153). Fused multiply-add with one rounding. -/
  | fma (g : Fin 16) (t : Fin 17) (f : Fin 8)
  /-- FNEG (R157). Flips the sign bit alone without flags. -/
  | fneg (g : Fin 16) (t : Fin 17) (f : Fin 8)
  /-- FABS (R157). Clears the sign bit alone without flags. -/
  | fabs (g : Fin 16) (t : Fin 17) (f : Fin 8)
  /-- FMIN (R159). Returns the smaller operand with NaN and signed-zero rules. -/
  | fmin (g : Fin 16) (t : Fin 17) (f : Fin 8)
  /-- FMAX (R159). Returns the larger operand with NaN and signed-zero rules. -/
  | fmax (g : Fin 16) (t : Fin 17) (f : Fin 8)
  /-- FEQ (R159). Floating-point equality giving 0 or 1. -/
  | feq (g : Fin 16) (t : Fin 17) (f : Fin 8)
  /-- FLT (R159). Ordered less-than, NV with any NaN. -/
  | flt (g : Fin 16) (t : Fin 17) (f : Fin 8)
  /-- FLE (R159). Ordered less-or-equal, NV with any NaN. -/
  | fle (g : Fin 16) (t : Fin 17) (f : Fin 8)
  /-- FUNORD (R159). Gives 1 if either operand is a NaN. -/
  | funord (g : Fin 16) (t : Fin 17) (f : Fin 8)
  /-- FCVT (R158). Converts between floating formats with NaN payload rules. -/
  | fcvt (g : Fin 16) (t : Fin 17) (f : Fin 8)
  /-- FTOI (R160). Converts to integer per RM with saturation. -/
  | ftoi (g : Fin 16) (t : Fin 17) (f : Fin 8)
  /-- ITOF (R159). Converts an integer to a floating format per RM. -/
  | itof (g : Fin 16) (t : Fin 17) (f : Fin 8)
  /-- FROUND (R159). Rounds to an integral value per RM. -/
  | fround (g : Fin 16) (t : Fin 17) (f : Fin 8)
  /-- FCLASS (R159). Returns a one-hot class word of the operand. -/
  | fclass (g : Fin 16) (t : Fin 17) (f : Fin 8)
  /-- EXECUTE_COMPLETE (R166). A multi-cycle execution finishes and hands its result to token form in order. -/
  | executeComplete (g : Fin 16) (t : Fin 17) (f : Fin 8)
  /-- SWITCH (R115). Steers the data token to DST0 or DST1 by its condition. -/
  | switch (g : Fin 16) (t : Fin 17) (f : Fin 8)
  /-- MERGE (R115). Passes each token to DST0 and DST1. -/
  | merge (g : Fin 16) (t : Fin 17) (f : Fin 8)
  /-- GATE (R115). Passes data to its destinations once the control token arrives. -/
  | gate (g : Fin 16) (t : Fin 17) (f : Fin 8)
  /-- FANOUT (R116). Sends the token to DST0, DST1 and its FANEXT slots. -/
  | fanout (g : Fin 16) (t : Fin 17) (f : Fin 8)
  /-- SELECT (R115). Passes port 0 or port 1 by the condition. -/
  | select (g : Fin 16) (t : Fin 17) (f : Fin 8)
  /-- LOOPENT (R130). Starts a loop, emitting the value, k−1 permits and a chain token. -/
  | loopent (g : Fin 16) (t : Fin 17) (f : Fin 8)
  /-- LOOPNEXT (R130). Admits the next iteration or forwards a drain. -/
  | loopnext (g : Fin 16) (t : Fin 17) (f : Fin 8)
  /-- LOOPRET (R130). Retires an iteration, issuing a permit and a chain or a final drain. -/
  | loopret (g : Fin 16) (t : Fin 17) (f : Fin 8)
  /-- LOOPEXIT (R130). Closes the loop and sends the final value with ITER 0. -/
  | loopexit (g : Fin 16) (t : Fin 17) (f : Fin 8)
  /-- LD (R118). Issues a memory read or lock acquire for port 0 plus IMM32. -/
  | ld (g : Fin 16) (t : Fin 17) (f : Fin 8)
  /-- ST (R118). Issues a memory write and signals after the write response. -/
  | st (g : Fin 16) (t : Fin 17) (f : Fin 8)
  /-- AADD (R308). Issues an atomic add returning the old value. -/
  | aadd (g : Fin 16) (t : Fin 17) (f : Fin 8)
  /-- SWAP (R308). Issues an atomic swap returning the old value. -/
  | swap (g : Fin 16) (t : Fin 17) (f : Fin 8)
  /-- MEMORY_RESPONSE (R209). An L2 response reaches its requester, completing the memory operation and emitting its result or status. -/
  | memoryResponse (n : Fin 273) (u : Fin 9)
  /-- BANK_REQUEST (R305). A request reaches a scratchpad sub-bank and is served or stalled by class order and round robin. -/
  | bankRequest (g : Fin 16) (t : Fin 17) (b : Fin 4) (sub : Fin 16) (e : Ecc)
  /-- HBM_REQUEST (R316). A request reaches an HBM controller, which reads, writes whole or executes an atomic with SECDED. -/
  | hbmRequest (k : Fin 2) (e : Ecc)
  /-- CTXALLOC (R119). Takes a context of the same graph from a pool, or waits, and sends the value into it. -/
  | ctxalloc (g : Fin 16) (t : Fin 17) (f : Fin 8)
  /-- CTXFREE (R84). Frees the token's context to the free list, or by sweep if faulted. -/
  | ctxfree (g : Fin 16) (t : Fin 17) (f : Fin 8)
  /-- PASS (R119). Sends a value into a named context with ITER 0. -/
  | pass (g : Fin 16) (t : Fin 17) (f : Fin 8)
  /-- CALL (R119). Sends a value and a link into a named context. -/
  | call (g : Fin 16) (t : Fin 17) (f : Fin 8)
  /-- RET (R119). Sends a value to the link's return destination. -/
  | ret (g : Fin 16) (t : Fin 17) (f : Fin 8)
  /-- RELAYSEND (R119). Sends a value to a node on another device through the relay link. -/
  | relaysend (g : Fin 16) (t : Fin 17) (f : Fin 8)
  /-- FLAGGET (R121). Reads FPFLAGS from the home descriptor. -/
  | flagget (g : Fin 16) (t : Fin 17) (f : Fin 8)
  /-- FLAGCLR (R121). Clears FPFLAGS at the home descriptor and signals. -/
  | flagclr (g : Fin 16) (t : Fin 17) (f : Fin 8)
  /-- HURDLE (R222). Hands its token to the region's hurdle unit. -/
  | hurdle (g : Fin 16) (t : Fin 17) (f : Fin 8)
  /-- LOCKACQ (R573). Sends a lock acquire for a word and returns the grant word or 0. -/
  | lockacq (g : Fin 16) (t : Fin 17) (f : Fin 8)
  /-- LOCKREL (R573). Sends a lock release with a grant word. -/
  | lockrel (g : Fin 16) (t : Fin 17) (f : Fin 8)
  /-- DELAY (R190). Hands its token to the pacer with a deadline n ticks ahead, or passes it at once for n 0. -/
  | delay (g : Fin 16) (t : Fin 17) (f : Fin 8)
  /-- WINDOW (R257). Stride engine multiplies a frame by a window with optional normalisation. -/
  | window (g : Fin 16) (t : Fin 17) (e : Ecc) (w : BitVec 16)
  /-- FFT (R257). Stride engine computes a forward complex FFT. -/
  | fft (g : Fin 16) (t : Fin 17) (e : Ecc) (w : BitVec 16)
  /-- IFFT (R257). Stride engine computes an inverse complex FFT. -/
  | ifft (g : Fin 16) (t : Fin 17) (e : Ecc) (w : BitVec 16)
  /-- RFFT (R257). Stride engine computes a real FFT in packed layout. -/
  | rfft (g : Fin 16) (t : Fin 17) (e : Ecc) (w : BitVec 16)
  /-- RIFFT (R257). Stride engine inverts a packed real FFT. -/
  | rifft (g : Fin 16) (t : Fin 17) (e : Ecc) (w : BitVec 16)
  /-- MAGSPEC (R257). Stride engine computes magnitudes of a complex frame. -/
  | magspec (g : Fin 16) (t : Fin 17) (e : Ecc) (w : BitVec 16)
  /-- PWRSPEC (R257). Stride engine computes powers of a complex frame. -/
  | pwrspec (g : Fin 16) (t : Fin 17) (e : Ecc) (w : BitVec 16)
  /-- AVGLIN (R257). Stride engine updates a linear average state. -/
  | avglin (g : Fin 16) (t : Fin 17) (e : Ecc) (w : BitVec 16)
  /-- AVGEXP (R257). Stride engine updates an exponential average state. -/
  | avgexp (g : Fin 16) (t : Fin 17) (e : Ecc) (w : BitVec 16)
  /-- BANDEN (R257). Stride engine sums bins into bands. -/
  | banden (g : Fin 16) (t : Fin 17) (e : Ecc) (w : BitVec 16)
  /-- PEAKS (R257). Stride engine finds the highest peaks. -/
  | peaks (g : Fin 16) (t : Fin 17) (e : Ecc) (w : BitVec 16)
  /-- FIRDEC (R257). Stride engine filters and decimates with history. -/
  | firdec (g : Fin 16) (t : Fin 17) (e : Ecc) (w : BitVec 16)
  /-- ENVELOPE (R257). Stride engine computes a band-pass Hilbert envelope and decimates. -/
  | envelope (g : Fin 16) (t : Fin 17) (e : Ecc) (w : BitVec 16)
  /-- ANGLERS (R260). Stride engine resamples a frame to angle from the pulse list. -/
  | anglers (g : Fin 16) (t : Fin 17) (e : Ecc) (w : BitVec 16)
  /-- TSA (R257). Stride engine updates a time-synchronous average. -/
  | tsa (g : Fin 16) (t : Fin 17) (e : Ecc) (w : BitVec 16)
  /-- STATS (R258). Stride engine computes two selected statistics. -/
  | stats (g : Fin 16) (t : Fin 17) (e : Ecc) (w : BitVec 16)
  /-- BASELINE (R257). Stride engine learns per-element mean and variance. -/
  | baseline (g : Fin 16) (t : Fin 17) (e : Ecc) (w : BitVec 16)
  /-- DEVIATE (R257). Stride engine computes z-scores from a baseline. -/
  | deviate (g : Fin 16) (t : Fin 17) (e : Ecc) (w : BitVec 16)
  /-- THRESH (R259). Stride engine compares elements with alert and danger limits and sends an alarm word. -/
  | thresh (g : Fin 16) (t : Fin 17) (e : Ecc) (w : BitVec 16)
  /-- STRIDE_ENQUEUE (R168). A Stride dispatch node fires and places an item in the cluster's Stride queue. -/
  | strideEnqueue (g : Fin 16) (t : Fin 17) (f : Fin 8)
  /-- SE_SRST_WRITE (R264). A write to SE.CTRL.SRST holds the engine in block reset, abandoning a running operation. -/
  | seSrstWrite (g : Fin 16) (t : Fin 17) (v : W32)
  /-- CODE1 (R122). Dispatches a one-port code firing to the Runner queue. -/
  | code1 (g : Fin 16) (t : Fin 17) (f : Fin 8)
  /-- CODE2 (R122). Dispatches a two-port code firing to the Runner queue. -/
  | code2 (g : Fin 16) (t : Fin 17) (f : Fin 8)
  /-- CODE3 (R122). Dispatches a three-port code firing to the Runner queue. -/
  | code3 (g : Fin 16) (t : Fin 17) (f : Fin 8)
  /-- BIND (R123). Sends a stream bind request to stream ingest. -/
  | bind (g : Fin 16) (t : Fin 17) (f : Fin 8)
  /-- COMMIT (R123). Sends a value to the output commit block for a channel. -/
  | commit (g : Fin 16) (t : Fin 17) (f : Fin 8)
  /-- TRIP (R123). Sends a trip demand or permissive request for a line. -/
  | trip (g : Fin 16) (t : Fin 17) (f : Fin 8)
  /-- AWRITE (R123). Sends an analog output value request. -/
  | awrite (g : Fin 16) (t : Fin 17) (f : Fin 8)
  /-- EVENT (R123). Sends a request raising an event source 704–1,023. -/
  | event (g : Fin 16) (t : Fin 17) (f : Fin 8)
  /-- FIRING_DISPATCH (R170). An issue queue hands its highest-level item to node fetch once the FU is free. -/
  | firingDispatch (g : Fin 16) (t : Fin 17) (f : Fin 8) (e : Ecc) (which : Fin 4) (cycle : Nat)
  /-- AGEING_STEP (R172). An item that has waited SCH.AGE.CYCLES at its level moves up one level. -/
  | ageingStep (g : Fin 16) (t : Fin 17) (q : Fin 10) (n : Fin 64)
  /-- FLOWREQ (R180). A flow request reaches its home, which grants it or queues or refuses it. -/
  | flowreq (g : Fin 16) (t : Fin 17)
  /-- FLOWGRANT (R180). A flow grant reaches the cluster and moves the waiting firing to its ready queue. -/
  | flowgrant (g : Fin 16) (t : Fin 17)
  /-- FLOWREL (R180). A flow release reaches the home, which frees the entry and grants the oldest pending request. -/
  | flowrel (g : Fin 16) (t : Fin 17)
  /-- FLOWCANCEL (R196). A flow cancel withdraws an outstanding request at the home. -/
  | flowcancel (g : Fin 16) (t : Fin 17)
  /-- FLOW_REQUEST_RETRY (R183). A refused flow request is resent 64 cycles later. -/
  | flowRequestRetry (g : Fin 16) (t : Fin 17)
  /-- RUN_LIMIT (R175). A code firing reaches SCH.RUNLIMIT cycles and is stopped with RUN_LIMIT status. -/
  | runLimit (g : Fin 16) (t : Fin 17)
  /-- BOOST (R188). A BOOST message reaches a scheduler or pool, which updates its boost table and reorders queued items. -/
  | boost (n : Fin 288)
  /-- CANCEL (R195). A cancel removes an undispatched item, releases its flow and acknowledges. -/
  | cancel (g : Fin 16) (t : Fin 17) (f : Fin 8) (c : BitVec 22)
  /-- RUNNER_TAKE_ITEM (R174). A Runner core waiting in WAITW receives the highest queued item and starts it 4 cycles later. -/
  | runnerTakeItem (g : Fin 16) (t : Fin 17)
  /-- PACER_RELEASE (R193). Device time reaches a deadline and the pacer releases its tokens in order, one per region cycle. -/
  | pacerRelease (g : Fin 16)
  /-- PAC_HWM_CLR (R201). A write of 1 to PAC.CTRL.HWM_CLR sets PAC.HWM to the current USED. -/
  | pacHwmClr (g : Fin 16) (v : W32)
  /-- HURDLE_ARRIVAL (R229). A token or mark reaches the hurdle unit and is held, counted, passed or refused. -/
  | hurdleArrival (g : Fin 16)
  /-- HURDLE_RELEASE (R226). The hurdle unit detects a complete epoch and releases its held tokens, then advances E. -/
  | hurdleRelease (g : Fin 16) (slot : BitVec 8)
  /-- HURDLE_WAIT_TIMEOUT (R229). An epoch incomplete for WAITUS sets LATE and raises one hurdle-late event. -/
  | hurdleWaitTimeout (g : Fin 16) (slot : BitVec 8)
  /-- HRD_FORCE (R229). A write of 1 to GW.HRD_CTRL.FORCE releases the current epoch with what it holds. -/
  | hrdForce (g : Fin 16) (v : W32)
  /-- HRD_STOP_WRITE (R231). A write to GW.HRD_STOP sets or clears the stop epoch of the hurdle. -/
  | hrdStopWrite (g : Fin 16) (v : W32)
  /-- HORIZON_RECEIVE (R230). An origin receives a hurdle's horizon and releases what it held beyond the old one. -/
  | horizonReceive (o : Fin 19)
  /-- HOLD_CONFIG_WRITE (R242). A write to GW.HOLD_BASE or GW.HOLD_SIZE takes effect only while the region is closed and the hold area empty. -/
  | holdConfigWrite (g : Fin 16) (a : BitVec 4) (v : W32)
  /-- HOLD_HWM_CLR (R241). A write of 1 to GW.CTRL.HWM_CLR sets GW.HOLD_HWM to the current USED. -/
  | holdHwmClr (g : Fin 16) (v : W32)
  /-- STALL_WINDOW_EXPIRY (R237). A stall-watch window expires with held work and no progress, forcing spills or aborting and raising a stall event. -/
  | stallWindowExpiry (g : Fin 16)
  /-- ABORT_REPLAY_RELEASE (R239). After one whole window of progress, aborted contexts are released for replay. -/
  | abortReplayRelease (g : Fin 16)
  /-- STW_WINDOW_WRITE (R240). A write to STW.WINDOW restarts the current window count with the new length. -/
  | stwWindowWrite (g : Fin 16) (v : W32)
  /-- RC_INT_OP (R273). A Runner integer instruction computes rd from ra and rb per the FU integer rules. -/
  | rcIntOp (n : Fin 273) (e : Ecc)
  /-- RC_FP_OP (R274). A Runner floating-point instruction computes rd per the FU floating-point rules. -/
  | rcFpOp (n : Fin 273) (e : Ecc)
  /-- ADDI (R277). Adds a sign-extended immediate. -/
  | addi (n : Fin 273) (e : Ecc)
  /-- ANDI (R277). ANDs a zero-extended immediate. -/
  | andi (n : Fin 273) (e : Ecc)
  /-- ORI (R277). ORs a zero-extended immediate. -/
  | ori (n : Fin 273) (e : Ecc)
  /-- XORI (R277). XORs a zero-extended immediate. -/
  | xori (n : Fin 273) (e : Ecc)
  /-- SLTI (R277). Sets rd if ra is below the immediate, signed. -/
  | slti (n : Fin 273) (e : Ecc)
  /-- SLTIU (R277). Sets rd if ra is below the immediate, unsigned. -/
  | sltiu (n : Fin 273) (e : Ecc)
  /-- SHLI (R277). Shifts left by an immediate. -/
  | shli (n : Fin 273) (e : Ecc)
  /-- SHRI (R277). Shifts right logically by an immediate. -/
  | shri (n : Fin 273) (e : Ecc)
  /-- SRAI (R277). Shifts right arithmetically by an immediate. -/
  | srai (n : Fin 273) (e : Ecc)
  /-- SHORI (R277). Shifts ra left 16 and ORs the immediate. -/
  | shori (n : Fin 273) (e : Ecc)
  /-- RC_LD (R279). Loads 8 bytes. -/
  | rcLd (n : Fin 273) (e x : Ecc)
  /-- LW (R279). Loads 4 bytes sign-extended. -/
  | lw (n : Fin 273) (e x : Ecc)
  /-- LWU (R279). Loads 4 bytes zero-extended. -/
  | lwu (n : Fin 273) (e x : Ecc)
  /-- LH (R279). Loads 2 bytes sign-extended. -/
  | lh (n : Fin 273) (e x : Ecc)
  /-- LHU (R279). Loads 2 bytes zero-extended. -/
  | lhu (n : Fin 273) (e x : Ecc)
  /-- LB (R279). Loads 1 byte sign-extended. -/
  | lb (n : Fin 273) (e x : Ecc)
  /-- LBU (R279). Loads 1 byte zero-extended. -/
  | lbu (n : Fin 273) (e x : Ecc)
  /-- SD (R279). Stores 8 bytes. -/
  | sd (n : Fin 273) (e : Ecc)
  /-- SW (R279). Stores 4 bytes. -/
  | sw (n : Fin 273) (e : Ecc)
  /-- SH (R279). Stores 2 bytes. -/
  | sh (n : Fin 273) (e x : Ecc)
  /-- SB (R279). Stores 1 byte. -/
  | sb (n : Fin 273) (e x : Ecc)
  /-- RC_AADD (R281). Runner atomic add at the bank. -/
  | rcAadd (n : Fin 273) (e x : Ecc)
  /-- RC_SWAP (R281). Runner atomic swap at the bank. -/
  | rcSwap (n : Fin 273) (e x : Ecc)
  /-- RC_LOCKREL (R280). Runner release of the lock on the word at ra. -/
  | rcLockrel (n : Fin 273) (e : Ecc)
  /-- EMIT (R288). Sends one token from rd through the node's FU send stage. -/
  | emit (n : Fin 273) (e : Ecc)
  /-- BZ (R283). Branches when ra is 0. -/
  | bz (n : Fin 273) (e : Ecc)
  /-- BNZ (R283). Branches when ra is nonzero. -/
  | bnz (n : Fin 273) (e : Ecc)
  /-- J (R283). Branches always. -/
  | j (n : Fin 273) (e : Ecc)
  /-- JR (R283). Jumps to the word index in ra. -/
  | jr (n : Fin 273) (e : Ecc)
  /-- RC_CALL (R284). Pushes a frame header and saved registers and jumps. -/
  | rcCall (n : Fin 273) (e : Ecc)
  /-- CALLR (R284). Calls the word index in ra with a mask. -/
  | callr (n : Fin 273) (e : Ecc)
  /-- RC_RET (R286). Checks and pops a frame and returns. -/
  | rcRet (n : Fin 273) (e x : Ecc)
  /-- MFS (R268). Copies a special register to rd. -/
  | mfs (n : Fin 273) (e : Ecc)
  /-- MTS (R268). Writes a writable special register. -/
  | mts (n : Fin 273) (e : Ecc)
  /-- FENCE (R282). Waits for every outstanding memory response. -/
  | fence (n : Fin 273) (e : Ecc)
  /-- WAITW (R292). Ends the code firing after all responses and takes the next item. -/
  | waitw (n : Fin 273) (e : Ecc)
  /-- MFC (R296). Steward reads a control register. -/
  | mfc (n : Fin 273) (e : Ecc)
  /-- MTC (R296). Steward writes a control register. -/
  | mtc (n : Fin 273) (e : Ecc)
  /-- MB_POP (R296). A write to MB_POP removes the head token of the Steward mailbox and returns its credit. -/
  | mbPop (n : Fin 273) (e : Ecc)
  /-- ERET (R297). Returns from a trap, restoring IE. -/
  | eret (n : Fin 273) (e : Ecc)
  /-- WFI (R297). Stops fetch until an interrupt condition holds. -/
  | wfi (n : Fin 273) (e : Ecc)
  /-- EVACK (R278). Clears the pending bit of an event source. -/
  | evack (n : Fin 273) (e : Ecc)
  /-- TSEND (R295). Steward sends a token from four registers, stalling for credit. -/
  | tsend (n : Fin 273) (e : Ecc)
  /-- STEWARD_INTERRUPT (R297). With IE 1 and an event or mailbox token pending the Steward takes an interrupt to VBASE+16. -/
  | stewardInterrupt
  /-- MAILBOX_RECEIVE (R296). A token addressed to the Steward enters its mailbox. -/
  | mailboxReceive
  /-- LOCKSTEP_MISMATCH (R299). The checker core disagrees; the output is discarded, a lockstep event raised and the pair restarts. -/
  | lockstepMismatch
  /-- RC_SRST_WRITE (R301). A write to RC.SRST holds the Runner core in reset, abandoning its firing. -/
  | rcSrstWrite (g : Fin 16) (t : Fin 17) (v : W32)
  /-- RC_CONFIG_WRITE (R301). A write to RC.CFG, STACK_TOP or STACK_LIMIT is held until the next hand-over. -/
  | rcConfigWrite (g : Fin 16) (t : Fin 17) (o : Fin 3) (v : W32)
  /-- SPM_PWR_WRITE (R311). A write to SPM.PWR starts bank power transitions. -/
  | spmPwrWrite (g : Fin 16) (t : Fin 17) (v : W32)
  /-- BANK_TRANSITION_DONE (R311). A bank enters its new power state after in-flight accesses, power-up or clear. -/
  | bankTransitionDone (g : Fin 16) (t : Fin 17) (b : Fin 4)
  /-- SPM_SCRUB (R312). Every 256 cycles the scrubber reads one row of each idle sub-bank and corrects errors. -/
  | spmScrub (g : Fin 16) (t : Fin 17) (b : Fin 4) (off : BitVec 18) (e : Ecc)
  /-- HBM_SCRUB (R315). The HBM controller scrubs its stack over HBM.SCRUB.HOURS. -/
  | hbmScrub (k : Fin 2) (off : Fin 0x600000000) (e : Ecc) (last : Bool)
  /-- SPARE_ROW_DONE (R315). A failing HBM row's copy to a spare completes and held requests proceed. -/
  | spareRowDone (k : Fin 2)
  /-- HBM_TRAINING_DONE (R317). HBM training after cold reset completes and READY sets. -/
  | hbmTrainingDone (k : Fin 2)
  /-- LOCK_ACQUIRE (R322). An acquire reaches its home lock unit and is granted or enters waiter storage. -/
  | lockAcquire (g : Fin 16)
  /-- LOCK_RELEASE (R324). A release reaches the lock unit and ends the lease or is refused. -/
  | lockRelease (g : Fin 16)
  /-- LEASE_EXPIRY (R323). A lease reaches LCK.LEASE and is released with EXPIRED and one event. -/
  | leaseExpiry (g : Fin 16) (a : BitVec 48)
  /-- LOCK_WAIT_TIMEOUT (R322). A waiter's timeout passes and it is answered with 0 and STATUS 4. -/
  | lockWaitTimeout (g : Fin 16) (n : BitVec 13)
  /-- LCK_FORCE (R325). A write to LCK.FORCE_HI releases the lease on the word. -/
  | lckForce (g : Fin 16) (v : W32)
  /-- OWNER_RESET (R326). An owner reset reaches a lock unit, releasing the context's leases and removing its waiters. -/
  | ownerReset (g : Fin 16)
  /-- LOCK_RECOVERY_END (R327). One lease period after a lock unit reset RECOVERING clears. -/
  | lockRecoveryEnd (g : Fin 16)
  /-- LCK_HWM_CLR (R328). A write of 1 to LCK.CTRL.HWM_CLR sets LCK.HWM to the current USED. -/
  | lckHwmClr (g : Fin 16) (v : W32)
  /-- DMA_HANDOVER (R339). An enabled idle channel with a valid shadow copies it to the active set, checks it and starts it. -/
  | dmaHandover (g : Fin 16) (c : Fin 32)
  /-- DMA_BURST_ISSUE (R335). The engine issues one burst of the highest-level ready channel. -/
  | dmaBurstIssue (g : Fin 16)
  /-- DMA_READ_RESPONSE (R336). A burst's read data arrives; the write is issued or the compare made. -/
  | dmaReadResponse (g : Fin 16)
  /-- DMA_WRITE_RESPONSE (R338). A burst's write response arrives and may complete the transfer. -/
  | dmaWriteResponse (g : Fin 16)
  /-- DMA_REQUEST_PULSE (R337). A request line pulse adds 1 to REQPEND, or is lost at 255. -/
  | dmaRequestPulse
  /-- DMA_CH_EN_WRITE (R338). A write to CH_CTRL.EN enables a channel or ends its transfer as ABORTED. -/
  | dmaChEnWrite (g : Fin 16) (c : Fin 32) (en : Bool)
  /-- ABORT (R338). A write of 1 to CH_CTRL.ABORT aborts the active transfer. -/
  | abort (g : Fin 16) (c : Fin 32)
  /-- SHADOW_VALID_WRITE (R339). A write to SHADOW_VALID offers or withdraws the shadow. -/
  | shadowValidWrite (g : Fin 16) (c : Fin 32) (v : Bool)
  /-- SHADOW_REGISTER_WRITE (R339). A shadow register write lands if no shadow is valid, else is ignored with SHADOW_IGN. -/
  | shadowRegisterWrite (g : Fin 16) (c : Fin 32) (o : Fin 16) (v : W32)
  /-- CH_SRST_WRITE (R341). A write to CH_CTRL.SRST stops the channel at once and resets its registers. -/
  | chSrstWrite (g : Fin 16) (c : Fin 32) (v : Bool)
  /-- DMA_SRST_WRITE (R341). A write to DMA.SRST resets every channel of the engine. -/
  | dmaSrstWrite (g : Fin 16) (v : Bool)
  /-- NOC_COMMIT (R357). A write of 1 to NOC.CTRL.COMMIT checks the shadow table and flips the fabric domain's route epoch. -/
  | nocCommit (k : Fin 5) (v : W32)
  /-- ISO_SET (R358). A write to NOC.ISO_SET isolates tiles and raises their events. -/
  | isoSet (k : Fin 4) (v : W32)
  /-- ISO_LIFT_WRITE (R360). A write of 1 to a NOC.ISO bit lifts the isolation at the next map commit. -/
  | isoLiftWrite (g : Fin 16) (v : W32)
  /-- BLK_ISO_SET (R358). A write to NOC.BLK_ISO_SET isolates hub blocks. -/
  | blkIsoSet (v : W32)
  /-- BLK_ISO_CLEAR (R365). A write of 1 to NOC.BLK_ISO lifts a hub block's isolation. -/
  | blkIsoClear (v : W32)
  /-- PARK_WRITE (R361). A write to NOC.PARK parks or releases regions at every gateway and hub entry. -/
  | parkWrite (v : W32)
  /-- HEARTBEAT (R531). An island's L4 heartbeat reaches the health block. -/
  | heartbeat (n : Fin 309)
  /-- HEARTBEAT_MISS (R531). After three missed heartbeats the island is isolated and its event raised. -/
  | heartbeatMiss (n : Fin 309)
  /-- SAMPLE_DELIVER (R371). A channel delivers a sample to its ring and, in sample mode, as a token. -/
  | sampleDeliver (n : Fin 64) (c : BitVec 32)
  /-- CHANNEL_BLOCK_COMPLETE (R372). A block's last ring write response returns; the request line pulses, a block token and epoch marks go out. -/
  | channelBlockComplete (n : Fin 64)
  /-- CHANNEL_CREDIT_RESUME (R374). Room returns to a channel's token queue; one SAMPLE_GAP is sent and tokens resume. -/
  | channelCreditResume (n : Fin 64)
  /-- SETTLING_END (R377). A channel's settling time ends and its first valid sample makes it valid. -/
  | settlingEnd (n : Fin 64)
  /-- CH_CFG_WRITE (R380). A write to AFE.CH_CFG changes the channel, taking it offline to settle or ignoring fields. -/
  | chCfgWrite (n : Fin 64) (v : W32)
  /-- BIAS_MEASURE (R378). Every 1 ms an IEPE channel measures and classes its bias. -/
  | biasMeasure (n : Fin 64) (mv : W16)
  /-- FAULT_CLASS_ADOPT (R378). A bias class held for FAULT_MS is adopted and event 400+n raised. -/
  | faultClassAdopt (n : Fin 64)
  /-- LIMIT_ACTIVATE (R379). COUNT+1 consecutive fast samples beyond a limit activate it and demand its trip lines. -/
  | limitActivate (n : Fin 64) (cs : List (BitVec 24))
  /-- LIMIT_DEACTIVATE (R379). COUNT+1 consecutive fast samples within limits deactivate it. -/
  | limitDeactivate (n : Fin 64) (cs : List (BitVec 24))
  /-- CAL_START (R392). A write of START to AFE.CAL takes a group offline and measures zero and references. -/
  | calStart (v : W32)
  /-- CAL_END (R392). At 75 ms the coefficients are written, inputs reconnected and BUSY clears. -/
  | calEnd (co : List (Option (W32 × BitVec 24)))
  /-- TACH_EDGE (R383). A qualifying tachometer edge is timestamped and, every DIV+1 edges, counted and sent. -/
  | tachEdge (t : Fin 8) (width : W16)
  /-- TACH_TOKEN_TIMER (R383). A count due within 1 µs of the last token is sent at the next slot with the latest timestamp. -/
  | tachTokenTimer (t : Fin 8)
  /-- TACH_TIMEOUT (R383). No edge for TIMEOUT ms sets STOPPED, raises event 464+t and sends TACH_STOPPED. -/
  | tachTimeout (t : Fin 8)
  /-- TRIP_REQUEST (R385). A TRIP request reaches the trip block and sets its copy latch, or is refused IO_UNBOUND. -/
  | tripRequest
  /-- TRIP_WATCHDOG (R385). A bound copy sends no request for TRIP.WD.MS and the line demands. -/
  | tripWatchdog (l : Fin 32) (b : Bool)
  /-- TRIP_RESET (R385). A write of 1 to TRIP.RESET releases a latched line when no other cause demands. -/
  | tripReset (v : W32)
  /-- TRIP_ARM_WRITE (R387). A write to TRIP.ARM arms lines or demands at once. -/
  | tripArmWrite (v : W32)
  /-- READBACK_MISMATCH (R386). A readback differing longer than RBWIN sets RBERR and raises event 472+L. -/
  | readbackMismatch (l : Fin 32) (level : Bool)
  /-- COPY_DISAGREE (R386). Copy latches disagreeing longer than 1 ms set DISAGREE and raise event 472+L. -/
  | copyDisagree (l : Fin 32)
  /-- BINDING_WRITE (R384). A write to a trip or analog binding resets copy latches or the next update's value. -/
  | bindingWrite (k : Fin 48) (regs : Bool) (v : W32)
  /-- AOUT_REQUEST (R388). An AWRITE request reaches its output and is stored for its copy or refused. -/
  | aoutRequest
  /-- AOUT_UPDATE (R389). At t_k the output takes its value from the active or other copy, or SAFE. -/
  | aoutUpdate (m : Fin 16)
  /-- RESTORE (R397). A write of 1 to AOUT.CTRL.RESTORE makes copy A active and clears LATCHED. -/
  | restore (m : Fin 16)
  /-- FRAME_CLASSIFY (R408). A received frame is classified to FCP, relay, PTP, call room, stream path, segment ring or host ring. -/
  | frameClassify (f : FrameFrom)
  /-- CR_DATA_READ (R409). A read of ING.CR_DATA returns 4 bytes of the head packet and removes it after its last word. -/
  | crDataRead
  /-- DROP_PKT (R409). A write of 1 to ING.CR_CTRL.DROP_PKT discards the rest of the head packet. -/
  | dropPkt (v : W32)
  /-- ROLLCALL (R407). Every SEG.ROLL.MS a ROLLCALL is sent on every segment and port. -/
  | rollcall
  /-- ANNOUNCE (R407). An ANNOUNCE from a node is answered with ADMIT within 50 ms. -/
  | announce (pol : Fin 3) (hb : W16) (ents : List (List W32))
  /-- NODE_HEARTBEAT_LOST (R407). No HEARTBEAT or DATA for 3×HB retires the node with RETIRE reason 2. -/
  | nodeHeartbeatLost (src : W64)
  /-- RETIRE (R407). A RETIRE from a node ends its streams and frees its PLCA ID. -/
  | retire
  /-- PLCA_COLLISION (R407). Two nodes in one PLCA ID set COLL, raise event 520+s and both are retired. -/
  | plcaCollision (s : Fin 8) (id : BitVec 6)
  /-- CR_TX_SEND (R420). A write of SEND to ING.TX_CTRL transmits the call-room frame written. -/
  | crTxSend (v : W32)
  /-- FT_WRITE (R411). A write of 1 to ING.FT_CTRL.WRITE stores the flow table entry whole or refuses it. -/
  | ftWrite
  /-- FT_READ (R420). A write of 1 to ING.FT_CTRL.READ loads the selected entry into FT_DATA. -/
  | ftRead
  /-- BIND_REQUEST (R413). A BIND request reaches stream ingest and binds the stream, replying with status. -/
  | bindRequest
  /-- STREAM_DATA (R414). A DATA packet of a bound stream is written, filled, gapped or discarded by its index. -/
  | streamData
  /-- STREAM_BLOCK_COMPLETE (R416). A stream block completes; the request line pulses and a block or frame token is sent. -/
  | streamBlockComplete (k : BitVec 16)
  /-- STREAM_CREDIT_RESUME (R416). Room returns to a stream's token queue; SAMPLE_GAP and tokens resume. -/
  | streamCreditResume (k : BitVec 16)
  /-- STREAM_GONE_TIMEOUT (R417). No DATA for ING.GONE.MS makes the stream go. -/
  | streamGoneTimeout (k : BitVec 16)
  /-- FLOW_ENTRY_RELEASE (R417). SEG.ROLL.MS×10 after retirement the call room releases the flow entry. -/
  | flowEntryRelease (fl : BitVec 20)
  /-- ETH_FRAME_RECEIVE (R422). A frame arrives at a subport and is checked, buffered or discarded. -/
  | ethFrameReceive (p : Fin 2) (sub : Fin 4) (bs : List Byte) (fcs : Bool)
  /-- PFC_FRAME (R423). A received PFC frame pauses or resumes a priority's transmission. -/
  | pfcFrame (p : Fin 2) (sub : Fin 4) (c : Fin 8) (pause : Bool)
  /-- XON (R423). A paused priority falling below 256 KiB sends XON once the buffer drains. -/
  | xon (p : Fin 2) (c : Fin 8)
  /-- ETH_MODE_WRITE (R421). A write to ETH.MODE changes the port mode and retrains it. -/
  | ethModeWrite (p : Fin 2) (v : W32)
  /-- SUBPORT_LINK_CHANGE (R444). A subport link comes up or drops and raises event 336+4p+s. -/
  | subportLinkChange (p : Fin 2) (sub : Fin 4) (up : Bool)
  /-- ETH_TX_GO (R425). A write of 1 to ETH.TX_CTRL.GO transmits the frame in HBM. -/
  | ethTxGo (p : Fin 2) (v : W32)
  /-- ETH_TX_DONE (R425). A host frame finishes transmission; BUSY clears and TX_TS is captured. -/
  | ethTxDone (p : Fin 2)
  /-- PTP_STEP (R428). A write of PTP.STEP_HI adds the signed step to device time and sets STEPPED. -/
  | ptpStep (v : W32)
  /-- PPS_OUT_EDGE (R430). At each whole second PPS_OUT rises for the set width. -/
  | ppsOutEdge
  /-- PPS_IN_EDGE (R430). A rising PPS_IN edge is timestamped into PTP.PPS_IN. -/
  | ppsInEdge
  /-- PPS_IN_LOST (R430). No PPS_IN edge for 1.5 s sets PPS_IN_LOST and raises the event. -/
  | ppsInLost
  /-- SYNCE_LOST (R431). The SyncE lane loses lock; holdover starts and the event is raised. -/
  | synceLost
  /-- SYNCE_RELOCK (R431). A valid lane clock returns and the PLL relocks within 10 ms. -/
  | synceRelock
  /-- RELAY_TOKEN_ENQUEUE (R440). A token reaches the relay block and is delivered locally, refused NOROUTE or queued to its peer. -/
  | relayTokenEnqueue
  /-- RELAY_FRAME_CLOSE (R435). A relay DATA frame is closed when full or COAL_NS after its first record and transmitted. -/
  | relayFrameClose (p : BitVec 8)
  /-- SYNC_TIMER (R436). An enabled peer whose session is not up sends a SYNC every 1 ms. -/
  | syncTimer (p : BitVec 8)
  /-- SYNC (R436). A received SYNC is accepted, refused DUPDEV or restarts the session. -/
  | sync
  /-- RELAY_DATA (R438). A received DATA frame is accepted in SEQ order or discarded with one NAK. -/
  | relayData
  /-- RELAY_RECORD_DELIVER (R439). A received token record leaves the receive ring to the hub fabric or a forwarding queue. -/
  | relayRecordDeliver (p : BitVec 8)
  /-- ACK (R438). A received ACK frees acknowledged frames, or is ignored with BADACK. -/
  | ack
  /-- NAK (R438). A received NAK makes the sender resend from the oldest unacknowledged frame. -/
  | nak
  /-- RELAY_ACK_TIMER (R438). ACK_NS without an outgoing frame, or 16 accepted frames, sends an ACK frame. -/
  | relayAckTimer (p : BitVec 8)
  /-- RELAY_RTO (R438). The oldest frame waits RTO without acknowledgement and the sender goes back. -/
  | relayRto (p : BitVec 8)
  /-- RELAY_HOLD_EXPIRY (R443). A suspended session whose link does not return within RLY.HOLD.MS goes down. -/
  | relayHoldExpiry (p : BitVec 8)
  /-- RLY_ROUTE_WRITE (R440). A write to RLY.ROUTE changes a DEV's peer, holding its tokens until the old peer drains. -/
  | rlyRouteWrite (v : W32)
  /-- FCP_PACKET_RECEIVE (R456). An FCP packet is tested, reassembled and accepted, repeated or discarded. -/
  | fcpPacketReceive
  /-- FCP_REASSEMBLY_TIMEOUT (R450). A partial request is discarded 100 ms after its first fragment. -/
  | fcpReassemblyTimeout (n : Nat)
  /-- FCP_PENDING_TIMER (R457). A command not complete 10 ms after acceptance gets a PENDING reply. -/
  | fcpPendingTimer (k : Fin 65)
  /-- FCP_COMMAND_COMPLETE (R457). A long command completes, its final reply is sent and the session event raised. -/
  | fcpCommandComplete (k : Fin 65) (ok : Bool)
  /-- SESSION_HALF_OPEN_TIMEOUT (R455). No SESSION_AUTH within 10 s frees the half-open session. -/
  | sessionHalfOpenTimeout (k : Fin 65)
  /-- SESSION_IDLE_TIMEOUT (R455). No accepted request for CMD.IDLE.S closes the session. -/
  | sessionIdleTimeout (k : Fin 65)
  /-- PING (R461). Returns its parameter bytes. -/
  | ping (k : Fin 65)
  /-- GET_INFO (R461). Returns device identity, firmware, mode and certificate. -/
  | getInfo (k : Fin 65)
  /-- SESSION_OPEN (R452). Takes a session number, encapsulates a shared secret and replies signed. -/
  | sessionOpen (k : Fin 65)
  /-- SESSION_AUTH (R452). Verifies the host signature and opens the session with its roles. -/
  | sessionAuth (k : Fin 65)
  /-- SESSION_CLOSE (R461). Closes the session after the reply. -/
  | sessionClose (k : Fin 65)
  /-- REG_READ (R461). Reads up to 256 registers in order on L4. -/
  | regRead (k : Fin 65) (e : Ecc)
  /-- REG_WRITE (R461). Writes up to 256 registers in order on L4. -/
  | regWrite (k : Fin 65) (e : Ecc)
  /-- IMAGE_WRITE (R461). Writes data into the session's staging area. -/
  | imageWrite (k : Fin 65)
  /-- GRAPH_LOAD (R137). Checks a staged image and loads it into the mapped regions. -/
  | graphLoad (k : Fin 65)
  /-- GRAPH_START (R463). Starts a loaded or stopped graph, optionally with a start token. -/
  | graphStart (k : Fin 65)
  /-- GRAPH_STOP (R463). Stops a graph at an epoch or halts it by sweeping its contexts. -/
  | graphStop (k : Fin 65)
  /-- GRAPH_SWAP (R464). Arms a swap of a hurdle's target at epoch ES. -/
  | graphSwap (k : Fin 65)
  /-- SWAP_REDIRECT (R464). When the hurdle releases ES and stops, it enters redirect and NEW becomes running. -/
  | swapRedirect (g : Fin 16) (slot : BitVec 8)
  /-- GRAPH_UNLOAD (R463). Ends bindings, frees hurdles and clears nodes, or leaves an anchor. -/
  | graphUnload (k : Fin 65)
  /-- GRAPH_QUERY (R462). Returns a graph's state, swap state and regions. -/
  | graphQuery (k : Fin 65)
  /-- TOKEN_INJECT (R465). Sends up to 256 token records in order through the command interpreter. -/
  | tokenInject (k : Fin 65)
  /-- STREAM_BIND (R467). Binds a stream to a graph and context as BIND does. -/
  | streamBind (k : Fin 65)
  /-- STREAM_UNBIND (R467). Ends a stream binding silently or as a going. -/
  | streamUnbind (k : Fin 65)
  /-- QUIESCE (R467). Enters a discard rule into the classifier's quiesce table. -/
  | quiesce (k : Fin 65)
  /-- RESUME (R467). Removes a quiesce rule. -/
  | resume (k : Fin 65)
  /-- FW_STAGE (R518). Checks a staged firmware image, writes it to the inactive flash slot and the HBM copy. -/
  | fwStage (k : Fin 65)
  /-- FW_COMMIT (R519). Writes a trial commit record for the staged slot, optionally restarting the Steward. -/
  | fwCommit (k : Fin 65)
  /-- RESET (R461). Performs a cold, warm, block or Steward reset of the named kind. -/
  | reset (k : Fin 65)
  /-- ATTEST (R515). Returns the measurement log signed with the identity key. -/
  | attest (k : Fin 65)
  /-- POWER (R487). Switches or queries a power domain. -/
  | power (k : Fin 65)
  /-- REPAIR (R521). Closes a region, remaps a cluster to a tile, rewrites its nodes and reopens it. -/
  | repair (k : Fin 65)
  /-- HEALTH_QUERY (R545). Returns device, region or graph health fields. -/
  | healthQuery (k : Fin 65)
  /-- WARMUP_ANNOUNCE (R514). In warm-up mode a GET_INFO announcement is broadcast every BOOT.WU_ANN.S. -/
  | warmupAnnounce
  /-- POWER_ON (R471). A monitored rail enters its window and a cold reset with cause 1 occurs. -/
  | powerOn
  /-- RST_N_ASSERT (R471). RST_N held low for 1 µs or more causes a cold reset. -/
  | rstNAssert
  /-- BROWN_OUT (R471). A monitored rail below its threshold for 2 µs causes a cold reset. -/
  | brownOut (rail : Fin 13)
  /-- THERMAL_TRIP (R474). A die above the trip temperature for 10 µs asserts a held cold reset. -/
  | thermalTrip (die : Fin 6)
  /-- THERMAL_TRIP_CLEAR (R474). Every sensor 10 °C below the maximum releases the thermal reset. -/
  | thermalTripClear
  /-- THERMAL_WARN (R474). A sensor above RST.THERM.WARN raises event 641 once. -/
  | thermalWarn (die : Fin 6) (t : W16)
  /-- JTAG_RESET (R471). A JTAG reset instruction causes a cold or warm reset while debug is unlocked. -/
  | jtagReset (cold : Bool)
  /-- WDOG_KICK (R475). A write of 0x4B1C to RST.WDOG_KICK restarts the watchdog period. -/
  | wdogKick (v : W32)
  /-- WDOG_HALF_EXPIRY (R475). MS/2 ms without a kick raise event 644. -/
  | wdogHalfExpiry
  /-- WDOG_EXPIRY (R475). MS ms without a kick assert a warm reset. -/
  | wdogExpiry
  /-- SWRST_WARM (R471). RST.SWRST KIND 1 with the key asserts a warm reset after 1 µs. -/
  | swrstWarm (v : W32)
  /-- SWRST_COLD (R471). RST.SWRST KIND 2 with the key asserts a cold reset after 1 µs. -/
  | swrstCold (v : W32)
  /-- SWRST_STEWARD (R471). RST.SWRST KIND 3 with the key restarts the Steward after 1 µs. -/
  | swrstSteward (v : W32)
  /-- HUB_SRST_WRITE (R472). A write to RST.HUB_SRST holds or releases hub blocks in reset. -/
  | hubSrstWrite (v : W32)
  /-- RGN_SRST_WRITE (R473). A write to RST.RGN_SRST resets a closed region, or is refused while open. -/
  | rgnSrstWrite (v : W32)
  /-- REFERENCE_QUALIFIED (R483). A reference within tolerance for 1 ms is qualified and its PLL starts to lock. -/
  | referenceQualified (eth : Bool)
  /-- FUSE_LOAD_DONE (R479). The fuse and trim load ends; a good CRC sets FUSE_VALID, a bad one restarts, three set FUSE_BAD. -/
  | fuseLoadDone (ok : Bool)
  /-- ISLAND_RELEASE (R477). An island with a valid clock leaves reset on its own clock edge. -/
  | islandRelease (i : Fin 307) (straps : BitVec 4)
  /-- CLOCK_VALID_TIMEOUT (R478). An island's clock not valid within RST.CVTO.MS keeps it in reset and raises event 640. -/
  | clockValidTimeout (i : Fin 307)
  /-- STEWARD_RESTART (R485). The Steward pair and command interpreter are held in reset 10 µs and released. -/
  | stewardRestart
  /-- PWR_DOM_WRITE (R487). A write to PWR.DOM_k.ON requests a domain on or off, or is refused. -/
  | pwrDomWrite (k : Fin 48) (v : W32)
  /-- DOMAIN_SWITCH_DONE (R488). A domain finishes turning on or off and its effects apply. -/
  | domainSwitchDone (k : Fin 48)
  /-- PWR_OPEN_WRITE (R489). A write to PWR.OPEN requests regions open or starts their close. -/
  | pwrOpenWrite (v : W32)
  /-- REGION_OPEN (R489). Once its domains are on and rebuilds done a requested region opens. -/
  | regionOpen (g : Fin 16)
  /-- REGION_CLOSE_DONE (R490). Partitions, L1 requests and DMA drain; OPEN and CLOSING clear and event 592+2g is raised. -/
  | regionCloseDone (g : Fin 16)
  /-- DRAIN_TIMEOUT (R490). A close not done within PWR.DRAIN sets CLOSE_SLOW and raises event 592+2g. -/
  | drainTimeout (g : Fin 16)
  /-- VBAK_LOW (R492). VBAK below 2.5 V sets VBAK_LOW and raises event 642 once. -/
  | vbakLow
  /-- VBAK_LOST (R492). VBAK below 2.2 V clears the backup domain and sets LOST. -/
  | vbakLost
  /-- RTC_SECOND (R492). The real-time clock counts one second. -/
  | rtcSecond
  /-- BOOT_ROM_ENTRY (R505). The Steward fetches PC 0; the ROM decides its source, verifies an image and hands over or enters warm-up. -/
  | bootRomEntry
  /-- BOOT_LOCK (R507). A write of 1 to BOOT.CTRL.BOOT_LOCK ends boot code and sets SEC.LOCK.LOCKED. -/
  | bootLock (v : W32)
  /-- BOOT_OK (R512). A write of 1 while the boot window runs stops it and clears the false-start counter. -/
  | bootOk (v : W32)
  /-- BOOT_WINDOW_EXPIRY (R512). The boot window expires without BOOT_OK and a cold reset with cause 13 follows. -/
  | bootWindowExpiry
  /-- FLASH_READ (R524). BOOT.FL_CTRL OP 0 with GO reads flash into a buffer. -/
  | flashRead (v : W32)
  /-- FLASH_PROGRAM (R518). BOOT.FL_CTRL OP 1 with GO programs flash, refused for the active slot. -/
  | flashProgram (v : W32)
  /-- FLASH_ERASE (R518). BOOT.FL_CTRL OP 2 with GO erases sectors, refused for the active slot. -/
  | flashErase (v : W32)
  /-- FLASH_COMPARE (R524). BOOT.FL_CTRL OP 3 with GO compares flash with a buffer. -/
  | flashCompare (v : W32)
  /-- FLASH_OP_DONE (R524). A flash operation completes and BUSY clears. -/
  | flashOpDone (ok : Bool)
  /-- KEY_WRITE (R510). A write of 1 to SEC.KEY_CTRL.WRITE stores a key slot, refused for host slots while locked. -/
  | keyWrite (v : W32)
  /-- KEY_CLEAR (R525). A write of 1 to SEC.KEY_CTRL.CLEAR empties the slot. -/
  | keyClear (v : W32)
  /-- SECVER_BURN (R525). A write to SEC.SECVER_BURN raises MIN by fuse, within its limits. -/
  | secverBurn (v : W32)
  /-- MEAS_APPEND (R515). A write to SEC.MEAS_CTRL appends a measurement log entry, or sets LOGFULL. -/
  | measAppend (v : W32)
  /-- EVENT_RAISE (R527). An event source is raised, counting and recording its cause and routing it by EN and ROUTE. -/
  | eventRaise (src : BitVec 10) (cause : BitVec 27)
  /-- EVENT_TOKEN_SEND (R529). A queued event token leaves once credit is available and its pending bit clears. -/
  | eventTokenSend
  /-- JOURNAL_WRITE_RESPONSE (R533). A journal record's write response returns and the sender sends the journalled token. -/
  | journalWriteResponse (n : Nat)
  /-- CONTEXT_LIFE_CHECK (R534). Every 1 ms each pool faults group members older than LIFE with CTX_EXPIRED. -/
  | contextLifeCheck (g : Fin 16)
  /-- REPLAY_START (R536). Once the root's region is open and its graph running the group is re-injected with REPLAY. -/
  | replayStart (e : Ecc)
  /-- COMMIT_REQUEST (R537). A COMMIT value reaches the output commit block and is held as pending. -/
  | commitRequest
  /-- OUTPUT_RELEASE (R538). A root's CTXFREE with FAULT clear writes its pending outputs, the COMMITTED record and advances HEAD. -/
  | outputRelease (root : BitVec 22)
  /-- HLT_ACK (R544). A write of 1 to HLT.CTRL.ACK returns STATE to 0 when no cause holds. -/
  | hltAck (v : W32)
  /-- BLOCK_OPERATION_END (R176). A running Stride block operation reaches the end of its cost and sends its result, and the next queued item starts 2 cycles later. -/
  | blockOperationEnd (g : Fin 16) (t : Fin 17)
  /-- FUSE_LOAD_START (R484). The fuse and trim load starts once the system PLL locks after a cold reset, or once the 10 µs assertion of a warm reset ends. -/
  | fuseLoadStart
  /-- FCP_RESET_ACT (R461). 1 ms after the reply a commanded cold, warm or Steward reset acts, and 1 µs after it is set a block reset bit set by FCP RESET is released. -/
  | fcpResetAct (n : Nat)
  /-- VIEPE_LOW (R380). VIEPE falls below 26 V or returns above it, and AFE.STATUS.VIEPE_LOW changes. -/
  | viepeLow (mv : W16)
  /-- VBAK_RETURN (R492). VBAK rises back to 2.5 V or more and VBAK_LOW clears. -/
  | vbakReturn
  /-- THERMAL_WARN_REARM (R474). A sensor falls 5 °C below RST.THERM.WARN and the warning event is armed again. -/
  | thermalWarnRearm (die : Fin 6) (t : W16)
  /-- HBM_REFRESH_RATE (R571). HBM.TEMP crosses 85 °C and the HBM controllers switch into or out of refresh at twice the normal rate. -/
  | hbmRefreshRate (k : Fin 2) (t : W16)
  /-- REF_OK (R487). Within 10 ms of PD43 turning on, the measurement reference settles and AFE.STATUS.REF_OK becomes 1. -/
  | refOk
  /-- ALIGN (R381). The sampling of the measurement die comes within 100 ns of device time, or leaves that bound, and AFE.STATUS.ALIGN changes. -/
  | align (b : Bool)
  deriving DecidableEq, Repr

end Sys2Proof
end

