-- ==== Sys2Proof/Decode.lean ====
section
/-!
DEFINITION. The words of the opcode table. The table gives no bits to any of its rows: commands come as constructors of `Instr`, and no word spells one.
-/
namespace Sys2Proof

/-- The command that a word spells by the table's bits: none. (DESIGN CHOICE, log 1.) -/
def decodeTableWord (_nbits _w : Nat) : Option Instr := none

end Sys2Proof
end

