-- ==== Sys2Proof/Machine/Float.lean ====
section
/-!
DEFINITION. IEEE 754 arithmetic on binary16, binary32 and binary64 as 04_arithmetic.md gives it (R150 to R164): exact
values over Nat and Int, one rounding, flags, NaN rules.
-/
namespace Sys2Proof.Machine

/-- A format: exponent bits and fraction bits (R150). -/
structure Fmt where
  e : Nat
  m : Nat
  deriving DecidableEq, Repr

def f16 : Fmt := ⟨5, 10⟩
def f32 : Fmt := ⟨8, 23⟩
def f64 : Fmt := ⟨11, 52⟩

/-- A result: bits, flags NV DZ OF UF NX (bits 4 to 0, R142), and whether the subnormal penalty applies (R164). -/
structure FRes where
  bits : Nat := 0
  fl   : BitVec 5 := 0
  sub  : Bool := false
  deriving DecidableEq, Repr

def flNV : BitVec 5 := 16
def flDZ : BitVec 5 := 8
def flOF : BitVec 5 := 4
def flUF : BitVec 5 := 2
def flNX : BitVec 5 := 1

def Fmt.bias (f : Fmt) : Int := 2 ^ (f.e - 1) - 1
/-- Exponent of the smallest normal value. -/
def Fmt.emin (f : Fmt) : Int := 1 - f.bias
def Fmt.maxExp (f : Fmt) : Nat := 2 ^ f.e - 1
def Fmt.width (f : Fmt) : Nat := 1 + f.e + f.m
def fSign (f : Fmt) (x : Nat) : Bool := x / 2 ^ (f.e + f.m) % 2 == 1
def fExp (f : Fmt) (x : Nat) : Nat := x / 2 ^ f.m % 2 ^ f.e
def fFrac (f : Fmt) (x : Nat) : Nat := x % 2 ^ f.m
def isNan (f : Fmt) (x : Nat) : Bool := fExp f x == f.maxExp && fFrac f x != 0
def isSnan (f : Fmt) (x : Nat) : Bool := isNan f x && fFrac f x < 2 ^ (f.m - 1)
def isInf (f : Fmt) (x : Nat) : Bool := fExp f x == f.maxExp && fFrac f x == 0
def isZero (f : Fmt) (x : Nat) : Bool := fExp f x == 0 && fFrac f x == 0
def isSub (f : Fmt) (x : Nat) : Bool := fExp f x == 0 && fFrac f x != 0

def fPack (f : Fmt) (s : Bool) (e fr : Nat) : Nat := (if s then 2 ^ (f.e + f.m) else 0) + e * 2 ^ f.m + fr
def fInf (f : Fmt) (s : Bool) : Nat := fPack f s f.maxExp 0
def fZero (f : Fmt) (s : Bool) : Nat := fPack f s 0 0
def fMaxFinite (f : Fmt) (s : Bool) : Nat := fPack f s (f.maxExp - 1) (2 ^ f.m - 1)
/-- The default and canonical quiet NaN (R150). -/
def fQnan (f : Fmt) : Nat := fPack f false f.maxExp (2 ^ (f.m - 1))
/-- A NaN with its quiet bit set (R155). -/
def fQuiet (f : Fmt) (x : Nat) : Nat := if fFrac f x < 2 ^ (f.m - 1) then x + 2 ^ (f.m - 1) else x

/-- Significand of a finite value: the value is significand × 2^(fScale). -/
def fMant (f : Fmt) (x : Nat) : Nat := if fExp f x = 0 then fFrac f x else 2 ^ f.m + fFrac f x
def fScale (f : Fmt) (x : Nat) : Int := (if fExp f x = 0 then (1 : Int) else (fExp f x : Int)) - f.bias - f.m

/-- Bits of a nonzero number. -/
def bitLen (n : Nat) : Nat := if n = 0 then 0 else Nat.log2 n + 1

/-- Whether a magnitude cut at a unit is rounded up (R151): `twice` compares twice the cut part with the unit (0 below, 1 equal,
2 above); rounding modes 0 RNE, 1 RTZ, 2 RUP, 3 RDN, 4 RMM. -/
def roundUp (rm : Nat) (neg odd : Bool) (twice : Nat) (inexact : Bool) : Bool :=
  match rm with
  | 0 => twice == 2 || (twice == 1 && odd)
  | 1 => false
  | 2 => inexact && !neg
  | 3 => inexact && neg
  | _ => twice != 0

/-- Cut `k` low bits of a magnitude, with `st` a nonzero part below it: the rounded quotient and whether it is inexact. -/
def cutRound (rm : Nat) (neg : Bool) (n k : Nat) (st : Bool) : Nat × Bool :=
  let q := n / 2 ^ k
  let r := n % 2 ^ k
  let inexact := r != 0 || st
  let twice := if 2 * r < 2 ^ k then (0 : Nat) else if 2 * r = 2 ^ k then (if st then 2 else 1) else 2
  let twice := if k = 0 then 0 else twice
  (if roundUp rm neg (q % 2 == 1) twice inexact then q + 1 else q, inexact)

/-- Round (−1)^s × (n, plus something below it when `st`) × 2^x to a format (R151, R153, R154). `n` is nonzero, and when `st` is set it has
at least two bits more than the format's precision. -/
def fRound (f : Fmt) (rm : Nat) (s : Bool) (n : Nat) (x : Int) (st : Bool) : FRes :=
  let len := bitLen n
  let lead : Int := x + len - 1
  let unit : Int := if lead < f.emin then f.emin - f.m else lead - f.m
  let sh : Int := unit - x
  let (q, inexact) := if sh ≤ 0 then (n * 2 ^ (-sh).toNat, st) else cutRound rm s n sh.toNat st
  let (q, unit) := if q = 2 ^ (f.m + 1) then (2 ^ f.m, unit + 1) else (q, unit)
  let ef : Int := if q < 2 ^ f.m then 0 else unit + f.bias + f.m
  let tinyExact := decide (lead < f.emin)
  -- the result rounded with unbounded exponent is below the smallest normal (R153)
  let tinyRounded := tinyExact &&
    (decide (lead + 1 < f.emin) ||
     (let sh' : Int := lead - f.m - x
      let q' := if sh' ≤ 0 then n * 2 ^ (-sh').toNat else (cutRound rm s n sh'.toNat st).1
      q' != 2 ^ (f.m + 1)))
  if (f.maxExp : Int) ≤ ef then
    let inf := match rm with | 0 => true | 4 => true | 2 => !s | 3 => s | _ => false
    { bits := if inf then fInf f s else fMaxFinite f s, fl := flOF ||| flNX }
  else
    { bits := fPack f s ef.toNat (q % 2 ^ f.m)
      fl := (if inexact then flNX else 0) ||| (if inexact && tinyRounded then flUF else 0), sub := tinyExact }

/-- The NaN an operation returns because of NaN operands (R155, R156), in port order. -/
def fNan (f : Fmt) (ncan : Bool) (xs : List Nat) : FRes :=
  let nv := if xs.any (isSnan f) then flNV else 0
  match xs.find? (isNan f) with
  | some x => { bits := if ncan then fQnan f else fQuiet f x, fl := nv }
  | none => { bits := fQnan f, fl := flNV }

/-- Sum of two signed magnitudes with a common scale, rounded; an exact zero gets the sign of R152. -/
def fSum (f : Fmt) (rm : Nat) (sa : Bool) (a : Nat) (sb : Bool) (b : Nat) (x : Int) : FRes :=
  let v : Int := (if sa then -(a : Int) else a) + (if sb then -(b : Int) else b)
  if v = 0 then { bits := fZero f (if sa == sb then sa else rm == 3) }
  else fRound f rm (decide (v < 0)) v.natAbs x false

def fAdd (f : Fmt) (rm : Nat) (ncan : Bool) (a b : Nat) : FRes :=
  if isNan f a || isNan f b then fNan f ncan [a, b]
  else if isInf f a && isInf f b && fSign f a != fSign f b then { bits := fQnan f, fl := flNV }
  else if isInf f a then { bits := a }
  else if isInf f b then { bits := b }
  else
    let x := min (fScale f a) (fScale f b)
    fSum f rm (fSign f a) (fMant f a * 2 ^ (fScale f a - x).toNat) (fSign f b) (fMant f b * 2 ^ (fScale f b - x).toNat) x

/-- The operand with its sign flipped. -/
def fNeg (f : Fmt) (a : Nat) : Nat := fPack f (!fSign f a) (fExp f a) (fFrac f a)
def fAbs (f : Fmt) (a : Nat) : Nat := fPack f false (fExp f a) (fFrac f a)

/-- Subtraction; a NaN operand is returned with its own sign. -/
def fSub (f : Fmt) (rm : Nat) (ncan : Bool) (a b : Nat) : FRes :=
  if isNan f a || isNan f b then fNan f ncan [a, b] else fAdd f rm ncan a (fNeg f b)

def fMul (f : Fmt) (rm : Nat) (ncan : Bool) (a b : Nat) : FRes :=
  let s := fSign f a != fSign f b
  if isNan f a || isNan f b then fNan f ncan [a, b]
  else if (isInf f a && isZero f b) || (isZero f a && isInf f b) then { bits := fQnan f, fl := flNV }
  else if isInf f a || isInf f b then { bits := fInf f s }
  else if isZero f a || isZero f b then { bits := fZero f s }
  else fRound f rm s (fMant f a * fMant f b) (fScale f a + fScale f b) false

def fDiv (f : Fmt) (rm : Nat) (ncan : Bool) (a b : Nat) : FRes :=
  let s := fSign f a != fSign f b
  if isNan f a || isNan f b then fNan f ncan [a, b]
  else if (isInf f a && isInf f b) || (isZero f a && isZero f b) then { bits := fQnan f, fl := flNV }
  else if isInf f a then { bits := fInf f s }
  else if isInf f b then { bits := fZero f s }
  else if isZero f b then { bits := fInf f s, fl := flDZ }
  else if isZero f a then { bits := fZero f s }
  else
    let k := 2 * f.m + 6
    let n := fMant f a * 2 ^ k
    fRound f rm s (n / fMant f b) (fScale f a - fScale f b - k) (n % fMant f b != 0)

/-- Integer square root by bits: `i` bits left, root so far `r`. -/
def isqrtGo (n : Nat) : Nat → Nat → Nat
  | 0, r => r
  | i + 1, r => let c := r + 2 ^ i; if c * c ≤ n then isqrtGo n i c else isqrtGo n i r

def isqrt (n : Nat) : Nat := isqrtGo n (bitLen n / 2 + 1) 0

def fSqrt (f : Fmt) (rm : Nat) (ncan : Bool) (a : Nat) : FRes :=
  if isNan f a then fNan f ncan [a]
  else if isZero f a then { bits := a }
  else if fSign f a then { bits := fQnan f, fl := flNV }
  else if isInf f a then { bits := a }
  else
    let x0 := fScale f a
    -- an even scale far enough down that the root has spare bits
    let k : Nat := 2 * f.m + 8 + ((x0 - ((2 * f.m + 8 : Nat) : Int)) % 2).toNat
    let n := fMant f a * 2 ^ k
    let r := isqrt n
    fRound f rm false r ((x0 - k) / 2) (r * r != n)

def fFma (f : Fmt) (rm : Nat) (ncan : Bool) (a b c : Nat) : FRes :=
  let s := fSign f a != fSign f b
  let bad := (isInf f a && isZero f b) || (isZero f a && isInf f b)
  if isNan f a || isNan f b || isNan f c then
    let r := fNan f ncan [a, b, c]
    { r with fl := if bad then r.fl ||| flNV else r.fl }
  else if bad then { bits := fQnan f, fl := flNV }
  else if isInf f a || isInf f b then
    (if isInf f c && fSign f c != s then { bits := fQnan f, fl := flNV } else { bits := fInf f s })
  else if isInf f c then { bits := c }
  else
    let xp := fScale f a + fScale f b
    let x := min xp (fScale f c)
    fSum f rm s (fMant f a * fMant f b * 2 ^ (xp - x).toNat) (fSign f c) (fMant f c * 2 ^ (fScale f c - x).toNat) x

/-- Order of two finite or infinite values: 0 less, 1 equal, 2 greater; −0 equals +0. -/
def fCmp (f : Fmt) (a b : Nat) : Nat :=
  let mag := fun (x : Nat) => x % 2 ^ (f.e + f.m)
  if isZero f a && isZero f b then 1
  else
    let v := fun (x : Nat) => if fSign f x then -(mag x : Int) else (mag x : Int)
    if v a < v b then 0 else if v a = v b then 1 else 2

/-- FMIN and FMAX (R159). -/
def fMinMax (f : Fmt) (ncan wantMax : Bool) (a b : Nat) : FRes :=
  let nv := if isSnan f a || isSnan f b then flNV else 0
  if isNan f a && isNan f b then fNan f ncan [a, b]
  else if isNan f a then { bits := b, fl := nv }
  else if isNan f b then { bits := a, fl := nv }
  else
    let less := if isZero f a && isZero f b then fSign f a && !fSign f b else fCmp f a b == 0
    let more := if isZero f a && isZero f b then !fSign f a && fSign f b else fCmp f a b == 2
    { bits := if wantMax then (if less then b else a) else (if more then b else a) }

def fEq (f : Fmt) (a b : Nat) : FRes :=
  if isNan f a || isNan f b then { fl := if isSnan f a || isSnan f b then flNV else 0 } else { bits := if fCmp f a b = 1 then 1 else 0 }
def fLt (f : Fmt) (a b : Nat) : FRes :=
  if isNan f a || isNan f b then { fl := flNV } else { bits := if fCmp f a b = 0 then 1 else 0 }
def fLe (f : Fmt) (a b : Nat) : FRes :=
  if isNan f a || isNan f b then { fl := flNV } else { bits := if fCmp f a b ≤ 1 then 1 else 0 }
def fUnord (f : Fmt) (a b : Nat) : FRes :=
  { bits := if isNan f a || isNan f b then 1 else 0, fl := if isSnan f a || isSnan f b then flNV else 0 }

/-- FCVT (R158, R159). -/
def fCvt (a b : Fmt) (rm : Nat) (ncan : Bool) (x : Nat) : FRes :=
  if isNan a x then
    let nv := if isSnan a x then flNV else 0
    if ncan then { bits := fQnan b, fl := nv }
    else
      let fr := fFrac a x
      let kept := if a.m ≤ b.m then fr * 2 ^ (b.m - a.m) else fr / 2 ^ (a.m - b.m)
      let kept := if kept < 2 ^ (b.m - 1) then kept + 2 ^ (b.m - 1) else kept
      { bits := fPack b (fSign a x) b.maxExp kept, fl := nv }
  else if isInf a x then { bits := fInf b (fSign a x) }
  else if isZero a x then { bits := fZero b (fSign a x) }
  else fRound b rm (fSign a x) (fMant a x) (fScale a x) false

/-- A finite value rounded to an integer (R151): magnitude and whether it changed. -/
def fToNat (f : Fmt) (rm : Nat) (x : Nat) : Nat × Bool :=
  let sc := fScale f x
  if 0 ≤ sc then (fMant f x * 2 ^ sc.toNat, false) else cutRound rm (fSign f x) (fMant f x) (-sc).toNat false

/-- FROUND (R159). -/
def fRoundInt (f : Fmt) (rm : Nat) (ncan : Bool) (x : Nat) : FRes :=
  if isNan f x then fNan f ncan [x]
  else if isInf f x || isZero f x then { bits := x }
  else
    let (n, inexact) := fToNat f rm x
    let fl := if inexact then flNX else 0
    if n = 0 then { bits := fZero f (fSign f x), fl := fl }
    else { bits := (fRound f 1 (fSign f x) n 0 false).bits, fl := fl }

/-- The range of an integer type (R160): lowest, highest value. -/
def intRange (ty : Nat) : Int × Int :=
  match ty with
  | 0 => (-(2 ^ 63), 2 ^ 63 - 1)
  | 1 => (0, 2 ^ 64 - 1)
  | 2 => (-(2 ^ 31), 2 ^ 31 - 1)
  | _ => (0, 2 ^ 32 - 1)

/-- FTOI (R159, R160): the 64-bit payload. -/
def fToInt (f : Fmt) (rm ty : Nat) (x : Nat) : FRes :=
  let (lo, hi) := intRange ty
  let out := fun (v : Int) => (v % 2 ^ 64).toNat
  if isNan f x then { bits := out hi, fl := flNV }
  else if isInf f x then { bits := out (if fSign f x then lo else hi), fl := flNV }
  else
    let (n, inexact) := fToNat f rm x
    let v : Int := if fSign f x then -(n : Int) else n
    if v < lo then { bits := out lo, fl := flNV }
    else if hi < v then { bits := out hi, fl := flNV }
    else { bits := out v, fl := if inexact then flNX else 0 }

/-- ITOF (R159). -/
def fOfInt (f : Fmt) (rm : Nat) (v : Int) : FRes :=
  if v = 0 then { bits := 0 } else fRound f rm (decide (v < 0)) v.natAbs 0 false

/-- FCLASS (R159). -/
def fClass (f : Fmt) (x : Nat) : Nat :=
  if isNan f x then (if isSnan f x then 2 else 1)
  else
    let k := if isInf f x then 0 else if isZero f x then 3 else if isSub f x then 2 else 1
    if fSign f x then 2 ^ (9 - k) else 2 ^ (2 + k)

end Sys2Proof.Machine
end

