-- ==== Sys2Proof/Machine/Arith.lean ====
section
/-!
DEFINITION. Integer arithmetic (R144 to R149), the lanes of floating-point operations (R161), and what an operation
hands on: payload, type, flags and its execute time (R164, R165). Shared by FUs and Runner cores.
-/
namespace Sys2Proof.Machine

/-! ### Integers (R144 to R147) -/

/-- Width of TYPE 0 to 3. -/
def iWidth (ty : Nat) : Nat := if ty ≤ 1 then 64 else 32
/-- TYPE 0 and 2 are signed. -/
def iSigned (ty : Nat) : Bool := ty % 2 == 0
/-- The operand's bits within the width. -/
def iBits (ty x : Nat) : Nat := x % 2 ^ iWidth ty
/-- A value of the width as TYPE reads it. -/
def iVal (ty x : Nat) : Int :=
  let n := iBits ty x
  if iSigned ty && decide (2 ^ (iWidth ty - 1) ≤ n) then (n : Int) - 2 ^ iWidth ty else n
/-- A result within the width as the 64-bit payload (R144). -/
def iExt (ty n : Nat) : Nat :=
  if ty = 2 ∧ 2 ^ 31 ≤ n then n + (2 ^ 64 - 2 ^ 32) else n
/-- An exact result wrapped to the width and extended. -/
def iWrap (ty : Nat) (v : Int) : Nat := iExt ty (v % 2 ^ iWidth ty).toNat
/-- The exact result lies in the range of TYPE. -/
def iFits (ty : Nat) (v : Int) : Bool :=
  if iSigned ty then decide (-(2 ^ (iWidth ty - 1)) ≤ v ∧ v < 2 ^ (iWidth ty - 1)) else decide (0 ≤ v ∧ v < 2 ^ iWidth ty)

/-- An exact result, wrapped, with OV (FPFLAGS OF) where it does not fit (R145). -/
def iExact (ty : Nat) (v : Int) : Nat × BitVec 5 := (iWrap ty v, if iFits ty v then 0 else flOF)

def iDiv (ty a b : Nat) : Nat × BitVec 5 :=
  let x := iVal ty a
  let y := iVal ty b
  if y = 0 then (iWrap ty (-1), flDZ) else iExact ty (x.tdiv y)

def iRem (ty a b : Nat) : Nat × BitVec 5 :=
  let x := iVal ty a
  let y := iVal ty b
  if y = 0 then (iWrap ty x, flDZ) else (iWrap ty (x.tmod y), if iFits ty (x.tdiv y) then 0 else flOF)

/-- Shifts (R147): the amount is all bits of the operand that the width reads. -/
def iShl (ty a b : Nat) : Nat := let k := iBits ty b; if iWidth ty ≤ k then 0 else iExt ty (iBits ty a * 2 ^ k % 2 ^ iWidth ty)
def iShr (ty a b : Nat) : Nat := let k := iBits ty b; if iWidth ty ≤ k then 0 else iExt ty (iBits ty a / 2 ^ k)
def iSra (ty a b : Nat) : Nat :=
  let w := iWidth ty
  let n := iBits ty a
  let k := min (iBits ty b) w
  iExt ty (if 2 ^ (w - 1) ≤ n then n / 2 ^ k + (2 ^ w - 2 ^ (w - k)) else n / 2 ^ k)

/-- Set bits among the low `w` bits. -/
def popCount (n : Nat) : Nat → Nat
  | 0 => 0
  | w + 1 => (if n.testBit w then 1 else 0) + popCount n w

/-- Trailing zeros, counted up to `w`. -/
def trailing (n : Nat) : Nat → Nat → Nat
  | i, 0 => i
  | i, w + 1 => if n.testBit i then i else trailing n (i + 1) w

def iClz (ty a : Nat) : Nat := iWidth ty - bitLen (iBits ty a)
def iCtz (ty a : Nat) : Nat := trailing (iBits ty a) 0 (iWidth ty)
def iPopc (ty a : Nat) : Nat := popCount a (iWidth ty)
def iCmp (p : Bool) : Nat := if p then 1 else 0

/-- The result and flags of an integer opcode (R145). -/
def intOp (opc ty a b : Nat) : Nat × BitVec 5 :=
  let x := iVal ty a
  let y := iVal ty b
  match opc with
  | 0x000 => (iExt ty (iBits ty a), 0)
  | 0x001 => iExact ty (x + y)
  | 0x002 => iExact ty (x - y)
  | 0x003 => iExact ty (-x)
  | 0x004 => iExact ty x.natAbs
  | 0x005 => (iWrap ty (min x y), 0)
  | 0x006 => (iWrap ty (max x y), 0)
  | 0x008 => iExact ty (x * y)
  | 0x009 => (iWrap ty (x * y / 2 ^ iWidth ty), 0)
  | 0x00A => iDiv ty a b
  | 0x00B => iRem ty a b
  | 0x010 => (iExt ty (iBits ty a &&& iBits ty b), 0)
  | 0x011 => (iExt ty (iBits ty a ||| iBits ty b), 0)
  | 0x012 => (iExt ty (iBits ty a ^^^ iBits ty b), 0)
  | 0x013 => (iExt ty (2 ^ iWidth ty - 1 - iBits ty a), 0)
  | 0x014 => (iExt ty (iBits ty a &&& (2 ^ iWidth ty - 1 - iBits ty b)), 0)
  | 0x018 => (iShl ty a b, 0)
  | 0x019 => (iShr ty a b, 0)
  | 0x01A => (iSra ty a b, 0)
  | 0x01C => (iClz ty a, 0)
  | 0x01D => (iCtz ty a, 0)
  | 0x01E => (iPopc ty a, 0)
  | 0x020 => (iCmp (x == y), 0)
  | 0x021 => (iCmp (x != y), 0)
  | 0x022 => (iCmp (decide (x < y)), 0)
  | 0x023 => (iCmp (decide (x ≤ y)), 0)
  | 0x024 => (iCmp (decide (y < x)), 0)
  | 0x025 => (iCmp (decide (y ≤ x)), 0)
  | _ => (0, 0)

/-- Latency of DIV and REM (R148). (DESIGN CHOICE, log 92.) -/
def divTime (ty a b : Nat) (ct : Bool) : Nat :=
  let x := (iVal ty a).natAbs
  let y := (iVal ty b).natAbs
  if ct then 2 + iWidth ty
  else if y = 0 ∨ !iFits ty ((iVal ty a).tdiv (iVal ty b)) ∨ x < y then 2
  else 2 + (bitLen x - bitLen y + 1)

/-! ### Floating point (R161 to R165) -/

/-- The format of TYPE 4 to 8 and its lanes (R96). -/
def fmtOf (ty : Nat) : Fmt := if ty = 4 then f64 else if ty = 5 ∨ ty = 7 then f32 else f16
def lanesOf (ty : Nat) : Nat := if ty = 7 then 2 else if ty = 8 then 4 else 1

/-- One lane of an operand. -/
def laneOf (f : Fmt) (x i : Nat) : Nat := x / 2 ^ (f.width * i) % 2 ^ f.width

/-- The integer format numbers of FTOI and the float formats of FCVT and ITOF are IMM32. (DEDUCED, log 104.) -/
def fpLane (opc : Nat) (f : Fmt) (rm : Nat) (ncan : Bool) (imm a b c : Nat) : FRes :=
  match opc with
  | 0x100 => fAdd f rm ncan a b
  | 0x101 => fSub f rm ncan a b
  | 0x102 => fMul f rm ncan a b
  | 0x103 => fDiv f rm ncan a b
  | 0x104 => fSqrt f rm ncan a
  | 0x105 => fFma f rm ncan a b c
  | 0x106 => { bits := fNeg f a }
  | 0x107 => { bits := fAbs f a }
  | 0x108 => fMinMax f ncan false a b
  | 0x109 => fMinMax f ncan true a b
  | 0x110 => fEq f a b
  | 0x111 => fLt f a b
  | 0x112 => fLe f a b
  | 0x113 => fUnord f a b
  | 0x118 => fCvt f (fmtOf imm) rm ncan a
  | 0x119 => fToInt f rm imm a
  | 0x11B => fRoundInt f rm ncan a
  | 0x11C => { bits := fClass f a }
  | _ => {}

/-- The lanes of an operation with their results and whether the subnormal penalty applies to each (R164). -/
def fpLanes (opc ty rm : Nat) (ncan : Bool) (imm a b c : Nat) : List (FRes × Bool) :=
  let f := fmtOf ty
  let n := if opc = 0x105 then 3 else if opc ≤ 0x103 ∨ opc = 0x108 ∨ opc = 0x109 ∨ (0x110 ≤ opc ∧ opc ≤ 0x113) then 2 else 1
  (List.range (lanesOf ty)).map (fun i =>
    let xs := [laneOf f a i, laneOf f b i, laneOf f c i]
    let r := fpLane opc f rm ncan imm (xs.getD 0 0) (xs.getD 1 0) (xs.getD 2 0)
    (r, r.sub || (xs.take n).any (isSub f)))

/-- What an operation hands on. -/
structure OpRes where
  pay   : Nat := 0
  ptype : Nat := 0
  fl    : BitVec 5 := 0
  lat   : Nat := 1
  occ   : Nat := 1
  deriving DecidableEq, Repr

/-- The payload type that TYPE gives a result (R96). -/
def ptypeOf (ty : Nat) : Nat := if ty = 0 ∨ ty = 2 then 0 else if ty = 1 ∨ ty = 3 then 1 else if ty = 4 then 2 else if ty = 5 ∨ ty = 7 then 3 else 4

/-- An integer operation. -/
def intRes (opc ty : Nat) (ct : Bool) (a b : Nat) : OpRes :=
  let (v, fl) := intOp opc ty a b
  let l := if opc = 0x00A ∨ opc = 0x00B then divTime ty a b ct else 1
  { pay := v, ptype := if 0x020 ≤ opc then 0 else ptypeOf ty, fl := fl, lat := l, occ := l }

/-- Execute time of a floating-point operation (R165): `subs` counts the lanes with a penalty. (DESIGN CHOICE, log 92.) -/
def fpTime (opc ty : Nat) (ct : Bool) (subs : Nat) : Nat × Nat :=
  let extra := if ct || subs != 0 then 2 else 0
  match opc with
  | 0x100 | 0x101 | 0x102 => (3 + extra, 1 + extra)
  | 0x105 => (4 + extra, 1 + extra)
  | 0x118 | 0x119 | 0x11A | 0x11B => (2 + extra, 1 + extra)
  | 0x103 | 0x104 =>
    let per := if ty = 4 then 57 else if ty = 5 ∨ ty = 7 then 27 else 14
    let l := lanesOf ty * per + (if ct then lanesOf ty else subs)
    (l, l)
  | _ => (1, 1)

/-- A floating-point operation. -/
def fpRes (opc ty rm : Nat) (ct ncan : Bool) (imm a b c : Nat) : OpRes :=
  if opc = 0x11A then
    let r := fOfInt (fmtOf imm) rm (iVal ty a)
    let (l, o) := fpTime opc ty ct (if r.sub then 1 else 0)
    { pay := r.bits, ptype := ptypeOf imm, fl := r.fl, lat := l, occ := o }
  else
    let ls := fpLanes opc ty rm ncan imm a b c
    let w := (fmtOf (if opc = 0x118 then imm else ty)).width
    let pay := ls.foldr (fun r acc => r.1.bits + acc * 2 ^ w) 0
    let (l, o) := fpTime opc ty ct ((ls.filter (·.2)).length)
    let pt :=
      if (0x110 ≤ opc ∧ opc ≤ 0x113) ∨ opc = 0x11C then 0
      else if opc = 0x118 then ptypeOf imm
      else if opc = 0x119 then ptypeOf imm
      else ptypeOf ty
    { pay := pay, ptype := pt, fl := ls.foldl (fun m r => m ||| r.1.fl) 0, lat := l, occ := o }

/-- Forming an operand from IMM32 by TYPE (R98). (DEDUCED, log 22.) -/
def immOperand (ty : Nat) (imm : W32) : Nat :=
  let n := imm.toNat
  match ty with
  | 0 | 2 => if 2 ^ 31 ≤ n then n + (2 ^ 64 - 2 ^ 32) else n
  | 1 | 3 => n
  | 4 => if isNan f32 n then fPack f64 (fSign f32 n) f64.maxExp (fFrac f32 n * 2 ^ 29) else (fCvt f32 f64 0 false n).bits
  | 5 => n
  | 6 => n % 65536
  | 7 => n + n * 2 ^ 32
  | 8 => (n % 65536) * (1 + 2 ^ 16 + 2 ^ 32 + 2 ^ 48)
  | _ => 0

end Sys2Proof.Machine
end

