-- ==== Sys2Proof/Machine/Regs.lean ====
section
/-!
DEFINITION. The register map: every register of the device with its offset in its block, which of its bits can be
read, written, cleared by writing 1, written only in boot code and written without being readable (R9 to R13), and
its reset value, from the register tables of 01 to 18; and the decoding of configuration addresses (R6, R37 to R39).
A reset value that a table gives as fuse, const, map or strap is 0 here and is supplied where the register is read.
-/
namespace Sys2Proof.Machine

/-- One register row (or a run of like registers): offset, how many, their spacing, the bits that read back, the RW,
W1C, RWB and WO bits, and the reset value. -/
structure RegSpec where
  off    : Nat
  cnt    : Nat
  stride : Nat
  rd     : BitVec 32
  rw     : BitVec 32
  w1c    : BitVec 32
  rwb    : BitVec 32
  wo     : BitVec 32
  reset  : BitVec 32
  deriving DecidableEq, Repr, Inhabited

/-- The register blocks. -/
inductive Blk where
  | clu | rgn | dief | fu | ctx | node | sch | pac | gw | stw | se | rc | spm | hbm | lck | dma | dmaCh | noc | afe | afeCtl | tch | aout | trip | seg | segRoll | ing | eth | ptp | rly | cmd | rst | bak | pwr | boot | flash | sec | evt | hlt
  deriving DecidableEq, Repr, Inhabited

/-- Registers of the block CLU. -/

def regsClu : List RegSpec := [
  ⟨0, 1, 4, 0x1f1f1f, 0, 0, 0, 0, 0⟩,  -- CLU.ID
  ⟨4, 1, 4, 0x1f, 0x1f, 0, 0, 0, 4⟩,  -- CLU.CLK
  ⟨8, 1, 4, 0x1f07c7, 0, 6, 0, 0, 0x100⟩,  -- CLU.CLK_STATUS
  ⟨0xc, 1, 4, 1, 1, 0, 0, 0, 0⟩  -- CLU.SRST
  ]

/-- Registers of the block RGN. -/

def regsRgn : List RegSpec := [
  ⟨0, 1, 4, 0x3f, 0, 0, 0, 0, 0⟩,  -- RGN.ID
  ⟨0x10, 4, 4, 0x1f1f1f1f, 0, 0, 0, 0, 0⟩,  -- RGN.MAP0–RGN.MAP3
  ⟨0x20, 4, 4, 0x1f1f1f1f, 0x1f1f1f1f, 0, 0, 0, 0⟩,  -- RGN.MAPS0–RGN.MAPS3
  ⟨0x30, 1, 4, 0xe, 0, 4, 0, 1, 0⟩,  -- RGN.MAP_CTRL
  ⟨0x34, 1, 4, 0x1ffff, 0, 0, 0, 0, 0⟩,  -- RGN.TILE_STATUS
  ⟨0x38, 1, 4, 0x3f, 0, 0, 0, 0, 0⟩  -- RGN.RESERVE
  ]

/-- Registers of the block DIEF. -/

def regsDief : List RegSpec := [
  ⟨0, 1, 4, 7, 0, 0, 0, 0, 0⟩,  -- DIEF.ID
  ⟨4, 1, 4, 0x77, 0, 0x70, 0, 0, 0⟩,  -- DIEF.LINK
  ⟨8, 1, 4, 0xffff, 0, 0, 0, 0, 0⟩,  -- DIEF.TEMP
  ⟨0xc, 1, 4, 1, 1, 0, 0, 0, 0⟩  -- DIEF.SRST
  ]

/-- Registers of the block FU. -/

def regsFu : List RegSpec := [
  ⟨0, 1, 4, 0xfff, 0, 0, 0, 0, 0⟩,  -- FU.ES_OCC
  ⟨4, 1, 4, 0xfff, 0, 0, 0, 0, 0⟩,  -- FU.ES_HWM
  ⟨8, 1, 4, 0x7f7f, 0, 0, 0, 0, 0⟩,  -- FU.PROT_OCC
  ⟨0xc, 1, 4, 0x3ffff, 0, 0, 0, 0, 0⟩,  -- FU.SPILLED
  ⟨0x10, 1, 4, 0x3ffff, 0, 0, 0, 0, 0⟩,  -- FU.SPILL_HWM
  ⟨0x14, 1, 4, 0, 0, 0, 0, 3, 0⟩,  -- FU.ES_CTRL
  ⟨0x18, 1, 4, 0xff, 0, 0x3f, 0, 0, 0⟩,  -- FU.ES_STATUS
  ⟨0x1c, 1, 4, 0xffff, 0xffff, 0, 0, 0, 0⟩,  -- FU.HASH_SALT
  ⟨0x20, 4, 4, 0xffffffff, 0, 0, 0, 0, 0⟩,  -- FU.BADTAG0–FU.BADTAG3
  ⟨0x30, 1, 4, 0xffff, 0xffff, 0, 0, 0, 0⟩  -- FU.ES_ECC
  ]

/-- Registers of the block CTX. -/

def regsCtx : List RegSpec := [
  ⟨0, 1, 4, 0x7ffff, 0, 0, 0, 0, 0x40000⟩,  -- CTX.FREE
  ⟨4, 1, 4, 0x7ffff, 0, 0, 0, 0, 0x40000⟩,  -- CTX.LOW
  ⟨8, 1, 4, 0xfffff, 0xfffff, 0, 0, 0, 0x3e8⟩,  -- CTX.STARVE_DELAY
  ⟨0xc, 1, 4, 0, 0, 0, 0, 1, 0⟩,  -- CTX.CTRL
  ⟨0x10, 1, 4, 7, 0, 2, 0, 0, 0⟩,  -- CTX.STATUS
  ⟨0x14, 1, 4, 0xffff, 0, 0, 0, 0, 0⟩,  -- CTX.WAITERS
  ⟨0x18, 1, 4, 0xffff, 0xffff, 0, 0, 0, 0x400⟩,  -- CTX.PROT_RESERVE
  ⟨0x1c, 1, 4, 0xfffff, 0xfffff, 0, 0, 0, 0xfa0⟩,  -- CTX.REUSE_GUARD
  ⟨0x20, 1, 4, 0x3ffff, 0x3ffff, 0, 0, 0, 0⟩,  -- CTX.DESC_SEL
  ⟨0x24, 1, 4, 0xffffffff, 0, 0, 0, 0, 0⟩,  -- CTX.DESC_LO
  ⟨0x28, 1, 4, 0xffffffff, 0, 0, 0, 0, 0⟩,  -- CTX.DESC_HI
  ⟨0x100, 1, 4, 0xffffffff, 0xffffffff, 0, 0, 0, 0⟩,  -- OFL.BASE_LO
  ⟨0x104, 1, 4, 0xffffffff, 0xffffffff, 0, 0, 0, 0⟩,  -- OFL.BASE_HI
  ⟨0x108, 1, 4, 7, 7, 0, 0, 0, 3⟩,  -- OFL.SIZE
  ⟨0x10c, 1, 4, 0x1ffffff, 0, 0, 0, 0, 0⟩,  -- OFL.USED
  ⟨0x110, 1, 4, 0x1ffffff, 0, 0, 0, 0, 0⟩,  -- OFL.HWM
  ⟨0x114, 1, 4, 0xff, 0xff, 0, 0, 0, 0xc0⟩,  -- OFL.THRESH
  ⟨0x118, 1, 4, 0, 0, 0, 0, 1, 0⟩,  -- OFL.CTRL
  ⟨0x11c, 1, 4, 3, 0, 1, 0, 0, 0⟩  -- OFL.STATUS
  ]

/-- Registers of the block NODE. -/

def regsNode : List RegSpec := [
  ⟨0, 1, 4, 0xffff, 0xffff, 0, 0, 0, 0⟩,  -- NODE.ECC
  ⟨4, 1, 4, 7, 0, 7, 0, 0, 0⟩,  -- NODE.STATUS
  ⟨8, 1, 4, 0x7fff, 0, 0, 0, 0, 0⟩,  -- NODE.UE_SLOT
  ⟨0xc, 1, 4, 0x7fff, 0x7fff, 0, 0, 0, 0⟩,  -- NODE.MASK_ADDR
  ⟨0x10, 1, 4, 0x1f, 0x1f, 0, 0, 0, 0⟩,  -- NODE.MASK_DATA
  ⟨0x14, 1, 4, 0xffff, 0, 0, 0, 0, 0⟩  -- NODE.USED
  ]

/-- Registers of the block SCH. -/

def regsSch : List RegSpec := [
  ⟨0, 1, 4, 0xfffff, 0xfffff, 0, 0, 0, 0x10000⟩,  -- SCH.AGE
  ⟨4, 1, 4, 0xffffffff, 0xffffffff, 0, 0, 0, 0x1e8480⟩,  -- SCH.RUNLIMIT
  ⟨8, 1, 4, 3, 0, 3, 0, 0, 0⟩  -- SCH.STATUS
  ]

/-- Registers of the block PAC. -/

def regsPac : List RegSpec := [
  ⟨0, 1, 4, 0xfffff, 0xfffff, 0, 0, 0, 0x3e8⟩,  -- PAC.TICK
  ⟨4, 1, 4, 0x1ffff, 0, 0, 0, 0, 0⟩,  -- PAC.USED
  ⟨8, 1, 4, 0x1ffff, 0, 0, 0, 0, 0⟩,  -- PAC.HWM
  ⟨0xc, 1, 4, 0, 0, 0, 0, 1, 0⟩,  -- PAC.CTRL
  ⟨0x10, 1, 4, 7, 0, 6, 0, 0, 0⟩  -- PAC.STATUS
  ]

/-- Registers of the block GW. -/

def regsGw : List RegSpec := [
  ⟨0, 1, 4, 0xffffffff, 0xffffffff, 0, 0, 0, 0⟩,  -- GW.HOLD_BASE_LO
  ⟨4, 1, 4, 0xffffffff, 0xffffffff, 0, 0, 0, 0⟩,  -- GW.HOLD_BASE_HI
  ⟨8, 1, 4, 7, 7, 0, 0, 0, 4⟩,  -- GW.HOLD_SIZE
  ⟨0xc, 1, 4, 0x7ffff, 0, 0, 0, 0, 0⟩,  -- GW.HOLD_USED
  ⟨0x10, 1, 4, 0x7ffff, 0, 0, 0, 0, 0⟩,  -- GW.HOLD_HWM
  ⟨0x14, 1, 4, 0, 0, 0, 0, 1, 0⟩,  -- GW.CTRL
  ⟨0x18, 1, 4, 0x1ff, 0, 0, 0, 0, 0⟩,  -- GW.HRD_USED
  ⟨0x1c, 1, 4, 0xff, 0xff, 0, 0, 0, 0⟩,  -- GW.HRD_SEL
  ⟨0x20, 1, 4, 0xfff003f, 0, 0, 0, 0, 0⟩,  -- GW.HRD_INFO
  ⟨0x24, 1, 4, 0xff, 0, 0, 0, 0, 0⟩,  -- GW.HRD_EPOCH
  ⟨0x28, 1, 4, 0xffffffff, 0, 0, 0, 0, 0⟩,  -- GW.HRD_PEND
  ⟨0x2c, 1, 4, 0x1ff, 0x1ff, 0, 0, 0, 0⟩,  -- GW.HRD_STOP
  ⟨0x30, 1, 4, 0, 0, 0, 0, 1, 0⟩,  -- GW.HRD_CTRL
  ⟨0x34, 1, 4, 0x3f, 0, 0x3e, 0, 0, 0⟩  -- GW.HRD_STATUS
  ]

/-- Registers of the block STW. -/

def regsStw : List RegSpec := [
  ⟨0, 1, 4, 3, 3, 0, 0, 0, 1⟩,  -- STW.CTRL
  ⟨4, 1, 4, 0xfffff, 0xfffff, 0, 0, 0, 0x7d0⟩,  -- STW.WINDOW
  ⟨8, 1, 4, 0xff, 0xff, 0, 0, 0, 0x40⟩,  -- STW.FORCE
  ⟨0xc, 1, 4, 0xffff1fff, 0xffff1fff, 0, 0, 0, 0x1000000⟩,  -- STW.POLICY
  ⟨0x10, 1, 4, 0x3f, 0, 0x38, 0, 0, 0⟩,  -- STW.STATUS
  ⟨0x14, 1, 4, 0xfff0f01, 0, 0, 0, 0, 0⟩,  -- STW.LAST
  ⟨0x18, 1, 4, 0xffff, 0, 0, 0, 0, 0⟩,  -- STW.LAST_COUNT
  ⟨0x1c, 1, 4, 0xffff, 0xffff, 0, 0, 0, 0⟩  -- STW.ABORTS
  ]

/-- Registers of the block SE. -/

def regsSe : List RegSpec := [
  ⟨0, 1, 4, 1, 1, 0, 0, 0, 0⟩,  -- SE.CTRL
  ⟨4, 1, 4, 0x1ff, 0, 0x1fe, 0, 0, 0⟩,  -- SE.STATUS
  ⟨8, 1, 4, 0xffff03ff, 0, 0, 0, 0, 0⟩  -- SE.LASTERR
  ]

/-- Registers of the block RC. -/

def regsRc : List RegSpec := [
  ⟨0, 1, 4, 1, 1, 0, 0, 0, 0⟩,  -- RC.CFG
  ⟨4, 1, 4, 0x7fff8, 0x7fff8, 0, 0, 0, 0x40000⟩,  -- RC.STACK_TOP
  ⟨8, 1, 4, 0x7fff8, 0x7fff8, 0, 0, 0, 0x3c000⟩,  -- RC.STACK_LIMIT
  ⟨0xc, 1, 4, 3, 0, 2, 0, 0, 1⟩,  -- RC.STATUS
  ⟨0x10, 1, 4, 0xfffff, 0, 0, 0, 0, 0⟩,  -- RC.FAULT
  ⟨0x14, 1, 4, 0xffffffff, 0, 0, 0, 0, 0⟩,  -- RC.FAULT_ADDR_LO
  ⟨0x18, 1, 4, 0xffffffff, 0, 0, 0, 0, 0⟩,  -- RC.FAULT_ADDR_HI
  ⟨0x1c, 1, 4, 1, 1, 0, 0, 0, 0⟩  -- RC.SRST
  ]

/-- Registers of the block SPM. -/

def regsSpm : List RegSpec := [
  ⟨0, 1, 4, 0xff, 0xff, 0, 0, 0, 0xaa⟩,  -- SPM.PWR
  ⟨4, 1, 4, 0xfff, 0, 0, 0, 0, 0xaa⟩,  -- SPM.PWR_STATUS
  ⟨8, 1, 4, 0xffff, 0xffff, 0, 0, 0, 0⟩,  -- SPM.ECC
  ⟨0xc, 1, 4, 3, 0, 3, 0, 0, 0⟩,  -- SPM.STATUS
  ⟨0x10, 1, 4, 0xfffff, 0, 0, 0, 0, 0⟩  -- SPM.UE_ADDR
  ]

/-- Registers of the block HBM. -/

def regsHbm : List RegSpec := [
  ⟨0, 1, 4, 3, 0, 0, 0, 0, 2⟩,  -- HBM.STATUS
  ⟨4, 1, 4, 0xffff, 0xffff, 0, 0, 0, 0⟩,  -- HBM.ECC
  ⟨8, 1, 4, 0xffff, 0xffff, 0, 0, 0, 0⟩,  -- HBM.UE
  ⟨0xc, 1, 4, 0xffffffff, 0, 0, 0, 0, 0⟩,  -- HBM.UE_ADDR_LO
  ⟨0x10, 1, 4, 0xffffffff, 0, 0, 0, 0, 0⟩,  -- HBM.UE_ADDR_HI
  ⟨0x14, 1, 4, 0xff, 0xff, 0, 0, 0, 0x18⟩,  -- HBM.SCRUB
  ⟨0x18, 1, 4, 0x1ff, 0, 0x100, 0, 0, 0⟩,  -- HBM.SCRUB_STATUS
  ⟨0x1c, 1, 4, 0x3ff03ff, 0, 0, 0, 0, 0⟩,  -- HBM.SPARE
  ⟨0x20, 1, 4, 0xf, 0xf, 0, 0, 0, 4⟩,  -- HBM.SPARE_CTRL
  ⟨0x24, 1, 4, 0xffff, 0, 0, 0, 0, 0⟩  -- HBM.TEMP
  ]

/-- Registers of the block LCK. -/

def regsLck : List RegSpec := [
  ⟨0, 1, 4, 0xfffff, 0xfffff, 0, 0, 0, 0x2710⟩,  -- LCK.LEASE
  ⟨4, 1, 4, 0xfffff, 0xfffff, 0, 0, 0, 0x3e8⟩,  -- LCK.TIMEOUT
  ⟨8, 1, 4, 0x1fff, 0, 0, 0, 0, 0⟩,  -- LCK.USED
  ⟨0xc, 1, 4, 0x1fff, 0, 0, 0, 0, 0⟩,  -- LCK.HWM
  ⟨0x10, 1, 4, 0x3fff, 0, 0, 0, 0, 0⟩,  -- LCK.WAITERS
  ⟨0x14, 1, 4, 0, 0, 0, 0, 1, 0⟩,  -- LCK.CTRL
  ⟨0x18, 1, 4, 0, 0, 0, 0, 0xffffffff, 0⟩,  -- LCK.FORCE_LO
  ⟨0x1c, 1, 4, 0, 0, 0, 0, 0xffffffff, 0⟩,  -- LCK.FORCE_HI
  ⟨0x20, 1, 4, 0xfe, 0, 0x3e, 0, 0, 0⟩  -- LCK.STATUS
  ]

/-- Registers of the block DMA. -/

def regsDma : List RegSpec := [
  ⟨0, 1, 4, 0xffffffff, 0, 0, 0, 0, 0⟩,  -- DMA.ACTIVE
  ⟨4, 1, 4, 0xffffffff, 0, 0xffffffff, 0, 0, 0⟩,  -- DMA.DONE
  ⟨8, 1, 4, 0xffffffff, 0, 0xffffffff, 0, 0, 0⟩,  -- DMA.ERR
  ⟨0xc, 1, 4, 1, 1, 0, 0, 0, 0⟩  -- DMA.SRST
  ]

/-- Registers of the block DMACH. -/

def regsDmaCh : List RegSpec := [
  ⟨0, 1, 4, 0x3f731d, 0x3f731d, 0, 0, 2, 0⟩,  -- CH_CTRL
  ⟨4, 1, 4, 0xfffff, 0, 0xfe, 0, 0, 0⟩,  -- CH_STATUS
  ⟨8, 1, 4, 0xffffffff, 0, 0, 0, 0, 0⟩,  -- CH_REMAIN
  ⟨0xc, 1, 4, 0xffffffff, 0, 0, 0, 0, 0⟩,  -- CH_ERRADDR_LO
  ⟨0x10, 1, 4, 0xffffffff, 0, 0, 0, 0, 0⟩,  -- CH_ERRADDR_HI
  ⟨0x20, 1, 4, 0xffffffff, 0xffffffff, 0, 0, 0, 0⟩,  -- SRC_LO
  ⟨0x24, 1, 4, 0xffffffff, 0xffffffff, 0, 0, 0, 0⟩,  -- SRC_HI
  ⟨0x28, 1, 4, 0xffffffff, 0xffffffff, 0, 0, 0, 0⟩,  -- DST_LO
  ⟨0x2c, 1, 4, 0xffffffff, 0xffffffff, 0, 0, 0, 0⟩,  -- DST_HI
  ⟨0x30, 1, 4, 0xfffff, 0xfffff, 0, 0, 0, 0⟩,  -- SLEN
  ⟨0x34, 1, 4, 0xffff, 0xffff, 0, 0, 0, 0⟩,  -- SLINES
  ⟨0x38, 1, 4, 0xffffffff, 0xffffffff, 0, 0, 0, 0⟩,  -- SSTRIDE
  ⟨0x3c, 1, 4, 0xfffff, 0xfffff, 0, 0, 0, 0⟩,  -- DLEN
  ⟨0x40, 1, 4, 0xffff, 0xffff, 0, 0, 0, 0⟩,  -- DLINES
  ⟨0x44, 1, 4, 0xffffffff, 0xffffffff, 0, 0, 0, 0⟩,  -- DSTRIDE
  ⟨0x48, 1, 4, 0x1f, 0x1f, 0, 0, 0, 8⟩,  -- MODE
  ⟨0x4c, 1, 4, 0xffffffff, 0xffffffff, 0, 0, 0, 0⟩,  -- FILL_LO
  ⟨0x50, 1, 4, 0xffffffff, 0xffffffff, 0, 0, 0, 0⟩,  -- FILL_HI
  ⟨0x54, 1, 4, 0x1fffffff, 0x1fffffff, 0, 0, 0, 0⟩,  -- DONE_DST
  ⟨0x58, 1, 4, 0x3fffff, 0x3fffff, 0, 0, 0, 0⟩,  -- DONE_CTX
  ⟨0x5c, 1, 4, 0xffffff, 0xffffff, 0, 0, 0, 0⟩  -- DONE_INFO
  ]

/-- Registers of the block NOC. -/

def regsNoc : List RegSpec := [
  ⟨0, 3, 4, 0xffffffff, 0xffffffff, 0, 0, 0, 0⟩,  -- NOC.RT_SH0–NOC.RT_SH2
  ⟨0x10, 3, 4, 0xffffffff, 0, 0, 0, 0, 0⟩,  -- NOC.RT0–NOC.RT2
  ⟨0x20, 1, 4, 0xe, 0, 4, 0, 1, 0⟩,  -- NOC.CTRL
  ⟨0x24, 1, 4, 0, 0, 0, 0, 0x7ffff, 0⟩,  -- NOC.ISO_SET
  ⟨0x28, 4, 4, 0x1ffff, 0, 0x1ffff, 0, 0, 0⟩,  -- NOC.ISO0–NOC.ISO3
  ⟨0x40, 1, 4, 0xffff, 0xffff, 0, 0, 0, 0⟩,  -- NOC.PARK
  ⟨0x44, 1, 4, 0xffffffff, 0xffffffff, 0, 0, 0, 0x50000000⟩,  -- NOC.MARSH_BASE_LO
  ⟨0x48, 1, 4, 0xffffffff, 0xffffffff, 0, 0, 0, 0⟩,  -- NOC.MARSH_BASE_HI
  ⟨0x4c, 1, 4, 0xffff, 0, 0xffff, 0, 0, 0⟩,  -- NOC.MARSH_STATUS
  ⟨0x50, 1, 4, 0, 0, 0, 0, 0xffff, 0⟩,  -- NOC.BLK_ISO_SET
  ⟨0x54, 1, 4, 0xffff, 0, 0xffff, 0, 0, 0⟩  -- NOC.BLK_ISO
  ]

/-- Registers of the block AFE. -/

def regsAfe : List RegSpec := [
  ⟨0, 1, 4, 0xffffff00, 0xffffff00, 0, 0, 0, 0x402300⟩,  -- AFE.CH_CFG
  ⟨4, 1, 4, 0xffffffff, 0xffffffff, 0, 0, 0, 0⟩,  -- AFE.RING_BASE_LO
  ⟨8, 1, 4, 0xffffffff, 0xffffffff, 0, 0, 0, 0⟩,  -- AFE.RING_BASE_HI
  ⟨0xc, 1, 4, 0xffffffff, 0xffffffff, 0, 0, 0, 0x3f800000⟩,  -- AFE.SCALE
  ⟨0x10, 1, 4, 0x1fffffff, 0x1fffffff, 0, 0, 0, 0⟩,  -- AFE.DST0
  ⟨0x14, 1, 4, 0x1fffffff, 0x1fffffff, 0, 0, 0, 0⟩,  -- AFE.DST1
  ⟨0x18, 1, 4, 0x3fffff, 0x3fffff, 0, 0, 0, 0⟩,  -- AFE.CTX0
  ⟨0x1c, 1, 4, 0x3fffff, 0x3fffff, 0, 0, 0, 0⟩,  -- AFE.CTX1
  ⟨0x20, 1, 4, 0xffffffc0, 0xffffffc0, 0, 0, 0, 0⟩,  -- AFE.TOK
  ⟨0x24, 1, 4, 0xfff, 0xfff, 0, 0, 0, 0⟩,  -- AFE.GRAPH
  ⟨0x28, 1, 4, 0xffff01ff, 0xffff01ff, 0, 0, 0, 0⟩,  -- AFE.EPOCH
  ⟨0x2c, 1, 4, 0x800f00ff, 0x800f00ff, 0, 0, 0, 0⟩,  -- AFE.HURDLE
  ⟨0x30, 1, 4, 0xffffff, 0xffffff, 0, 0, 0, 0x7fffff⟩,  -- AFE.LIM_HI
  ⟨0x34, 1, 4, 0xffffff, 0xffffff, 0, 0, 0, 0x800001⟩,  -- AFE.LIM_LO
  ⟨0x38, 1, 4, 0x3f, 0x3f, 0, 0, 0, 0x20⟩,  -- AFE.LIM_CTRL
  ⟨0x3c, 1, 4, 0xffffffff, 0xffffffff, 0, 0, 0, 0⟩,  -- AFE.LIM_MASK
  ⟨0x40, 1, 4, 0xffffffff, 0xffffffff, 0, 0, 0, 0x2ee01f40⟩,  -- AFE.BIAS_WIN
  ⟨0x44, 1, 4, 0xffff, 0xffff, 0, 0, 0, 0x64⟩,  -- AFE.FAULT_MS
  ⟨0x48, 1, 4, 0xfe00003f, 0, 0x3e, 0, 0, 0x40000000⟩,  -- AFE.CH_STATUS
  ⟨0x4c, 1, 4, 0xffff, 0, 0, 0, 0, 0⟩,  -- AFE.BIAS
  ⟨0x50, 1, 4, 0xffffffff, 0, 0, 0, 0, 0⟩,  -- AFE.FIRST_LO
  ⟨0x54, 1, 4, 0xffffffff, 0, 0, 0, 0, 0⟩,  -- AFE.FIRST_HI
  ⟨0x58, 1, 4, 0xffffffff, 0, 0, 0, 0, 0⟩,  -- AFE.GAIN
  ⟨0x5c, 1, 4, 0xffffff, 0, 0, 0, 0, 0⟩  -- AFE.OFFS
  ]

/-- Registers of the block AFECTL. -/

def regsAfeCtl : List RegSpec := [
  ⟨0, 1, 4, 0x60000003, 3, 0x20000000, 0, 0x80000000, 0⟩,  -- AFE.CAL
  ⟨4, 1, 4, 0xf, 0, 2, 0, 0, 0⟩,  -- AFE.STATUS
  ⟨8, 1, 4, 0xfffff, 0xfffff, 0, 0, 0, 0x3e8⟩,  -- AFE.RESYNC
  ⟨0xc, 1, 4, 0xffff, 0, 0, 0, 0, 0⟩  -- AFE.VIEPE
  ]

/-- Registers of the block TCH. -/

def regsTch : List RegSpec := [
  ⟨0, 1, 4, 0xc0ff0fff, 0xc0ff0fff, 0, 0, 0, 0⟩,  -- TCH.CFG
  ⟨4, 1, 4, 0xff, 0xff, 0, 0, 0, 0x19⟩,  -- TCH.HYST
  ⟨8, 1, 4, 0xffff, 0xffff, 0, 0, 0, 0x28⟩,  -- TCH.GLITCH
  ⟨0xc, 1, 4, 0xffff, 0xffff, 0, 0, 0, 0x3e8⟩,  -- TCH.TIMEOUT
  ⟨0x10, 1, 4, 0x1fffffff, 0x1fffffff, 0, 0, 0, 0⟩,  -- TCH.DST
  ⟨0x14, 1, 4, 0x3fffff, 0x3fffff, 0, 0, 0, 0⟩,  -- TCH.CTX
  ⟨0x18, 1, 4, 0xffffff80, 0xffffff80, 0, 0, 0, 0⟩,  -- TCH.TOK
  ⟨0x1c, 1, 4, 0xfff, 0xfff, 0, 0, 0, 0⟩,  -- TCH.GRAPH
  ⟨0x20, 1, 4, 0xffffffff, 0xffffffff, 0, 0, 0, 0⟩,  -- TCH.RING_BASE_LO
  ⟨0x24, 1, 4, 0xffffffff, 0xffffffff, 0, 0, 0, 0⟩,  -- TCH.RING_BASE_HI
  ⟨0x28, 1, 4, 0xffffffff, 0, 0, 0, 0, 0⟩,  -- TCH.COUNT_LO
  ⟨0x2c, 1, 4, 0xffffffff, 0, 0, 0, 0, 0⟩,  -- TCH.COUNT_HI
  ⟨0x30, 1, 4, 7, 0, 3, 0, 0, 4⟩  -- TCH.STATUS
  ]

/-- Registers of the block AOUT. -/

def regsAout : List RegSpec := [
  ⟨0, 1, 4, 0x8fff0000, 0x8fff0000, 0, 0, 0x40000000, 0x40000⟩,  -- AOUT.CTRL
  ⟨4, 1, 4, 0xfffff, 0xfffff, 0, 0, 0, 0x3a98⟩,  -- AOUT.OFFSET
  ⟨8, 1, 4, 0xffffffff, 0xffffffff, 0, 0, 0, 0⟩,  -- AOUT.SAFE
  ⟨0xc, 1, 4, 0xfff, 0xfff, 0, 0, 0, 0⟩,  -- AOUT.BIND
  ⟨0x10, 1, 4, 0xffffffff, 0xffffffff, 0, 0, 0, 0⟩,  -- AOUT.REGS
  ⟨0x14, 1, 4, 0xffff01df, 0, 0x1f, 0, 0, 0x100⟩  -- AOUT.STATUS
  ]

/-- Registers of the block TRIP. -/

def regsTrip : List RegSpec := [
  ⟨0, 1, 4, 0xffffffff, 0xffffffff, 0, 0, 0, 0⟩,  -- TRIP.ARM
  ⟨4, 1, 4, 0xffffffff, 0xffffffff, 0, 0, 0, 0⟩,  -- TRIP.FORCE
  ⟨8, 1, 4, 0xffffffff, 0xffffffff, 0, 0, 0, 0xffffffff⟩,  -- TRIP.LATCH
  ⟨0xc, 1, 4, 0, 0, 0, 0, 0xffffffff, 0⟩,  -- TRIP.RESET
  ⟨0x10, 1, 4, 0xffffffff, 0, 0, 0, 0, 0xffffffff⟩,  -- TRIP.DEMAND
  ⟨0x14, 1, 4, 0xffffffff, 0, 0, 0, 0, 0xffffffff⟩,  -- TRIP.READBACK
  ⟨0x18, 1, 4, 0xffffffff, 0, 0xffffffff, 0, 0, 0⟩,  -- TRIP.RBERR
  ⟨0x1c, 1, 4, 0xffffffff, 0, 0xffffffff, 0, 0, 0⟩,  -- TRIP.DISAGREE
  ⟨0x20, 1, 4, 0x3ff, 0x3ff, 0, 0, 0, 0x14⟩,  -- TRIP.RBWIN
  ⟨0x24, 1, 4, 0xffff, 0xffff, 0, 0, 0, 0x3e8⟩,  -- TRIP.WD
  ⟨0x100, 32, 8, 0xfff, 0xfff, 0, 0, 0, 0⟩,  -- TRIP.BIND_L
  ⟨0x104, 32, 8, 0xffffffff, 0xffffffff, 0, 0, 0, 0⟩,  -- TRIP.REGS_L
  ⟨0x200, 32, 4, 0xff, 0, 0, 0, 0, 7⟩  -- TRIP.CAUSE_L
  ]

/-- Registers of the block SEG. -/

def regsSeg : List RegSpec := [
  ⟨0, 1, 4, 0x80ff003f, 0x80ff003f, 0, 0, 0, 0x200020⟩,  -- SEG.CTRL
  ⟨4, 1, 4, 0x3fff, 0x3fff, 0, 0, 0, 0x2134⟩,  -- SEG.BUDGET
  ⟨8, 1, 4, 0x1f, 0, 0x1e, 0, 0, 0⟩,  -- SEG.STATUS
  ⟨0xc, 1, 4, 0xffffffff, 0, 0, 0, 0, 0⟩,  -- SEG.ADMITTED
  ⟨0x10, 1, 4, 0xffffffff, 0xffffffff, 0, 0, 0, 0⟩,  -- SEG.RX_BASE_LO
  ⟨0x14, 1, 4, 0xffffffff, 0xffffffff, 0, 0, 0, 0⟩,  -- SEG.RX_BASE_HI
  ⟨0x18, 1, 4, 0xff0f, 0xff0f, 0, 0, 0, 0x103⟩,  -- SEG.RX_CFG
  ⟨0x1c, 1, 4, 0xffff, 0, 0, 0, 0, 0⟩,  -- SEG.RX_HEAD
  ⟨0x20, 1, 4, 0xffff, 0xffff, 0, 0, 0, 0⟩  -- SEG.RX_TAIL
  ]

/-- Registers of the block SEGROLL. -/

def regsSegRoll : List RegSpec := [
  ⟨0x800, 1, 4, 0xffff, 0xffff, 0, 0, 0, 0x3e8⟩  -- SEG.ROLL
  ]

/-- Registers of the block ING. -/

def regsIng : List RegSpec := [
  ⟨0, 1, 4, 3, 3, 0, 0, 0, 3⟩,  -- ING.CTRL
  ⟨4, 1, 4, 0xffff, 0xffff, 0, 0, 0, 0x88b6⟩,  -- ING.ETYPE
  ⟨8, 1, 4, 0xffff, 0xffff, 0, 0, 0, 0xb9a0⟩,  -- ING.UDP_PORT
  ⟨0xc, 1, 4, 0xffffffff, 0xffffffff, 0, 0, 0, 0x3c000000⟩,  -- ING.FT_BASE_LO
  ⟨0x10, 1, 4, 0xffffffff, 0xffffffff, 0, 0, 0, 0⟩,  -- ING.FT_BASE_HI
  ⟨0x14, 1, 4, 0xffffffff, 0xffffffff, 0, 0, 0, 0⟩,  -- ING.RING_BASE_LO
  ⟨0x18, 1, 4, 0xffffffff, 0xffffffff, 0, 0, 0, 1⟩,  -- ING.RING_BASE_HI
  ⟨0x1c, 1, 4, 0xfffff, 0xfffff, 0, 0, 0, 0x80000⟩,  -- ING.FLOW_LO
  ⟨0x20, 1, 4, 0xfffff, 0xfffff, 0, 0, 0, 0xfffff⟩,  -- ING.FLOW_HI
  ⟨0x24, 1, 4, 0x1fffff, 0, 0, 0, 0, 0x80000⟩,  -- ING.FREE
  ⟨0x28, 1, 4, 0x1ffff, 0, 0, 0, 0, 0⟩,  -- ING.BOUND
  ⟨0x2c, 1, 4, 0xffff, 0xffff, 0, 0, 0, 0xbb8⟩,  -- ING.GONE
  ⟨0x30, 1, 4, 0x3f, 0, 0x1f, 0, 0, 0⟩,  -- ING.STATUS
  ⟨0x34, 1, 4, 0xffff07ff, 0, 0, 0, 0, 0⟩,  -- ING.CR_STAT
  ⟨0x38, 1, 4, 0xffffffff, 0, 0, 0, 0, 0⟩,  -- ING.CR_DATA
  ⟨0x3c, 1, 4, 0, 0, 0, 0, 1, 0⟩,  -- ING.CR_CTRL
  ⟨0x40, 1, 4, 0, 0, 0, 0, 0xffffffff, 0⟩,  -- ING.TX_DATA
  ⟨0x44, 1, 4, 0x4000f7ff, 0xf7ff, 0, 0, 0x80000000, 0⟩,  -- ING.TX_CTRL
  ⟨0x50, 1, 4, 0xfffff, 0xfffff, 0, 0, 0, 0⟩,  -- ING.FT_SEL
  ⟨0x60, 16, 4, 0xffffffff, 0xffffffff, 0, 0, 0, 0⟩,  -- ING.FT_DATA0–ING.FT_DATA15
  ⟨0xa0, 1, 4, 4, 0, 4, 0, 3, 0⟩  -- ING.FT_CTRL
  ]

/-- Registers of the block ETH. -/

def regsEth : List RegSpec := [
  ⟨0, 1, 4, 0x3f, 0x3f, 0, 0, 0, 0x28⟩,  -- ETH.MODE
  ⟨4, 1, 4, 0xff, 0, 0xf0, 0, 0, 0⟩,  -- ETH.LINK
  ⟨8, 1, 4, 0xff07, 0xff07, 0, 0, 0, 7⟩,  -- ETH.QOS
  ⟨0xc, 1, 4, 0x3fff, 0x3fff, 0, 0, 0, 0x2400⟩,  -- ETH.MAXFRAME
  ⟨0x10, 8, 4, 0xffffffff, 0xffffffff, 0, 0, 0, 0⟩,  -- ETH.MAC0_LO–ETH.MAC3_HI
  ⟨0x30, 1, 4, 0xffffffff, 0xffffffff, 0, 0, 0, 0x30000000⟩,  -- ETH.HOST_BASE_LO
  ⟨0x34, 1, 4, 0xffffffff, 0xffffffff, 0, 0, 0, 0⟩,  -- ETH.HOST_BASE_HI
  ⟨0x38, 1, 4, 0xff00ff, 0xff0000, 0, 0, 0, 0⟩,  -- ETH.HOST_PTR
  ⟨0x3c, 1, 4, 0xffffffff, 0xffffffff, 0, 0, 0, 0⟩,  -- ETH.TX_ADDR_LO
  ⟨0x40, 1, 4, 0xffffffff, 0xffffffff, 0, 0, 0, 0⟩,  -- ETH.TX_ADDR_HI
  ⟨0x44, 1, 4, 0x6000ffff, 0x2000ffff, 0, 0, 0x80000000, 0⟩,  -- ETH.TX_CTRL
  ⟨0x48, 1, 4, 0xf, 0, 0xf, 0, 0, 0⟩,  -- ETH.STATUS
  ⟨0x4c, 1, 4, 0x3f, 0x3f, 0, 0, 0, 0⟩,  -- ETH.STAT_SEL
  ⟨0x50, 1, 4, 0xffffffff, 0, 0, 0, 0, 0⟩,  -- ETH.STAT_LO
  ⟨0x54, 1, 4, 0xffffffff, 0, 0, 0, 0, 0⟩,  -- ETH.STAT_HI
  ⟨0x58, 1, 4, 0xffffffff, 0, 0, 0, 0, 0⟩,  -- ETH.TX_TS_LO
  ⟨0x5c, 1, 4, 0xffffffff, 0, 0, 0, 0, 0⟩,  -- ETH.TX_TS_HI
  ⟨0x60, 1, 4, 0xf, 0xf, 0, 0, 0, 0⟩,  -- ETH.MSEC_CTRL
  ⟨0x64, 1, 4, 0x3ff, 0x3ff, 0, 0, 0, 0⟩,  -- ETH.MSEC_SEL
  ⟨0x68, 1, 4, 0xc00000ff, 0xc00000ff, 0, 0, 0, 0⟩,  -- ETH.MSEC_SA
  ⟨0x6c, 1, 4, 0xffffffff, 0xffffffff, 0, 0, 0, 1⟩,  -- ETH.MSEC_PN_LO
  ⟨0x70, 1, 4, 0xffffffff, 0xffffffff, 0, 0, 0, 0⟩,  -- ETH.MSEC_PN_HI
  ⟨0x74, 1, 4, 0xffffffff, 0xffffffff, 0, 0, 0, 0⟩,  -- ETH.MSEC_SCI_LO
  ⟨0x78, 1, 4, 0xffffffff, 0xffffffff, 0, 0, 0, 0⟩  -- ETH.MSEC_SCI_HI
  ]

/-- Registers of the block PTP. -/

def regsPtp : List RegSpec := [
  ⟨0, 1, 4, 0xffffffff, 0, 0, 0, 0, 0⟩,  -- PTP.TIME_LO
  ⟨4, 1, 4, 0xffffffff, 0, 0, 0, 0, 0⟩,  -- PTP.TIME_HI
  ⟨8, 1, 4, 0, 0, 0, 0, 0xffffffff, 0⟩,  -- PTP.STEP_LO
  ⟨0xc, 1, 4, 0, 0, 0, 0, 0xffffffff, 0⟩,  -- PTP.STEP_HI
  ⟨0x10, 1, 4, 0xffffffff, 0xffffffff, 0, 0, 0, 0⟩,  -- PTP.ADJ
  ⟨0x14, 1, 4, 3, 3, 0, 0, 0, 1⟩,  -- PTP.CTRL
  ⟨0x18, 1, 4, 0xffff, 0xffff, 0, 0, 0, 0xa⟩,  -- PTP.PPS_OUT
  ⟨0x1c, 1, 4, 0xffffffff, 0, 0, 0, 0, 0⟩,  -- PTP.PPS_IN_LO
  ⟨0x20, 1, 4, 0xffffffff, 0, 0, 0, 0, 0⟩,  -- PTP.PPS_IN_HI
  ⟨0x24, 1, 4, 0xe7, 0x87, 0, 0, 0, 0⟩,  -- PTP.SYNCE
  ⟨0x28, 1, 4, 7, 0, 7, 0, 0, 0⟩  -- PTP.STATUS
  ]

/-- Registers of the block RLY. -/

def regsRly : List RegSpec := [
  ⟨0, 1, 4, 0x3fff, 0x3fff, 0, 0, 0, 0⟩,  -- RLY.DEV
  ⟨4, 1, 4, 0xffffffff, 0xffffffff, 0, 0, 0, 0⟩,  -- RLY.SYSID
  ⟨8, 1, 4, 0xffff, 0xffff, 0, 0, 0, 0x88b5⟩,  -- RLY.ETYPE
  ⟨0xc, 1, 4, 0xffffffff, 0xffffffff, 0, 0, 0, 0x7d00032⟩,  -- RLY.COAL
  ⟨0x10, 1, 4, 0xff0fffff, 0xff0fffff, 0, 0, 0, 0x100000c8⟩,  -- RLY.RTO
  ⟨0x14, 1, 4, 0xffff, 0xffff, 0, 0, 0, 0x64⟩,  -- RLY.HOLD
  ⟨0x18, 1, 4, 0xffffffff, 0xffffffff, 0, 0, 0, 0x34000000⟩,  -- RLY.TXQ_BASE_LO
  ⟨0x1c, 1, 4, 0xffffffff, 0xffffffff, 0, 0, 0, 0⟩,  -- RLY.TXQ_BASE_HI
  ⟨0x20, 1, 4, 0xffffffff, 0xffffffff, 0, 0, 0, 0x38000000⟩,  -- RLY.RXQ_BASE_LO
  ⟨0x24, 1, 4, 0xffffffff, 0xffffffff, 0, 0, 0, 0⟩,  -- RLY.RXQ_BASE_HI
  ⟨0x28, 1, 4, 7, 7, 0, 0, 0, 0⟩,  -- RLY.QSIZE
  ⟨0x2c, 1, 4, 0xff, 0xff, 0, 0, 0, 0⟩,  -- RLY.PEER_SEL
  ⟨0x30, 1, 4, 0xffffffff, 0xffffffff, 0, 0, 0, 0x6000400⟩,  -- RLY.PEER_CFG
  ⟨0x34, 1, 4, 0xffffffff, 0xffffffff, 0, 0, 0, 0⟩,  -- RLY.PEER_MAC_LO
  ⟨0x38, 1, 4, 0xffffffff, 0xffffffff, 0, 0, 0, 0⟩,  -- RLY.PEER_MAC_HI
  ⟨0x3c, 1, 4, 0xc0003fff, 0, 0, 0, 0, 0⟩,  -- RLY.PEER_STATE
  ⟨0x40, 1, 4, 0xffffffff, 0xffffffff, 0, 0, 0, 0⟩,  -- RLY.PEER_LOST
  ⟨0x44, 1, 4, 0x3fff, 0x3fff, 0, 0, 0, 0⟩,  -- RLY.ROUTE_SEL
  ⟨0x48, 1, 4, 0xc00000ff, 0x800000ff, 0, 0, 0, 0⟩,  -- RLY.ROUTE
  ⟨0x50, 8, 4, 0xffffffff, 0, 0xffffffff, 0, 0, 0⟩,  -- RLY.DOWN0–RLY.DOWN7
  ⟨0x70, 1, 4, 0x3f, 0x3f, 0, 0, 0, 0⟩,  -- RLY.HZ_SEL
  ⟨0x74, 1, 4, 0xc0000fff, 0xc0000fff, 0, 0, 0, 0⟩,  -- RLY.HZ_LOCAL
  ⟨0x78, 1, 4, 0x3ffffff, 0x3ffffff, 0, 0, 0, 0⟩,  -- RLY.HZ_REMOTE
  ⟨0x7c, 1, 4, 0xf, 0, 0xe, 0, 0, 0⟩  -- RLY.STATUS
  ]

/-- Registers of the block CMD. -/

def regsCmd : List RegSpec := [
  ⟨0, 1, 4, 3, 3, 0, 0, 0, 3⟩,  -- CMD.CTRL
  ⟨4, 1, 4, 0xffff, 0xffff, 0, 0, 0, 0x88b7⟩,  -- CMD.ETYPE
  ⟨8, 1, 4, 0xffff, 0xffff, 0, 0, 0, 0xb9a1⟩,  -- CMD.UDP_PORT
  ⟨0xc, 1, 4, 0x3fff, 0x3fff, 0, 0, 0, 0x564⟩,  -- CMD.FRAG
  ⟨0x10, 1, 4, 0xffff, 0xffff, 0, 0, 0, 0x258⟩,  -- CMD.IDLE
  ⟨0x14, 1, 4, 0xffffffff, 0xffffffff, 0, 0, 0, 0⟩,  -- CMD.STAGE_BASE_LO
  ⟨0x18, 1, 4, 0xffffffff, 0xffffffff, 0, 0, 0, 0⟩,  -- CMD.STAGE_BASE_HI
  ⟨0x1c, 1, 4, 7, 7, 0, 0, 0, 0⟩,  -- CMD.STAGE_SIZE
  ⟨0x20, 1, 4, 0x7007f, 0, 0, 0, 0, 0⟩,  -- CMD.SESSIONS
  ⟨0x24, 1, 4, 0xf, 0, 0xf, 0, 0, 0⟩,  -- CMD.STATUS
  ⟨0x28, 1, 4, 0x3f, 0x3f, 0, 0, 0, 0⟩,  -- CMD.SESS_SEL
  ⟨0x2c, 1, 4, 0xf8ff00ff, 0, 0, 0, 0, 0⟩,  -- CMD.SESS_INFO
  ⟨0x30, 1, 4, 0xffffffff, 0, 0, 0, 0, 0⟩,  -- CMD.SESS_SEQ
  ⟨0x34, 1, 4, 0x7f, 0, 0, 0, 0, 0⟩  -- CMD.QUIESCE
  ]

/-- Registers of the block RST. -/

def regsRst : List RegSpec := [
  ⟨0, 1, 4, 0x3ff, 0, 0, 0, 0, 0x201⟩,  -- RST.CAUSE
  ⟨4, 1, 4, 0xf, 0, 0xc, 0, 0, 0⟩,  -- RST.STATUS
  ⟨8, 1, 4, 0, 0, 0, 0, 0xffff0003, 0⟩,  -- RST.SWRST
  ⟨0xc, 1, 4, 0x3fff, 0x3fff, 0, 0, 0, 0⟩,  -- RST.HUB_SRST
  ⟨0x10, 1, 4, 0xffff, 0xffff, 0, 0, 0, 0⟩,  -- RST.RGN_SRST
  ⟨0x14, 1, 4, 0x800fffff, 0xfffff, 0, 0x80000000, 0, 0x800007d0⟩,  -- RST.WDOG
  ⟨0x18, 1, 4, 0, 0, 0, 0, 0xffff, 0⟩,  -- RST.WDOG_KICK
  ⟨0x1c, 1, 4, 0xff, 0xff, 0, 0, 0, 0x64⟩,  -- RST.THERM
  ⟨0x20, 1, 4, 0xffff, 0xffff, 0, 0, 0, 0xa⟩,  -- RST.CVTO
  ⟨0x24, 1, 4, 0x3fff, 0, 0, 0, 0, 0⟩  -- RST.CVALID
  ]

/-- Registers of the block BAK. -/

def regsBak : List RegSpec := [
  ⟨0, 1, 4, 3, 0, 1, 0, 0, 1⟩,  -- RST.BAK_STATUS
  ⟨4, 1, 4, 0xffffffff, 0, 0, 0xffffffff, 0, 0⟩,  -- RST.BAK_COUNT
  ⟨8, 1, 4, 0xf, 0, 0, 0xf, 0, 0⟩,  -- RST.BAK_FSC
  ⟨0xc, 1, 4, 0xf, 0, 0, 0, 0, 0⟩,  -- RST.BAK_HIST_PTR
  ⟨0x10, 1, 4, 0xffffffff, 0xffffffff, 0, 0, 0, 0⟩,  -- RST.BAK_RTC_LO
  ⟨0x14, 1, 4, 0xffff, 0xffff, 0, 0, 0, 0⟩,  -- RST.BAK_RTC_HI
  ⟨0x18, 1, 4, 0x7fff, 0, 0, 0, 0, 0⟩,  -- RST.BAK_RTC_SUB
  ⟨0x20, 1, 4, 0xf, 0, 0, 0xf, 0, 0⟩,  -- BOOT.BAK_FSLIM
  ⟨0x40, 16, 8, 0xffffffff, 0, 0, 0, 0, 0⟩,  -- RST.BAK_HIST_LOk
  ⟨0x44, 16, 8, 0xffffffff, 0, 0, 0, 0, 0⟩  -- RST.BAK_HIST_HIk
  ]

/-- Registers of the block PWR. -/

def regsPwr : List RegSpec := [
  ⟨0, 1, 4, 0xffff, 0xffff, 0, 0, 0, 0⟩,  -- PWR.OPEN
  ⟨4, 1, 4, 0xffffffff, 0, 0, 0, 0, 0⟩,  -- PWR.RGN_STATUS
  ⟨8, 1, 4, 3, 0, 3, 0, 0, 0⟩,  -- PWR.STATUS
  ⟨0xc, 1, 4, 0xfffff, 0xfffff, 0, 0, 0, 0x64⟩,  -- PWR.DRAIN
  ⟨0x100, 48, 4, 0xf, 1, 2, 0, 0, 0⟩  -- PWR.DOM_k
  ]

/-- Registers of the block BOOT. -/

def regsBoot : List RegSpec := [
  ⟨0, 1, 4, 0x1f, 0, 0, 0, 0, 0⟩,  -- BOOT.STRAP
  ⟨4, 1, 4, 1, 0, 0, 1, 2, 0⟩,  -- BOOT.CTRL
  ⟨8, 1, 4, 0xffff, 0, 0, 0, 0, 0⟩,  -- BOOT.STATUS
  ⟨0xc, 1, 4, 0xfff, 0, 0, 0xfff, 0, 0x1e⟩,  -- BOOT.WINDOW
  ⟨0x10, 1, 4, 0xff, 0, 0, 0, 0, 0⟩,  -- BOOT.SLOTERR
  ⟨0x14, 1, 4, 0xffff, 0xffff, 0, 0, 0, 1⟩,  -- BOOT.WU_ANN
  ⟨0x18, 1, 4, 0xffffffff, 0xffffffff, 0, 0, 0, 0x20000000⟩,  -- BOOT.HBM_IMG_LO
  ⟨0x1c, 1, 4, 0xffffffff, 0xffffffff, 0, 0, 0, 0⟩  -- BOOT.HBM_IMG_HI
  ]

/-- Registers of the block FLASH. -/

def regsFlash : List RegSpec := [
  ⟨0, 1, 4, 0x3ffffff, 0x3ffffff, 0, 0, 0, 0⟩,  -- BOOT.FL_ADDR
  ⟨4, 1, 4, 0xffffff, 0xffffff, 0, 0, 0, 0⟩,  -- BOOT.FL_LEN
  ⟨8, 1, 4, 0xffffffff, 0xffffffff, 0, 0, 0, 0⟩,  -- BOOT.FL_BUF_LO
  ⟨0xc, 1, 4, 0xffffffff, 0xffffffff, 0, 0, 0, 0⟩,  -- BOOT.FL_BUF_HI
  ⟨0x10, 1, 4, 3, 3, 0, 0, 0x80000000, 0⟩,  -- BOOT.FL_CTRL
  ⟨0x14, 1, 4, 7, 0, 6, 0, 0, 0⟩  -- BOOT.FL_STATUS
  ]

/-- Registers of the block SEC. -/

def regsSec : List RegSpec := [
  ⟨0, 1, 4, 1, 0, 0, 0, 0, 0⟩,  -- SEC.LOCK
  ⟨4, 1, 4, 0xd, 0, 0, 1, 0, 1⟩,  -- SEC.DEBUG
  ⟨0x10, 1, 4, 0xf, 0xf, 0, 0, 0, 0⟩,  -- SEC.WIN_SEL
  ⟨0x14, 1, 4, 0xffffffff, 0, 0, 0xffffffff, 0, 0⟩,  -- SEC.WIN_BASE_LO
  ⟨0x18, 1, 4, 0xffffffff, 0, 0, 0xffffffff, 0, 0⟩,  -- SEC.WIN_BASE_HI
  ⟨0x1c, 1, 4, 0xffffffff, 0, 0, 0xffffffff, 0, 0⟩,  -- SEC.WIN_LIMIT_LO
  ⟨0x20, 1, 4, 0xffffffff, 0, 0, 0xffffffff, 0, 0⟩,  -- SEC.WIN_LIMIT_HI
  ⟨0x24, 1, 4, 0x1ff, 0, 0, 0x1ff, 0, 0⟩,  -- SEC.WIN_PERM
  ⟨0x40, 1, 4, 0xff, 0xff, 0, 0, 0, 0⟩,  -- SEC.KEY_SEL
  ⟨0x44, 1, 4, 0x7f3, 0, 0, 0x7f0, 0, 0⟩,  -- SEC.KEY_INFO
  ⟨0x50, 16, 4, 0, 0, 0, 0xffffffff, 0, 0⟩,  -- SEC.KEY_DATA0–SEC.KEY_DATA15
  ⟨0x90, 1, 4, 0, 0, 0, 0, 3, 0⟩,  -- SEC.KEY_CTRL
  ⟨0xa0, 1, 4, 0x7f, 0, 0, 0, 0, 0⟩,  -- SEC.SECVER
  ⟨0xa4, 1, 4, 0, 0, 0, 0, 0x7f, 0⟩,  -- SEC.SECVER_BURN
  ⟨0xb0, 1, 4, 0, 0, 0, 0, 0xffffffff, 0⟩,  -- SEC.MEAS_CTRL
  ⟨0xc0, 12, 4, 0, 0, 0, 0, 0xffffffff, 0⟩,  -- SEC.MEAS_D0–SEC.MEAS_D11
  ⟨0xf0, 1, 4, 0x7ff, 0, 0, 0, 0, 0⟩,  -- SEC.MEAS_COUNT
  ⟨0xf4, 1, 4, 0xf, 0, 0xa, 0, 0, 0⟩  -- SEC.STATUS
  ]

/-- Registers of the block EVT. -/

def regsEvt : List RegSpec := [
  ⟨0, 1, 4, 0x3ff, 0x3ff, 0, 0, 0, 0⟩,  -- EVT.SEL
  ⟨4, 1, 4, 0xc000000f, 0xc000000f, 0, 0, 0, 8⟩,  -- EVT.CFG
  ⟨8, 1, 4, 0x1fffffff, 0x1fffffff, 0, 0, 0, 0⟩,  -- EVT.DST
  ⟨0xc, 1, 4, 0xfff, 0xfff, 0, 0, 0, 0⟩,  -- EVT.GRAPH
  ⟨0x10, 1, 4, 0x3fffff, 0x3fffff, 0, 0, 0, 0⟩,  -- EVT.CTX
  ⟨0x14, 1, 4, 0x7ffffff, 0, 0, 0, 0, 0⟩,  -- EVT.CAUSE
  ⟨0x18, 1, 4, 0xffff, 0xffff, 0, 0, 0, 0⟩,  -- EVT.COUNT
  ⟨0x1c, 1, 4, 1, 0, 1, 0, 0, 0⟩,  -- EVT.STATUS
  ⟨0x100, 32, 4, 0xffffffff, 0, 0xffffffff, 0, 0, 0⟩  -- EVT.PEND0–EVT.PEND31
  ]

/-- Registers of the block HLT. -/

def regsHlt : List RegSpec := [
  ⟨0, 1, 4, 0xff03, 0, 0, 0, 0, 0⟩,  -- HLT.STATE
  ⟨4, 1, 4, 0, 0, 0, 0, 1, 0⟩,  -- HLT.CTRL
  ⟨8, 1, 4, 0xffff, 0xffff, 0, 0, 0, 0x64⟩,  -- HLT.HB
  ⟨0xc, 1, 4, 0xffffffff, 0xffffffff, 0, 0, 0, 0⟩,  -- HLT.JRN_BASE_LO
  ⟨0x10, 1, 4, 0xffffffff, 0xffffffff, 0, 0, 0, 5⟩,  -- HLT.JRN_BASE_HI
  ⟨0x14, 1, 4, 7, 7, 0, 0, 0, 6⟩,  -- HLT.JRN_SIZE
  ⟨0x18, 1, 4, 0x7ffffff, 0, 0, 0, 0, 0⟩,  -- HLT.JRN_USED
  ⟨0x1c, 1, 4, 0xff, 0xff, 0, 0, 0, 0xe0⟩,  -- HLT.JRN_THROTTLE
  ⟨0x20, 1, 4, 0xffffffff, 0xffffffff, 0, 0, 0, 0⟩,  -- HLT.LOST
  ⟨0x24, 1, 4, 0xffffffff, 0xffffffff, 0, 0, 0, 0⟩,  -- HLT.REPLAYS
  ⟨0x28, 1, 4, 0xfff, 0xfff, 0, 0, 0, 0⟩,  -- HLT.GRAPH_SEL
  ⟨0x2c, 1, 4, 0x800100ff, 0x800100ff, 0, 0, 0, 0⟩,  -- HLT.GRAPH_CFG
  ⟨0x30, 1, 4, 0xfff, 0xfff, 0, 0, 0, 0⟩,  -- HLT.OUT_SEL
  ⟨0x34, 1, 4, 0xc000000f, 0xc000000f, 0, 0, 0, 0⟩,  -- HLT.OUT_CFG
  ⟨0x38, 1, 4, 0xffffffff, 0xffffffff, 0, 0, 0, 0⟩,  -- HLT.OUT_BASE_LO
  ⟨0x3c, 1, 4, 0xffffffff, 0xffffffff, 0, 0, 0, 0⟩,  -- HLT.OUT_BASE_HI
  ⟨0x40, 1, 4, 0x1fffffff, 0x1fffffff, 0, 0, 0, 0⟩,  -- HLT.OUT_DST
  ⟨0x44, 1, 4, 0xffffffff, 0, 0, 0, 0, 0⟩,  -- HLT.OUT_HEAD
  ⟨0x48, 1, 4, 0xffffffff, 0xffffffff, 0, 0, 0, 0⟩,  -- HLT.OUT_TAIL
  ⟨0x4c, 1, 4, 0x1ffff, 0, 0, 0, 0, 0⟩  -- HLT.PEND
  ]

/-- The registers of a block. -/
def Blk.regs : Blk → List RegSpec
  | .clu => regsClu
  | .rgn => regsRgn
  | .dief => regsDief
  | .fu => regsFu
  | .ctx => regsCtx
  | .node => regsNode
  | .sch => regsSch
  | .pac => regsPac
  | .gw => regsGw
  | .stw => regsStw
  | .se => regsSe
  | .rc => regsRc
  | .spm => regsSpm
  | .hbm => regsHbm
  | .lck => regsLck
  | .dma => regsDma
  | .dmaCh => regsDmaCh
  | .noc => regsNoc
  | .afe => regsAfe
  | .afeCtl => regsAfeCtl
  | .tch => regsTch
  | .aout => regsAout
  | .trip => regsTrip
  | .seg => regsSeg
  | .segRoll => regsSegRoll
  | .ing => regsIng
  | .eth => regsEth
  | .ptp => regsPtp
  | .rly => regsRly
  | .cmd => regsCmd
  | .rst => regsRst
  | .bak => regsBak
  | .pwr => regsPwr
  | .boot => regsBoot
  | .flash => regsFlash
  | .sec => regsSec
  | .evt => regsEvt
  | .hlt => regsHlt

/-- Where an address leads: the block, which of its kind, the offset inside, the place in a run of like registers. -/
structure RegLoc where
  blk  : Blk
  inst : Nat
  off  : Nat
  idx  : Nat
  spec : RegSpec
  deriving DecidableEq, Repr

/-- The row that holds offset `o`. -/
def findReg (o : Nat) : List RegSpec → Option (RegSpec × Nat)
  | [] => none
  | r :: rs =>
    if r.off ≤ o ∧ (o - r.off) % r.stride = 0 ∧ (o - r.off) / r.stride < r.cnt then some (r, (o - r.off) / r.stride)
    else findReg o rs

def configBase : Nat := 0x2000000000
def hubBase : Nat := 0x2008000000
def measBase : Nat := 0x200A000000
def bakBase : Nat := 0x4002000000

/-! Physical addresses of registers by block (R37 to R39). `t` is a physical tile. -/
def regionAddr (g : Nat) : Nat := configBase + (g / 4) * 0x2000000 + (g % 4) * 0x400000
def tileAddr (g t o : Nat) : Nat := regionAddr g + t * 0x20000 + o
def cluReg (g t o : Nat) : Nat := tileAddr g t o
def schReg (g t o : Nat) : Nat := tileAddr g t (0x1000 + o)
def fuReg (g t f o : Nat) : Nat := tileAddr g t (0x10000 + f * 0x1000 + o)
def rcReg (g t o : Nat) : Nat := tileAddr g t (0x18000 + o)
def seReg (g t o : Nat) : Nat := tileAddr g t (0x19000 + o)
def spmReg (g t o : Nat) : Nat := tileAddr g t (0x1A000 + o)
def nodeReg (g t o : Nat) : Nat := tileAddr g t (0x1B000 + o)
def ctxReg (g o : Nat) : Nat := regionAddr g + 0x300000 + o
def lckReg (g o : Nat) : Nat := regionAddr g + 0x310000 + o
def dmaReg (g o : Nat) : Nat := regionAddr g + 0x320000 + o
def dmaChReg (g c o : Nat) : Nat := dmaReg g (0x400 + c * 0x80 + o)
def pacReg (g o : Nat) : Nat := regionAddr g + 0x330000 + o
def gwReg (g o : Nat) : Nat := regionAddr g + 0x340000 + o
def stwReg (g o : Nat) : Nat := regionAddr g + 0x350000 + o
def rgnReg (g o : Nat) : Nat := regionAddr g + 0x360000 + o
def diefReg (d o : Nat) : Nat := configBase + d * 0x2000000 + 0x1000000 + o
/-- The NOC block of die fabric 0 to 3, or of the hub fabric (4). -/
def nocReg (d o : Nat) : Nat := if d = 4 then hubBase + 0xF00000 + o else configBase + d * 0x2000000 + 0x1100000 + o
def ethReg (p o : Nat) : Nat := hubBase + p * 0x100000 + o
def ptpReg (o : Nat) : Nat := hubBase + 0x200000 + o
def rlyReg (o : Nat) : Nat := hubBase + 0x300000 + o
def ingReg (o : Nat) : Nat := hubBase + 0x400000 + o
def cmdReg (o : Nat) : Nat := hubBase + 0x500000 + o
def hbmReg (k o : Nat) : Nat := hubBase + 0x600000 + k * 0x100000 + o
def rstReg (o : Nat) : Nat := hubBase + 0x800000 + o
def pwrReg (o : Nat) : Nat := hubBase + 0x801000 + o
def bootReg (o : Nat) : Nat := hubBase + 0x900000 + o
def secReg (o : Nat) : Nat := hubBase + 0xA00000 + o
def evtReg (o : Nat) : Nat := hubBase + 0xB00000 + o
def hltReg (o : Nat) : Nat := hubBase + 0xC00000 + o
def segReg (k o : Nat) : Nat := hubBase + 0xD00000 + k * 0x100 + o
def segRollReg : Nat := hubBase + 0xD00800
def flashReg (o : Nat) : Nat := hubBase + 0xE00000 + o
def afeReg (n o : Nat) : Nat := measBase + n * 0x1000 + o
def tchReg (t o : Nat) : Nat := measBase + 0x100000 + t * 0x100 + o
def aoutReg (m o : Nat) : Nat := measBase + 0x200000 + m * 0x100 + o
def tripReg (o : Nat) : Nat := measBase + 0x300000 + o
def afeCtlReg (o : Nat) : Nat := measBase + 0x400000 + o
def bakReg (o : Nat) : Nat := bakBase + o

/-- Block, number of its kind and offset of a configuration address; none where nothing is implemented (R11). The
number is the tile's (17 × region + tile) for tile blocks, 8 × that + FU for FUs, the global region for region
blocks, 32 × region + channel for DMA channels. -/
def blkOf (a : Nat) : Option (Blk × Nat × Nat) :=
  if configBase ≤ a ∧ a < hubBase then
    let d := (a - configBase) / 0x2000000
    let w := (a - configBase) % 0x2000000
    if w < 0x1000000 then
      let g := d * 4 + w / 0x400000
      let r := w % 0x400000
      if r < 0x220000 then
        let t := r / 0x20000
        let o := r % 0x20000
        let k := g * 17 + t
        if o < 0x1000 then some (.clu, k, o)
        else if o < 0x2000 then some (.sch, k, o - 0x1000)
        else if o < 0x10000 then none
        else if o < 0x18000 then some (.fu, k * 8 + (o - 0x10000) / 0x1000, o % 0x1000)
        else if o < 0x19000 then some (.rc, k, o - 0x18000)
        else if o < 0x1A000 then some (.se, k, o - 0x19000)
        else if o < 0x1B000 then some (.spm, k, o - 0x1A000)
        else if o < 0x1C000 then some (.node, k, o - 0x1B000)
        else none
      else if r < 0x300000 then none
      else
        let o := r % 0x10000
        match (r - 0x300000) / 0x10000 with
        | 0 => some (.ctx, g, o)
        | 1 => some (.lck, g, o)
        | 2 => if o < 0x400 then some (.dma, g, o)
               else if (o - 0x400) / 0x80 < 32 then some (.dmaCh, g * 32 + (o - 0x400) / 0x80, (o - 0x400) % 0x80) else none
        | 3 => some (.pac, g, o)
        | 4 => some (.gw, g, o)
        | 5 => some (.stw, g, o)
        | 6 => some (.rgn, g, o)
        | _ => none
    else if w < 0x1100000 then some (.dief, d, w - 0x1000000)
    else if w < 0x1200000 then some (.noc, d, w - 0x1100000)
    else none
  else if hubBase ≤ a ∧ a < measBase then
    let o := (a - hubBase) % 0x100000
    match (a - hubBase) / 0x100000 with
    | 0 => some (.eth, 0, o)
    | 1 => some (.eth, 1, o)
    | 2 => some (.ptp, 0, o)
    | 3 => some (.rly, 0, o)
    | 4 => some (.ing, 0, o)
    | 5 => some (.cmd, 0, o)
    | 6 => some (.hbm, 0, o)
    | 7 => some (.hbm, 1, o)
    | 8 => if o < 0x1000 then some (.rst, 0, o) else some (.pwr, 0, o - 0x1000)
    | 9 => some (.boot, 0, o)
    | 10 => some (.sec, 0, o)
    | 11 => some (.evt, 0, o)
    | 12 => some (.hlt, 0, o)
    | 13 => if o < 0x800 then some (.seg, o / 0x100, o % 0x100) else some (.segRoll, 0, o)
    | 14 => some (.flash, 0, o)
    | 15 => some (.noc, 4, o)
    | _ => none
  else if measBase ≤ a ∧ a < measBase + 0x500000 then
    let w := a - measBase
    if w < 0x40000 then some (.afe, w / 0x1000, w % 0x1000)
    else if w < 0x100000 then none
    else if w < 0x200000 then (if (w - 0x100000) / 0x100 < 8 then some (.tch, (w - 0x100000) / 0x100, w % 0x100) else none)
    else if w < 0x300000 then (if (w - 0x200000) / 0x100 < 16 then some (.aout, (w - 0x200000) / 0x100, w % 0x100) else none)
    else if w < 0x400000 then some (.trip, 0, w - 0x300000)
    else some (.afeCtl, 0, w - 0x400000)
  else if bakBase ≤ a ∧ a < bakBase + 0x1000000 then some (.bak, 0, a - bakBase)
  else none

/-- The register at an address, if one is implemented there. -/
def regLoc (a : Nat) : Option RegLoc :=
  match blkOf a with
  | none => none
  | some (b, k, o) =>
    match findReg o b.regs with
    | none => none
    | some (r, j) => some ⟨b, k, o, j, r⟩

end Sys2Proof.Machine
end

