-- ==== Sys2Proof/Machine/State.lean ====
section
/-!
DEFINITION. The state of the DN9640 block, as plain data: every register, memory, queue, table, counter and pin the
spec gives it (INVENTORY.md, State, lists them with their rules), the waiting commands, and the state after reset.
-/
namespace Sys2Proof.Machine

/-! ### Firing units (02, 03, 05) -/

/-- An entry of an exchange-store slice (R61). STATE 1 waiting, 2 waiting in the protection pool. -/
structure Entry where
  tok : Token := {}
  age : Nat := 0
  st  : BitVec 4 := 1
  deriving DecidableEq, Repr, Inhabited

/-- An enabled firing: its node slot and the consumed tokens by port, lowest port first (R67, R168). -/
structure Firing where
  slot : BitVec 15 := 0
  toks : List (Nat × Token) := []
  deriving DecidableEq, Repr, Inhabited

/-- An item of a ready queue (R168): its level, the FU that holds its node, and for the Runner and Stride queues the
descriptor with which its execute stage dispatched it (R122, R248). -/
structure Item where
  lvl  : Nat := 0
  fu   : Nat := 0
  desc : BitVec 128 := 0
  fir  : Firing := {}
  deriving DecidableEq, Repr, Inhabited

/-- A firing at the node fetch stage with its descriptors (R103, R116): `desc` none is an uncorrectable descriptor
whose slot is `ue`. `asked` is the tag with which it asked a context pool. -/
structure Fetched where
  fir    : Firing := {}
  desc   : Option (BitVec 128) := none
  ext    : List (BitVec 128) := []
  ue     : BitVec 15 := 0
  cycle  : Nat := 0
  asked  : Option Nat := none
  deriving DecidableEq, Repr, Inhabited

/-- What a firing hands to token form and send (R101, R166): its tokens in order, the flags for its context
(R100), whether its context is faulted (R109), whether its service ends with these tokens (R179), whether they go through
the relay link block whatever their DEV (R121), and the n of a DELAY whose pacer takes them (R190, R192). -/
structure Result where
  toks  : List Token := []
  ctx   : BitVec 22 := 0
  flags : BitVec 5 := 0
  fault : Bool := false
  flow  : BitVec 20 := 0
  ends  : Bool := true
  relay : Bool := false
  delay : Option Nat := none
  start : Nat := 0
  done  : Nat := 0
  deriving DecidableEq, Repr, Inhabited

/-- What an outstanding operation of an FU waits for (R179). -/
inductive OutKind where
  | load | store | atomic | acquire | release
  | io | flags
  deriving DecidableEq, Repr, Inhabited

/-- An outstanding memory, lock or I/O operation of an FU. -/
structure OutOp where
  rtag : Nat := 0
  kind : OutKind := .load
  fir  : Firing := {}
  desc : BitVec 128 := 0
  addr : Nat := 0
  deriving DecidableEq, Repr, Inhabited

/-- A victim in the spill buffer (R71, R77): its slot in the overflow area, whether its write is issued, whether its
partner fired meanwhile, and whether its context was swept. -/
structure SpillEnt where
  ent    : Entry := {}
  slot   : Nat := 0
  issued : Bool := false
  fired  : Bool := false
  tag    : Nat := 0
  deriving DecidableEq, Repr, Inhabited

/-- A pending fill: its key and the buckets still to be read, the one being read first (R71, R72). Once `ret`, it has returned the entries `ents`, which
count as waiting for the key's tokens and then wait for a place (R77). -/
structure Fill where
  key     : W64 := 0
  buckets : List Nat := []
  tag     : Nat := 0
  ret     : Bool := false
  ents    : List Token := []
  deriving DecidableEq, Repr, Inhabited

/-- A token in the fill wait buffer (R77). -/
structure WaitTok where
  tok  : Token := {}
  deriving DecidableEq, Repr, Inhabited

/-- A sweep an FU works on (R88, R90): the context, the guard it carries, the FU's global number in it, whether its tombstone is entered, and whether
every occupied slot of the overflow area was read. -/
structure FuSweep where
  ctx   : BitVec 22 := 0
  guard : Nat := 0
  num   : Nat := 0
  tomb  : Bool := false
  ofl   : Bool := false
  deriving DecidableEq, Repr, Inhabited

/-- A firing unit: exchange store, the tokens its tag check holds from L0 and from L4, spill and fill machinery, tombstones with their guards (R89), queues and pipeline. -/
structure Fu where
  slice   : SMap Entry := []
  held    : Option Token := none
  heldM   : Option Token := none
  scrub   : Nat := 0
  spill   : List SpillEnt := []
  fillW   : List WaitTok := []
  fills   : List Fill := []
  bitmap  : List Nat := []
  filter  : SMap Nat := []
  dels    : List (Nat × W64) := []
  rebuild : Bool := false
  oflFull : Bool := false
  force   : Nat := 0
  tombs   : List (BitVec 22 × Nat) := []
  sweeps  : List FuSweep := []
  issue   : List Item := []
  fetch   : Option Fetched := none
  results : List Result := []
  prevStart : Nat := 0
  prevOcc   : Nat := 0
  prevDone  : Nat := 0
  out     : List OutOp := []
  nextTag : Nat := 0
  deriving DecidableEq, Repr, Inhabited

/-! ### Cluster tiles (01, 03, 05, 07, 08, 09) -/

/-- A firing in the flow wait buffer (R180): asked when its request, of number `no`, is at the home, granted when its grant arrived. -/
structure FlowWait where
  fu      : Nat := 0
  fir     : Firing := {}
  asked   : Bool := false
  no      : Nat := 0
  granted : Bool := false
  deriving DecidableEq, Repr, Inhabited

/-- A pending flow request at its home (R180, R182): the flow, the asking cluster, its effective priority, its number. -/
structure FlowReq where
  flow  : BitVec 20 := 0
  clu   : Nat := 0
  eprio : Nat := 0
  no    : Nat := 0
  deriving DecidableEq, Repr, Inhabited

/-- An entry of a boost table: the context and its value per lock unit (R186, R187). -/
structure Boost where
  ctx  : BitVec 22 := 0
  vals : SMap Nat := []
  deriving DecidableEq, Repr, Inhabited

/-- A cluster scheduler. `service` holds the flows homed here that are in service, with the holder's cluster and whether
its request had effective priority 15 (R178, R182); `reqNo` is the number of the cluster's next request. -/
structure Sched where
  flowW   : List FlowWait := []
  reqNo   : Nat := 0
  service : List (BitVec 20 × Nat × Bool) := []
  pend    : List FlowReq := []
  boosts  : List Boost := []
  runQ    : List Item := []
  strQ    : List Item := []
  deriving DecidableEq, Repr, Inhabited

/-- An access a core waits for (R282, R293): its kind, target register and form. -/
structure CoreWait where
  rtag  : Nat := 0
  rd    : Nat := 0
  bytes : Nat := 0
  sext  : Bool := false
  kind  : OutKind := .load
  addr  : Nat := 0
  deriving DecidableEq, Repr, Inhabited

/-- A Runner core (R266 to R268, R301). `item` none is WAITW with an empty queue; `gone` lists withdrawn acquires (tag and word), whose grants
are released; `ending` says that a fault stopped the firing and the core waits for its responses (R292, R294); `cyc` is CYCLE as it was last read (R268). -/
structure Runner where
  g       : SMap W64 := []
  pc      : Nat := 0
  fflags  : BitVec 5 := 0
  item    : Option Item := none
  wait    : Option CoreWait := none
  stores  : List (Nat × Nat) := []
  gone    : List (Nat × Nat) := []
  nextTag : Nat := 0
  mode    : Bool := false
  top     : Nat := 32768
  limit   : Nat := 30720
  ending  : Bool := false
  cyc     : W64 := 0
  deriving DecidableEq, Repr, Inhabited

/-- A Stride engine: the operation that runs, whether it has computed, the tokens it will send, the flags it raised (R176, R255), and the words of bank A that other
masters wrote since the operation started (R264). -/
structure Stride where
  run   : Option Item := none
  done  : Bool := false
  toks  : List Token := []
  fault : Bool := false
  flags : BitVec 5 := 0
  hits  : List Nat := []
  deriving DecidableEq, Repr, Inhabited

/-- A request at a bank of a tile's scratchpad (R305): class (0 owner … 4 network port), the FU or other master, the request to answer; of a burst, the bytes done and what
they read (R303). -/
structure BankReq where
  cls  : Nat := 4
  fu   : Nat := 0
  req  : MemReq := {}
  pos  : Nat := 0
  got  : List Byte := []
  deriving DecidableEq, Repr, Inhabited

/-- A scratchpad bank (R310, R311): its state (2 on, 1 retention, 0 off), a running transition's target, the next
target asked meanwhile, requests of the tile's own masters at the bank, the FU served last at each sub-bank, accesses in their write cycle, and the
network port's requests in the bank's input while it turns on (R312). -/
structure Bank where
  state  : Nat := 2
  target : Option Nat := none
  next   : Option Nat := none
  reqs   : List BankReq := []
  rr     : SMap Nat := []
  second : SMap BankReq := []
  input  : List BankReq := []
  deriving DecidableEq, Repr, Inhabited

/-- A physical cluster tile: its clock (R22, R27), node memory's held words and mask table (R103, R104), banks with the port queues of the DMA and network
classes (R306), scheduler and engines. -/
structure Tile where
  pll    : Option Nat := none
  masks  : SMap Nat := []
  held   : SMap W32 := []
  banks  : SMap Bank := []
  dmaQ   : List BankReq := []
  netQ   : List BankReq := []
  sched  : Sched := {}
  runner : Runner := {}
  stride : Stride := {}
  deriving DecidableEq, Repr, Inhabited

/-! ### Regions (02, 05, 06, 09, 10) -/

/-- A waiting CTXALLOC (R85): the FU and its tag, and the context, graph and PRIO of its firing. -/
structure CtxWait where
  fu    : Nat := 0
  rtag  : Nat := 0
  ctx   : BitVec 22 := 0
  graph : Nat := 0
  prio  : Nat := 0
  deriving DecidableEq, Repr, Inhabited

/-- A sweep of the pool (R88): the FUs that acknowledged, by global number, and the guard's run. -/
structure Sweep where
  ctx   : BitVec 22 := 0
  acked : List Nat := []
  guard : Bool := false
  deriving DecidableEq, Repr, Inhabited

/-- A context pool: descriptors by index, the free list (indices from `next` on, then `tail`), waiting requests,
sweeps, boost values per context and lock unit, and the group root and allocation time per context (R532). -/
structure Pool where
  desc   : SMap W64 := []
  next   : Nat := 0
  tail   : List Nat := []
  wait   : List CtxWait := []
  starved : Bool := false
  sweeps : List Sweep := []
  boosts : List Boost := []
  root   : SMap (BitVec 22 × Nat) := []
  deriving DecidableEq, Repr, Inhabited

/-- A lease (R321). -/
structure Lease where
  addr   : Nat := 0
  owner  : BitVec 22 := 0
  seq    : BitVec 7 := 0
  expiry : W32 := 0
  deriving DecidableEq, Repr, Inhabited

/-- A waiting acquire (R322). -/
structure LockWait where
  addr : Nat := 0
  req  : MemReq := {}
  prio : Nat := 0
  deriving DecidableEq, Repr, Inhabited

/-- How the last lease on a word ended and its number (R321). -/
structure LockHist where
  seq     : BitVec 7 := 0
  reset   : Bool := false
  revoked : Bool := false
  used    : Bool := false
  deriving DecidableEq, Repr, Inhabited

/-- A lock unit. -/
structure LockUnit where
  leases : List Lease := []
  wait   : List LockWait := []
  hist   : SMap LockHist := []
  recov  : Bool := false
  boosts : SMap Nat := []
  deriving DecidableEq, Repr, Inhabited

/-- A pacer entry (R190, R193): its deadline, effective priority and the tokens still to send. -/
structure PacEnt where
  deadline : W64 := 0
  eprio    : Nat := 0
  ctx      : BitVec 22 := 0
  toks     : List Token := []
  deriving DecidableEq, Repr, Inhabited

/-- A token a hurdle holds: its source and the token (R226). -/
structure HrdTok where
  src : Nat := 0
  tok : Token := {}
  deriving DecidableEq, Repr, Inhabited

/-- A token a HURDLE firing handed to its region's hurdle unit (R222): the FU, the node's slot and table entry, the consumed token,
whether it is the report of an ERR token, and whether it is only counted: a sweep of its context removed it on its way (R229), or a router absorbed it (R358). -/
structure HrdArr where
  fu    : Nat := 0
  slot  : BitVec 15 := 0
  entry : Nat := 0
  tok   : Token := {}
  rep   : Bool := false
  gone  : Bool := false
  deriving DecidableEq, Repr, Inhabited

/-- A swap armed at a hurdle (R464): NEW and its entry, ES, the session, and whether NEW receives a start token. -/
structure Armed where
  new   : Nat := 0
  hn    : Nat := 0
  es    : BitVec 8 := 0
  sess  : Nat := 0
  token : Bool := false
  deriving DecidableEq, Repr, Inhabited

/-- A hurdle slot of a region (R221 to R232). `cnt` and `cls` are kept per source and epoch (key 256 × source +
epoch), `cls` holding 1 + the close's count and `errs` the reports of ERR tokens. `fu` is the global number of the FU of its
HURDLE nodes. `horizon` holds the last horizon of each downstream hurdle by number (R230), `passed` says that the stop epoch is released (R231), `streams` lists the flows bound to it (R413). A swap (R464) is `armed`, then `redirect` names the graph and
entry that are fed, `old` those replaced with the swap's epoch, and `due` that NEW's start token still waits for a context. -/
structure Hurdle where
  graph   : BitVec 12 := 0
  copyB   : Bool := false
  entry   : Nat := 0
  nsrc    : Nat := 0
  ahead   : Nat := 0
  maxper  : Nat := 0
  e       : BitVec 8 := 0
  closeout : Bool := false
  waitus  : Nat := 0
  late    : Bool := false
  fu      : Nat := 0
  slots   : List (BitVec 15) := []
  ups     : List Nat := []
  cnt     : SMap Nat := []
  cls     : SMap Nat := []
  errs    : SMap Nat := []
  retired : List Nat := []
  held    : List HrdTok := []
  lastCtx : SMap (BitVec 22) := []
  firstCtx : SMap (BitVec 22) := []
  horizon : SMap (BitVec 8) := []
  passed  : Bool := false
  redirect : Option (Nat × Nat) := none
  armed   : Option Armed := none
  old     : Option (Nat × Nat × BitVec 8) := none
  due     : Bool := false
  streams : List Nat := []
  deriving DecidableEq, Repr, Inhabited

/-- The stall watch (R236 to R240). -/
structure Stw where
  stage  : Nat := 0
  forceFail : Bool := false
  progress  : Bool := false
  deriving DecidableEq, Repr, Inhabited

/-- A DMA burst under way (R332 to R334): the tag of its first request, its place in the transfer, its data once read (from the source, and
in compare mode from the destination; empty where the read failed), whether its write is issued, and whether a read of it failed. -/
structure Burst where
  rtag : Nat := 0
  off  : Nat := 0
  len  : Nat := 0
  src  : Option (List Byte) := none
  dst  : Option (List Byte) := none
  wr   : Bool := false
  bad  : Bool := false
  deriving DecidableEq, Repr, Inhabited

/-- A DMA channel's working state (R331 to R340): whether a transfer is active, its set (a copy of the shadow registers by offset), bytes
issued, bursts, requests pending, an abort, the lowest mismatch, the failing STATUS, whether the set was refused, and the tags whose responses are discarded (R341). -/
structure DmaCh where
  busy   : Bool := false
  set    : SMap W32 := []
  issued : Nat := 0
  bursts : List Burst := []
  pend   : Nat := 0
  abort  : Bool := false
  cmpAt  : Option Nat := none
  err    : Nat := 0
  nextTag : Nat := 0
  bad    : Bool := false
  gone   : List Nat := []
  deriving DecidableEq, Repr, Inhabited

/-- The blocks of a region; `spent` says that a remap has taken its reserve (R36). -/
structure Region where
  pool   : Pool := {}
  lck    : LockUnit := {}
  pacer  : List PacEnt := []
  hurdles : SMap Hurdle := []
  hrdIn  : List HrdArr := []
  stw    : Stw := {}
  dma    : SMap DmaCh := []
  dmaRr  : SMap Nat := []
  spent  : Bool := false
  deriving DecidableEq, Repr, Inhabited

/-! ### The on-package network (06, 11) -/

/-- A flit waiting at a router's output: its packet, its index among the packet's `n` flits, and the input link whose
buffer holds it (R211, R353). -/
structure QFlit where
  pkt : Packet := {}
  idx : Nat := 0
  n   : Nat := 1
  via : Option LinkId := none
  deriving DecidableEq, Repr, Inhabited

/-- A link: flits waiting at its sender in order of arrival, credits spent per lane, the packet in progress per lane
(its input), failed attempts of one flit with the copy that is resent (none for an L3 flit), the down state, the photo finish's last winner, the
credits that the receiver owes, the header of the packet in progress at the receiver, and whether the sender waits for the receiver's
advertisement (R204, R218, R346, R353). -/
structure Link where
  q     : List QFlit := []
  used  : SMap Nat := []
  lock  : SMap (Option LinkId) := []
  fails : Nat := 0
  resend : Option (Option (QFlit × Bool)) := none
  down  : Bool := false
  last  : Option (Option LinkId × Nat) := none
  owed  : SMap Nat := []
  cur   : SMap Packet := []
  wait  : Bool := false
  deriving DecidableEq, Repr, Inhabited

/-- One half of a mesh domain's tables: the map it was computed from and the isolated tiles (R350). -/
structure MeshHalf where
  map : List Nat := List.range 16
  iso : List Nat := []
  deriving DecidableEq, Repr, Inhabited

/-- A route domain (R348, R355): current epoch, its two halves (mesh form and table form), and a flip in progress with
the packets its entry points hold. -/
structure Domain where
  epoch : Bool := false
  mesh0 : MeshHalf := {}
  mesh1 : MeshHalf := {}
  tab0  : List Nat := []
  tab1  : List Nat := []
  flip  : Bool := false
  held  : List (Node × QFlit) := []
  deriving DecidableEq, Repr, Inhabited

/-- The network: links by code, packets delivered to blocks by block and lane, route domains (0 to 15 meshes, 16 to
19 die fabrics, 20 the hub), end-to-end credits spent by holder and target (64 × holder + target: a region, or 32 + an infield block; R213, R215), the accumulators
of end-to-end credits on their way back (R204: 4096 × station + 64 × holder + target), the source that last took a credit of the hub's partition by region
(R213), the gateways' copies of NOC.PARK (R361), isolation lifts that wait for a map commit (R360), and the marshalling queues' positions (R362). -/
structure Net where
  links : SMap Link := []
  inbox : SMap (List Packet) := []
  doms  : SMap Domain := []
  e2e   : SMap Nat := []
  acc   : SMap Nat := []
  turn  : SMap Nat := []
  park  : SMap Nat := []
  lifts : SMap (List Nat) := []
  marsh : SMap (Nat × Nat) := []
  deriving DecidableEq, Repr, Inhabited

/-! ### Graphs (03, 15) -/

/-- A graph ID (R134 to R139, R462 to R464): its state (0 free, 1 loaded, 2 running, 3 stopping, 4 stopped, 5 anchor), what its image
gave it, where its nodes, bank claims and hurdles are, and the firmware's copy of what its load wrote (address and bytes, and the masks by cluster
and slot). `regsA` and `regsB` hold the global
regions of the two copies (R136); error nodes and entries are kept for each copy. -/
structure Graph where
  st      : Nat := 0
  prot    : Bool := false
  dup     : Bool := false
  errA    : BitVec 29 := 0
  errB    : BitVec 29 := 0
  entryA  : BitVec 29 := 0
  entryB  : BitVec 29 := 0
  maxprio : Nat := 0
  actmax  : Nat := 0
  regsA   : List Nat := []
  regsB   : List Nat := []
  slots   : List (Nat × Nat) := []
  banks   : List (Nat × Nat × Nat) := []
  budget  : List (Nat × Nat) := []
  hurdles : List (Nat × Nat) := []
  copy    : List (Nat × List Byte) := []
  masks   : List (Nat × Nat × Nat) := []
  lost    : Nat := 0
  used    : List Nat := []
  aliveA  : Bool := true
  aliveB  : Bool := true
  deriving DecidableEq, Repr, Inhabited

/-! ### Journal, groups and output commit (18) -/

/-- A journal record in use (R533): its number, the group's root, the token, whether its space may be reclaimed, and whether a group in
replay holds it. -/
structure JRec where
  n    : Nat := 0
  root : BitVec 22 := 0
  tok  : Token := {}
  done : Bool := false
  kept : Bool := false
  deriving DecidableEq, Repr, Inhabited

/-- A token that waits for its journal record to be written, or behind such a token of its sender (R219, R533, R535): the root, none where no record is
written; `written` once the ring had room, `done` once the write is answered; the flow and cluster whose service ends with it, and the mark that its packet
carries. -/
structure JWait where
  src     : Node := .hub
  root    : Option (BitVec 22) := none
  tok     : Token := {}
  ends    : Option (BitVec 20 × Nat) := none
  mark    : Nat := 0
  written : Bool := false
  done    : Bool := false
  deriving DecidableEq, Repr, Inhabited

/-- A group that was faulted (R536): its root, graph and base PRIO, faults so far, the numbers of its journal records while it waits for
replay (`hold`), and whether it waits for a window of progress first (R239). -/
structure Group where
  root   : BitVec 22 := 0
  graph  : Nat := 0
  prio   : Nat := 0
  faults : Nat := 0
  hold   : Bool := false
  stw    : Bool := false
  recs   : List Nat := []
  deriving DecidableEq, Repr, Inhabited

/-- An output held by the output commit block (R537): channel, value, type byte, graph, context and group root, the copy that a DUP
graph's context belongs to, and whether it is a LOST record (R536). -/
structure Pend where
  ch    : Nat := 0
  val   : W64 := 0
  ty    : Byte := 0
  graph : Nat := 0
  ctx   : BitVec 22 := 0
  root  : BitVec 22 := 0
  copyB : Bool := false
  lost  : Bool := false
  deriving DecidableEq, Repr, Inhabited

/-- The Steward pair (R295 to R299): whether it runs, whether a restart holds it, its core, the mailbox with the partition whose credit
each token holds (R215, R296), control registers, WFI, and the fault that makes a double trap (R298). -/
structure Steward where
  on     : Bool := false
  hold   : Bool := false
  core   : Runner := {}
  mbox   : List (Token × Option Nat) := []
  sstat  : BitVec 4 := 0
  epc    : W64 := 0
  cause  : Nat := 0
  bad    : W64 := 0
  vbase  : W64 := 0
  stklim : W64 := 0
  wfi    : Bool := false
  fatal  : Option Nat := none
  deriving DecidableEq, Repr, Inhabited

/-- An HBM stack (R315, R571): corrected errors by row in the current scrub pass, the rows being copied to spares, and whether it is refreshed
at twice the normal rate; and the requests that wait for a row's copy (R217, R315). -/
structure Hbm where
  ce      : SMap Nat := []
  copying : List Nat := []
  fast    : Bool := false
  held    : List MemReq := []
  deriving DecidableEq, Repr, Inhabited

/-! ### The measurement die (12) -/

/-- A block of samples that is not yet announced (R371, R375): its number, the number of its first write, its epoch, the sample tokens it holds back,
whether its last sample is written, whether a ring write of it was refused, whether its last write is answered, and whether the ring has
overwritten it while it was held. -/
structure AfeBlk where
  j    : Nat := 0
  no   : Nat := 0
  e    : BitVec 8 := 0
  toks : List (W64 × Byte) := []
  shut : Bool := false
  bad  : Bool := false
  fin  : Bool := false
  gone : Bool := false
  deriving DecidableEq, Repr, Inhabited

/-- A channel (R371 to R380): the next sample's index, whether it settles, its open and held blocks, ring writes under way (tag, block, and whether
it is the block's last), samples not announced, whether its token queue filled, value tokens sent by epoch and destination (2 × epoch + destination), the bias class last measured,
and register writes held during calibration. -/
structure AfeCh where
  next   : Nat := 0
  settle : Bool := false
  blks   : List AfeBlk := []
  writes : List (Nat × Nat × Bool) := []
  wtag   : Nat := 0
  gap    : Nat := 0
  full   : Bool := false
  sent   : SMap Nat := []
  cls    : Nat := 0
  held   : List (Nat × W32) := []
  deriving DecidableEq, Repr, Inhabited

/-- A tachometer input (R383): edges since the last count, the last token's microsecond runs, a count waits to be sent, the latest timestamp. -/
structure Tach where
  edges : Nat := 0
  busy  : Bool := false
  due   : Bool := false
  ts    : W64 := 0
  deriving DecidableEq, Repr, Inhabited

/-- An analog output (R388, R389): the values of copies A and B for the next update, each with whether it can be used, and consecutive updates
without a value. -/
structure Aout where
  a    : Option (W32 × Bool) := none
  b    : Option (W32 × Bool) := none
  miss : Nat := 0
  deriving DecidableEq, Repr, Inhabited

/-- The trip block (R385), a bit per line: the copies' latches (1 demand), their watchdogs, and the latched lines. -/
structure Trip where
  latA : W32 := 0xFFFFFFFF
  latB : W32 := 0xFFFFFFFF
  wdA  : W32 := 0
  wdB  : W32 := 0
  latched : W32 := 0
  deriving DecidableEq, Repr, Inhabited

/-- The measurement die: `cal` is the group under calibration, `hz` the last horizon received from each hurdle (256 × region + slot). -/
structure Meas where
  ch   : SMap AfeCh := []
  tach : SMap Tach := []
  aout : SMap Aout := []
  trip : Trip := {}
  cal  : Option Nat := none
  hz   : SMap (BitVec 8) := []
  deriving DecidableEq, Repr, Inhabited

/-! ### Ethernet, segments, streams and the relay link (13, 14) -/

/-- A frame in a port's receive buffer (R423, R425): subport, priority, receive timestamp, the frame without FCS. -/
structure RxFrame where
  sub   : Nat := 0
  prio  : Nat := 0
  ts    : W64 := 0
  bytes : List Byte := []
  deriving DecidableEq, Repr, Inhabited

/-- A frame to send: port (0, 1, or 8 + segment), subport, priority, what sends it (1 a host frame, 2 the call room's transmit register, 0
another), whether its departure replaces a Sync's origin timestamp, the frame without FCS. -/
structure TxFrame where
  port  : Nat := 0
  sub   : Nat := 0
  prio  : Nat := 0
  mark  : Nat := 0
  bytes : List Byte := []
  deriving DecidableEq, Repr, Inhabited

/-- A port (R421 to R426): its receive buffer, the priorities for which XOFF was sent (8 × subport + priority), those that a peer paused, frames
that wait to be sent, its counters (16 × subport + index), and whether a host frame is being sent. -/
structure EthPort where
  rx     : List RxFrame := []
  xoff   : List Nat := []
  paused : List Nat := []
  txq    : List TxFrame := []
  cnt    : SMap Nat := []
  busy   : Bool := false
  deriving DecidableEq, Repr, Inhabited

/-- A DATA packet on the stream path (R403, R414). -/
structure StrPkt where
  source : W64 := 0
  stream : Nat := 0
  gone   : Bool := false
  resync : Bool := false
  len    : Nat := 0
  index  : Nat := 0
  fmt    : Nat := 0
  rate   : Nat := 0
  nsamp  : Nat := 0
  sstat  : Nat := 0
  body   : List Byte := []
  deriving DecidableEq, Repr, Inhabited

/-- A packet of the call-room queue (R409): where it came from, its header and body, the bytes read. -/
structure CrPkt where
  origin : Nat := 0
  bytes  : List Byte := []
  pos    : Nat := 0
  deriving DecidableEq, Repr, Inhabited

/-- A stream that the call room admitted: its ID, its flow and its budget in bit/s as a fraction (R401). -/
structure CrStream where
  id   : Nat := 0
  flow : Nat := 0
  num  : Nat := 0
  den  : Nat := 1
  deriving DecidableEq, Repr, Inhabited

/-- An admitted node (R407). -/
structure CrNode where
  source  : W64 := 0
  origin  : Nat := 0
  plca    : Nat := 0
  streams : List CrStream := []
  deriving DecidableEq, Repr, Inhabited

/-- A bound stream (R413 to R417): its entry as read at BIND, the hurdle of its key, the next index (none before the first packet), blocks not
announced, ring writes under way (tag, block, and whether it is the block's last), samples not announced, whether its token queue filled, value tokens
sent by epoch and destination, the epoch whose blocks are being announced (counted from index 0), the horizon last received, and whether it goes. -/
structure Stream where
  flow  : Nat := 0
  graph : BitVec 12 := 0
  ctx   : BitVec 22 := 0
  ent   : List W32 := []
  hur   : Option (Nat × Nat) := none
  next  : Option Nat := none
  blks  : List AfeBlk := []
  writes : List (Nat × Nat × Bool) := []
  gap   : Nat := 0
  full  : Bool := false
  sent  : SMap Nat := []
  ep    : Option Nat := none
  hz    : Option (BitVec 8) := none
  going : Bool := false
  deriving DecidableEq, Repr, Inhabited

/-- Stream ingest and the call room: packets on the stream path, the call-room queue and transmit frame, bound streams by slot, admitted nodes,
flows to be released, segment slots written since the last request pulse, the device's packet number, the tag of the next ring write, the tags of
writes whose binding has ended, and the quiesce table (R467). -/
structure Ing where
  data    : List StrPkt := []
  cr      : List CrPkt := []
  txbuf   : List Byte := []
  streams : SMap Stream := []
  nodes   : List CrNode := []
  rel     : List Nat := []
  segN    : SMap Nat := []
  seq     : Nat := 0
  wtag    : Nat := 0
  late    : List Nat := []
  quiesce : List (Option (Nat × W64)) := []
  deriving DecidableEq, Repr, Inhabited

/-- A record of a relay frame (R434). -/
inductive RRec where
  | token (t : Token)
  | horizon (region slot epoch : BitVec 8)
  deriving DecidableEq, Repr, Inhabited

/-- A received relay frame: the peer it came from, its header and records. -/
structure RelayRx where
  peer  : Nat := 0
  bytes : List Byte := []
  deriving DecidableEq, Repr, Inhabited

/-- A relay session (R436 to R443): its state as PEER_STATE gives it, the peer's DEV, ring size, and whether its SYNC is accepted and it was told
its DEV; records queued, frames not acknowledged with their SEQ, tokens sent and granted, the next SEQ, the SEQ expected, whether a NAK was sent,
timeouts, the receive ring (with whether a record counts to this session's GRANT), records taken. -/
structure Peer where
  st     : Nat := 0
  dev    : BitVec 14 := 0
  rq     : Nat := 0
  known  : Bool := false
  told   : Bool := false
  q      : List RRec := []
  frames : List (W32 × List RRec) := []
  sent   : W32 := 0
  grant  : W32 := 0
  seq    : W32 := 0
  expect : W32 := 0
  nak    : Bool := false
  tries  : Nat := 0
  rx     : List (Token × Bool) := []
  taken  : W32 := 0
  full   : Bool := false
  deriving DecidableEq, Repr, Inhabited

/-- The relay block: sessions by peer, received frames, tokens held by a route change with the old peer of each such DEV, and the side lists by
region (R439, R440). -/
structure Relay where
  peers : SMap Peer := []
  rx    : List RelayRx := []
  held  : List Token := []
  moves : List (Nat × Nat) := []
  side  : SMap (List Token) := []
  deriving DecidableEq, Repr, Inhabited

/-! ### The command protocol (15) -/

/-- How a reply reaches its host (R448): port, subport, priority, and the bytes before the FCP header of the request's frame. -/
structure FcpRoute where
  port : Nat := 0
  sub  : Nat := 0
  prio : Nat := 0
  pre  : List Byte := []
  deriving DecidableEq, Repr, Inhabited

/-- An FCP frame passed to the command ingress. -/
structure FcpRx where
  route : FcpRoute := {}
  bytes : List Byte := []
  deriving DecidableEq, Repr, Inhabited

/-- A request under reassembly (R450). -/
structure FcpPart where
  route : FcpRoute := {}
  sess  : Nat := 0
  seq   : W32 := 0
  op    : Nat := 0
  rtag  : W32 := 0
  total : Nat := 0
  parts : List (Nat × List Byte) := []
  deriving DecidableEq, Repr, Inhabited

/-- An accepted command (R456, R457): `stage` 0 to be executed, 1 and above under way; `aux` holds numbers its later stages use. -/
structure FcpCmd where
  seq   : W32 := 0
  op    : Nat := 0
  rtag  : W32 := 0
  par   : List Byte := []
  route : FcpRoute := {}
  stage : Nat := 0
  aux   : List Nat := []
  long  : Bool := false
  deriving DecidableEq, Repr, Inhabited

/-- A session (R452 to R457): 0 free, 1 half-open, 2 open; the stored final reply is its command, status and parameters, and `close` a SESSION_CLOSE accepted beside a running command. -/
structure FcpSess where
  st    : Nat := 0
  roles : Nat := 0
  slot  : Nat := 0
  last  : W32 := 0
  t1    : List Byte := []
  key   : List Byte := []
  run   : Option FcpCmd := none
  close : Option FcpCmd := none
  reply : Option (FcpCmd × Nat × List Byte) := none
  ev    : Nat := 0
  deriving DecidableEq, Repr, Inhabited

/-- The command interpreter: frames received, requests under reassembly, sessions by number (0 the unauthenticated one), a reset that a reply
announced (kind and address), and whether the pair and the interpreter are held (R485). -/
structure Fcp where
  rx    : List FcpRx := []
  parts : List FcpPart := []
  sess  : SMap FcpSess := []
  acts  : List (Nat × Nat) := []
  deriving DecidableEq, Repr, Inhabited

/-! ### Reset, power, boot and security (16, 17) -/

/-- The reset controller (R470 to R485): 0 released, 1 waiting for the reference, 2 waiting for the load, 3 the load runs, 4 islands are being
released; whether the release is of a cold reset, failed loads, a held thermal reset, the history entries of a power-on or brown-out that wait
for the release, the warning's arming, whether the watchdog's half period was reported, and islands whose clock was not valid in time. -/
structure Rst where
  phase  : Nat := 1
  cold   : Bool := true
  fails  : Nat := 0
  hot    : Bool := false
  hist   : List (Nat × Nat × Nat) := []
  warned : Bool := false
  half   : Bool := false
  noclk  : List Nat := []
  deriving DecidableEq, Repr, Inhabited

/-- A key slot (R510, R525): 0 empty, 1 host public key, 2 AES-256. -/
structure KeySlot where
  typ   : Nat := 0
  roles : Nat := 0
  pset  : Nat := 0
  data  : List W32 := []
  deriving DecidableEq, Repr, Inhabited

/-- The security engine: key slots, the measurement log, the running image's SECVER (R515, R525). -/
structure Sec where
  keys   : SMap KeySlot := []
  log    : List (Nat × Nat × List Byte) := []
  secver : Nat := 0
  deriving DecidableEq, Repr, Inhabited

/-- Boot (R498 to R519): the image taken and its ENTRY before the handover, the slot last staged with its hash, and the flash operation under way
(op, address, bytes, buffer). -/
structure Boot where
  entry  : Option Nat := none
  staged : Option (Nat × List Byte) := none
  flash  : Option (Nat × Nat × Nat × Nat) := none
  deriving DecidableEq, Repr, Inhabited

/-- Fuse values (R574): per region the logical-to-physical map, the healthy tiles and the factory-repair fuse (R34), whether the part is a
DN9640-E (R2, R27), and the rest of INVENTORY.md's list. Values: notes/assumptions/6.md. -/
structure Fuses where
  map     : SMap (List Nat) := []
  unhealthy : SMap (List Nat) := []
  factory : List Nat := []
  varE    : Bool := false
  roots   : SMap (List Byte) := []
  revoked : List Nat := []
  secver  : Nat := 0
  debug   : Nat := 0
  seed    : List Byte := []
  cert    : List Byte := []
  recovery : List Byte := []
  deriving DecidableEq, Repr, Inhabited

/-- Everything of the device but its queue of commands and its fuses. -/
structure Dev where
  fresh   : Nat := 0
  time    : W64 := 0
  frac    : W32 := 0
  regs    : SMap W32 := []
  loHeld  : SMap W32 := []
  hiCap   : SMap W32 := []
  mem     : List Host.Cell := []
  fus     : SMap Fu := []
  tiles   : SMap Tile := []
  regions : SMap Region := []
  net     : Net := {}
  islands : List Nat := []
  graphs  : SMap Graph := []
  evtQ    : List (Nat × Token) := []
  evtWait : List (Nat × Token) := []
  jrn     : List JRec := []
  jrnNext : Nat := 0
  jrnWait : List JWait := []
  jrnLow  : Bool := false
  groups  : List Group := []
  pend    : List Pend := []
  outHeld : List Nat := []
  stew    : Steward := {}
  hbm     : SMap Hbm := []
  pulses  : List (Nat × Nat × Nat) := []
  hbMiss  : SMap Nat := []
  meas    : Meas := {}
  eth     : SMap EthPort := []
  wire    : List TxFrame := []
  ing     : Ing := {}
  rly     : Relay := {}
  ppsSeen : Bool := false
  ppsOut  : Nat × Nat := (0, 0)
  fcp     : Fcp := {}
  rst     : Rst := {}
  domQ    : List (Nat × Bool) := []
  sec     : Sec := {}
  boot    : Boot := {}
  flash   : SMap Byte := []
  deriving DecidableEq, Repr, Inhabited

/-- The state: the waiting commands, first in first out, the fuses, and the device. -/
structure State where
  pending : List Instr := []
  fuses   : Fuses := {}
  dev     : Dev := {}
  deriving DecidableEq, Repr, Inhabited

/-- Why a command cannot go on. Every command of this device has an effect in every state, so no meaning raises one. -/
inductive Fault where
  /-- Raised by nobody: no command of the spec stops the device (safe). -/
  | none
  deriving DecidableEq, Repr

/-- Why a command has no meaning. -/
inductive Refusal where
  /-- Raised by exec's arm of a command that has no meaning yet (safe). -/
  | notModelled (mnemonic : String)
  deriving DecidableEq, Repr

/-- A reserve tile: its banks are off (R313). -/
def offTile : Tile := { banks := [(0, { state := 0 }), (1, { state := 0 }), (2, { state := 0 }), (3, { state := 0 })] }

/-- The device in cold reset. -/
def Dev.init : Dev := { tiles := (List.range 16).map (fun g => (g * 17 + 16, offTile)) }

/-- The state right after the cold reset of a power-on has been asserted (R470 to R477): its history entry waits for the release (R493). -/
def State.reset : State := { dev := { Dev.init with rst := { hist := [(1, 2, 0)] } } }

end Sys2Proof.Machine
end

