-- ==== Sys2Proof/Config.lean ====
section
/-!
DEFINITION. What the spec leaves open, as opaque constants: nothing can be proved about a value of one. A free value
is `freeValue` applied to a counter that the step advances (notes/assumptions/2.md); the cryptographic functions of
17_boot_trust_change.md and 15_command_protocol.md are named by their standards and left uninterpreted
(notes/assumptions/8.md); the packing of an L4 body is not stated (notes/assumptions/9.md).
-/
namespace Sys2Proof.Config

/-- The n-th free value. (DESIGN CHOICE, log 2.) -/
opaque freeValue : Nat → W64

/-- The bits of an L4 body, and the bits of the words of a packet that the spec lays out in no table. (DESIGN CHOICE, log 9.) -/
opaque l4Body : List Nat → BitVec 200

/-- The 8 SECDED check bits over 56 data bits of a store entry's word (R61): the spec names no code. (DESIGN CHOICE, log 97.) -/
opaque secded : BitVec 56 → Byte

/-- SHA-384 (R134, R515). (DESIGN CHOICE, log 8.) -/
opaque sha384 : List Byte → BitVec 384

/-- The bits that the Stride engine's transforms compute (R257), by opcode, SCALE, input words and component: the spec bounds their error
and does not state the order of their operations (notes/assumptions/10.md). (DESIGN CHOICE, log 10.) -/
opaque transform : Nat → Bool → List Nat → Nat → W32

/-- Flags of a transform whose intermediate values may overflow. (DESIGN CHOICE, log 10.) -/
opaque transformFlags : Nat → Bool → List Nat → BitVec 5

/-- Taps 0, 2, to 30 of the engine's Hilbert filter (R257), by index 0 to 15: the spec gives its shape and not its numbers. (DESIGN CHOICE, log 10.) -/
opaque hilbert : Nat → W32

/-- The HBM row that holds an address (R315): the spec gives no row size. (DESIGN CHOICE, log 42.) -/
opaque hbmRow : Nat → Nat

/-- MACsec with GCM-AES-256 (R426): the protected frame, from key, SCI, packet number, association and frame. (DESIGN CHOICE, log 8.) -/
opaque macsecSeal : List Byte → Nat → Nat → Nat → List Byte → List Byte

/-- The frame in a protected frame whose ICV verifies (R426). (DESIGN CHOICE, log 8.) -/
opaque macsecOpen : List Byte → Nat → Nat → List Byte → Option (List Byte)

/-- AES-256-GCM (R453): ciphertext and tag, from key, nonce, additional data and plaintext. (DESIGN CHOICE, log 8.) -/
opaque gcmSeal : List Byte → List Byte → List Byte → List Byte → List Byte

/-- The plaintext of a ciphertext and tag that verify (R453). (DESIGN CHOICE, log 8.) -/
opaque gcmOpen : List Byte → List Byte → List Byte → List Byte → Option (List Byte)

/-- HKDF-SHA-384 (R452, R516): `n` bytes from salt, input and info. (DESIGN CHOICE, log 8.) -/
opaque hkdf : List Byte → List Byte → List Byte → Nat → List Byte

/-- SLH-DSA (R452, R500, R515, R516): verification by parameter set, public key, message and signature; signing by seed; the public key of
a seed. (DESIGN CHOICE, log 8.) -/
opaque slhVerify : Nat → List Byte → List Byte → List Byte → Bool
/-- (DESIGN CHOICE, log 8.) -/
opaque slhSign : List Byte → List Byte → List Byte
opaque slhPublic : List Byte → List Byte

/-- ML-KEM-768 encapsulation (R452): ciphertext and shared secret, from the key and the randomness of the device. (DESIGN CHOICE, log 8.) -/
opaque kemEncaps : List Byte → Nat → List Byte × List Byte

/-- The device's own EUI-64 identity (R403): the spec gives no number. -/
opaque deviceEui : W64

/-- REV of the device (R461): the spec gives no value. -/
opaque revision : Byte

end Sys2Proof.Config
end

