-- ==== Sys2Proof/Machine/Table.lean ====
section
/-!
DEFINITION. Sparse tables: reading, writing, and the canonical form (keys strictly rising, no entry equal to the
default), which every operation here keeps (Laws/Table.lean).
-/
namespace Sys2Proof.Machine

/-- The value at key `k`, or the default `d` where the table lists none. -/
def mget (d : α) : SMap α → Nat → α
  | [], _ => d
  | (i, v) :: m, k => if i = k then v else if k < i then d else mget d m k

/-- The table without an entry at `k`. -/
def mdel : SMap α → Nat → SMap α
  | [], _ => []
  | (i, v) :: m, k => if i = k then m else if k < i then (i, v) :: m else (i, v) :: mdel m k

/-- The table with `v` listed at `k`. -/
def mput : SMap α → Nat → α → SMap α
  | [], k, v => [(k, v)]
  | (i, w) :: m, k, v => if i = k then (k, v) :: m else if k < i then (k, v) :: (i, w) :: m else (i, w) :: mput m k v

/-- Write `v` at `k`: the default is not listed. -/
def mset [DecidableEq α] (d : α) (m : SMap α) (k : Nat) (v : α) : SMap α :=
  if v = d then mdel m k else mput m k v

/-- Apply `f` to the value at `k`. -/
def mmod [DecidableEq α] (d : α) (m : SMap α) (k : Nat) (f : α → α) : SMap α :=
  mset d m k (f (mget d m k))

/-- Drop every entry whose key satisfies `p`: those keys read the default again. -/
def mclear (m : SMap α) (p : Nat → Bool) : SMap α := m.filter (fun c => !p c.1)

/-- Keys strictly rising, from `lo` on, and no entry equal to the default. -/
def mwfFrom [DecidableEq α] (d : α) : Nat → SMap α → Bool
  | _, [] => true
  | lo, (i, v) :: m => decide (lo ≤ i) && decide (v ≠ d) && mwfFrom d (i + 1) m

/-- The canonical form of a table. -/
def mwf [DecidableEq α] (d : α) (m : SMap α) : Bool := mwfFrom d 0 m

/-- Replace the first element that satisfies `p`. -/
def replaceFirst (p : α → Bool) (f : α → α) : List α → List α
  | [] => []
  | x :: xs => if p x then f x :: xs else x :: replaceFirst p f xs

/-- Remove the first element that satisfies `p`. -/
def removeFirst (p : α → Bool) : List α → List α
  | [] => []
  | x :: xs => if p x then xs else x :: removeFirst p xs

/-- Replace the element at a position. -/
def setAt (l : List α) (n : Nat) (v : α) : List α := l.set n v

end Sys2Proof.Machine
end

