-- ==== Sys2Proof/Machine/Token.lean ====
section
/-!
DEFINITION. The bits of tokens and packets: tag layout and tag CRC (R42, R51), status payloads (R46), frame
descriptors (R48), links and remote addresses (R120), destination fields (R95), packet bodies and the flit with its
LCRC (R206 to R210, R344), and the numbering of network stations.
-/
namespace Sys2Proof.Machine

/-! ### Tags -/

/-- Tag bits 127:8 (R42). -/
def Tag.bits120 (t : Tag) : BitVec 120 :=
  t.dev ++ t.die ++ t.rgn ++ t.clu ++ t.fu ++ t.graph ++ t.ctx ++ t.node ++ t.port ++ t.iter ++ t.flow ++ t.cls ++ t.epoch ++ t.prio

/-- One step of a CRC of width `n` with polynomial `p`, most significant bit first (R51, R344). -/
def crcStep (p : BitVec n) (crc : BitVec n) (b : Bool) : BitVec n :=
  let s := crc <<< 1
  if Bool.xor crc.msb b then s ^^^ p else s

/-- The CRC of the low `k` bits of `v`, most significant first. -/
def crcBits (p : BitVec n) : Nat → Nat → BitVec n → BitVec n
  | 0, _, crc => crc
  | k + 1, v, crc => crcBits p k v (crcStep p crc (v.testBit k))

/-- The tag CRC over tag bits 127:8 (R51): CRC-8, polynomial 0x2F, initial value 0xFF. -/
def tcrcOf (t : Tag) : BitVec 8 := crcBits 0x2F#8 120 (Tag.bits120 t).toNat 0xFF#8

/-- The tag with its TCRC computed, as a sender forms it (R53). -/
def Tag.seal (t : Tag) : Tag := { t with tcrc := tcrcOf t }

/-- TCRC matches bits 127:8 (R56). -/
def Tag.crcOk (t : Tag) : Bool := decide (t.tcrc = tcrcOf t)

/-- The 128 bits of a tag (R42). -/
def Tag.toBits (t : Tag) : BitVec 128 := Tag.bits120 t ++ t.tcrc

/-- The tag that 128 bits spell (R42). -/
def Tag.ofBits (v : BitVec 128) : Tag :=
  { dev := v.extractLsb' 114 14, die := v.extractLsb' 111 3, rgn := v.extractLsb' 109 2, clu := v.extractLsb' 105 4
    fu := v.extractLsb' 102 3, graph := v.extractLsb' 90 12, ctx := v.extractLsb' 68 22, node := v.extractLsb' 53 15
    port := v.extractLsb' 51 2, iter := v.extractLsb' 43 8, flow := v.extractLsb' 23 20, cls := v.extractLsb' 20 3
    epoch := v.extractLsb' 12 8, prio := v.extractLsb' 8 4, tcrc := v.extractLsb' 0 8 }

/-! ### Type byte and payloads (R44 to R46) -/

def Token.ptype (t : Token) : Nat := (t.ty.extractLsb' 0 4).toNat
def Token.err (t : Token) : Bool := t.ty.getLsbD 5
def Token.hist (t : Token) : Bool := t.ty.getLsbD 4
def Token.replay (t : Token) : Bool := t.ty.getLsbD 6

/-- A type byte (R44). -/
def tyByte (ptype : Nat) (err hist replay : Bool) : Byte :=
  BitVec.ofNat 8 (ptype % 16 + (if hist then 16 else 0) + (if err then 32 else 0) + (if replay then 64 else 0))

/-- A status payload (R46). -/
def status (code origin detail : Nat) : W64 :=
  BitVec.ofNat 64 ((code % 4096) * 2 ^ 52 + (origin % 4096) * 2 ^ 40 + detail % 2 ^ 37)

/-- ORIGIN of a block that is no FU (R46). -/
def originBlock : Nat := 0xFFF

/-- CODE and DETAIL of a status payload (R46). -/
def statusCode (p : W64) : Nat := (p.extractLsb' 52 12).toNat
def statusDetail (p : W64) : Nat := (p.extractLsb' 0 37).toNat

/-! Status codes: R47, R111, R175, R223, R294, R359, R529, R534, R537. The Stride engine's and others stand with their
operations. -/
def stMISROUTE : Nat := 0x102
def stFORMAT : Nat := 0x103
def stDUP_OPERAND : Nat := 0x104
def stES_UNCORRECTABLE : Nat := 0x105
def stCTX_DOUBLE_FREE : Nat := 0x106
def stUNDEFINED_OPCODE : Nat := 0x201
def stBAD_NODE : Nat := 0x202
def stTYPE_MISMATCH : Nat := 0x203
def stMISALIGNED : Nat := 0x204
def stADDR_RANGE : Nat := 0x205
def stACCESS : Nat := 0x206
def stMEM_UE : Nat := 0x207
def stLOOP_DRAIN : Nat := 0x208
def stNODE_UE : Nat := 0x209
def stRELAY_NOROUTE : Nat := 0x20A
def stRUN_LIMIT : Nat := 0x301
def stEPOCH_CLOSE : Nat := 0x401
def stEPOCH_LATE : Nat := 0x402
def stEPOCH_AHEAD : Nat := 0x403
def stEPOCH_COUNT : Nat := 0x404
def stSOURCE_RETIRE : Nat := 0x405
def stCODE_FAULT : Nat := 0x601
def stTARGET_ISOLATED : Nat := 0x801
def stEVENT : Nat := 0xB01
def stCTX_EXPIRED : Nat := 0xB02
def stCOMMIT_LIMIT : Nat := 0xB03

/-- The match key of a tag (R58). -/
def keyOf (t : Tag) : W64 :=
  BitVec.ofNat 64 (t.graph.toNat * 2 ^ 45 + t.ctx.toNat * 2 ^ 23 + t.node.toNat * 2 ^ 8 + t.iter.toNat)

/-- Serial-number order with a window of 128 (00, Notation; R54): `a` is newer than `b`. -/
def newer (a b : BitVec 8) : Bool := decide (0 < (a - b).toNat ∧ (a - b).toNat < 128)

/-! ### Destination fields (R95), links and remote addresses (R120) -/

/-- A destination field: die, region, cluster, FU, slot, port (R95). -/
structure DstF where
  die  : BitVec 3
  rgn  : BitVec 2
  clu  : BitVec 4
  fu   : BitVec 3
  slot : BitVec 15
  port : BitVec 2
  deriving DecidableEq, Repr

def DstF.ofBits (v : BitVec 29) : DstF :=
  ⟨v.extractLsb' 26 3, v.extractLsb' 24 2, v.extractLsb' 20 4, v.extractLsb' 17 3, v.extractLsb' 2 15, v.extractLsb' 0 2⟩

def DstF.toBits (d : DstF) : BitVec 29 := d.die ++ d.rgn ++ d.clu ++ d.fu ++ d.slot ++ d.port

/-- The tag addressed to a destination field. -/
def Tag.to (t : Tag) (d : DstF) : Tag :=
  { t with die := d.die, rgn := d.rgn, clu := d.clu, fu := d.fu, node := d.slot, port := d.port }

/-- A link (R120): return destination, caller's ITER, caller's context. -/
def linkWord (d : BitVec 29) (iter : BitVec 8) (ctx : BitVec 22) : W64 := d ++ iter ++ (0#5) ++ ctx

/-! ### Node descriptors (R95) -/

def dOpc (d : BitVec 128) : Nat := (d.extractLsb' 118 10).toNat
def dType (d : BitVec 128) : Nat := (d.extractLsb' 114 4).toNat
def dRm (d : BitVec 128) : Nat := (d.extractLsb' 111 3).toNat
def dCt (d : BitVec 128) : Bool := d.getLsbD 110
def dNcan (d : BitVec 128) : Bool := d.getLsbD 109
def dImmp (d : BitVec 128) : Nat := (d.extractLsb' 107 2).toNat
def dSticky (d : BitVec 128) : Bool := d.getLsbD 106
def dImm (d : BitVec 128) : W32 := d.extractLsb' 71 32
def dDst0 (d : BitVec 128) : DstF := DstF.ofBits (d.extractLsb' 42 29)
def dDst1 (d : BitVec 128) : DstF := DstF.ofBits (d.extractLsb' 13 29)
def dNdst (d : BitVec 128) : Nat := (d.extractLsb' 11 2).toNat
def dItop (d : BitVec 128) : Nat := (d.extractLsb' 9 2).toNat

/-! ### Network stations -/

/-- Global region of a die and a region number; 16 the infield die, 17 the measurement die, 18 none. (DEDUCED, log 95.) -/
def regionOf (die rgn : Nat) : Nat := if die < 4 then die * 4 + rgn else if die = 4 then 16 else if die = 5 then 17 else 18

/-- A number for each station, for keys of tables. -/
def Node.code : Node → Nat
  | .tile g t => g * 17 + t
  | .gw g => 272 + g
  | .die d => 288 + d
  | .hub => 292
  | .meas => 293
  | .tileUnit g t u => 1024 + (g * 17 + t) * 16 + u
  | .regionUnit g u => 6144 + g * 16 + u
  | .hubUnit u => 6656 + u

/-- A number for each link. -/
def LinkId.code (l : LinkId) : Nat := Node.code l.src * 8192 + Node.code l.dst

/-- The lane of a packet (R202, R203): 0 tokens of class T, 4 tokens of class M and management. -/
def Packet.lane (p : Packet) : Nat :=
  match p.body with
  | .token t => if t.tag.cls = 4 then 4 else 0
  | .req _ => 1
  | .resp _ => 2
  | .mgmt _ => 4

/-- Flits of a packet: a header flit and 24 bytes a data flit (R207). -/
def Packet.flits (p : Packet) : Nat :=
  match p.body with
  | .req r => 1 + cdiv r.data.length 24
  | .resp r => 1 + cdiv r.data.length 24
  | _ => 1

/-- FLOW of a packet, 0 where it is no token (R355). -/
def Packet.flow (p : Packet) : BitVec 20 :=
  match p.body with
  | .token t => t.tag.flow
  | _ => 0

/-- A block address as 14 bits (R206, R344). (DESIGN CHOICE, log 16.) -/
def Dest.toBits (d : Dest) : BitVec 14 := d.die ++ d.rgn ++ d.tile ++ d.unit

/-! ### Flit bits (R206, R207, R209, R344) -/

/-- 24 bytes of a data flit with its index (R207). -/
def dataBody (data : List Byte) (k : Nat) : BitVec 200 :=
  BitVec.ofNat 200 (leNat ((data.drop (24 * k)).take 24) + k * 2 ^ 192)

/-- The numbers a management body is packed from. -/
def Mgmt.nums : Mgmt → List Nat
  | .fault c => [0, c.toNat]
  | .flags c f => [1, c.toNat, f.toNat]
  | .flowReq f c p n => [2, f.toNat, c.toNat, p.toNat, n]
  | .flowGrant f n => [3, f.toNat, n]
  | .flowRefuse f n => [4, f.toNat, n]
  | .flowRel f c => [5, f.toNat, c.toNat]
  | .flowCancel f c n => [6, f.toNat, c.toNat, n]
  | .horizon g k e => [7, g.toNat, k.toNat, e.toNat]
  | .ownerReset c => [8, c.toNat]
  | .importHz k e h => [10, k.toNat, e.toNat, h.toNat]
  | .heartbeat n => [9, n]
  | .sweep c g k => [11, c.toNat, g.toNat, k]
  | .sweepAck c k => [12, c.toNat, k]
  | .boost c u b => [13, c.toNat, u.toNat, b.toNat]
  | .park m => [14, m.toNat]
  | .forceSpill n => [15, n]
  | .ctxReq k r c g p => [16, k, r, c.toNat, g.toNat, p.toNat]
  | .ctxGive r c => [17, r, c.toNat]
  | .ctxFree k t r => [18, k, (Tag.toBits t).toNat, if r then 1 else 0]
  | .flagAsk k r c x => [19, k, r, c.toNat, if x then 1 else 0]
  | .flagAns r f => [20, r, f.toNat]

/-- Bits 199:0 of flit `k` of a packet. A token's body holds tag, payload and type byte from the top down. (DESIGN CHOICE, log 9.) -/
def flitBody (p : Packet) (k : Nat) : BitVec 200 :=
  match p.body with
  | .token t => Tag.toBits t.tag ++ t.pay ++ t.ty
  | .req r =>
    if k = 0 then
      r.op ++ BitVec.ofNat 4 (cdiv r.data.length 24) ++ r.size ++ r.addr ++ Dest.toBits r.req ++ r.rtag ++ r.prio ++ r.operand ++
        r.ctx ++ r.graph ++ (0#12)
    else dataBody r.data (k - 1)
  | .resp r =>
    if k = 0 then
      r.op ++ BitVec.ofNat 4 (cdiv r.data.length 24) ++ r.status ++ Dest.toBits r.req ++ r.rtag ++ r.result ++ (0#98)
    else dataBody r.data (k - 1)
  | .mgmt m => Config.l4Body (Mgmt.nums m)

/-- Sideband bits 255:216 of flit `k` of `n` (R344). -/
def sideband (p : Packet) (k n : Nat) : BitVec 40 :=
  bit1 p.repoch ++ BitVec.ofNat 3 (Packet.lane p) ++ bit1 (k == 0) ++ bit1 (k + 1 == n) ++ bit1 p.log ++ Dest.toBits p.dest ++
    p.age ++ p.prio ++ (0#11)

/-- LCRC over bits 255:216 and 199:0 (R344): CRC-16, polynomial 0x1021, initial 0xFFFF. -/
def lcrc (side : BitVec 40) (body : BitVec 200) : W16 := crcBits 0x1021#16 240 (side ++ body).toNat 0xFFFF#16

/-- The 256 bits of flit `k` of `n`, with the LCRC the sender computes (R346). -/
def flitBits (p : Packet) (k n : Nat) : BitVec 256 :=
  let s := sideband p k n
  let b := flitBody p k
  s ++ lcrc s b ++ b

/-- The receiver's check of a flit (R346). (DEDUCED, log 17.) -/
def flitOk (v : BitVec 256) : Bool := decide (v.extractLsb' 200 16 = lcrc (v.extractLsb' 216 40) (v.extractLsb' 0 200))

end Sys2Proof.Machine
end

