-- ==== Sys2Proof/Machine/Ops.lean ====
section
/-!
DEFINITION. The named operations every family shares: the register file, byte memory, FUs, tiles, regions and graphs
by number, free values, events (R526 to R530), and sending on the network.
-/
namespace Sys2Proof.Machine

/-! ### Registers (R9 to R14) -/

/-- Reset value of the register at `a`. Values that depend on the unit stand here: the EVT.CFG of sources 704 and above has EN 0
(R546), ETH host rings lie 4 MiB apart (R445), NOC tables and domains follow R366 and R486, reserve tiles' banks are off (R313). Identity and fuse values are those of
notes/assumptions/6.md. (DESIGN CHOICE, log 6.) -/
def regReset (a : Nat) : W32 :=
  let sel := a / 2 ^ 48
  match regLoc (a % 2 ^ 48) with
  | none => 0
  | some l =>
    match l.blk with
    | .clu => if l.off = 0 then BitVec.ofNat 32 (l.inst % 17 * 256 + l.inst / 17 % 4 * 8 + l.inst / 68) else l.spec.reset
    | .dief => if l.off = 0 then BitVec.ofNat 32 l.inst else l.spec.reset
    | .rgn =>
      if l.off = 0 then BitVec.ofNat 32 (l.inst * 4 + l.inst % 4)
      else if 0x10 ≤ l.off ∧ l.off < 0x30 then BitVec.ofNat 32 (0x03020100 + l.idx * 0x04040404)
      else if l.off = 0x34 then 0x1FFFF#32
      else if l.off = 0x38 then 0x30#32
      else l.spec.reset
    | .afe => if l.off = 0x58 then 0x3F800000#32 else l.spec.reset
    | .hbm => if l.off = 0x1C then 512#32 else l.spec.reset
    | .evt => if l.off = 4 then (if sel < 704 then 0x80000008#32 else 0x8#32) else l.spec.reset
    | .eth => if l.off = 0x30 then BitVec.ofNat 32 (0x30000000 + l.inst * 0x400000) else l.spec.reset
    | .spm => if l.inst % 17 = 16 ∧ l.off ≤ 4 then 0 else l.spec.reset
    | .pwr => if 0x100 ≤ l.off then
        (if l.idx = 36 ∨ l.idx = 37 ∨ l.idx = 39 ∨ l.idx = 40 ∨ l.idx = 41 then 0x9#32 else 0#32) else l.spec.reset
    | .noc =>
      let hub : List W32 := [0x11110000#32, 0x33332222#32, 0x44445555#32]
      let die : Nat → W32 := fun m => if l.inst / 2 = m ∧ l.inst < 4 then (if l.inst % 2 = 0 then 0x44443210#32 else 0x32104444#32) else 0x44444444#32
      if l.off ≤ 8 then (if l.inst = 4 then hub.getD l.idx 0 else die l.idx)
      else if 0x10 ≤ l.off ∧ l.off ≤ 0x18 then (if l.inst = 4 then hub.getD l.idx 0 else die l.idx)
      else l.spec.reset
    | _ => l.spec.reset

/-- The register stored at `a` (a physical address, with the selected entry of a banked register above bit 48). -/
def Dev.reg (d : Dev) (a : Nat) : W32 := mget (regReset a) d.regs a

/-- Set the stored register at `a`. -/
def Dev.setReg (d : Dev) (a : Nat) (v : W32) : Dev := { d with regs := mset (regReset a) d.regs a v }

/-- A field of a register as a number. -/
def Dev.rfld (d : Dev) (a hi lo : Nat) : Nat := fld (d.reg a) hi lo

/-- Set a field of a register. -/
def Dev.setFld (d : Dev) (a hi lo x : Nat) : Dev := d.setReg a (putFld (d.reg a) hi lo x)

/-- A bit of a register. -/
def Dev.rbit (d : Dev) (a n : Nat) : Bool := (d.reg a).getLsbD n

/-- Set or clear a bit of a register. -/
def Dev.setBit (d : Dev) (a n : Nat) (b : Bool) : Dev := d.setFld a n n (if b then 1 else 0)

/-- Add to a counting field of 16 bits that saturates at 65,535 (R14). (DEDUCED, log 94.) -/
def Dev.addSat16 (d : Dev) (a k : Nat) : Dev := d.setFld a 15 0 (min 65535 (d.rfld a 15 0 + k))

/-- Raise a high-water field to a value it has not reached. (DEDUCED, log 94.) -/
def Dev.hwm (d : Dev) (a hi lo x : Nat) : Dev := if d.rfld a hi lo < x then d.setFld a hi lo x else d

/-- A 64-bit register pair whose low half is at `a`. -/
def Dev.pair (d : Dev) (a : Nat) : Nat := (d.reg a).toNat + (d.reg (a + 4)).toNat * 2 ^ 32

/-- Set both halves of a pair. -/
def Dev.setPair (d : Dev) (a v : Nat) : Dev := (d.setReg a (BitVec.ofNat 32 v)).setReg (a + 4) (BitVec.ofNat 32 (v / 2 ^ 32))

/-- The key of entry `k` of a banked register. -/
def banked (a k : Nat) : Nat := a + k * 2 ^ 48

/-- What the access codes of R13 make of a write of `v` over `old`; `boot` says whether RWB fields can be written. -/
def accessWrite (r : RegSpec) (boot : Bool) (old v : W32) : W32 :=
  let w := if boot then r.rw ||| r.rwb else r.rw
  ((old &&& ~~~w) ||| (v &&& w)) &&& ~~~(v &&& r.w1c)

/-- A write to the low half of a pair is held (R9). (DESIGN CHOICE, log 76.) -/
def Dev.holdLo (d : Dev) (lo : Nat) (v : W32) : Dev := { d with loHeld := mput d.loHeld lo v }

/-- A write to the high half makes both halves take effect (R9, R10): the held low half, or the one in effect. (DESIGN CHOICE, log 76.) -/
def Dev.pairWrite (d : Dev) (lo : Nat) (hi : W32) : Dev :=
  let held := (d.loHeld.find? (fun c => c.1 == lo)).map (·.2)
  let d := match held with | some v => { d.setReg lo v with loHeld := mdel d.loHeld lo } | none => d
  d.setReg (lo + 4) hi

/-- The fuses as the shadows hold them: none after three failed loads (R479). (DESIGN CHOICE, log 6.) -/
def Dev.shadows (d : Dev) (f : Fuses) : Fuses := if d.rbit (rstReg 4) 1 then {} else f

/-- FMAX (R27, R572): 20 on the DN9640-I, 16 on the DN9640-E, and 0 after three failed loads (R479). (DESIGN CHOICE, log 6.) -/
def Dev.fmax (d : Dev) (f : Fuses) : Nat := if d.rbit (rstReg 4) 1 then 0 else if f.varE then 16 else 20

/-! ### Registers of a block that is held in reset (R472, R476, R477) -/

/-- A reset is asserted, or its release is under way: a block reset bit written 1 is itself reset to 0 (R476). -/
def Dev.resetting (d : Dev) : Bool := d.rst.phase != 0

/-- Addresses of a tile's registers that a block reset of the tile resets: all but the CLU block and the banks' power (R27, R312). -/
def tileRegs (k a : Nat) : Bool :=
  let b := tileAddr (k / 17) (k % 17) 0
  decide (b + 0x1000 ≤ a ∧ a < b + 0x20000) && a != b + 0x1A000

/-- The register lies in a block whose block reset bit is 1: it stays at its reset value (R472, R477). (DESIGN CHOICE, log 76. DEDUCED, log 77.) -/
def Dev.heldInReset (d : Dev) (l : RegLoc) (a : Nat) : Bool :=
  let tile := fun (k : Nat) => tileRegs k a && (d.rbit (cluReg (k / 17) (k % 17) 0xC) 0 || d.rbit (rstReg 0x10) (k / 17))
  match l.blk with
  | .sch | .se | .rc | .spm | .node => tile l.inst
  | .fu => tile (l.inst / 8)
  | .ctx | .pac | .gw | .stw | .lck | .rgn => d.rbit (rstReg 0x10) l.inst
  | .dma => d.rbit (rstReg 0x10) l.inst || (l.off != 0xC && d.rbit (dmaReg l.inst 0xC) 0)
  | .dmaCh => d.rbit (rstReg 0x10) (l.inst / 32) || d.rbit (dmaReg (l.inst / 32) 0xC) 0
  | .noc => l.off < 0x28 && l.inst < 4 && d.rbit (diefReg l.inst 0xC) 0
  | .ing => d.rbit (rstReg 0xC) 1
  | .rly => d.rbit (rstReg 0xC) 2
  | .cmd => d.rbit (rstReg 0xC) 3
  | .sec => d.rbit (rstReg 0xC) 4
  | .seg | .segRoll => d.rbit (rstReg 0xC) 5
  | .eth => d.rbit (rstReg 0xC) (12 + l.inst)
  | _ => false

/-- The register at `a` stands in reset. -/
def Dev.regHeld (d : Dev) (a : Nat) : Bool := match regLoc a with | some l => d.heldInReset l a | none => false

/-- A write of the register at `a` that makes the device `e`: nothing while the register stands in reset (R477). (DEDUCED, log 77.) -/
def Dev.writes (d : Dev) (a : Nat) (e : Dev) : Dev := if d.regHeld a then d else e

/-! ### Byte memory (R6, R302, R314) -/

/-- What an address that the memory does not list reads as (notes/assumptions/3.md, 7.md). (DESIGN CHOICE, log 3.) -/
def unlisted : Byte := 0

/-- The canonical form of memory: addresses strictly rising, no entry equal to what an unlisted address reads as. -/
def Memory.wf (m : List Host.Cell) : Bool := mwf unlisted m

/-- The byte at an address. (DESIGN CHOICE, log 3.) -/
def Dev.byte (d : Dev) (a : Nat) : Byte := mget unlisted d.mem a

/-- Store one byte. -/
def Dev.setByte (d : Dev) (a : Nat) (b : Byte) : Dev := { d with mem := mset unlisted d.mem a b }

/-- The `n` bytes from address `a`, lowest first. -/
def readMem (m : List Host.Cell) : Nat → Nat → List Byte
  | _, 0 => []
  | a, n + 1 => mget unlisted m a :: readMem m (a + 1) n

/-- Store bytes from address `a` on. -/
def writeMem (m : List Host.Cell) : Nat → List Byte → List Host.Cell
  | _, [] => m
  | a, b :: bs => writeMem (mset unlisted m a b) (a + 1) bs

def Dev.read (d : Dev) (a n : Nat) : List Byte := readMem d.mem a n
def Dev.write (d : Dev) (a : Nat) (bs : List Byte) : Dev := { d with mem := writeMem d.mem a bs }

/-- A little-endian number in memory. -/
def Dev.readLe (d : Dev) (a n : Nat) : Nat := leNat (d.read a n)
def Dev.writeLe (d : Dev) (a n v : Nat) : Dev := d.write a (leBytes n v)

/-- Clear the memory from `a` up to `b`. -/
def Dev.clearMem (d : Dev) (a b : Nat) : Dev := { d with mem := mclear d.mem (fun k => decide (a ≤ k ∧ k < b)) }

def hbmSize : Nat := 0xC00000000
def spmBase : Nat := 0x1000000000
def spmEnd : Nat := 0x1010000000
def nodeBase : Nat := 0x1800000000
def nodeEnd : Nat := 0x1808000000
def lockBase : Nat := 0x3000000000
def lockSpm : Nat := 0x3C00000000
def lockEnd : Nat := 0x4000000000
def romBase : Nat := 0x4000000000
def sramBase : Nat := 0x4001000000

/-- Address of byte `o` of bank `b` of a global cluster (R6). -/
def bankAddr (c b o : Nat) : Nat := spmBase + c * 0x100000 + b * 0x40000 + o

/-- Address of a node slot of a global cluster (R6, R95). -/
def slotAddr (c slot : Nat) : Nat := nodeBase + c * 0x80000 + slot * 16

/-! ### Units by number -/

def fuKey (g t f : Nat) : Nat := (g * 17 + t) * 8 + f
def tileKey (g t : Nat) : Nat := g * 17 + t

def Dev.fu (d : Dev) (k : Nat) : Fu := mget {} d.fus k
def Dev.setFu (d : Dev) (k : Nat) (u : Fu) : Dev := { d with fus := mset {} d.fus k u }
def Dev.modFu (d : Dev) (k : Nat) (f : Fu → Fu) : Dev := d.setFu k (f (d.fu k))
def Dev.tile (d : Dev) (k : Nat) : Tile := mget {} d.tiles k
def Dev.setTile (d : Dev) (k : Nat) (t : Tile) : Dev := { d with tiles := mset {} d.tiles k t }
def Dev.modTile (d : Dev) (k : Nat) (f : Tile → Tile) : Dev := d.setTile k (f (d.tile k))
def Dev.modSched (d : Dev) (k : Nat) (f : Sched → Sched) : Dev := d.modTile k (fun t => { t with sched := f t.sched })
def Dev.modRunner (d : Dev) (k : Nat) (f : Runner → Runner) : Dev := d.modTile k (fun t => { t with runner := f t.runner })
def Dev.modStride (d : Dev) (k : Nat) (f : Stride → Stride) : Dev := d.modTile k (fun t => { t with stride := f t.stride })
def Dev.region (d : Dev) (g : Nat) : Region := mget {} d.regions g
def Dev.setRegion (d : Dev) (g : Nat) (r : Region) : Dev := { d with regions := mset {} d.regions g r }
def Dev.modRegion (d : Dev) (g : Nat) (f : Region → Region) : Dev := d.setRegion g (f (d.region g))
def Dev.modPool (d : Dev) (g : Nat) (f : Pool → Pool) : Dev := d.modRegion g (fun r => { r with pool := f r.pool })
def Dev.modLck (d : Dev) (g : Nat) (f : LockUnit → LockUnit) : Dev := d.modRegion g (fun r => { r with lck := f r.lck })
def Dev.graph (d : Dev) (n : Nat) : Graph := mget {} d.graphs n
def Dev.setGraph (d : Dev) (n : Nat) (x : Graph) : Dev := { d with graphs := mset {} d.graphs n x }
def Dev.modNet (d : Dev) (f : Net → Net) : Dev := { d with net := f d.net }

/-- A free value (notes/assumptions/2.md): the counter advances, so the next is another. (DESIGN CHOICE, log 2.) -/
def Dev.free (d : Dev) : W64 × Dev := (Config.freeValue d.fresh, { d with fresh := d.fresh + 1 })

/-- The device's own number (R54): RLY.DEV. -/
def Dev.devNo (d : Dev) : BitVec 14 := BitVec.ofNat 14 (d.rfld (rlyReg 0) 13 0)

/-! ### The region map (R7, R31, R32) -/

/-- The tile of logical cluster `c` of region `g` under the active map (RGN.MAP0 to RGN.MAP3). -/
def Dev.tileOf (d : Dev) (g c : Nat) : Nat := d.rfld (rgnReg g (0x10 + 4 * (c / 4))) (8 * (c % 4) + 4) (8 * (c % 4))

/-- The active map of a region, by logical cluster. -/
def Dev.map (d : Dev) (g : Nat) : List Nat := (List.range 16).map (d.tileOf g)

/-- The logical cluster that a tile holds. -/
def Dev.logicalOf (d : Dev) (g t : Nat) : Option Nat := (List.range 16).find? (fun c => d.tileOf g c == t)

/-- The global cluster that a tile holds (R3). -/
def Dev.clusterOf (d : Dev) (k : Nat) : Option Nat := (d.logicalOf (k / 17) (k % 17)).map (fun c => k / 17 * 16 + c)

/-- The tile (17 × region + tile) that holds a global cluster. -/
def Dev.tileOfCluster (d : Dev) (c : Nat) : Nat := tileKey (c / 16) (d.tileOf (c / 16) (c % 16))

/-- The FU, by tile, of a global FU's cluster and number. -/
def Dev.fuOfDst (d : Dev) (x : DstF) : Nat :=
  let g := regionOf x.die.toNat x.rgn.toNat
  tileKey g (d.tileOf g x.clu.toNat) * 8 + x.fu.toNat

/-- ORIGIN of an FU: its global number (R3, R46); 0xFFF where its tile holds no cluster. -/
def Dev.originOf (d : Dev) (k : Nat) : Nat :=
  match d.clusterOf (k / 8) with
  | some c => c * 8 + k % 8
  | none => originBlock

/-! ### Graphs and contexts -/

/-- Some copy of the graph runs (R530, R536). -/
def Dev.running (d : Dev) (n : Nat) : Bool := (d.graph n).st == 2

/-- The error node of a graph for a cause in region `g`: that of the copy placed there (R108, R136). (DEDUCED, log 103.) -/
def Dev.errDst (d : Dev) (n g : Nat) : DstF :=
  let x := d.graph n
  DstF.ofBits (if x.dup && x.regsB.contains g then x.errB else x.errA)

/-- The context descriptor of a context (R82, R83). -/
def Dev.ctxDesc (d : Dev) (c : BitVec 22) : W64 := mget 0 (d.region (c.toNat / 2 ^ 18)).pool.desc (c.toNat % 2 ^ 18)

def Dev.setCtxDesc (d : Dev) (c : BitVec 22) (v : W64) : Dev :=
  d.modPool (c.toNat / 2 ^ 18) (fun p => { p with desc := mset 0 p.desc (c.toNat % 2 ^ 18) v })

/-! Fields of a context descriptor (R83). -/
def cdState (v : W64) : Nat := fld v 63 61
def cdFault (v : W64) : Bool := v.getLsbD 55
def cdCommit (v : W64) : Nat := fld v 54 52
def cdPrio (v : W64) : Nat := fld v 51 48
def cdBoost (v : W64) : Nat := fld v 47 44
def cdGraph (v : W64) : Nat := fld v 43 32

/-! ### Events (R526 to R530) -/

/-- Source `n` is pending (EVT.PENDm). -/
def Dev.evtPending (d : Dev) (n : Nat) : Bool := d.rbit (evtReg (0x100 + 4 * (n / 32))) (n % 32)
def Dev.setEvtPending (d : Dev) (n : Nat) (b : Bool) : Dev := d.setBit (evtReg (0x100 + 4 * (n / 32))) (n % 32) b

/-- The CAUSE word of a source: code and index (R526). -/
def causeWord (code index : Nat) : Nat := (code % 256 + index % 2 ^ 19 * 256) % 2 ^ 27

/-- The token of a token-routed source (R529). `op` is the EVENT operation's value and type byte. -/
def Dev.evtToken (d : Dev) (src : Nat) (cause : Nat) (op : Option (W64 × Byte)) : Token :=
  let dst := DstF.ofBits (BitVec.ofNat 29 (d.rfld (evtReg 8) 28 0))
  let tag : Tag := { dev := d.devNo, graph := BitVec.ofNat 12 (d.rfld (evtReg 0xC) 11 0), ctx := BitVec.ofNat 22 (d.rfld (evtReg 0x10) 21 0)
                     prio := BitVec.ofNat 4 (min 14 (d.rfld (banked (evtReg 4) src) 3 0)) }
  let (pay, ty) := op.getD (status stEVENT originBlock (src + cause * 1024), tyByte 6 false false false)
  { tag := Tag.seal (Tag.to tag dst), pay := pay, ty := ty }

/-- Raise a source (R527 to R530): COUNT and CAUSE always; an enabled source becomes pending, and a token-routed one
queues its token unless it is already pending; a token route whose graph does not run is served as the Steward's. -/
def Dev.raiseWith (d : Dev) (src cause : Nat) (op : Option (W64 × Byte)) : Dev :=
  let d := d.addSat16 (banked (evtReg 0x18) src) 1
  let d := d.setFld (banked (evtReg 0x14) src) 26 0 cause
  let cfg := d.reg (banked (evtReg 4) src)
  if !cfg.getLsbD 31 then d
  else if !cfg.getLsbD 30 then d.setEvtPending src true
  else if !d.running (d.rfld (evtReg 0xC) 11 0) then (d.setEvtPending src true).setBit (evtReg 0x1C) 0 true
  else if d.evtPending src then d
  else
    let t := d.evtToken src cause op
    let d := d.setEvtPending src true
    if d.evtQ.length < 64 then { d with evtQ := d.evtQ ++ [(src, t)] } else { d with evtWait := d.evtWait ++ [(src, t)] }

def Dev.raise (d : Dev) (src code index : Nat) : Dev := d.raiseWith src (causeWord code index) none

/-- Raise a source whose cause code the spec does not give: the code is a free value (notes/assumptions/2.md). (DESIGN CHOICE, log 2. DESIGN CHOICE, log 51.) -/
def Dev.raiseFree (d : Dev) (src index : Nat) : Dev := let (v, d) := d.free; d.raise src (v.toNat % 256) index

/-- A cluster health event of the tile `k`: the source of the cluster it holds, or nothing where it holds none. -/
def Dev.raiseTile (d : Dev) (k code index : Nat) : Dev :=
  match d.clusterOf k with
  | some c => d.raise c code index
  | none => d

/-! ### Scratchpad banks (R302, R310, R313) -/

def spmR (tl o : Nat) : Nat := spmReg (tl / 17) (tl % 17) o
def Dev.bank (d : Dev) (tl b : Nat) : Bank := mget {} (d.tile tl).banks b
def Dev.modBank (d : Dev) (tl b : Nat) (f : Bank → Bank) : Dev := d.modTile tl (fun t => { t with banks := mmod {} t.banks b f })

/-! Sub-bank and bank of an address. -/
def subOf (a : Nat) : Nat := a / 8 % 16
def bankOf (a : Nat) : Nat := a / 0x40000 % 4

/-- An uncorrectable error read in a bank (R302, R313, R526). -/
def Dev.spmUe (d : Dev) (tl off : Nat) : Dev :=
  ((d.setBit (spmR tl 0xC) 0 true).setFld (spmR tl 0x10) 19 0 off).raiseTile tl 3 0

/-! ### Sending on the network (R202, R203, R345) -/

/-- The station from which a block's packets enter the network. -/
def Node.router : Node → Node
  | .tileUnit g t _ => .tile g t
  | .regionUnit g _ => .gw g
  | .hubUnit u => if u < 16 then .hub else .meas
  | x => x

def Dev.link (d : Dev) (l : LinkId) : Link := mget {} d.net.links (LinkId.code l)
def Dev.setLink (d : Dev) (l : LinkId) (x : Link) : Dev := d.modNet (fun n => { n with links := mset {} n.links (LinkId.code l) x })

/-- The flits of a packet, as they wait in the buffer of input link `via`. -/
def flitsOf (p : Packet) (via : Option LinkId) : List QFlit :=
  (List.range (Packet.flits p)).map (fun k => { pkt := p, idx := k, n := Packet.flits p, via := via })

/-- Hand a packet to the send stage of a block: it waits at the block's own link. -/
def Dev.send (d : Dev) (src : Node) (p : Packet) : Dev :=
  let l : LinkId := ⟨src, Node.router src⟩
  let x := d.link l
  d.setLink l { x with q := x.q ++ flitsOf p none }

/-- Hand packets to the send stage of a block, in order. -/
def Dev.sendAll (d : Dev) (src : Node) (ps : List Packet) : Dev :=
  let l : LinkId := ⟨src, Node.router src⟩
  let x := d.link l
  d.setLink l { x with q := x.q ++ ps.flatMap (fun p => flitsOf p none) }

/-- The packets waiting at a block on a lane. -/
def Dev.inbox (d : Dev) (n : Node) (lane : Nat) : List Packet := mget [] d.net.inbox (Node.code n * 8 + lane)
def Dev.setInbox (d : Dev) (n : Node) (lane : Nat) (ps : List Packet) : Dev :=
  d.modNet (fun x => { x with inbox := mset [] x.inbox (Node.code n * 8 + lane) ps })

/-- The packet of a token (R345): DEST from its tag's DIE, RGN, CLU and FU with LOG 1, PRIO of its tag, 0 for one of class M on L4 (R344). A token whose DEV
is not the device's own is steered to the relay link block (R127). -/
def Dev.tokenPacket (d : Dev) (t : Token) : Packet :=
  let prio := if t.tag.cls = 4 then 0 else t.tag.prio
  if t.tag.dev ≠ d.devNo then { dest := { die := 4, unit := 2 }, prio := prio, body := .token t }
  else
    { dest := { die := t.tag.die, rgn := t.tag.rgn, tile := t.tag.clu.zeroExtend 5, unit := t.tag.fu.zeroExtend 4 }
      log := true, prio := prio, body := .token t }

/-- Send a token from a block. -/
def Dev.sendToken (d : Dev) (src : Node) (t : Token) : Dev := d.send src (d.tokenPacket t)

def Dev.sendTokens (d : Dev) (src : Node) : List Token → Dev
  | [] => d
  | t :: ts => (d.sendToken src t).sendTokens src ts

/-- The block that serves a context's home region's pool (R206). -/
def poolDest (g : Nat) : Dest := { die := BitVec.ofNat 3 (g / 4), rgn := BitVec.ofNat 2 (g % 4), tile := 31, unit := 2 }

/-- Send a management message on L4. -/
def Dev.sendMgmt (d : Dev) (src : Node) (dst : Dest) (m : Mgmt) : Dev := d.send src { dest := dst, body := .mgmt m }

/-- Mark a context faulted (R109): a fault message to its home pool. -/
def Dev.faultCtx (d : Dev) (src : Node) (c : BitVec 22) : Dev := d.sendMgmt src (poolDest (c.toNat / 2 ^ 18)) (.fault c)

/-- A status to the graph's error port (R108): GRAPH, CTX and ITER of the causing token, PRIO, EPOCH and FLOW as in
R54 from the given tag. `g` is the region of the cause. -/
def Dev.errToken (d : Dev) (g : Nat) (tag : Tag) (pay : W64) (replay : Bool) : Token :=
  { tag := Tag.seal { Tag.to tag (d.errDst tag.graph.toNat g) with dev := d.devNo, cls := 0 }
    pay := pay, ty := tyByte 6 true false replay }

/-- A block that is no FU consumes a token with a status at the graph's error port and the context faulted (R108, R109). -/
def Dev.blockError (d : Dev) (src : Node) (t : Token) (code detail : Nat) : Dev :=
  (d.sendToken src (d.errToken 16 t.tag (status code originBlock detail) (Token.replay t))).faultCtx src t.tag.ctx

/-- DETAIL of MISROUTE (R47). -/
def misrouteDetail (t : Tag) : Nat :=
  t.dev.toNat * 2 ^ 23 + t.die.toNat * 2 ^ 20 + t.rgn.toNat * 2 ^ 18 + t.clu.toNat * 2 ^ 14 + t.fu.toNat * 2 ^ 11

/-- What the tag check of a receiving block leaves of a token (R56, R126): none where it is discarded or consumed. `ok` says that the tag
names this block. -/
def Dev.blockTag (d : Dev) (src : Node) (t : Token) (ok : Bool) : Option Token × Dev :=
  if !Tag.crcOk t.tag then (none, d)
  else if !(ok && t.tag.dev == d.devNo) then (none, d.blockError src t stMISROUTE (misrouteDetail t.tag))
  else if !(t.tag.cls == 0 || (t.tag.cls == 4 && t.tag.graph == 0)) then (none, d.blockError src t stFORMAT 2)
  else if 8 < Token.ptype t then (none, d.blockError src t stFORMAT 3)
  else (some t, d)

/-- RGN, CLU and FU of a token for the infield die (R126). -/
def infieldIs (t : Tag) (rgn clu fu : Nat) : Bool := t.die == 4 && t.rgn.toNat == rgn && t.clu.toNat == clu && t.fu.toNat == fu

end Sys2Proof.Machine
end

