-- ==== Sys2Proof/Machine/Network.lean ====
section
/-!
DEFINITION. The on-package network (11_package_network.md, 06_progress_hurdles.md Lanes and Credits): routes, the
arbitration of an output, a flit's arrival, links going down and up, credits, route epochs, isolation and the
marshalling buffer.
-/
namespace Sys2Proof.Machine

/-! ### The mesh (R29, R350) -/

/-- The gateway router's number among a region's routers 0 to 16. -/
def gwr : Nat := 17

/-- Neighbours of a router in the order column direction, row direction, link to the gateway router (R350). -/
def meshNbrs (x : Nat) : List Nat :=
  if x = 17 then [7, 11, 16]
  else if x = 16 then [17]
  else
    (if x % 4 = 0 then [] else [x - 1]) ++ (if x % 4 = 3 then [] else [x + 1]) ++
    (if x < 4 then [] else [x - 4]) ++ (if x < 12 then [x + 4] else []) ++ (if x = 7 ∨ x = 11 then [17] else [])

/-- One round of relaxing distances: `step x old` gives the new value of router `x`. -/
def relax (step : Nat → List Nat → Nat) (old : List Nat) : List Nat := (List.range 18).map (fun x => step x old)

def iter (f : α → α) : Nat → α → α
  | 0, a => a
  | n + 1, a => iter f n (f a)

/-- A distance no path has. -/
def far : Nat := 99

/-- Distance of each router from the gateway router over routers that are not isolated. -/
def levels (iso : List Nat) : List Nat :=
  iter (relax (fun x old =>
    if x = 17 then 0
    else if iso.contains x then far
    else ((meshNbrs x).map (fun y => old.getD y far + 1)).foldl min far)) 18 (List.replicate 18 far)

/-- The move from `x` to `y` goes up: nearer the gateway router, or to the lower number at equal distance. (DESIGN CHOICE, log 16.) -/
def goesUp (lv : List Nat) (x y : Nat) : Bool :=
  let a := lv.getD x far
  let b := lv.getD y far
  b < a || (b == a && y < x)

/-- Lengths of the shortest legal paths (up moves, then down moves) to router `t` that pass no isolated router: first
list when a router may still go up, second when it may only go down. (DESIGN CHOICE, log 16.) -/
def legalDist (iso : List Nat) (lv : List Nat) (t : Nat) : List Nat × List Nat :=
  let ok := fun y => y == t || !iso.contains y
  iter (fun (p : List Nat × List Nat) =>
    let dn := relax (fun x old =>
      if x = t then 0 else ((meshNbrs x).map (fun y => if ok y && !goesUp lv x y then old.getD y far + 1 else far)).foldl min far) p.2
    let up := relax (fun x old =>
      if x = t then 0 else ((meshNbrs x).map (fun y => if ok y then (if goesUp lv x y then old.getD y far + 1 else dn.getD y far + 1) else far)).foldl min far) p.1
    (up, dn)) 18 (List.replicate 18 far, List.replicate 18 far)

/-- The next router from `x` towards `t`: the first output that begins a shortest legal path (R350). `down` says that
the packet has already gone down. -/
def meshNext (iso : List Nat) (x t : Nat) (down : Bool) : Option Nat :=
  let iso' := iso.filter (· != t)
  let lv := levels iso'
  let (up, dn) := legalDist iso' lv t
  let best := if down then dn.getD x far else up.getD x far
  if best ≥ far then none
  else (meshNbrs x).find? (fun y =>
    (y == t || !iso.contains y) &&
    (if goesUp lv x y then !down && up.getD y far + 1 == best else dn.getD y far + 1 == best))

/-! ### Domains (R348) -/

/-- The route domain a station belongs to. -/
def domOf : Node → Option Nat
  | .tile g _ => some g
  | .gw g => some g
  | .die n => some (16 + n)
  | .hub => some 20
  | _ => none

def Dev.dom (d : Dev) (k : Nat) : Domain := mget {} d.net.doms k
def Dev.setDom (d : Dev) (k : Nat) (x : Domain) : Dev := d.modNet (fun n => { n with doms := mset {} n.doms k x })

/-- A region's table half. -/
def Dev.meshHalf (d : Dev) (g : Nat) (e : Bool) : MeshHalf := if e then (d.dom g).mesh1 else (d.dom g).mesh0

/-- The active entries of a die fabric's or the hub's table (NOC.RT0 to RT2). -/
def Dev.nocActive (d : Dev) (n : Nat) : List Nat :=
  (List.range 24).map (fun i => d.rfld (nocReg n (0x10 + 4 * (i / 8))) (4 * (i % 8) + 3) (4 * (i % 8)))

/-- An entry of the table half with epoch `e` of a fabric (R348, R349): the current epoch's half is the active one. -/
def Dev.nocEntry (d : Dev) (n : Nat) (e : Bool) (i : Nat) : Nat :=
  let x := d.dom (16 + n)
  if e = x.epoch then (d.nocActive n).getD i 15
  else (if e then x.tab1 else x.tab0).getD i 15

/-! ### Link state (R40, R346, R351) -/

/-- The DIEF.LINK bits of a die link: the die and the position (0 next, 1 previous, 2 hub), the sending die's first. A link is down in both
directions at once. (DEDUCED, log 18.) -/
def dieLinkBits (l : LinkId) : List (Nat × Nat) :=
  match l.src, l.dst with
  | .die a, .hub => [(a, 2)]
  | .hub, .die a => [(a, 2)]
  | .die a, .die b => if b = (a + 1) % 4 then [(a, 0), (b, 1)] else if b = (a + 3) % 4 then [(a, 1), (b, 0)] else []
  | _, _ => []

/-- The same wires in the other direction. -/
def LinkId.back (l : LinkId) : LinkId := ⟨l.dst, l.src⟩

/-- The link carries traffic. (DEDUCED, log 18.) -/
def Dev.linkUp (d : Dev) (l : LinkId) : Bool :=
  match dieLinkBits l with
  | [] => !(d.link l).down
  | bs => bs.all (fun c => d.rbit (diefReg c.1 4) c.2)

/-- The island of a hub block (R20): the always-on island holds the Steward, the command interpreter, events, health and boot; a block the table does not
name lies in the hub fabric's. (DEDUCED, log 95.) -/
def hubIsland : Nat → Nat
  | 0 => 300 | 3 => 300 | 9 => 300 | 10 => 300 | 11 => 300
  | 4 => 305 | 5 => 306 | 6 => 303 | 7 => 304 | 12 => 301 | 13 => 302
  | 16 => 293
  | _ => 292

/-- The island a station lies in. -/
def Node.island : Node → Nat
  | .hubUnit u => hubIsland u
  | n => Node.code (Node.router n)

/-- The station is out of reset (R25, R26, R30, R472): its island is released, its block reset is clear, and a tile is mapped, or
was until the flip in progress. -/
def Dev.stationUp (d : Dev) (n : Node) : Bool :=
  d.islands.contains (Node.island n) &&
  (match n with | .hubUnit u => u == 0 || decide (14 ≤ u) || !d.rbit (rstReg 0xC) u | _ => true) &&
  (match Node.router n with
   | .tile g t => !d.rbit (cluReg g t 0xC) 0 && !d.rbit (rstReg 0x10) g && ((d.map g).contains t || (d.dom g).flip)
   | .gw g => !d.rbit (rstReg 0x10) g
   | .die k => !d.rbit (diefReg k 0xC) 0
   | _ => true)

/-- Hub block `u` is isolated (NOC.BLK_ISO). -/
def Dev.blkIso (d : Dev) (u : Nat) : Bool := u < 16 && d.rbit (nocReg 4 0x54) u

/-! ### Routes (R126, R345, R347, R349, R351) -/

/-- The block of dies 4 and 5 that receives a token, by its RGN, CLU and FU (R126): a hub block, 16 the trip outputs, 17 the analog outputs; none
where the combination names no block. A packet with LOG 0 names its hub block (R347). -/
def infieldBlock (p : Packet) : Option Nat :=
  if p.dest.die ≠ 4 then none
  else if !p.log then some p.dest.unit.toNat
  else
    match p.dest.rgn.toNat, p.dest.tile.toNat, p.dest.unit.toNat with
    | 0, 0, 0 => some 0
    | 0, 2, 0 => some 1
    | 0, 3, 0 => some 9
    | 0, 4, 0 => some 10
    | 1, 0, 0 => some 16
    | 1, 1, 0 => some 17
    | _, _, _ => none

/-- A token that no block of the device is addressed by (R56, R94, R126): DIE 5 to 7, or a combination under DIE 4 that names no block. -/
def strayToken (p : Packet) : Bool :=
  match p.body with
  | .token _ => decide (4 < p.dest.die.toNat) || (p.dest.die == 4 && (infieldBlock p).isNone)
  | _ => false

/-- Where a packet goes from a station: the next station, or none where the router absorbs it (R358). -/
def Dev.route (d : Dev) (at_ : Node) (via : Option LinkId) (p : Packet) : Option Node :=
  let die := p.dest.die.toNat
  let home := regionOf die p.dest.rgn.toNat
  let hop := fun (nx : Node) => if d.linkUp ⟨at_, nx⟩ then some nx else none
  match at_ with
  | .tile g t =>
    let half := d.meshHalf g p.repoch
    let goal := if home = g ∧ p.dest.tile.toNat ≤ 16 then p.dest.tile.toNat else gwr
    if home = g ∧ goal = t then some (.tileUnit g t p.dest.unit.toNat)
    else
      let lv := levels half.iso
      let down := match via with
        | some ⟨.tile _ y, _⟩ => !goesUp lv y t
        | some ⟨.gw _, _⟩ => true
        | _ => false
      match meshNext half.iso t goal down with
      | none => none
      | some y => if half.iso.contains y then none else some (if y = gwr then .gw g else .tile g y)
  | .gw g =>
    let half := d.meshHalf g p.repoch
    if home ≠ g then some (.die (g / 4))
    else if 16 < p.dest.tile.toNat then some (.regionUnit g p.dest.unit.toNat)
    else
      match meshNext half.iso gwr p.dest.tile.toNat false with
      | none => none
      | some y => if half.iso.contains y then none else some (.tile g y)
  | .die k =>
    let nx : Node := .die ((k + 1) % 4)
    let pv : Node := .die ((k + 3) % 4)
    let viaHub := if (hop .hub).isSome then some Node.hub else if (hop nx).isSome then some nx else hop pv
    match d.nocEntry k p.repoch (die * 4 + p.dest.rgn.toNat) with
    | 0 => some (.gw (k * 4))
    | 1 => some (.gw (k * 4 + 1))
    | 2 => some (.gw (k * 4 + 2))
    | 3 => some (.gw (k * 4 + 3))
    | 4 => viaHub
    | 5 => if (hop nx).isSome then some nx else viaHub
    | 6 => if (hop pv).isSome then some pv else viaHub
    | _ => none
  | .hub =>
    let c := d.nocEntry 4 p.repoch (die * 4 + p.dest.rgn.toNat)
    if c < 4 then hop (.die c)
    else if c = 4 then hop .meas
    else if c = 5 then
      match infieldBlock p with
      | none => none
      | some b => if b < 16 then (if d.blkIso b then none else some (.hubUnit b)) else hop .meas
    else none
  | .meas =>
    match infieldBlock p with
    | some 16 => some (.hubUnit 16)
    | some 17 => some (.hubUnit 16)
    | _ => if die = 5 then (if strayToken p then none else some (.hubUnit 16)) else hop .hub
  | _ => none

/-! ### End-to-end credits and their accumulators (R204, R210, R213, R215, R218) -/

/-- The station that holds an end-to-end credit: the gateway of a region, the hub fabric, the measurement die, or a hub source. -/
def holderNode (h : Nat) : Node := if h < 16 then .gw h else if h = 16 then .hub else if h = 17 then .meas else .hubUnit (h - 18)

/-- The packet address of a holder. -/
def holderDest (h : Nat) : Dest :=
  if h < 16 then { die := BitVec.ofNat 3 (h / 4), rgn := BitVec.ofNat 2 (h % 4), tile := 31, unit := 4 }
  else if h = 17 then { die := 5 }
  else { die := 4, unit := BitVec.ofNat 4 (h - 18) }

def accKey (n : Node) (h t : Nat) : Nat := Node.code n * 4096 + h * 64 + t

/-- Raise the event of the unit that got credits above the receiver's depth (R218, R526). -/
def Dev.creditExcess (d : Dev) (n : Node) : Dev :=
  match n with
  | .tile g t => d.raiseTile (tileKey g t) 6 0
  | .tileUnit g t _ => d.raiseTile (tileKey g t) 6 0
  | .gw g => d.raise (321 + 2 * (g / 4)) 1 0
  | .regionUnit g _ => d.raise (321 + 2 * (g / 4)) 1 0
  | .die k => d.raise (321 + 2 * k) 1 0
  | .hub => d.raise 329 1 0
  | .hubUnit u => d.raise (if u < 16 then 329 else 331) 1 0
  | .meas => d.raise 331 1 0

/-- `k` end-to-end credits for target `t` reach their holder: an excess above what it spent is ignored with an event (R218). -/
def Dev.e2eBack (d : Dev) (h t k : Nat) : Dev :=
  let used := mget 0 d.net.e2e (h * 64 + t)
  let d := d.modNet (fun n => { n with e2e := mset 0 n.e2e (h * 64 + t) (used - k) })
  if used < k then d.creditExcess (holderNode h) else d

/-- Return an end-to-end credit from a station: to the holder itself, or into the station's accumulator (R204). -/
def Dev.oweE2e (d : Dev) (at_ : Node) (h t k : Nat) : Dev :=
  if holderNode h = at_ then d.e2eBack h t k
  else d.modNet (fun n => { n with acc := mmod 0 n.acc (accKey at_ h t) (· + k) })

/-- The credit that a token sent on this link needs, as holder and target (R213, R215): a token leaves its region, the hub or the
measurement die for a region (target below 16), or any source for a block of the infield die (32 + block). (DEDUCED, log 95.) -/
def e2eKey (l : LinkId) (p : Packet) : Option (Nat × Nat) :=
  let dst := regionOf p.dest.die.toNat p.dest.rgn.toNat
  if Packet.lane p ≠ 0 ∨ p.part ≠ none then none
  else
    match l.src, l.dst with
    | .gw g, .die _ => if dst < 16 then some (g, dst) else (infieldBlock p).map (fun b => (g, 32 + b))
    | .hub, .die _ => some (16, dst)
    | .meas, .hub => if dst < 16 then some (17, dst) else (infieldBlock p).map (fun b => (17, 32 + b))
    | .hubUnit u, .hub => (infieldBlock p).map (fun b => (18 + u, 32 + b))
    | _, _ => none

/-- End-to-end credits of a holder (R213, R215): 64 of a region's partition, 32 of an infield block. -/
def e2eDepth (t : Nat) : Nat := if t < 32 then 64 else 32

/-- The queue of an output that a flit stands in: its input and lane; the tokens of a gateway's partitions stand by partition and tile (R214). -/
def sameLine (l : LinkId) (a f : QFlit) : Bool :=
  a.via == f.via && Packet.lane a.pkt == Packet.lane f.pkt &&
    (match l.src, f.via with
     | .gw _, none => a.pkt.part == f.pkt.part && a.pkt.dest.tile == f.pkt.dest.tile
     | _, _ => true)

/-- The first flit of each line of an output. -/
def lineHeads (l : LinkId) (q : List QFlit) : List QFlit :=
  q.foldl (fun (acc : List QFlit) f => if acc.any (fun a => sameLine l a f) then acc else acc ++ [f]) []

/-- The sources of the hub that wait for a credit of a region, and the one whose turn it is (R213: round robin).
(DESIGN CHOICE, log 100.) (DESIGN CHOICE, log 100.) -/
def Dev.hubTurn (d : Dev) (l : LinkId) (t : Nat) : Option Nat :=
  let srcs := (lineHeads l (d.link l).q).filterMap (fun f => if e2eKey l f.pkt = some (16, t) then some (match f.via with | some v => Node.code v.src | none => 0) else none)
  let last := mget 0 d.net.turn t
  let least := fun (xs : List Nat) => xs.foldl (fun (m : Option Nat) x => match m with | none => some x | some y => some (min x y)) none
  match least (srcs.filter (fun x => last < x)) with
  | some x => some x
  | none => least srcs

/-- The token may spend its end-to-end credit now (R213, R215). -/
def Dev.e2eOk (d : Dev) (l : LinkId) (via : Option LinkId) (p : Packet) : Bool :=
  match e2eKey l p with
  | none => true
  | some (h, t) =>
    decide (mget 0 d.net.e2e (h * 64 + t) < e2eDepth t) &&
    (h != 16 || via.isNone || d.hubTurn l t == via.map (fun v => Node.code v.src))

/-- Return the hop credits of flits that leave a receive buffer (R211). -/
def Dev.oweHop (d : Dev) (via : Option LinkId) (lane k : Nat) : Dev :=
  match via with
  | none => d
  | some v => let x := d.link v; d.setLink v { x with owed := mset 0 x.owed lane (mget 0 x.owed lane + k) }

/-! ### Absorption (R358, R359) -/

/-- An absorbed token that was addressed to a HURDLE node is handed to the hurdle unit of the destination region, which counts it and holds nothing
(R358). -/
def Dev.countAtHurdle (d : Dev) (g fu : Nat) (t : Token) : Dev :=
  d.modRegion g (fun r =>
    match r.hurdles.find? (fun c => c.2.graph == t.tag.graph && c.2.fu / 8 == d.originOf fu / 8 && c.2.slots.contains t.tag.node) with
    | none => r
    | some (_, h) => { r with hrdIn := r.hrdIn ++ [{ fu := fu, slot := t.tag.node, entry := h.entry, tok := t, gone := true }] })

/-- The block in whose name a station answers. -/
def answerer : Node → Node
  | .tile g _ => .regionUnit g 4
  | .gw g => .regionUnit g 4
  | .die k => .regionUnit (k * 4) 4
  | .meas => .hubUnit 16
  | _ => .hubUnit 10

/-- The end-to-end credit of a token that a station consumes (R213, R358): the destination's mesh got the token after its gateway had returned the
credit; any other station returns it. (DEDUCED, log 95.) -/
def Dev.returnE2e (d : Dev) (at_ : Node) (p : Packet) : Dev :=
  match at_, p.part with
  | .tile _ _, _ => d
  | _, none => d
  | _, some h =>
    match infieldBlock p with
    | some b => d.oweE2e at_ h (32 + b) 1
    | none => d.oweE2e at_ h (regionOf p.dest.die.toNat p.dest.rgn.toNat) 1

/-- A router consumes a token that it cannot deliver (R94, R358, R359): a stray token is a MISROUTE; for another, TARGET_ISOLATED goes to the graph's
error port, and the hurdle unit counts it where it was addressed to a hurdle. The context is faulted. -/
def Dev.absorbToken (d : Dev) (at_ : Node) (p : Packet) (t : Token) : Dev :=
  let src := answerer at_
  let d := d.returnE2e at_ p
  if strayToken p then
    (d.sendToken src (d.errToken 16 t.tag (status stMISROUTE originBlock (misrouteDetail t.tag)) (Token.replay t))).faultCtx src t.tag.ctx
  else
    let g := regionOf p.dest.die.toNat p.dest.rgn.toNat
    let d := if g < 16 then d.countAtHurdle g ((tileKey g (if p.log then d.tileOf g p.dest.tile.toNat else p.dest.tile.toNat)) * 8 + p.dest.unit.toNat) t else d
    let e := d.errToken g t.tag (status stTARGET_ISOLATED originBlock (Dest.toBits p.dest).toNat) (Token.replay t)
    (d.sendToken src e).faultCtx src t.tag.ctx

/-- The answer of a router in a target's place (R358): STATUS 5 to a request, the acknowledgement of a sweep. An owner reset asks for no answer. -/
def absorbAnswer (p : Packet) : Option Packet :=
  match p.body with
  | .req r => some { dest := r.req, prio := r.prio, body := .resp { op := r.op, status := 5, req := r.req, rtag := r.rtag, prio := r.prio } }
  | .mgmt (.sweep c _ k) => some { dest := poolDest (c.toNat / 2 ^ 18), body := .mgmt (.sweepAck c k) }
  | _ => none

/-- A router absorbs a packet (R358). -/
def Dev.absorb (d : Dev) (at_ : Node) (p : Packet) : Dev :=
  match p.body with
  | .token t => if t.tag.cls = 4 && !strayToken p then d else d.absorbToken at_ p t
  | _ =>
    match absorbAnswer p with
    | some a => d.send (answerer at_) a
    | none => d

/-! ### The marshalling buffer (R361 to R363) -/

/-- A source's copy of NOC.PARK marks region `g`: the hub's is the register, a gateway's came on L4 (R361). -/
def Dev.parkedAt (d : Dev) (src : Node) (g : Nat) : Bool :=
  g < 16 && (match src with
    | .gw s => (mget 0 d.net.park s).testBit g
    | _ => d.rbit (nocReg 4 0x40) g)

/-- Region `g` is parked. -/
def Dev.parked (d : Dev) (g : Nat) : Bool := g < 16 && d.rbit (nocReg 4 0x40) g

/-- Address of an entry of source `s`'s queue for region `g` (R362). -/
def Dev.marshAddr (d : Dev) (g s n : Nat) : Nat := d.pair (nocReg 4 0x44) + g * 0x1000000 + s * 0xF0000 + n % 30720 * 32

/-- A store entry as its 32 bytes (R61): 224 data bits, each 64-bit word carrying 56 of them and the 8 check bits over them. (DESIGN CHOICE, log 97.) -/
def entryBytes (e : Entry) : List Byte :=
  let v : Nat := (Tag.toBits e.tok.tag).toNat * 2 ^ 96 + e.tok.pay.toNat * 2 ^ 32 + e.tok.ty.toNat * 2 ^ 24 + e.age % 256 * 2 ^ 16 + e.st.toNat * 2 ^ 12
  (List.range 4).flatMap (fun w => leBytes 7 (v / 2 ^ (56 * w)) ++ [Config.secded (BitVec.ofNat 56 (v / 2 ^ (56 * w)))])

/-- The store entry that 32 bytes spell. -/
def entryOfBytes (bs : List Byte) : Entry :=
  let v := (List.range 4).foldl (fun a w => a + leNat ((bs.drop (8 * w)).take 7) * 2 ^ (56 * w)) 0
  { tok := { tag := Tag.ofBits (BitVec.ofNat 128 (v / 2 ^ 96)), pay := BitVec.ofNat 64 (v / 2 ^ 32), ty := BitVec.ofNat 8 (v / 2 ^ 24) }
    age := v / 2 ^ 16 % 256, st := BitVec.ofNat 4 (v / 2 ^ 12) }

/-- The source number of a marshalling queue for a link: the gateway's region, or 16 for the hub (R361). -/
def marshSource (l : LinkId) : Option Nat :=
  match l.src, l.dst with
  | .gw g, .die _ => some g
  | .hub, .die _ => some 16
  | _, _ => none

/-- The packet enters the part of the network between gateways at this link's source: it comes from the source's own region, the hub's blocks or the
measurement die. -/
def entersHere (l : LinkId) (via : Option LinkId) : Bool :=
  match l.src, via with
  | .hub, some ⟨.die _, _⟩ => false
  | _, _ => true

/-- A token is written into a queue of the marshalling buffer (R361): its end-to-end credit, if it came with one, is returned. A full queue
sets MARSH_STATUS and raises event 332, and the source keeps the token. -/
def Dev.marshal (d : Dev) (src : Node) (s g : Nat) (p : Packet) (t : Token) : Option Dev × Dev :=
  let (head, cnt) := mget (0, 0) d.net.marsh (g * 32 + s)
  if cnt < 30720 then
    let d := d.write (d.marshAddr g s (head + cnt)) (entryBytes { tok := t })
    let d := d.returnE2e src p
    (some (d.modNet (fun n => { n with marsh := mset (0, 0) n.marsh (g * 32 + s) (head, cnt + 1) })), d)
  else (none, if d.rbit (nocReg 4 0x4C) g then d else (d.setBit (nocReg 4 0x4C) g true).raiseFree 332 g)

/-- A flit bound for a parked region, at the output of a source (R361): a token goes into its queue, a request is answered with STATUS 3, a
management message other than a copy of NOC.PARK is treated as for an isolated target. None where the flit is to be sent or kept; responses are carried.
(DESIGN CHOICE, log 47.) (DESIGN CHOICE, log 47.) -/
def Dev.parkFlit (d : Dev) (l : LinkId) (f : QFlit) : Option Dev × Dev :=
  let g := regionOf f.pkt.dest.die.toNat f.pkt.dest.rgn.toNat
  match marshSource l with
  | none => (none, d)
  | some s =>
    if !(d.parkedAt l.src g && entersHere l f.via) then (none, d)
    else
      let free := fun (d : Dev) => d.oweHop f.via (Packet.lane f.pkt) 1
      match f.pkt.body with
      | .token t =>
        if t.tag.cls = 4 then (some (free d), d)
        else match d.marshal l.src s g f.pkt t with | (some d, _) => (some (free d), d) | (none, d) => (none, d)
      | .req r =>
        let a : Packet := { dest := r.req, prio := r.prio, body := .resp { op := r.op, status := 3, req := r.req, rtag := r.rtag, prio := r.prio } }
        (some (free (if f.idx + 1 = f.n then d.send (answerer l.src) a else d)), d)
      | .resp _ => (none, d)
      | .mgmt (.park _) => (none, d)
      | .mgmt _ => (some (free (d.absorb l.src f.pkt)), d)

/-- The oldest token of each queue of this source whose region is no longer parked there (R363). -/
def Dev.marshHeads (d : Dev) (l : LinkId) : List (Nat × QFlit) :=
  match marshSource l with
  | none => []
  | some s =>
    (List.range 16).filterMap (fun g =>
      let (head, cnt) := mget (0, 0) d.net.marsh (g * 32 + s)
      if cnt = 0 || d.parkedAt l.src g then none
      else
        let p := d.tokenPacket (entryOfBytes (d.read (d.marshAddr g s head) 32)).tok
        if d.route l.src none p = some l.dst then some (g, { pkt := p }) else none)

/-- The source still has queued tokens for the packet's region, or the region is parked there: new tokens wait (R361, R363). -/
def Dev.behindMarsh (d : Dev) (l : LinkId) (f : QFlit) : Bool :=
  match marshSource l with
  | none => false
  | some s =>
    let g := regionOf f.pkt.dest.die.toNat f.pkt.dest.rgn.toNat
    Packet.lane f.pkt == 0 && entersHere l f.via && decide (g < 16) && (d.parkedAt l.src g || decide ((mget (0, 0) d.net.marsh (g * 32 + s)).2 ≠ 0))

/-! ### Arrival at a station (R53, R345, R348, R355) -/

/-- Put a flit on the output that its packet's route names, where a parked region's traffic leaves the network's way; or absorb it. -/
def Dev.forward (d : Dev) (at_ : Node) (f : QFlit) : Dev :=
  match d.route at_ f.via f.pkt with
  | none =>
    let d := d.oweHop f.via (Packet.lane f.pkt) 1
    if f.idx + 1 = f.n then d.absorb at_ f.pkt else d
  | some nx =>
    let l : LinkId := ⟨at_, nx⟩
    match d.parkFlit l f with
    | (some d, _) => d
    | (none, d) => let x := d.link l; d.setLink l { x with q := x.q ++ [f] }

/-- The packet as it enters a station: stamped with the domain's epoch and, in its destination region, its logical
cluster translated to a tile (R345, R348). -/
def Dev.enter (d : Dev) (frm : Option Node) (at_ : Node) (p : Packet) : Packet :=
  let inside := match frm with
    | some n => decide (domOf n = domOf at_ ∧ domOf n ≠ none)
    | none => false
  if inside then p
  else
    match domOf at_ with
    | none => p
    | some k =>
      let e := (d.dom k).epoch
      let p := { p with repoch := e }
      if k < 16 ∧ p.log ∧ regionOf p.dest.die.toNat p.dest.rgn.toNat = k then
        let t := (d.meshHalf k e).map.getD p.dest.tile.toNat 31
        { p with log := false, dest := { p.dest with tile := BitVec.ofNat 5 t } }
      else p

/-- A domain holds back a packet at an entry point during a flip (R355 step 3): a packet of L0 with nonzero FLOW, and
anything behind a held packet of its lane. -/
def Domain.holds (x : Domain) (frm : Node) (p : Packet) : Bool :=
  x.flip && ((Packet.lane p == 0 && Packet.flow p != 0) || x.held.any (fun h => h.1 == frm && Packet.lane h.2.pkt == Packet.lane p))

/-- What reaches a closed region's gateway from outside (R491): tokens are absorbed, requests refused, a lock acquire answered with 0. -/
def Dev.closedTo (d : Dev) (frm at_ : Node) (p : Packet) : Bool :=
  match frm, at_ with
  | .die _, .gw g => !d.rbit (pwrReg 4) g && regionOf p.dest.die.toNat p.dest.rgn.toNat == g && (Packet.lane p == 0 || Packet.lane p == 1)
  | _, _ => false

def Dev.refuseClosed (d : Dev) (at_ : Node) (p : Packet) : Dev :=
  match p.body with
  | .req r =>
    let st : BitVec 4 := if r.op = 4 then 0 else 3
    d.send (answerer at_) { dest := r.req, prio := r.prio, body := .resp { op := r.op, status := st, req := r.req, rtag := r.rtag, prio := r.prio } }
  | _ => d.absorb at_ p

/-- A gateway discards a token whose TCRC fails, as a lost token (R53, R56). The spec names no event for a gateway. (DESIGN CHOICE, log 101.) -/
def badAtGateway (at_ : Node) (p : Packet) : Bool :=
  match at_, p.body with
  | .gw _, .token t => !Tag.crcOk t.tag
  | _, _ => false

/-- A flit is taken into a router from another station or from a block. -/
def Dev.arrive (d : Dev) (frm at_ : Node) (f : QFlit) : Dev :=
  if badAtGateway at_ f.pkt then (d.oweHop f.via (Packet.lane f.pkt) 1).returnE2e at_ f.pkt
  else if d.closedTo frm at_ f.pkt then
    let d := d.oweHop f.via (Packet.lane f.pkt) 1
    if f.idx + 1 = f.n then d.refuseClosed at_ f.pkt else d
  else
  match domOf at_ with
  | none => d.forward at_ f
  | some k =>
    let inside := decide (domOf frm = some k)
    if !inside && (d.dom k).holds frm f.pkt then
      let x := d.dom k
      d.setDom k { x with held := x.held ++ [(frm, { f with pkt := { f.pkt with repoch := x.epoch } })] }
    else d.forward at_ { f with pkt := if f.idx = 0 then d.enter (some frm) at_ f.pkt else f.pkt }

/-! ### Arbitration (R205, R211, R212, R214, R352, R353) -/

/-- Receive buffer depth in flits (R212). The table gives no depth for a block other than an FU: a block beside a gateway is taken to have the depth of the
gateway's buffer from the die fabric, a block of the hub or the measurement die that of the hub fabric's, a tile's other blocks that of an FU on L0 and L4 and
8 requests on L1 (R306). A response always has its place (R216). (DESIGN CHOICE, log 100.) -/
def linkDepth (l : LinkId) (lane : Nat) : Nat :=
  let pick := fun (a b c e m : Nat) => match lane with | 0 => a | 1 => b | 2 => c | 3 => e | _ => m
  match l.dst with
  | .tile _ _ => pick 8 8 16 2 4
  | .gw _ => (match l.src with | .die _ => pick 32 32 64 4 8 | _ => pick 8 8 16 2 4)
  | .die _ => pick 32 32 64 4 8
  | .hub => pick 64 64 128 4 16
  | .meas => pick 64 64 128 4 16
  | .tileUnit _ _ u => if u < 8 then pick 16 8 4096 4 4 else pick 16 16 4096 4 4
  | .regionUnit _ _ => pick 32 32 4096 4 8
  | .hubUnit _ => pick 64 64 4096 4 16

/-- Tokens that wait in a region's mesh for an FU of a tile, or in its inbound queue: the gateway sends no more of them than the queue has room for, so that
a full FU holds only the tokens bound for its own tile (R214). (DESIGN CHOICE, log 100.) -/
def Dev.boundFor (d : Dev) (g t u : Nat) : Nat :=
  let mine := fun (f : QFlit) => Packet.lane f.pkt == 0 && f.pkt.dest.tile.toNat == t && f.pkt.dest.unit.toNat == u
  (d.net.links.filter (fun c => (c.1 / 8192) / 17 == g && c.1 / 8192 < 272)).foldl (fun n c => n + (c.2.q.filter mine).length) 0 +
    mget 0 (d.link ⟨.tile g t, .tileUnit g t u⟩).used 0

/-- The path of a token that a gateway forwards into its mesh has room (R214). (DESIGN CHOICE, log 100.) -/
def Dev.pathOk (d : Dev) (l : LinkId) (f : QFlit) : Bool :=
  match l.src, l.dst, f.pkt.part with
  | .gw g, .tile _ _, some _ => Packet.lane f.pkt != 0 || decide (d.boundFor g f.pkt.dest.tile.toNat f.pkt.dest.unit.toNat < 16)
  | _, _, _ => true

/-- The flit may leave next (R211, R213 to R215, R353): it belongs to the packet in progress on its lane, or none is, and it has its credits. Flits whose
head was lost in a reset of the receiver leave as they come. -/
def Dev.mayLeave (d : Dev) (l : LinkId) (f : QFlit) : Bool :=
  let x := d.link l
  let lane := Packet.lane f.pkt
  (match mget none (x.lock.map (fun c => (c.1, some c.2))) lane with | none => true | some v => v == f.via) &&
  decide (mget 0 x.used lane < linkDepth l lane) && d.e2eOk l f.via f.pkt && d.pathOk l f

/-- The flits that may leave this link next: the heads of its lines, and those of the marshalling queues that are released. -/
def Dev.ready (d : Dev) (l : LinkId) : List QFlit :=
  let x := d.link l
  if x.wait then []
  else (lineHeads l x.q).filter (fun f => !d.behindMarsh l f && d.mayLeave l f) ++ (d.marshHeads l).filterMap (fun c => if d.mayLeave l c.2 then some c.2 else none)

/-- The order of (input port, lane) pairs. -/
def pairCode (v : Option LinkId) (lane : Nat) : Nat :=
  (match v with | none => 0 | some l => LinkId.code l + 1) * 8 + lane

/-- Urgency of a packet (R352). -/
def urgency (p : Packet) : Nat := p.prio.toNat + p.age.toNat

/-- The receiver's buffer for a link is empty: no flit that came by it waits there (R218). -/
def Dev.drained (d : Dev) (l : LinkId) : Bool :=
  d.net.links.all (fun c => decide (c.1 / 8192 ≠ Node.code l.dst) || c.2.q.all (fun f => f.via != some l)) &&
  d.net.doms.all (fun c => c.2.held.all (fun h => h.2.via != some l)) &&
  (match l.dst with
   | .tileUnit _ _ _ | .regionUnit _ _ | .hubUnit _ => (List.range 5).all (fun k => (d.inbox l.dst k).isEmpty)
   | _ => true)

/-- What the next L3 flit on link `l` carries (R210): hop credits of the opposite link by lane, and end-to-end credits of one holder and target whose
way leads over `l`. -/
structure CreditFlit where
  hops : SMap Nat := []
  e2e  : Option (Nat × Nat × Nat) := none
  deriving DecidableEq, Repr, Inhabited

/-- The end-to-end credits in the accumulator of `l`'s sender that travel by `l` next. -/
def Dev.nextE2e (d : Dev) (l : LinkId) : Option (Nat × Nat × Nat) :=
  let n := Node.code l.src
  (d.net.acc.find? (fun c => c.1 / 4096 == n &&
      decide (d.route l.src none { dest := holderDest (c.1 / 64 % 64), body := .mgmt (.heartbeat 0) } = some l.dst ∨ holderNode (c.1 / 64 % 64) = l.dst))).map
    (fun c => (c.1 / 64 % 64, c.1 % 64, c.2))

def Dev.creditFlit (d : Dev) (l : LinkId) : CreditFlit := { hops := (d.link (LinkId.back l)).owed, e2e := d.nextE2e l }

/-- An L3 flit waits on link `l` (R204, R353), or the advertisement of a drained buffer (R218). -/
def Dev.creditWaits (d : Dev) (l : LinkId) : Bool :=
  !(d.link (LinkId.back l)).owed.isEmpty || (d.nextE2e l).isSome || ((d.link (LinkId.back l)).wait && d.drained (LinkId.back l))

/-- What an output sends next: an L3 flit, or a flit with whether a photo finish chose it. -/
inductive Choice where
  | credit
  | flit (f : QFlit) (tie : Bool)
  deriving DecidableEq, Repr, Inhabited

/-- The flit of highest urgency, and whether a tie was broken by the photo finish: the pairs in round-robin order after the one that last won a tie.
(DESIGN CHOICE, log 14.) (DESIGN CHOICE, log 14.) -/
def Dev.photoFinish (d : Dev) (l : LinkId) (c : List QFlit) : Option (QFlit × Bool) :=
  let best := c.foldl (fun m f => max m (urgency f.pkt)) 0
  let ties := c.filter (fun f => urgency f.pkt == best)
  match ties with
  | [] => none
  | [f] => some (f, false)
  | _ =>
    let code := fun (f : QFlit) => pairCode f.via (Packet.lane f.pkt)
    let last := match (d.link l).last with | none => 0 | some (v, n) => pairCode v n + 1
    let least := fun (fs : List QFlit) => fs.foldl (fun (m : Option QFlit) f =>
      match m with | none => some f | some a => if code f < code a then some f else some a) none
    match least (ties.filter (fun f => last ≤ code f)) with
    | some f => some (f, true)
    | none => (least ties).map (fun f => (f, true))

/-- What an output sends (R205, R346, R353): the copy of a flit that failed; otherwise an L4 flit, an L3 flit, the most urgent flit of L0 to L2. (DESIGN CHOICE, log 14.) -/
def Dev.arbitrate (d : Dev) (l : LinkId) : Option Choice :=
  match (d.link l).resend with
  | some none => some .credit
  | some (some (f, tie)) => some (.flit f tie)
  | none =>
    let c := d.ready l
    match c.find? (fun f => Packet.lane f.pkt == 4) with
    | some f => some (.flit f false)
    | none => if d.creditWaits l then some .credit else (d.photoFinish l c).map (fun x => .flit x.1 x.2)

/-! ### A flit arrives (R346) -/

/-- Spend the end-to-end credit of a token that leaves on this link, and take the source's turn (R213, R215). -/
def Dev.spendE2e (d : Dev) (l : LinkId) (f : QFlit) : Dev :=
  match e2eKey l f.pkt with
  | none => d
  | some (h, t) => d.modNet (fun n => { n with
      e2e := mmod 0 n.e2e (h * 64 + t) (· + 1)
      turn := if h = 16 then (match f.via with | some v => mset 0 n.turn t (Node.code v.src) | none => n.turn) else n.turn })

/-- The flit leaves the sender's buffer: its queue, or the marshalling queue it heads (R363). -/
def Dev.leaveQueue (d : Dev) (l : LinkId) (f : QFlit) : Dev :=
  let x := d.link l
  if x.resend.isSome then d.setLink l { x with resend := none }
  else if x.q.contains f && !d.behindMarsh l f then d.setLink l { x with q := removeFirst (· == f) x.q }
  else
    match marshSource l, (d.marshHeads l).find? (fun c => c.2 == f) with
    | some s, some (g, _) =>
      let (head, cnt) := mget (0, 0) d.net.marsh (g * 32 + s)
      d.modNet (fun n => { n with marsh := mset (0, 0) n.marsh (g * 32 + s) (if cnt = 1 then (0, 0) else (head + 1, cnt - 1)) })
    | _, _ => d

/-- The packet as the receiver keeps it: with the credit it spent. -/
def withCredit (l : LinkId) (p : Packet) : Packet := match e2eKey l p with | some (h, _) => { p with part := some h } | none => p

/-- A gateway that forwards a token into its mesh returns the token's partition credit (R213); in the mesh the token holds none. -/
def Dev.forwarded (d : Dev) (l : LinkId) (p : Packet) : Dev × Packet :=
  match l.src, l.dst, p.part with
  | .gw g, .tile _ _, some h => (d.oweE2e (.gw g) h g 1, { p with part := none })
  | _, _, _ => (d, p)

/-- Pass the chosen flit from its output to the receiver, spending and returning credits. A gateway takes a token from the die fabric into its partition at
once. (DESIGN CHOICE, log 14.) -/
def Dev.transfer (d : Dev) (l : LinkId) (f : QFlit) (tie : Bool) : Dev :=
  let lane := Packet.lane f.pkt
  let isLast := f.idx + 1 == f.n
  let pkt := withCredit l f.pkt
  let d := ((d.spendE2e l f).leaveQueue l f).oweHop f.via lane 1
  let x := d.link l
  let hdr0 := (x.cur.find? (fun c => c.1 == lane)).map (·.2)
  let d := d.setLink l { x with
    used := mset 0 x.used lane (mget 0 x.used lane + 1)
    lock := if isLast then mdel x.lock lane else mput x.lock lane f.via
    fails := 0
    last := if tie then some (f.via, lane) else x.last
    cur := if isLast then mdel x.cur lane else x.cur }
  let (d, pkt) := d.forwarded l pkt
  match l.dst with
  | .tileUnit _ _ _ | .regionUnit _ _ | .hubUnit _ =>
    let d := if isLast then d else d.oweHop (some l) lane 1
    if isLast && (f.n == 1 || hdr0.isSome) then d.setInbox l.dst lane (d.inbox l.dst lane ++ [pkt])
    else if isLast then d.oweHop (some l) lane 1
    else let x := d.link l; d.setLink l { x with cur := if f.idx = 0 then mput x.cur lane pkt else x.cur }
  | _ =>
    let stored := match l.src, l.dst with | .die _, .gw _ => lane == 0 | _, _ => false
    let d := if stored then d.oweHop (some l) lane 1 else d
    let via := if stored then none else some l
    -- flits behind the head follow the header the head got at this station; those of a lost head are dropped
    let hdr := if f.idx = 0 then some (d.enter (some l.src) l.dst pkt) else hdr0
    match hdr with
    | none => d.oweHop via lane 1
    | some h =>
      let d := if f.idx = 0 && !isLast then (let x := d.link l; d.setLink l { x with cur := mput x.cur lane h }) else d
      d.arrive l.src l.dst { f with via := via, pkt := if f.idx = 0 then pkt else h }

/-- An L3 packet arrives on link `l` and is consumed at once (R204, R210, R218): the counters of the opposite link rise, or are whole again where its sender
waits for the drained buffer's advertisement; the end-to-end credits reach their holder or the next accumulator. -/
def Dev.takeCredits (d : Dev) (l : LinkId) : Dev :=
  let b := LinkId.back l
  let x := d.link b
  let e := d.nextE2e l
  let y := d.link l
  let d := d.setLink l { y with fails := 0, resend := none }
  let x' : Link := if x.wait then (if d.drained b then { x with used := [], owed := [], wait := false } else { x with owed := [] })
    else { x with used := (List.range 5).foldl (fun m k => mset 0 m k (mget 0 x.used k - mget 0 x.owed k)) ([] : SMap Nat), owed := [] }
  let x' := if b = l then { x' with fails := 0, resend := none } else x'
  let d := d.setLink b x'
  let d := if !x.wait && (List.range 5).any (fun k => decide (mget 0 x.used k < mget 0 x.owed k)) then d.creditExcess b.src else d
  match e with
  | none => d
  | some (h, t, k) => (d.modNet (fun n => { n with acc := mset 0 n.acc (accKey l.src h t) 0 })).oweE2e l.dst h t k

/-- Bits 199:0 of an L3 flit (R210). (DESIGN CHOICE, log 102.) -/
def CreditFlit.bits (c : CreditFlit) : BitVec 200 :=
  let (h, t, k) := c.e2e.getD (0, 0, 0)
  let kind := match c.e2e with | none => 0 | some (_, t, _) => if t < 32 then 1 else 2
  BitVec.ofNat 8 (mget 0 c.hops 0) ++ BitVec.ofNat 8 (mget 0 c.hops 1) ++ BitVec.ofNat 8 (mget 0 c.hops 2) ++ BitVec.ofNat 8 (mget 0 c.hops 4) ++
    BitVec.ofNat 4 kind ++ BitVec.ofNat 16 (h * 64 + t) ++ BitVec.ofNat 16 k ++ (0#132)

/-- The address of a station on the network (R206, R347), as L3 packets name their link peer (R345). The spec gives a fabric or a router no unit number: unit 15.
(DESIGN CHOICE, log 16.) (DESIGN CHOICE, log 16.) -/
def Node.dest : Node → Dest
  | .tile g t => { die := BitVec.ofNat 3 (g / 4), rgn := BitVec.ofNat 2 (g % 4), tile := BitVec.ofNat 5 t, unit := 15 }
  | .gw g => { die := BitVec.ofNat 3 (g / 4), rgn := BitVec.ofNat 2 (g % 4), tile := 31, unit := 4 }
  | .die k => { die := BitVec.ofNat 3 k, tile := 31, unit := 15 }
  | .hub => { die := 4, unit := 15 }
  | .meas => { die := 5, unit := 15 }
  | .tileUnit g t u => { die := BitVec.ofNat 3 (g / 4), rgn := BitVec.ofNat 2 (g % 4), tile := BitVec.ofNat 5 t, unit := BitVec.ofNat 4 u }
  | .regionUnit g u => { die := BitVec.ofNat 3 (g / 4), rgn := BitVec.ofNat 2 (g % 4), tile := 31, unit := BitVec.ofNat 4 u }
  | .hubUnit u => if u < 16 then { die := 4, unit := BitVec.ofNat 4 u } else { die := 5 }

/-- The epoch bit of a flit that leaves a station: its domain's (R344, R348). -/
def Dev.epochOf (d : Dev) (n : Node) : Bool := match domOf n with | some k => (d.dom k).epoch | none => false

/-- The 256 bits of an L3 flit on link `l` (R210, R344): PRIO 0, DEST the link peer (R345). -/
def Dev.creditBits (d : Dev) (l : LinkId) : BitVec 256 :=
  let side : BitVec 40 := bit1 (d.epochOf l.src) ++ (3#3) ++ (1#1) ++ (1#1) ++ (0#1) ++ Dest.toBits (Node.dest l.dst) ++ (0#4) ++ (0#4) ++ (0#11)
  let body := (d.creditFlit l).bits
  side ++ lcrc side body ++ body

/-- The flow that ends with the flit: the last result token of a firing leaves the send stage, and its cluster releases the flow (R179, R180). -/
def Dev.endService (d : Dev) (l : LinkId) (f : QFlit) : Dev :=
  match f.pkt.ends, l.src with
  | some (flow, c), .tileUnit g t _ =>
    if flow = 0 then d
    else d.send (.tileUnit g t 12)
      { dest := { die := BitVec.ofNat 3 (flow.toNat % 256 / 64), rgn := BitVec.ofNat 2 (flow.toNat % 64 / 16), tile := BitVec.ofNat 5 (flow.toNat % 16), unit := 12 }
        log := true, body := .mgmt (.flowRel flow (BitVec.ofNat 8 c)) }
  | _, _ => d

/-- An attempt failed (R346): the sender keeps the copy and sends it again before anything else. -/
def Dev.attemptFails (d : Dev) (l : LinkId) (c : Choice) : Dev :=
  let d := match c with
    | .credit => d
    | .flit f _ => if (d.link l).resend.isSome then d else d.leaveQueue l f
  let x := d.link l
  d.setLink l { x with fails := x.fails + 1, resend := some (match c with | .credit => none | .flit f tie => some (f, tie)) }

/-- What link `l` may pass now: nothing while it is down or an end of it is in reset (R25). -/
def Dev.linkOpen (d : Dev) (l : LinkId) : Bool := d.linkUp l && d.stationUp l.src && d.stationUp l.dst

/-- A flit arrives at the receiver of link `l`; `err` are the bits that differ from those sent (R346). (DESIGN CHOICE, log 14. DEDUCED, log 17.) -/
def Dev.flitReceive (d : Dev) (l : LinkId) (err : BitVec 256) : Dev :=
  if !d.linkOpen l then d
  else
    match d.arbitrate l with
    | none => d
    | some .credit => if flitOk (d.creditBits l ^^^ err) then d.takeCredits l else d.attemptFails l .credit
    | some (.flit f tie) =>
      if flitOk (flitBits f.pkt f.idx f.n ^^^ err) then (d.transfer l f tie).endService l f
      else d.attemptFails l (.flit f tie)

/-- An L3 packet arrives on link `l` (R204). -/
def Dev.creditReturn (d : Dev) (l : LinkId) : Dev :=
  if d.linkOpen l && d.arbitrate l == some .credit then d.takeCredits l else d

/-! ### Taking packets out of a block's inbox -/

/-- Take the first packet of a lane that satisfies `p` out of a block's inbox: its place in the receive buffer is free again (R211), and an infield block
returns its credit (R215). -/
def Dev.popInbox (d : Dev) (n : Node) (lane : Nat) (p : Packet → Bool) : Option (Packet × Dev) :=
  match (d.inbox n lane).find? p with
  | none => none
  | some q =>
    let d := d.setInbox n lane (removeFirst p (d.inbox n lane))
    let d := d.oweHop (some ⟨Node.router n, n⟩) lane 1
    match q.part, infieldBlock q with
    | some h, some b => some (q, d.oweE2e (Node.router n) h (32 + b) 1)
    | _, _ => some (q, d)

/-- Take the first packet of a lane. -/
def Dev.takeInbox (d : Dev) (n : Node) (lane : Nat) : Option (Packet × Dev) := d.popInbox n lane (fun _ => true)

/-- The management message of a packet, if it satisfies `p`. -/
def isMgmt (p : Mgmt → Bool) (q : Packet) : Bool := match q.body with | .mgmt m => p m | _ => false

/-- The first management message of a block's L4 inbox that satisfies `p`. -/
def Dev.takeMgmt (d : Dev) (n : Node) (p : Mgmt → Bool) : Option (Mgmt × Dev) :=
  match d.popInbox n 4 (isMgmt p) with
  | some ({ body := .mgmt m, .. }, d) => some (m, d)
  | _ => none

/-- The station at which a packet from `frm` enters domain `k`. -/
def entryStation (k : Nat) (frm : Node) : Node :=
  match frm with
  | .tileUnit g t _ => .tile g t
  | .regionUnit g _ => .gw g
  | _ => if k < 16 then .gw k else if k < 20 then .die (k - 16) else .hub

/-! ### Isolation (R346, R350, R358, R360) -/

/-- A lane is locked for a packet of which nothing will come any more: its input link is in no packet on the lane, and none of its flits waits. -/
def Net.staleLock (n : Net) (x : Link) (lane : Nat) : Bool :=
  match x.lock.find? (fun c => c.1 == lane) with
  | some (_, some v) =>
    (((mget {} n.links (LinkId.code v)).cur.find? (fun c => c.1 == lane)).isNone) &&
      !x.q.any (fun f => f.via == some v && Packet.lane f.pkt == lane && f.idx != 0)
  | _ => false

/-- One round of giving up packets that were cut off by a reset, at the links they had reached. (DESIGN CHOICE, log 14.) -/
def Net.dropCut (n : Net) : Net :=
  { n with links := (n.links.map (fun c =>
      let gone := (List.range 5).filter (fun k => Net.staleLock n c.2 k)
      (c.1, { c.2 with lock := gone.foldl (fun m k => mdel m k) c.2.lock, cur := gone.foldl (fun m k => mdel m k) c.2.cur }))).filter (fun c => c.2 != {}) }

/-- The flits of an output in the order in which they would leave: the copy that is resent, then the queue. -/
def Link.waiting (x : Link) : List QFlit := (match x.resend with | some (some (f, _)) => [f] | _ => []) ++ x.q

/-- Take what waits at an output away from it. -/
def Dev.emptyOutput (d : Dev) (l : LinkId) : Dev :=
  let x := d.link l
  d.setLink l { x with q := [], lock := [], cur := [], resend := none }

/-- Route again the flits that wait at an output, after what waits on their new ones. A packet that was cut in two is given up along its way. -/
def Dev.reroute (d : Dev) (l : LinkId) : Dev := ((d.link l).waiting.foldl (fun d f => d.forward l.src f) (d.emptyOutput l)).modNet (iter Net.dropCut 24)

/-- Move the flits that wait at a down link ahead of later ones on their new links, or absorb them (R351). -/
def Dev.rerouteFront (d : Dev) (l : LinkId) : Dev :=
  (d.link l).waiting.reverse.foldl (fun d f =>
    match d.route l.src f.via f.pkt with
    | none =>
      let d := d.oweHop f.via (Packet.lane f.pkt) 1
      if f.idx + 1 = f.n then d.absorb l.src f.pkt else d
    | some nx => let m : LinkId := ⟨l.src, nx⟩; let y := d.link m; d.setLink m { y with q := f :: y.q }) (d.emptyOutput l)

/-- Tiles of a region that have no legal path to the gateway router once `iso` are isolated (R350). -/
def cutOff (iso : List Nat) : List Nat :=
  (List.range 17).filter (fun t => !iso.contains t && (meshNext iso t gwr false).isNone)

/-- The isolated tiles that a region's active tables avoid. -/
def Dev.activeIso (d : Dev) (g : Nat) : List Nat := (d.meshHalf g (d.dom g).epoch).iso

/-- Isolate one tile with the reason of R526: its NOC.ISO bit, the tables of both halves, HEALTHY cleared, one event. -/
def Dev.isolateOne (d : Dev) (g t reason : Nat) : Dev :=
  let d := d.setBit (nocReg (g / 4) (0x28 + 4 * (g % 4))) t true
  let d := d.setBit (rgnReg g 0x34) t false
  let x := d.dom g
  let add := fun (h : MeshHalf) => { h with iso := if h.iso.contains t then h.iso else h.iso ++ [t] }
  let d := d.setDom g { x with mesh0 := add x.mesh0, mesh1 := add x.mesh1 }
  match d.logicalOf g t with
  | some c => d.raise (g * 16 + c) 1 (reason)
  | none => d.raise (256 + 4 * g) 3 t

/-- Isolate the tiles of a region that its active tables cut off, with reason 3 (R350). -/
def Dev.isolateCutOff (d : Dev) (g : Nat) : Dev := (cutOff (d.activeIso g)).foldl (fun d u => d.isolateOne g u 3) d

/-- Isolate a tile, and the tiles this cuts off (R350, R358). An isolated tile stays isolated. -/
def Dev.isolate (d : Dev) (g t reason : Nat) : Dev :=
  if d.rbit (nocReg (g / 4) (0x28 + 4 * (g % 4))) t then d
  else (d.isolateOne g t reason).isolateCutOff g

/-- Clear the network state of stations (R25, R26, R218): what waits at their outputs and in their blocks' inboxes, what a flip holds at their entries, tokens
that wait there for the journal, and their accumulators. A receiver's counters are whole again at its release; a sender waits for the advertisement of a receiver that was not reset with it.
A packet that a reset cut in two is given up along its way. -/
def Dev.clearStations (d : Dev) (p : Nat → Bool) : Dev :=
  let d : Dev := { d with jrnWait := d.jrnWait.filter (fun w => !(p (Node.code w.src) || p (Node.code (Node.router w.src)))) }
  d.modNet (fun n => iter Net.dropCut 24 { n with
    links := (n.links.map (fun c =>
      let s := p (c.1 / 8192)
      let r := p (c.1 % 8192)
      (c.1, { c.2 with
        q := if s then [] else c.2.q
        resend := if s then none else c.2.resend
        lock := if s || r then [] else c.2.lock
        cur := if s || r then [] else c.2.cur
        used := if r then [] else c.2.used
        owed := if r || s then [] else c.2.owed
        wait := if r then false else if s then !c.2.used.isEmpty else c.2.wait }))).filter (fun c => c.2 != {})
    inbox := mclear n.inbox (fun k => p (k / 8))
    acc := mclear n.acc (fun k => p (k / 4096))
    doms := n.doms.map (fun c => (c.1, { c.2 with held := c.2.held.filter (fun h =>
      !(p (Node.code (entryStation c.1 h.1)) || p (Node.code h.1))) })) })

/-! ### Commands -/

/-- The flits of one packet at an output: those of its line behind its head, up to the next head. -/
def packetFlits (l : LinkId) (f : QFlit) : List QFlit → List QFlit
  | [] => []
  | x :: xs => if sameLine l f x then (if x.idx = 0 then [] else x :: packetFlits l f xs) else packetFlits l f xs

def olderPkt (p : Packet) : Packet := { p with age := p.age + 1 }

/-- AGE of the packet whose head is the n-th waiting flit of an output rises by 1, to at most 15 (R352): in all of its flits, there and on their way to this router. -/
def Dev.ageIncrement (d : Dev) (l : LinkId) (n : Nat) : Dev :=
  let x := d.link l
  match x.q[n]? with
  | none => d
  | some f =>
    if f.idx ≠ 0 ∨ f.pkt.age.toNat ≥ 15 then d
    else
      let mine := packetFlits l f (x.q.drop (n + 1))
      let older := fun (y : QFlit) => { y with pkt := olderPkt y.pkt }
      let d := d.setLink l { x with q := x.q.take n ++ older f :: (x.q.drop (n + 1)).map (fun y => if mine.contains y then older y else y) }
      match f.via with
      | some v =>
        if f.n = 1 then d
        else
          let y := d.link v
          d.setLink v { y with cur := y.cur.map (fun c => if c.1 = Packet.lane f.pkt ∧ c.2 = f.pkt then (c.1, olderPkt c.2) else c) }
      | none => d

/-- AGE_INCREMENT (R352). -/
def execAgeIncrement (l : LinkId) (n : Nat) (s : State) : Host.Outcome State Fault Refusal :=
  .next { s with dev := s.dev.ageIncrement l n }

/-- Hops of a router to the gateway router, for R346. -/
def hopsToGw (t : Nat) : Nat := (levels []).getD t far

/-- What waits at either end of a link that is down leaves by other links, or is absorbed (R351); a packet that was cut in two is given up along its way. -/
def Dev.rerouteBoth (d : Dev) (l : LinkId) : Dev := ((d.rerouteFront l).rerouteFront (LinkId.back l)).modNet (iter Net.dropCut 24)

/-- A die link drops (R40, R351): its UP bits clear and its DOWN bits are set with an event of each die. (DEDUCED, log 18.) -/
def Dev.dropDieLink (d : Dev) (l : LinkId) : Dev :=
  match (dieLinkBits l).filter (fun c => d.rbit (diefReg c.1 4) c.2) with
  | [] => d
  | bs => (bs.foldl (fun (d : Dev) c =>
      ((d.setBit (diefReg c.1 4) c.2 false).setBit (diefReg c.1 4) (c.2 + 4) true).raise (320 + 2 * c.1) 1 c.2) d).rerouteBoth l

/-- The link of the measurement die drops, in both directions. (DEDUCED, log 18. DESIGN CHOICE, log 47.) -/
def Dev.dropMeasLink (d : Dev) : Dev :=
  let l : LinkId := ⟨.hub, .meas⟩
  let d := d.setLink l { d.link l with down := true }
  ((d.setLink (LinkId.back l) { d.link (LinkId.back l) with down := true }).raise 330 1 0).rerouteBoth l

/-- A link goes down after 8 failed attempts of one flit (R346): a die link and the measurement die's drop; a mesh link isolates the tile farther from
the gateway router, or both. (DEDUCED, log 18.) -/
def Dev.linkDown (d : Dev) (l : LinkId) : Dev :=
  let x := d.link l
  if x.fails < 8 then d
  else
    let d := d.setLink l { x with fails := 0, down := true }
    match dieLinkBits l with
    | [] =>
      match l.src, l.dst with
      | .tile g t, .tile _ u =>
        let d := if hopsToGw u ≤ hopsToGw t then d.isolate g t 1 else d
        (if hopsToGw t ≤ hopsToGw u then d.isolate g u 1 else d).reroute l
      | .tile g t, .gw _ => (d.isolate g t 1).reroute l
      | .gw g, .tile _ t => (d.isolate g t 1).reroute l
      | .hub, .meas => d.dropMeasLink
      | .meas, .hub => d.dropMeasLink
      | _, _ => d
    | _ => d.dropDieLink l

/-- A die link is trained and passes credits (R40): its UP bits are set. `w` is what software writes to DIEF.LINK of the sending die in that cycle: the DOWN
bit of the link remains set (R14, R40), another DOWN bit is cleared. (DEDUCED, log 18.) -/
def Dev.linkTrained (d : Dev) (l : LinkId) (w : W32) : Dev :=
  let open_ := fun (d : Dev) (m : LinkId) => d.setLink m { d.link m with fails := 0, down := false }
  let d := open_ (open_ d l) (LinkId.back l)
  match dieLinkBits l with
  | [] => d
  | (a, b) :: bs =>
    let d := ((a, b) :: bs).foldl (fun (d : Dev) c => d.setBit (diefReg c.1 4) c.2 true) d
    [4, 5, 6].foldl (fun (d : Dev) k => if w.getLsbD k && k != b + 4 then d.setBit (diefReg a 4) k false else d) d

/-- LINK_UP (R40). -/
def execLinkUp (l : LinkId × W32) (s : State) : Host.Outcome State Fault Refusal :=
  .next { s with dev := s.dev.linkTrained l.1 l.2 }

/-- CREDIT_RETURN (R204). -/
def execCreditReturn (l : LinkId) (s : State) : Host.Outcome State Fault Refusal :=
  .next { s with dev := s.dev.creditReturn l }

end Sys2Proof.Machine
end

