-- ==== Sys2Proof/Machine/Store.lean ====
section
/-!
DEFINITION. The exchange store of an FU (02_tokens_exchange_store.md): the tag check, matching and firing, spills and
fills, the overflow filter, tombstones and sweeps at the FU.
-/
namespace Sys2Proof.Machine

/-! ### Station and addresses of an FU -/

/-- The FU's station on the network. -/
def fuNode (k : Nat) : Node := .tileUnit (k / 136) (k / 8 % 17) (k % 8)

/-- A block address of an FU (R206). -/
def fuDest (k : Nat) : Dest :=
  { die := BitVec.ofNat 3 (k / 544), rgn := BitVec.ofNat 2 (k / 136 % 4), tile := BitVec.ofNat 5 (k / 8 % 17), unit := BitVec.ofNat 4 (k % 8) }

/-- The HBM controller that serves an address (R314, R347). -/
def hbmDest (a : Nat) : Dest := { die := 4, unit := if a < 0x600000000 then 6 else 7 }

/-- The response of a packet, if it satisfies `p`. -/
def isResp (p : MemResp → Bool) (q : Packet) : Bool := match q.body with | .resp r => p r | _ => false

/-- The place of answers that a tile's own banks give to its units: they pass no link. -/
def ownLane : Nat := 5

/-- Take the first response at a block that satisfies `p`: of the tile's own banks, or of L2. -/
def Dev.takeResp (d : Dev) (n : Node) (p : MemResp → Bool) : Option (MemResp × Dev) :=
  match (d.inbox n ownLane).find? (isResp p) with
  | some { body := .resp r, .. } => some (r, d.setInbox n ownLane (removeFirst (isResp p) (d.inbox n ownLane)))
  | _ =>
    match d.popInbox n 2 (isResp p) with
    | some ({ body := .resp r, .. }, d) => some (r, d)
    | _ => none

/-- Send a request on L1. -/
def Dev.request (d : Dev) (src : Node) (dst : Dest) (log : Bool) (r : MemReq) : Dev :=
  d.send src { dest := dst, log := log, prio := r.prio, body := .req r }

/-- Flits of a lane that a block has put on its own link, or that wait there. -/
def Dev.ownFlits (d : Dev) (n : Node) (lane : Nat) : Nat :=
  let x := d.link ⟨n, Node.router n⟩
  mget 0 x.used lane + (x.q.filter (fun f => Packet.lane f.pkt == lane)).length

/-- The block holds an L1 credit for its next request (R71, R211). -/
def Dev.l1Credit (d : Dev) (n : Node) : Bool := decide (d.ownFlits n 1 < linkDepth ⟨n, Node.router n⟩ 1)

/-- Requests of an FU whose responses are outstanding. -/
def Fu.outstanding (u : Fu) : Nat := u.out.length + (u.spill.filter (·.issued)).length + (u.fills.filter (!·.ret)).length + u.dels.length

/-- The FU has room for one more whole response (R216). The spec gives no number; a request needs an RTAG of its own, of which there are 4,096. (DESIGN CHOICE, log 100.) -/
def Dev.respRoom (d : Dev) (k : Nat) : Bool := decide ((d.fu k).outstanding < 4096)

/-! ### Error statuses of an FU (R46, R47, R108) -/

/-- A status of this FU to the graph's error port for the token `t`, with its context faulted. -/
def Dev.fuError (d : Dev) (k : Nat) (t : Tag) (replay : Bool) (code detail : Nat) : Dev :=
  let e := d.errToken (k / 136) t (status code (d.originOf k) detail) replay
  (d.sendToken (fuNode k) e).faultCtx (fuNode k) t.ctx

def esStatus (k : Nat) : Nat := fuReg (k / 136) (k / 8 % 17) (k % 8) 0x18
def fuRegK (k o : Nat) : Nat := fuReg (k / 136) (k / 8 % 17) (k % 8) o

/-- Progress for the region's stall watch (R236): it is back at stage 0 (R237). -/
def Dev.progress (d : Dev) (g : Nat) : Dev := d.modRegion g (fun r => { r with stw := { r.stw with progress := true, stage := 0 } })

/-! ### Priorities and firings (R54, R169) -/

/-- A boost of a context known to a scheduler: the largest of its 16 values (R186). -/
def boostOf (bs : List Boost) (c : BitVec 22) : Nat :=
  match bs.find? (fun b => b.ctx == c) with
  | some b => b.vals.foldl (fun m v => max m v.2) 0
  | none => 0

/-- The token on the lowest-numbered port of a firing. -/
def Firing.lead (f : Firing) : Token := match f.toks with | [] => {} | p :: _ => p.2

def Firing.port (f : Firing) (n : Nat) : Option Token := (f.toks.find? (fun p => p.1 == n)).map (·.2)

/-- PRIO of a firing's output: the highest among the consumed tokens (R54). -/
def Firing.prio (f : Firing) : BitVec 4 := BitVec.ofNat 4 (f.toks.foldl (fun m p => max m p.2.tag.prio.toNat) 0)

/-- EPOCH of a firing's output: the newest among the consumed tokens (R54). -/
def Firing.epoch (f : Firing) : BitVec 8 :=
  match f.toks with
  | [] => 0
  | p :: ps => ps.foldl (fun m q => if newer q.2.tag.epoch m then q.2.tag.epoch else m) p.2.tag.epoch

def Firing.replay (f : Firing) : Bool := f.toks.any (fun p => Token.replay p.2)
def Firing.hist (f : Firing) : Bool := f.toks.any (fun p => Token.hist p.2)
def Firing.flow (f : Firing) : BitVec 20 := (Firing.lead f).tag.flow
def Firing.ctx (f : Firing) : BitVec 22 := (Firing.lead f).tag.ctx

/-- The tag of which a firing's outputs are formed (R54): GRAPH, CTX and ITER as consumed, FLOW of the lowest port, newest EPOCH,
highest PRIO, CLASS T, or for graph 0 the CLASS of the lowest port. -/
def Dev.baseTag (d : Dev) (f : Firing) : Tag :=
  let t := (Firing.lead f).tag
  { t with dev := d.devNo, cls := if t.graph = 0 then t.cls else 0, epoch := Firing.epoch f, prio := Firing.prio f }

/-- The effective priority of a firing at a tile (R169): only PRIO 15 gives 15. -/
def Dev.eprio (d : Dev) (tile : Nat) (f : Firing) : Nat :=
  max (Firing.prio f).toNat (min 14 (boostOf (d.tile tile).sched.boosts (Firing.ctx f)))

/-- Room in a queue of `cap` items of which `kept` are kept for effective priority 15 (R168, R171). -/
def queueRoom (q : List Item) (cap kept eprio : Nat) : Bool :=
  let n15 := (q.filter (fun x => x.lvl == 15)).length
  if eprio = 15 then decide (q.length < cap) else decide (q.length < cap ∧ q.length - min n15 kept < cap - kept)

/-- A scheduler's station. -/
def schedNode (tile : Nat) : Node := .tileUnit (tile / 17) (tile % 17) 12

/-- The block address of the scheduler of a global cluster (R178). -/
def schedDest (c : Nat) : Dest :=
  { die := BitVec.ofNat 3 (c / 64), rgn := BitVec.ofNat 2 (c / 16 % 4), tile := BitVec.ofNat 5 (c % 16), unit := 12 }

/-- The firing has room to go (R171, R183). -/
def Dev.fireRoom (d : Dev) (k : Nat) (f : Firing) : Bool :=
  if Firing.flow f = 0 then queueRoom (d.fu k).issue 32 4 (d.eprio (k / 8) f)
  else decide ((d.tile (k / 8)).sched.flowW.length < 64)

/-- Send a flow message of a cluster to the flow's home (R178). -/
def Dev.toFlowHome (d : Dev) (tl : Nat) (flow : BitVec 20) (m : Mgmt) : Dev :=
  d.send (schedNode tl) { dest := schedDest (flow.toNat % 256), log := true, body := .mgmt m }

/-- The global cluster a tile's scheduler names itself by. -/
def Dev.ownClu (d : Dev) (tl : Nat) : BitVec 8 := BitVec.ofNat 8 ((d.clusterOf tl).getD 0)

/-- The oldest firing of a flow that waits ungranted asks the home, unless it has (R180, R181). -/
def Dev.askNext (d : Dev) (tl : Nat) (flow : BitVec 20) : Dev :=
  let s := (d.tile tl).sched
  let waits := fun (w : FlowWait) => Firing.flow w.fir == flow && !w.granted
  match s.flowW.find? waits with
  | none => d
  | some w =>
    if w.asked then d
    else (d.modSched tl (fun x => { x with flowW := replaceFirst waits (fun y => { y with asked := true, no := s.reqNo }) x.flowW, reqNo := s.reqNo + 1 })).toFlowHome
      tl flow (.flowReq flow (d.ownClu tl) (BitVec.ofNat 4 (d.eprio tl w.fir)) s.reqNo)

/-- Enable a firing (R171, R180): with FLOW 0 it enters the issue queue at its effective priority; otherwise the flow wait
buffer, and the cluster asks the home if it holds no earlier firing of the flow that waits. -/
def Dev.enable (d : Dev) (k : Nat) (f : Firing) : Dev :=
  let tl := k / 8
  if Firing.flow f = 0 then d.modFu k (fun u => { u with issue := u.issue ++ [{ lvl := d.eprio tl f, fu := k, fir := f }] })
  else
    (d.modSched tl (fun x => { x with flowW := x.flowW ++ [{ fu := k, fir := f }] })).askNext tl (Firing.flow f)

/-! ### The hash and the overflow area (R59, R69, R70, R73) -/

def esSets : Nat := 248

/-- F of R59 for a key at an FU. -/
def Dev.foldKey (d : Dev) (k : Nat) (key : W64) : W16 :=
  key.extractLsb' 48 16 ^^^ key.extractLsb' 32 16 ^^^ key.extractLsb' 16 16 ^^^ key.extractLsb' 0 16 ^^^ (d.reg (fuRegK k 0x1C)).extractLsb' 0 16

/-- The set of a key (R59). -/
def Dev.setOf (d : Dev) (k : Nat) (key : W64) : Nat := (d.foldKey k key).toNat % esSets

/-- The two filter indices (R73). -/
def Dev.filterIdx (d : Dev) (k : Nat) (key : W64) : Nat × Nat :=
  ((d.foldKey k key).toNat % 8192, (key.extractLsb' 32 32 ^^^ key.extractLsb' 0 32).toNat / 8 % 8192)

/-- Entries of an FU's area: E = 4,096 × 2^N, N at most 5 (R69, R91). -/
def Dev.oflE (d : Dev) (g : Nat) : Nat := 4096 * 2 ^ min 5 (d.rfld (ctxReg g 0x108) 2 0)

/-- Local FU number: logical cluster × 8 + FU (R69). -/
def Dev.localFu (d : Dev) (k : Nat) : Nat := ((d.logicalOf (k / 136) (k / 8 % 17)).getD 0) * 8 + k % 8

/-- Address of a slot of an FU's overflow area (R69). OFL.BASE counts as it is written: the spec asks for no alignment. (DESIGN CHOICE, log 97.) -/
def Dev.oflAddr (d : Dev) (k slot : Nat) : Nat :=
  d.pair (ctxReg (k / 136) 0x100) + d.localFu k * (32 * d.oflE (k / 136)) + slot * 32

/-- The probe window's buckets of a key (R70). -/
def Dev.window (d : Dev) (k : Nat) (key : W64) : List Nat :=
  let nb := d.oflE (k / 136) / 8
  let home := (key.extractLsb' 32 32 ^^^ key.extractLsb' 0 32).toNat % nb
  (List.range 8).map (fun i => (home + i) % nb)

/-- The first empty slot of the probe window, in bucket order and then slot order (R71). -/
def Dev.probe (d : Dev) (k : Nat) (key : W64) : Option Nat :=
  ((d.window k key).flatMap (fun b => (List.range 8).map (fun i => b * 8 + i))).find? (fun s => !(d.fu k).bitmap.contains s)

/-- The filter answers maybe (R73, R74). -/
def Dev.filterMaybe (d : Dev) (k : Nat) (key : W64) : Bool :=
  let (a, b) := d.filterIdx k key
  let u := d.fu k
  u.rebuild || (mget 0 u.filter a != 0 && mget 0 u.filter b != 0)

/-- Raise or lower one filter counter: a counter at 15 stays and sets FILTER_SAT (R74). -/
def Dev.filterStep (d : Dev) (k i : Nat) (up : Bool) : Dev :=
  let u := d.fu k
  let v := mget 0 u.filter i
  if v = 15 then d.setBit (esStatus k) 4 true
  else
    let d := d.setFu k { u with filter := mset 0 u.filter i (if up then v + 1 else v - 1) }
    if up ∧ v = 14 then d.setBit (esStatus k) 4 true else d

/-- A spill, fill or delete moves both counters of a key (R73). -/
def Dev.filterMove (d : Dev) (k : Nat) (key : W64) (up : Bool) : Dev :=
  let (a, b) := d.filterIdx k key
  (d.filterStep k a up).filterStep k b up

/-- Change FU.SPILLED.COUNT with OFL.USED, their high-water marks and the threshold (R80, R91, R93); COUNT returning to 0
starts a filter rebuild (R74). -/
def Dev.spilled (d : Dev) (k : Nat) (add sub : Nat) : Dev :=
  let g := k / 136
  let c := d.rfld (fuRegK k 0xC) 17 0 + add - sub
  let u0 := d.rfld (ctxReg g 0x10C) 24 0
  let u1 := u0 + add - sub
  let d := (d.setFld (fuRegK k 0xC) 17 0 c).hwm (fuRegK k 0x10) 17 0 c
  let d := (d.setFld (ctxReg g 0x10C) 24 0 u1).hwm (ctxReg g 0x110) 24 0 u1
  let thr := d.rfld (ctxReg g 0x114) 7 0 * d.oflE g / 2
  let d := if u0 < thr ∧ thr ≤ u1 then (d.setBit (ctxReg g 0x11C) 0 true).raise (257 + 4 * g) 1 0 else d
  if c = 0 ∧ 0 < sub then d.modFu k (fun u => { u with rebuild := true }) else d

/-- What a read of the slice entry `n` finds (R62, R63): a single-bit error is corrected and counted; an uncorrectable one removes the entry, with a status
and a fault where its tag can be read. An uncorrectable error in a slot that holds no entry has no effect. (DESIGN CHOICE, log 97.) -/
def Dev.entryEcc (d : Dev) (k n : Nat) (e : Ecc) : Dev :=
  match e with
  | .ok => d
  | .ce => d.addSat16 (fuRegK k 0x30) 1
  | .ue tagOk =>
    match (d.fu k).slice.find? (fun c => c.1 == n) with
    | none => d
    | some c =>
      let d := d.modFu k (fun u => { u with slice := mdel u.slice n })
      let d := (d.setBit (esStatus k) 3 true).raiseTile (k / 8) 3 (k % 8)
      if tagOk then d.fuError k c.2.tok.tag (Token.replay c.2.tok) stES_UNCORRECTABLE c.2.tok.tag.node.toNat else d

/-! ### Waiting entries (R66) -/

/-- Where a waiting entry of a key is. -/
inductive Loc where
  | slice (n : Nat)
  | spill (slot : Nat)
  deriving DecidableEq, Repr

def inSet (s n : Nat) : Bool := n / 8 == s || decide (1984 ≤ n)

/-- The entries of a key in set s, the protection pool and the spill buffer (R66). -/
def Fu.waiting (u : Fu) (s : Nat) (key : W64) : List (Loc × Token) :=
  ((u.slice.filter (fun c => inSet s c.1 && keyOf c.2.tok.tag == key)).map (fun c => (Loc.slice c.1, c.2.tok))) ++
  ((u.spill.filter (fun e => !e.fired && keyOf e.ent.tok.tag == key)).map (fun e => (Loc.spill e.slot, e.ent.tok)))

/-- Remove a waiting entry (R67, R77): a spill not yet issued is cancelled and its slot freed; one issued is marked. -/
def Fu.consume (u : Fu) : Loc → Fu
  | .slice n => { u with slice := mdel u.slice n }
  | .spill s =>
    match u.spill.find? (fun e => e.slot == s) with
    | none => u
    | some e =>
      if e.issued then { u with spill := replaceFirst (fun e => e.slot == s) (fun e => { e with fired := true }) u.spill }
      else { u with spill := removeFirst (fun e => e.slot == s) u.spill, bitmap := u.bitmap.filter (· != s) }

/-- The mask table entry of a slot at a tile (R104). -/
def Dev.maskOf (d : Dev) (tile slot : Nat) : Nat := mget 0 (d.tile tile).masks slot

/-- Ports of a mask for an arriving port: none while VALID is 0, the port alone when ANY is 1 (R104, R105). -/
def maskPorts (m port : Nat) : List Nat :=
  if m / 16 % 2 = 0 then [] else if m / 8 % 2 = 1 then [port] else (List.range 3).filter (fun p => m / 2 ^ p % 2 == 1)

/-- Insert a pair into a list kept by port. -/
def insertPort (p : Nat) (t : Token) : List (Nat × Token) → List (Nat × Token)
  | [] => [(p, t)]
  | (q, u) :: r => if p ≤ q then (p, t) :: (q, u) :: r else (q, u) :: insertPort p t r

/-- The firing of a set of tokens of one key. -/
def firingOf (slot : BitVec 15) (ts : List Token) : Firing :=
  { slot := slot, toks := ts.foldl (fun m t => insertPort t.tag.port.toNat t m) [] }

/-- High-water marks of the slice and the pool (R80). -/
def Dev.esHwm (d : Dev) (k : Nat) : Dev :=
  let u := d.fu k
  (d.hwm (fuRegK k 4) 11 0 u.slice.length).hwm (fuRegK k 8) 14 8 (u.slice.filter (fun c => c.2.st == 2)).length

/-- Move an entry to the spill buffer with STATE 3 (R61): it needs a free buffer entry and an empty slot of its probe window (R71, R77). The
flags answered on failure: true when no slot was empty. The slot's bit is set here, so that no other victim takes the slot before the write is
issued. (DESIGN CHOICE, log 97.) -/
def Dev.toSpill (d : Dev) (k : Nat) (e : Entry) : Except Bool Dev :=
  let u := d.fu k
  if 8 ≤ u.spill.length then .error false
  else
    match d.probe k (keyOf e.tok.tag) with
    | none => .error true
    | some s => .ok (d.setFu k { u with spill := u.spill ++ [{ ent := { e with st := 3 }, slot := s }], bitmap := u.bitmap ++ [s], oflFull := false })

/-- The first of the list's slots that holds no entry. -/
def Fu.emptySlot (u : Fu) (slots : List Nat) : Option Nat := slots.find? (fun n => (mget none (u.slice.map (fun c => (c.1, some c.2))) n).isNone)

/-- The victim of a full set: the entry of PRIO other than 15 with the highest age, the lowest way on a tie (R66). -/
def Fu.victim (u : Fu) (s : Nat) : Option (Nat × Entry) :=
  (u.slice.filter (fun c => c.1 / 8 == s && c.2.tok.tag.prio != 15)).foldl (fun (m : Option (Nat × Entry)) c =>
    match m with | none => some c | some v => if v.2.age < c.2.age then some c else some v) none

/-- Place a token in a way of set s with age 0; every other waiting entry of the set ages (R66). -/
def Fu.place (u : Fu) (s n : Nat) (t : Token) : Fu :=
  { u with slice := mput (u.slice.map (fun c => if c.1 / 8 == s && c.1 != n then (c.1, { c.2 with age := min 255 (c.2.age + 1) }) else c)) n { tok := t, age := 0, st := 1 } }

/-- The insert step of R66; none where the newcomer is held. -/
def Dev.insertTok (d : Dev) (k : Nat) (t : Token) : Dev × Bool :=
  let u := d.fu k
  let s := d.setOf k (keyOf t.tag)
  let poolSlot := if t.tag.prio = 15 then u.emptySlot ((List.range 64).map (· + 1984)) else none
  match poolSlot with
  | some n => ((d.setFu k { u with slice := mput u.slice n { tok := t, age := 0, st := 2 } }).esHwm k, true)
  | none =>
    match u.emptySlot ((List.range 8).map (· + 8 * s)) with
    | some n => ((d.setFu k (u.place s n t)).esHwm k, true)
    | none =>
      let fail := fun (noSlot : Bool) =>
        (if noSlot then (d.setBit (esStatus k) 5 true).modFu k (fun u => { u with oflFull := true }) else d, false)
      match u.victim s with
      | some (n, e) =>
        (match d.toSpill k e with
         | .ok d => ((d.modFu k (fun u => u.place s n t)).esHwm k, true)
         | .error b => fail b)
      | none =>
        if t.tag.prio ≠ 15 then
          (match d.toSpill k { tok := t } with
           | .ok d => (d, true)
           | .error b => fail b)
        else (d, false)

/-- Request the next bucket of a fill (R71, R206). -/
def Dev.askBucket (d : Dev) (k : Nat) (key : W64) (tag b : Nat) (t : Tag) : Dev :=
  let a := d.oflAddr k (b * 8)
  d.request (fuNode k) (hbmDest a) false
    { op := 7, size := 6, addr := BitVec.ofNat 48 a, req := fuDest k, rtag := BitVec.ofNat 12 tag, prio := t.prio, operand := key, ctx := t.ctx, graph := t.graph }

/-- Fire with the waiting entries and the newcomer, if the firing has room (R66, R67, R171). -/
def Dev.fireWith (d : Dev) (k : Nat) (locs : List (Loc × Token)) (t : Token) : Dev × Bool :=
  let f := firingOf t.tag.node (locs.map (·.2) ++ [t])
  if d.fireRoom k f then
    ((locs.foldl (fun (d : Dev) l => d.modFu k (fun u => u.consume l.1)) d).enable k f, true)
  else (d, false)

/-- DUP_OPERAND (R47, R66). -/
def Dev.dupOperand (d : Dev) (k : Nat) (t : Token) : Dev :=
  (d.setBit (esStatus k) 2 true).fuError k t.tag (Token.replay t) stDUP_OPERAND (t.tag.node.toNat + t.tag.port.toNat * 2 ^ 15)

/-- The errors that the reads of the match stage find: those of set `s` and of the protection pool count (R62, R63). -/
def Dev.readErrs (d : Dev) (k s : Nat) (errs : List (Nat × Ecc)) : Dev :=
  errs.foldl (fun d c => if inSet s c.1 then d.entryEcc k c.1 c.2 else d) d

/-- The match stage on one token (R66); the answer says whether the token was accepted or is held. With `skip` neither a pending fill nor the filter
is asked (R77). `errs` are the errors that its reads find, by slice entry. -/
def Dev.matchTok (d : Dev) (k : Nat) (t : Token) (skip : Bool) (errs : List (Nat × Ecc)) : Dev × Bool :=
  let key := keyOf t.tag
  let ports := maskPorts (d.maskOf (k / 8) t.tag.node.toNat) t.tag.port.toNat
  let u := d.fu k
  if ports.all (· == t.tag.port.toNat) then d.fireWith k [] t
  else if !skip && u.fills.any (fun f => f.key == key) then
    (if u.fillW.length < 16 then (d.setFu k { u with fillW := u.fillW ++ [{ tok := t }] }, true) else (d, false))
  else
    let d := d.readErrs k (d.setOf k key) errs
    let u := d.fu k
    let w := u.waiting (d.setOf k key) key
    if w.any (fun e => e.2.tag.port == t.tag.port) then (d.dupOperand k t, true)
    else if ports.all (fun p => p == t.tag.port.toNat || w.any (fun e => e.2.tag.port.toNat == p)) then d.fireWith k w t
    else if !skip && d.filterMaybe k key then
      match (d.window k key).filter (fun b => u.bitmap.any (fun s => s / 8 == b)) with
      | [] => d.insertTok k t
      | b :: bs =>
        if u.fillW.length < 16 then
          ((d.setFu k { u with fillW := u.fillW ++ [{ tok := t }], fills := u.fills ++ [{ key := key, buckets := b :: bs, tag := u.nextTag % 4096 }], nextTag := u.nextTag + 1 }).askBucket k key (u.nextTag % 4096) b t.tag, true)
        else (d, false)
    else d.insertTok k t

/-! ### The tag check (R56, R57) -/

/-- The descriptor of a slot as node memory holds it now (R95, R102). -/
def Dev.descAt (d : Dev) (tile slot : Nat) : BitVec 128 :=
  match d.clusterOf tile with
  | some c => BitVec.ofNat 128 (d.readLe (slotAddr c slot) 16)
  | none => 0

/-- The token is an EPOCH_CLOSE or SOURCE_RETIRE mark for a HURDLE node (R56, R224). -/
def Dev.isMarkAt (d : Dev) (tile : Nat) (t : Token) : Bool :=
  Token.ptype t == 6 && !Token.err t && (statusCode t.pay == stEPOCH_CLOSE || statusCode t.pay == stSOURCE_RETIRE) &&
  dOpc (d.descAt tile t.tag.node.toNat) == 0x340

/-- The token's address fields name this unit. -/
def Dev.addressed (d : Dev) (k : Nat) (t : Tag) : Bool :=
  t.dev == d.devNo && t.die.toNat == k / 544 && t.rgn.toNat == k / 136 % 4 && d.logicalOf (k / 136) (k / 8 % 17) == some t.clu.toNat &&
  t.fu.toNat == k % 8

/-- A token that fails TCRC (R56, R63): its tag is captured, TCRC_ERR set, the cluster's event raised. -/
def Dev.badTag (d : Dev) (k : Nat) (t : Tag) : Dev :=
  let v := (Tag.toBits t).toNat
  let d := (List.range 4).foldl (fun d n => d.setReg (fuRegK k (0x20 + 4 * n)) (BitVec.ofNat 32 (v / 2 ^ (32 * n)))) d
  (d.setBit (esStatus k) 0 true).raiseTile (k / 8) 2 (k % 8)

/-- The outcome of the tests of R56 on a token: passed on, or consumed with an effect. -/
def Dev.tagTests (d : Dev) (k : Nat) (t : Token) : Option Dev :=
  let formatErr := fun (n : Nat) => some ((d.setBit (esStatus k) 1 true).fuError k t.tag (Token.replay t) stFORMAT n)
  if !Tag.crcOk t.tag then some (d.badTag k t.tag)
  else if (d.fu k).tombs.any (fun x => x.1 == t.tag.ctx) && !d.isMarkAt (k / 8) t then some d
  else if !d.addressed k t.tag then
    some ((d.setBit (esStatus k) 1 true).fuError k t.tag (Token.replay t) stMISROUTE
      (t.tag.dev.toNat * 2 ^ 23 + t.tag.die.toNat * 2 ^ 20 + t.tag.rgn.toNat * 2 ^ 18 + t.tag.clu.toNat * 2 ^ 14 + t.tag.fu.toNat * 2 ^ 11))
  else if !(t.tag.cls == 0 || (t.tag.cls == 4 && t.tag.graph == 0)) then formatErr 2
  else if t.tag.port == 3 then formatErr 1
  else if !(maskPorts (d.maskOf (k / 8) t.tag.node.toNat) t.tag.port.toNat).contains t.tag.port.toNat then formatErr 4
  else if 8 < Token.ptype t then formatErr 3
  else none

/-- A token of a packet's body. -/
def isToken (q : Packet) : Bool := match q.body with | .token _ => true | _ => false

/-- The tests and the match stage on a token taken from a lane; `hold` keeps it where it finds no room. -/
def Dev.checkToken (d : Dev) (k : Nat) (t : Token) (errs : List (Nat × Ecc)) (hold : Fu → Fu) : Dev :=
  match d.tagTests k t with
  | some d => d
  | none =>
    let (d, ok) := d.matchTok k t false errs
    if ok then d else d.modFu k hold

/-- The tag check takes the next token (R56, R57, R65): one of L4 first, whatever L0 holds (R205), otherwise the next of the L0 inbound queue. It takes none of a
lane of which it holds a token. `errs` are the errors that the match stage's reads find. -/
def Dev.tagCheck (d : Dev) (k : Nat) (errs : List (Nat × Ecc)) : Dev :=
  let u := d.fu k
  match (if u.heldM.isSome then none else d.popInbox (fuNode k) 4 isToken) with
  | some ({ body := .token t, .. }, d) => d.checkToken k t errs (fun u => { u with heldM := some t })
  | _ =>
    if u.held.isSome then d
    else
      match d.popInbox (fuNode k) 0 isToken with
      | some ({ body := .token t, .. }, d) => d.checkToken k t errs (fun u => { u with held := some t })
      | _ => d

/-- TOKEN_TAG_CHECK (R56). -/
def execTokenTagCheck (g : Fin 16) (t : Fin 17) (f : Fin 8 × List (Fin 2048 × Ecc)) (s : State) : Host.Outcome State Fault Refusal :=
  .next { s with dev := s.dev.tagCheck (fuKey g t f.1) (f.2.map (fun c => (c.1.val, c.2))) }

/-! ### Fills (R71, R72, R77) -/

/-- One waiting token of a key against the entries that its fill returned, which count as waiting (R66, R77): the entries left, or none where the token
finds no room. -/
def Dev.fillOne (d : Dev) (k : Nat) (key : W64) (es : List Token) (t : Token) : Dev × Option (List Token) :=
  if es.isEmpty then
    let (d, ok) := d.matchTok k t true []
    (d, if ok then some [] else none)
  else
    let ports := maskPorts (d.maskOf (k / 8) t.tag.node.toNat) t.tag.port.toNat
    let st := (d.fu k).waiting (d.setOf k key) key
    if es.any (fun e => e.tag.port == t.tag.port) || st.any (fun e => e.2.tag.port == t.tag.port) then (d.dupOperand k t, some es)
    else if ports.all (fun q => q == t.tag.port.toNat || es.any (fun e => e.tag.port.toNat == q) || st.any (fun e => e.2.tag.port.toNat == q)) then
      let f := firingOf t.tag.node (es ++ st.map (·.2) ++ [t])
      if d.fireRoom k f then ((d.modFu k (fun u => st.foldl (fun u l => u.consume l.1) u)).enable k f, some [])
      else (d, none)
    else
      let (d, ok) := d.insertTok k t
      (d, if ok then some es else none)

/-- The waiting tokens of a key in arrival order, up to the first that finds no room; then the entries left are inserted as newcomers (R77). The answer: the entries
that still have no place, or none where the fill is done. -/
def Dev.fillRun (d : Dev) (k : Nat) (key : W64) : Nat → List WaitTok → List Token → Dev × Option (List Token)
  | 0, _, es => (d, some es)
  | _ + 1, [], [] => (d, none)
  | n + 1, [], e :: es =>
    let (d, ok) := d.insertTok k e
    if ok then d.fillRun k key n [] es else (d, some (e :: es))
  | n + 1, w :: ws, es =>
    match d.fillOne k key es w.tok with
    | (d, some es) => (d.modFu k (fun u => { u with fillW := removeFirst (· == w) u.fillW })).fillRun k key n ws es
    | (d, none) => (d, some es)

/-- A fill that has returned goes on (R77): it ends once every token of its key is matched and every entry has a place. -/
def Dev.fillStep (d : Dev) (k : Nat) (f : Fill) : Dev :=
  let ws := (d.fu k).fillW.filter (fun w => keyOf w.tok.tag == f.key)
  let (d, left) := d.fillRun k f.key (ws.length + f.ents.length + 1) ws f.ents
  d.modFu k (fun u => { u with fills := match left with
    | none => removeFirst (fun x => x.tag == f.tag) u.fills
    | some es => replaceFirst (fun x => x.tag == f.tag) (fun x => { x with ret := true, ents := es }) u.fills })

/-- OFL_FULL is 0 while no newcomer is held (R80). -/
def Dev.oflSettle (d : Dev) (k : Nat) : Dev :=
  d.modFu k (fun u => if u.held.isNone && u.heldM.isNone && !u.fills.any (·.ret) then { u with oflFull := false } else u)

/-- The fills that have returned go on, in the order in which they were asked. -/
def Dev.retryFills (d : Dev) (k : Nat) : Dev := ((d.fu k).fills.filter (·.ret)).foldl (fun d f => d.fillStep k f) d

/-- A token that the tag check holds is retried (R66, R171). `lift` lets it go. -/
def Dev.retryHeld (d : Dev) (k : Nat) (errs : List (Nat × Ecc)) (h : Option Token) (lift : Fu → Fu) : Dev :=
  match h with
  | none => d
  | some t =>
    let (d, ok) := d.matchTok k t false errs
    if ok then (d.modFu k lift).progress (k / 136) else d

/-- A held token is retried (R66, R77, R171), after the fills that wait for room. -/
def Dev.tagRetry (d : Dev) (k : Nat) (errs : List (Nat × Ecc)) : Dev :=
  let d := (d.modFu k (fun u => { u with oflFull := false })).retryFills k
  let d := d.retryHeld k errs (d.fu k).heldM (fun u => { u with heldM := none })
  (d.retryHeld k errs (d.fu k).held (fun u => { u with held := none })).oflSettle k

/-- TAG_CHECK_RETRY (R66). -/
def execTagCheckRetry (g : Fin 16) (t : Fin 17) (f : Fin 8 × List (Fin 2048 × Ecc)) (s : State) : Host.Outcome State Fault Refusal :=
  .next { s with dev := s.dev.tagRetry (fuKey g t f.1) (f.2.map (fun c => (c.1.val, c.2))) }

/-! ### Spills (R71, R77) -/

/-- The spill buffer issues its oldest unissued write once the FU holds an L1 credit and has room for the response (R71, R211, R216): the filter counters rise. -/
def Dev.spillIssue (d : Dev) (k : Nat) : Dev :=
  let u := d.fu k
  match u.spill.find? (fun e => !e.issued) with
  | none => d
  | some e =>
    if !(d.l1Credit (fuNode k) && d.respRoom k) then d else
    let tag := u.nextTag % 4096
    let d := d.setFu k { u with nextTag := u.nextTag + 1, spill := replaceFirst (fun x => !x.issued) (fun x => { x with issued := true, tag := tag }) u.spill }
    let d := d.filterMove k (keyOf e.ent.tok.tag) true
    let a := d.oflAddr k e.slot
    let t := e.ent.tok.tag
    d.request (fuNode k) (hbmDest a) false
      { op := 6, size := 4, addr := BitVec.ofNat 48 a, req := fuDest k, rtag := BitVec.ofNat 12 tag, prio := t.prio, ctx := t.ctx, graph := t.graph
        data := entryBytes { e.ent with st := 1 } }

/-- SPILL_WRITE_ISSUE (R71). -/
def execSpillWriteIssue (g : Fin 16) (t : Fin 17) (f : Fin 8) (s : State) : Host.Outcome State Fault Refusal :=
  .next { s with dev := s.dev.spillIssue (fuKey g t f) }

/-- Issue an overflow delete of a slot (R77, R208). -/
def Dev.deleteSlot (d : Dev) (k slot : Nat) (key : W64) (t : Tag) : Dev :=
  let u := d.fu k
  let a := d.oflAddr k slot
  (d.setFu k { u with dels := u.dels ++ [(slot, key)] }).request (fuNode k) (hbmDest a) false
    { op := 8, size := 4, addr := BitVec.ofNat 48 a, req := fuDest k, rtag := BitVec.ofNat 12 (slot % 4096), prio := t.prio, ctx := t.ctx, graph := t.graph }

/-- The waiting entry of the slice that a forced spill moves next (R237): PRIO other than 15, the highest age. -/
def Fu.forced (u : Fu) : Option (Nat × Entry) :=
  (u.slice.filter (fun c => c.2.st == 1 && c.2.tok.tag.prio != 15)).foldl (fun (m : Option (Nat × Entry)) c =>
    match m with | none => some c | some v => if v.2.age < c.2.age then some c else some v) none

/-- Forced spills still to do are done while the spill buffer has room (R237): at most 8 at a time. -/
def Dev.forceSpills (d : Dev) (k : Nat) : Nat → Dev
  | 0 => d
  | n + 1 =>
    let u := d.fu k
    if u.force = 0 then d
    else
      match u.forced with
      | none => d.setFu k { u with force := 0 }
      | some (i, e) =>
        match d.toSpill k e with
        | .ok d => (d.modFu k (fun u => { u with slice := mdel u.slice i, force := u.force - 1 })).forceSpills k n
        | .error true =>
          ((d.setBit (esStatus k) 5 true).modFu k (fun u => { u with force := 0 })).modRegion (k / 136) (fun r => { r with stw := { r.stw with forceFail := true } })
        | .error false => d

/-- Nothing of a swept context is left on its way in or out of the FU's overflow area (R90): no delete, issued spill or fill of its keys. -/
def Fu.sweptOut (u : Fu) (c : BitVec 22) : Bool :=
  let mine := fun (key : W64) => key.toNat / 2 ^ 23 % 2 ^ 22 == c.toNat
  !u.dels.any (fun x => mine x.2) && !u.spill.any (fun e => e.ent.tok.tag.ctx == c) && !u.fills.any (fun f => mine f.key && !f.ret)

/-- The FU acknowledges a sweep whose parts are complete (R88, R89, R90): its tombstone is entered, every occupied slot was read, and what that
started is done. -/
def Dev.sweepAck (d : Dev) (k : Nat) (c : BitVec 22) : Dev :=
  let u := d.fu k
  match u.sweeps.find? (fun s => s.ctx == c) with
  | none => d
  | some s =>
    if s.tomb && s.ofl && u.sweptOut c then
      (d.setFu k { u with sweeps := removeFirst (fun s => s.ctx == c) u.sweeps }).sendMgmt (fuNode k) (poolDest (c.toNat / 2 ^ 18)) (.sweepAck c s.num)
    else d

/-- The FU acknowledges what it can (R90). -/
def Dev.sweepAcks (d : Dev) (k : Nat) : Dev := ((d.fu k).sweeps.map (·.ctx)).foldl (fun d c => d.sweepAck k c) d

/-- A spill write response returns (R77): the buffer entry frees; if the partner fired meanwhile a delete is issued. -/
def Dev.spillResponse (d : Dev) (k : Nat) : Dev :=
  match d.takeResp (fuNode k) (fun r => r.op == 6) with
  | none => d
  | some (r, d) =>
    let u := d.fu k
    match u.spill.find? (fun e => e.issued && e.tag == r.rtag.toNat) with
    | none => d
    | some e =>
      let d := ((d.setFu k { u with spill := removeFirst (· == e) u.spill }).spilled k 1 0).forceSpills k 8
      (if e.fired then d.deleteSlot k e.slot (keyOf e.ent.tok.tag) e.ent.tok.tag else d).sweepAcks k

/-- SPILL_WRITE_RESPONSE (R77). -/
def execSpillWriteResponse (g : Fin 16) (t : Fin 17) (f : Fin 8) (s : State) : Host.Outcome State Fault Refusal :=
  .next { s with dev := s.dev.spillResponse (fuKey g t f) }

/-- An overflow delete completes (R73): slot and counters are given back. -/
def Dev.deleteDone (d : Dev) (k : Nat) : Dev :=
  match d.takeResp (fuNode k) (fun r => r.op == 8) with
  | none => d
  | some (r, d) =>
    let u := d.fu k
    match u.dels.find? (fun x => x.1 % 4096 == r.rtag.toNat) with
    | none => d
    | some x =>
      let d := d.setFu k { u with dels := removeFirst (· == x) u.dels, bitmap := u.bitmap.filter (· != x.1) }
      ((d.filterMove k x.2 false).spilled k 0 1).sweepAcks k

/-- OVERFLOW_DELETE_DONE (R73). -/
def execOverflowDeleteDone (g : Fin 16) (t : Fin 17) (f : Fin 8) (s : State) : Host.Outcome State Fault Refusal :=
  .next { s with dev := s.dev.deleteDone (fuKey g t f) }

/-! ### The return of a fill (R71, R72, R77) -/

/-- An entry that a fill took out of its bucket (R63, R72): discarded where its context is swept; with an uncorrectable error handled as R63 gives;
dropped where its TCRC fails; otherwise one of the entries returned. -/
def Dev.fillEntry (d : Dev) (k : Nat) (t : Token) (e : Ecc) : Dev × Option Token :=
  let u := d.fu k
  let d := match e with | .ce => d.addSat16 (fuRegK k 0x30) 1 | _ => d
  if u.tombs.any (fun x => x.1 == t.tag.ctx) || u.sweeps.any (fun s => s.ctx == t.tag.ctx) then (d, none)
  else
    match e with
    | .ue tagOk =>
      let d := (d.setBit (esStatus k) 3 true).raiseTile (k / 8) 3 (k % 8)
      (if tagOk then d.fuError k t.tag (Token.replay t) stES_UNCORRECTABLE t.tag.node.toNat else d, none)
    | _ => if Tag.crcOk t.tag then (d, some t) else (d.badTag k t.tag, none)

/-- A fill's bucket returns (R71, R72): entries of the key are taken, checked as in R56 and R63, and matched; with none,
the next occupied bucket is read, or the tokens are processed without a filter check. `errs` are the errors of the bucket's entries by slot. -/
def Dev.fillResponse (d : Dev) (k : Nat) (errs : List (Nat × Ecc)) : Dev :=
  match d.takeResp (fuNode k) (fun r => r.op == 7) with
  | none => d
  | some (r, d) =>
    let u := d.fu k
    match u.fills.find? (fun f => f.tag == r.rtag.toNat && !f.ret) with
    | none => d
    | some f =>
      let found := (((List.range 8).map (fun i => (i, entryOfBytes ((r.data.drop (32 * i)).take 32)))).filter
        (fun e => e.2.st == 1 && keyOf e.2.tok.tag == f.key)).take 2
      let b := f.buckets.headD 0
      if found.isEmpty then
        match f.buckets.tail with
        | [] => (((d.setFu k { u with fills := replaceFirst (· == f) (fun f => { f with ret := true }) u.fills }).fillStep k { f with ret := true }).oflSettle k).sweepAcks k
        | x :: xs =>
          let t := ((u.fillW.find? (fun w => keyOf w.tok.tag == f.key)).map (·.tok.tag)).getD {}
          (d.setFu k { u with fills := replaceFirst (· == f) (fun f => { f with buckets := x :: xs }) u.fills }).askBucket k f.key f.tag x t
      else
        let slots := found.map (fun e => b * 8 + e.1)
        let d := d.setFu k { u with fills := replaceFirst (· == f) (fun f => { f with ret := true }) u.fills, bitmap := u.bitmap.filter (fun s => !slots.contains s) }
        let d := found.foldl (fun d e => (d.filterMove k (keyOf e.2.tok.tag) false).spilled k 0 1) d
        let (d, ents) := found.foldl (fun (p : Dev × List Token) e =>
          let (d, t) := p.1.fillEntry k e.2.tok (((errs.find? (fun c => c.1 == e.1)).map (·.2)).getD .ok)
          (d, p.2 ++ t.toList)) (d, [])
        ((d.fillStep k { f with ret := true, ents := ents }).oflSettle k).sweepAcks k

/-- FILL_RESPONSE (R77). -/
def execFillResponse (g : Fin 16) (t : Fin 17) (f : Fin 8 × List (Fin 8 × Ecc)) (s : State) : Host.Outcome State Fault Refusal :=
  .next { s with dev := s.dev.fillResponse (fuKey g t f.1) (f.2.map (fun c => (c.1.val, c.2))) }

/-! ### Scrubbing and the filter (R62, R63, R74, R79) -/

/-- The scrubber reads one entry of the slice and moves on (R62): a single-bit error is corrected and counted, an
uncorrectable one removes the entry (R63). -/
def Dev.esScrub (d : Dev) (k : Nat) (e : Ecc) : Dev :=
  let u := d.fu k
  let n := u.scrub
  (d.setFu k { u with scrub := (n + 1) % 2048 }).entryEcc k n e

/-- ES_SCRUB (R62). -/
def execEsScrub (g : Fin 16) (t : Fin 17) (f : Fin 8) (e : Ecc) (s : State) : Host.Outcome State Fault Refusal :=
  .next { s with dev := s.dev.esScrub (fuKey g t f) e }

/-- A filter rebuild starts (R74). -/
def Dev.rebuildStart (d : Dev) (k : Nat) (v : W32) : Dev :=
  if v.getLsbD 1 then d.modFu k (fun u => { u with rebuild := true }) else d

/-- REBUILD (R74): a write to FU.ES_CTRL with bit 1. -/
def execRebuild (g : Fin 16) (t : Fin 17) (f : Fin 8) (v : W32) (s : State) : Host.Outcome State Fault Refusal :=
  .next { s with dev := s.dev.writes (fuReg g t f 0x14) (s.dev.rebuildStart (fuKey g t f) v) }

/-- Counters rebuilt from the overflow area: each occupied slot the bitmap marks, with every spill in flight counted (R74). -/
def Dev.rebuiltFilter (d : Dev) (k : Nat) : SMap Nat :=
  let u := d.fu k
  let keys := (u.bitmap.filter (fun s => !u.spill.any (fun e => e.slot == s))).map (fun s => keyOf (entryOfBytes (d.read (d.oflAddr k s) 32)).tok.tag)
  let keys := keys ++ (u.spill.filter (·.issued)).map (fun e => keyOf e.ent.tok.tag)
  keys.foldl (fun m key =>
    let (a, b) := d.filterIdx k key
    let m := mset 0 m a (min 15 (mget 0 m a + 1))
    mset 0 m b (min 15 (mget 0 m b + 1))) []

/-- A rebuild completes (R74): started with COUNT 0 it leaves every counter clear. -/
def Dev.rebuildDone (d : Dev) (k : Nat) : Dev :=
  if (d.fu k).rebuild then d.modFu k (fun u => { u with rebuild := false, filter := d.rebuiltFilter k }) else d

/-- REBUILD_DONE (R74). -/
def execRebuildDone (g : Fin 16) (t : Fin 17) (f : Fin 8) (s : State) : Host.Outcome State Fault Refusal :=
  .next { s with dev := s.dev.rebuildDone (fuKey g t f) }

/-- Occupied slots of an FU's area as memory holds them (R79): STATE 1, and not one of those `bad` whose ECC does not decode. Only listed bytes can make a
slot nonzero. -/
def Dev.occupied (d : Dev) (k : Nat) (bad : List Nat) : List Nat :=
  let a := d.oflAddr k 0
  let z := a + 32 * d.oflE (k / 136)
  let cand := (d.mem.filter (fun c => a ≤ c.1 && c.1 < z)).map (fun c => (c.1 - a) / 32)
  cand.eraseDups.filter (fun s => !bad.contains s && (entryOfBytes (d.read (a + 32 * s) 32)).st == 1)

/-- After a warm reset every slot of the area is read and bitmap, filter and counts are rebuilt (R79). -/
def Dev.overflowRebuild (d : Dev) (k : Nat) (bad : List Nat) : Dev :=
  if (d.fu k).rebuild then
    let occ := d.occupied k bad
    let old := d.rfld (fuRegK k 0xC) 17 0
    let d := d.modFu k (fun u => { u with bitmap := occ, rebuild := false })
    let d := d.modFu k (fun u => { u with filter := d.rebuiltFilter k })
    d.spilled k occ.length old
  else d

/-- OVERFLOW_REBUILD_DONE (R79). -/
def execOverflowRebuildDone (g : Fin 16) (t : Fin 17) (f : Fin 8 × List Nat) (s : State) : Host.Outcome State Fault Refusal :=
  .next { s with dev := s.dev.overflowRebuild (fuKey g t f.1) f.2 }

/-- HWM_CLR of an FU (R81): every HWM field takes its current value. -/
def Dev.esHwmClr (d : Dev) (k : Nat) (v : W32) : Dev :=
  if v.getLsbD 0 then
    let u := d.fu k
    let d := d.setFld (fuRegK k 4) 11 0 u.slice.length
    let d := d.setFld (fuRegK k 8) 14 8 (u.slice.filter (fun c => c.2.st == 2)).length
    d.setFld (fuRegK k 0x10) 17 0 (d.rfld (fuRegK k 0xC) 17 0)
  else d

/-- ES_HWM_CLR (R81). -/
def execEsHwmClr (g : Fin 16) (t : Fin 17) (f : Fin 8) (v : W32) (s : State) : Host.Outcome State Fault Refusal :=
  .next { s with dev := s.dev.writes (fuReg g t f 0x14) (s.dev.esHwmClr (fuKey g t f) v) }

/-- A write of FU.HASH_SALT (R77): ignored while OCC or SPILLED.COUNT is nonzero. -/
def Dev.saltWrite (d : Dev) (k : Nat) (v : W32) : Dev :=
  if (d.fu k).slice.length ≠ 0 ∨ d.rfld (fuRegK k 0xC) 17 0 ≠ 0 then d else d.setFld (fuRegK k 0x1C) 15 0 (fld v 15 0)

/-- HASH_SALT_WRITE (R77). -/
def execHashSaltWrite (g : Fin 16) (t : Fin 17) (f : Fin 8) (v : W32) (s : State) : Host.Outcome State Fault Refusal :=
  .next { s with dev := s.dev.writes (fuReg g t f 0x1C) (s.dev.saltWrite (fuKey g t f) v) }

/-- Region `g` is open (PWR.RGN_STATUS.OPEN). -/
def Dev.regionOpen (d : Dev) (g : Nat) : Bool := d.rbit (pwrReg 4) g

/-- Every FU.SPILLED.COUNT of a region is 0. -/
def Dev.noneSpilled (d : Dev) (g : Nat) : Bool := (List.range 136).all (fun i => d.rfld (fuRegK (g * 136 + i) 0xC) 17 0 == 0)

/-- A write of OFL.BASE (a pair) or OFL.SIZE (R92): only while the region is closed with nothing spilled. The low half of the base
is held until its high half is written (R9); `a` is the register's offset from OFL.BASE_LO. -/
def Dev.oflConfig (d : Dev) (g a : Nat) (v : W32) : Dev :=
  let lo := ctxReg g 0x100
  if a = 0 then d.holdLo lo v
  else if d.regionOpen g || !d.noneSpilled g then (if a = 4 then { d with loHeld := mdel d.loHeld lo } else d)
  else if a = 4 then
    d.pairWrite lo v
  else if a = 8 then d.setFld (lo + 8) 2 0 (fld v 2 0)
  else d

/-- OFL_CONFIG_WRITE (R92). -/
def execOflConfigWrite (g : Fin 16) (a : BitVec 4) (v : W32) (s : State) : Host.Outcome State Fault Refusal :=
  .next { s with dev := s.dev.writes (ctxReg g (0x100 + a.toNat)) (s.dev.oflConfig g a.toNat v) }

/-- OFL_HWM_CLR (R91). -/
def Dev.oflHwmClr (d : Dev) (g : Nat) (v : W32) : Dev :=
  if v.getLsbD 0 then d.setFld (ctxReg g 0x110) 24 0 (d.rfld (ctxReg g 0x10C) 24 0) else d

def execOflHwmClr (g : Fin 16) (v : W32) (s : State) : Host.Outcome State Fault Refusal :=
  .next { s with dev := s.dev.writes (ctxReg g 0x118) (s.dev.oflHwmClr g v) }

end Sys2Proof.Machine
end

