-- ==== Sys2Proof/Machine/Contexts.lean ====
section
/-!
DEFINITION. Context pools (02_tokens_exchange_store.md, Contexts) and the journal of context groups
(18_events_health.md, R532, R533, R535): taking and freeing contexts, faults and flags at the descriptor, sweeps,
tombstones, journalled sending.
-/
namespace Sys2Proof.Machine

/-! ### The journal (R533, R535) -/

/-- The group root of a context, none for a resident or PRIO 15 context (R532). -/
def Dev.rootOf (d : Dev) (c : BitVec 22) : Option (BitVec 22) :=
  ((d.region (c.toNat / 2 ^ 18)).pool.root.find? (fun x => x.1 == c.toNat % 2 ^ 18)).map (·.2.1)

/-- Records the journal ring holds (R535). -/
def Dev.jrnCap (d : Dev) : Nat := 2 ^ 20 * 2 ^ min 6 (d.rfld (hltReg 0x14) 2 0)

/-- Records in use: from the oldest one kept to the newest (R535: space is reclaimed in ring order). -/
def Dev.jrnUsed (d : Dev) : Nat := d.jrn.length

/-- Write a journal record for a token of a group (R533): 64 bytes with tag, payload, type, kind, the chain's previous record and
device time; the root's JPTR names it. The spec gives the kinds no numbers: that byte is a free value. (DEDUCED, log 27. DEDUCED, log 28.) -/
def Dev.journalWrite (d : Dev) (root : BitVec 22) (t : Token) : Dev :=
  let (kind, d) := d.free
  let n := d.jrnNext
  let a := d.pair (hltReg 0xC) + n % d.jrnCap * 64
  let v := d.ctxDesc root
  let bs := leBytes 16 (Tag.toBits t.tag).toNat ++ leBytes 8 t.pay.toNat ++ [t.ty, kind.extractLsb' 0 8, 0, 0] ++
    leBytes 4 (fld v 31 0) ++ leBytes 8 d.time.toNat ++ leBytes 24 0
  let d := d.write a bs
  let d := { d with jrn := d.jrn ++ [{ n := n, root := root, tok := t }], jrnNext := n + 1 }
  let d := if cdState v = 0 then d else d.setCtxDesc root (putFld v 31 0 (n % d.jrnCap))
  let thr := d.rfld (hltReg 0x1C) 7 0 * d.jrnCap / 256
  if thr < d.jrnUsed ∧ !d.jrnLow then ({ d with jrnLow := true }).raiseFree 333 0 else d

/-- A block delivers a token (R219, R533): where it counts to a group, it waits for its journal record, written while the ring has room; otherwise it is sent, or
waits behind what its sender still holds, so that each sender's tokens leave in order. `ends` is the service that ends with it, `mark` what its packet carries as `src`. (DESIGN CHOICE, log 63.) -/
def Dev.blockSendAs (d : Dev) (src : Node) (root : Option (BitVec 22)) (t : Token) (ends : Option (BitVec 20 × Nat)) (mark : Nat := 0) : Dev :=
  match root with
  | none =>
    if d.jrnWait.any (fun w => w.src == src) then { d with jrnWait := d.jrnWait ++ [{ src := src, tok := t, ends := ends, mark := mark, written := true, done := true }] }
    else d.send src { d.tokenPacket t with ends := ends, src := mark }
  | some r =>
    if d.jrnUsed < d.jrnCap && d.jrnWait.all (·.written) then
      let d := d.journalWrite r t
      { d with jrnWait := d.jrnWait ++ [{ src := src, root := root, tok := t, ends := ends, mark := mark, written := true }] }
    else { d with jrnWait := d.jrnWait ++ [{ src := src, root := root, tok := t, ends := ends, mark := mark }] }

def Dev.blockSend (d : Dev) (src : Node) (t : Token) (mark : Nat := 0) : Dev := d.blockSendAs src (d.rootOf t.tag.ctx) t none mark

/-- Tokens of a sender that carry a mark and wait: for their record, or at the link `l`. -/
def Dev.marked (d : Dev) (l : LinkId) (mark : Nat) : Nat :=
  ((d.link l).q.filter (fun f => f.pkt.src == mark)).length + (d.jrnWait.filter (fun w => w.src == l.src && w.mark == mark)).length

/-- What a sender may send now: its waiting tokens up to the first whose record is not written. -/
def jrnReady (src : Node) : List JWait → List JWait
  | [] => []
  | w :: ws => if w.src == src then (if w.done then w :: jrnReady src ws else []) else jrnReady src ws

def Dev.jrnFlush (d : Dev) (src : Node) : Dev :=
  (jrnReady src d.jrnWait).foldl (fun (d : Dev) w =>
    { d with jrnWait := removeFirst (· == w) d.jrnWait }.send src { d.tokenPacket w.tok with ends := w.ends, src := w.mark }) d

/-- Drop the reclaimable records at the ring's old end (R535). -/
def dropDone : List JRec → List JRec
  | [] => []
  | r :: rs => if r.done then dropDone rs else r :: rs

/-- A root is freed: its records may be reclaimed (R535), and a replay of it is over. -/
def Dev.reclaim (d : Dev) (root : BitVec 22) : Dev :=
  let js := dropDone (d.jrn.map (fun r => if r.root == root && !r.kept then { r with done := true } else r))
  let gs := d.groups.filter (fun x => x.hold || x.root != root)
  let d : Dev := { d with jrn := js, groups := gs }
  if d.jrnUsed ≤ d.rfld (hltReg 0x1C) 7 0 * d.jrnCap / 256 then { d with jrnLow := false } else d

/-! ### Taking a context (R84, R85, R119, R121, R138, R535) -/

/-- Contexts on the free list. -/
def Pool.freeCount (p : Pool) : Nat := 2 ^ 18 - p.next + p.tail.length

/-- The context is in use: active, or replaying (R83). -/
def cdLive (v : W64) : Bool := cdState v == 1 || cdState v == 3

/-- Contexts of a graph that are in use in a pool. -/
def Pool.active (p : Pool) (graph : Nat) : Nat := (p.desc.filter (fun c => cdLive c.2 && cdGraph c.2 == graph)).length

/-- The request may take a context of region `g` now (R85, R121, R138, R535): the region is open, a context is free beyond those kept
for PRIO 15, a protection graph stays below ACTMAX, and a resident context's request is not throttled by the journal. -/
def Dev.mayTake (d : Dev) (g prio graph : Nat) (resident : Bool) : Bool :=
  let p := (d.region g).pool
  let x := d.graph graph
  d.regionOpen g &&
  (if prio = 15 then decide (0 < Pool.freeCount p) else decide (d.rfld (ctxReg g 0x18) 15 0 < Pool.freeCount p)) &&
  (!x.prot || decide (Pool.active p graph < x.actmax)) && !(resident && d.jrnLow)

/-- Take the context at the head of the free list (R84): its descriptor becomes active (R83). `root` is its group's root, or the
context itself when it starts a group. -/
def Dev.takeCtx (d : Dev) (g prio graph : Nat) (root : Option (Option (BitVec 22))) : Option (BitVec 22 × Dev) :=
  let p := (d.region g).pool
  let pick : Option (Nat × Pool) :=
    if p.next < 2 ^ 18 then some (p.next, { p with next := p.next + 1 })
    else match p.tail with | [] => none | i :: is => some (i, { p with tail := is })
  match pick with
  | none => none
  | some (i, p) =>
    let c : BitVec 22 := BitVec.ofNat 22 (g * 2 ^ 18 + i)
    let v : W64 := BitVec.ofNat 64 (2 ^ 61 + prio * 2 ^ 48 + graph % 4096 * 2 ^ 32)
    let unit := if d.rbit (banked (hltReg 0x2C) graph) 16 then 16000000 else 1000000
    let p := { p with desc := mset 0 p.desc i v }
    let p := match root with
      | none => { p with root := mdel p.root i }
      | some r => { p with root := mput p.root i (r.getD c, d.time.toNat / unit % 256) }
    let d := d.modPool g (fun _ => p)
    let n := Pool.freeCount p
    let d := if n < d.rfld (ctxReg g 4) 18 0 then d.setFld (ctxReg g 4) 18 0 n else d
    some (c, d.progress g)

/-- The root of a context taken by a firing of context `c` at PRIO `prio` (R532). -/
def Dev.newRoot (d : Dev) (c : BitVec 22) (prio : Nat) : Option (Option (BitVec 22)) :=
  if prio = 15 then none else match d.rootOf c with | some r => some (some r) | none => some none

/-- The output tokens of a CTXALLOC that got context `c`, as NDST says (R95, R119, R128): the value to DST0 in the new context with ITER 0, the context
number to DST1 in the old one. -/
def Dev.allocTokens (d : Dev) (f : Firing) (desc : BitVec 128) (c : BitVec 22) : List Token :=
  let base := d.baseTag f
  let v := Firing.lead f
  let t0 : Token := { tag := Tag.seal { Tag.to base (dDst0 desc) with ctx := c, iter := 0 }, pay := v.pay
                      ty := tyByte (Token.ptype v) (Token.err v) (Firing.hist f) (Firing.replay f) }
  let t1 : Token := { tag := Tag.seal (Tag.to base (dDst1 desc)), pay := BitVec.ofNat 64 c.toNat
                      ty := tyByte 1 false (Firing.hist f) (Firing.replay f) }
  [t0, t1].take (dNdst desc)

/-- The firing at node fetch leaves execute with a result after `lat` cycles (R166). -/
def Dev.finish (d : Dev) (k : Nat) (lat occ : Nat) (r : Result) : Dev :=
  let u := d.fu k
  match u.fetch with
  | none => d
  | some x =>
    let st := max x.cycle (u.prevStart + u.prevOcc)
    let dn := max (st + lat) (u.prevDone + 1)
    d.setFu k { u with
      fetch := none
      results := u.results ++ [{ r with ctx := Firing.ctx x.fir, flow := Firing.flow x.fir, start := st, done := dn }]
      prevStart := st, prevOcc := occ, prevDone := dn }

/-- The firing leaves execute with nothing handed on yet: what it waits for hands the result on. -/
def Dev.depart (d : Dev) (k : Nat) : Dev :=
  let u := d.fu k
  match u.fetch with
  | none => d
  | some x =>
    let st := max x.cycle (u.prevStart + u.prevOcc)
    d.setFu k { u with fetch := none, prevStart := st, prevOcc := 1, prevDone := max (st + 1) (u.prevDone + 1) }

def poolNode (g : Nat) : Node := .regionUnit g 2

/-- Complete the CTXALLOC firing that FU `k` holds with context `c`: a value that creates a group root is journalled before it is sent (R533), and the
service ends with the last token sent (R179). -/
def Dev.giveCtx (d : Dev) (k : Nat) (c : BitVec 22) : Dev :=
  match (d.fu k).fetch with
  | some { fir := f, desc := some desc, .. } =>
    let ts := d.allocTokens f desc c
    let ends := if Firing.flow f = 0 then none else some (Firing.flow f, (d.clusterOf (k / 8)).getD 0)
    if d.rootOf c != some c then d.finish k 1 1 { toks := ts }
    else
      match ts with
      | [] => d.finish k 1 1 {}
      | [t] => (d.blockSendAs (fuNode k) (some c) t ends).finish k 1 1 { ends := false }
      | t :: u :: _ => ((d.blockSendAs (fuNode k) (some c) t none).blockSendAs (fuNode k) none u ends).finish k 1 1 { ends := false }
  | _ => d

/-- The region a CTXALLOC names (R119): global region 0 to 15, or 31 for the FU's own. -/
def allocRegion (k : Nat) (desc : BitVec 128) : Nat := let r := (dImm desc).toNat % 32; if r = 31 then k / 136 else r

/-- Requests wait in order of PRIO, highest first, then of arrival (R85). -/
def insertWait (w : CtxWait) : List CtxWait → List CtxWait
  | [] => [w]
  | x :: xs => if x.prio < w.prio then w :: x :: xs else x :: insertWait w xs

/-- A pool answers a request with a context: to an FU of its region at once, to another on L4 (R15, R119). (DESIGN CHOICE, log 15.) -/
def Dev.answerCtx (d : Dev) (g : Nat) (w : CtxWait) (c : BitVec 22) : Dev :=
  if w.fu / 136 = g then d.giveCtx w.fu c else d.sendMgmt (poolNode g) (fuDest w.fu) (.ctxGive w.rtag c)

/-- STARVING clears, and the event is armed again, when no request waits (R86). -/
def Dev.starveSettle (d : Dev) (g : Nat) : Dev :=
  if (d.region g).pool.wait.isEmpty then (d.modPool g (fun p => { p with starved := false })).setBit (ctxReg g 0x10) 0 false else d

/-- Give free contexts to the waiting requests of a pool that may take one, in order (R85, R86). It is done at a request, at the return of a context and when the
region opens: a lower CTX.PROT_RESERVE counts from the next of these on. (DESIGN CHOICE, log 99.) -/
def Dev.serveWaiters (d : Dev) (g : Nat) : Dev :=
  ((d.region g).pool.wait.foldl (fun d w =>
    if d.mayTake g w.prio w.graph ((d.rootOf w.ctx).isNone && w.prio != 15) then
      match d.takeCtx g w.prio w.graph (d.newRoot w.ctx w.prio) with
      | some (c, d) => (d.modPool g (fun p => { p with wait := removeFirst (· == w) p.wait })).answerCtx g w c
      | none => d
    else d) d).starveSettle g

/-- A CTXALLOC request reaches its pool (R85, R86): it stands in line and is served if it may. -/
def Dev.ctxAlloc (d : Dev) (g : Nat) (w : CtxWait) : Dev :=
  (d.modPool g (fun p => { p with wait := insertWait w p.wait })).serveWaiters g

/-- The answer of another region's pool reaches FU `k` (R119): a firing that a reset took away gives the context back. -/
def Dev.ctxGiven (d : Dev) (k rtag : Nat) (c : BitVec 22) : Dev :=
  if (d.fu k).fetch.any (fun x => x.asked == some rtag) then d.giveCtx k c
  else d.sendMgmt (fuNode k) (poolDest (c.toNat / 2 ^ 18)) (.ctxFree k { ctx := c } false)

/-- No message is on its way to a region's pool: a request of the region's own FUs is then there at once. (DESIGN CHOICE, log 15.) -/
def Dev.poolQuiet (d : Dev) (g : Nat) : Bool :=
  (d.inbox (poolNode g) 4).isEmpty &&
    d.net.links.all (fun c => (Link.waiting c.2).all (fun f => !(Packet.lane f.pkt == 4 && f.pkt.dest == poolDest g)))

/-- A request has waited STARVE_DELAY (R86): STARVING is set and one event raised. -/
def Dev.ctxStarve (d : Dev) (g : Nat) : Dev :=
  let p := (d.region g).pool
  if p.wait.isEmpty ∨ p.starved then d
  else ((d.modPool g (fun p => { p with starved := true })).setBit (ctxReg g 0x10) 0 true).raise (256 + 4 * g) 1 0

/-- CTX_STARVE_TIMEOUT (R86). -/
def execCtxStarveTimeout (g : Fin 16) (s : State) : Host.Outcome State Fault Refusal :=
  .next { s with dev := s.dev.ctxStarve g }

/-- CTX_LOW_CLR (R91): LOW takes the current free count. -/
def Dev.ctxLowClr (d : Dev) (g : Nat) (v : W32) : Dev :=
  if v.getLsbD 0 then d.setFld (ctxReg g 4) 18 0 (Pool.freeCount (d.region g).pool) else d

def execCtxLowClr (g : Fin 16) (v : W32) (s : State) : Host.Outcome State Fault Refusal :=
  .next { s with dev := s.dev.writes (ctxReg g 0xC) (s.dev.ctxLowClr g v) }

/-! ### Faults and flags at the descriptor (R100, R109) -/

/-! Kinds of management messages. -/

def isHorizonMsg (m : Mgmt) : Bool := match m with | .horizon _ _ _ => true | .importHz _ _ _ => true | _ => false
def isHorizon (m : Mgmt) : Bool := match m with | .horizon _ _ _ => true | _ => false
def isFaultMsg (m : Mgmt) : Bool := match m with | .fault _ => true | _ => false
def isFlagsMsg (m : Mgmt) : Bool := match m with | .flags _ _ => true | _ => false
def isFlowReq (m : Mgmt) : Bool := match m with | .flowReq _ _ _ _ => true | _ => false
def isFlowGrant (m : Mgmt) : Bool := match m with | .flowGrant _ _ => true | _ => false
def isFlowRel (m : Mgmt) : Bool := match m with | .flowRel _ _ => true | _ => false
def isFlowCancel (m : Mgmt) : Bool := match m with | .flowCancel _ _ _ => true | _ => false
def isFlowRefuse (m : Mgmt) : Bool := match m with | .flowRefuse _ _ => true | _ => false
def isOwnerReset (m : Mgmt) : Bool := match m with | .ownerReset _ => true | _ => false

def isSweep (c : BitVec 22) (m : Mgmt) : Bool := match m with | .sweep x _ _ => x == c | _ => false
def isBoost (m : Mgmt) : Bool := match m with | .boost _ _ _ => true | _ => false

/-- Send an owner reset of a context to all 16 lock units (R326). -/
def Dev.ownerReset (d : Dev) (src : Node) (c : BitVec 22) : Dev :=
  (List.range 16).foldl (fun d u =>
    d.sendMgmt src { die := BitVec.ofNat 3 (u / 4), rgn := BitVec.ofNat 2 (u % 4), tile := 31, unit := 1 } (.ownerReset c)) d

/-- The guard that a region's sweeps carry, in µs (R88, R91). -/
def Dev.reuseGuard (d : Dev) (g : Nat) : Nat := min 1000000 (max 1 (d.rfld (ctxReg g 0x1C) 19 0))

/-- A sweep for the FU of global number `n` (R88). -/
def sweepPacket (c : BitVec 22) (guard n : Nat) : Packet :=
  { dest := { die := BitVec.ofNat 3 (n / 512), rgn := BitVec.ofNat 2 (n / 128 % 4), tile := BitVec.ofNat 5 (n / 8 % 16), unit := BitVec.ofNat 4 (n % 8) }
    log := true, body := .mgmt (.sweep c (BitVec.ofNat 32 guard) n) }

/-- A sweep for every FU of the device, by global number (R88). -/
def sweepPackets (c : BitVec 22) (guard : Nat) : List Packet := (List.range 2048).map (sweepPacket c guard)

/-- Start a sweep of a context (R88): nothing for one that is sweeping or free. It goes on L4 to every FU, and an owner reset to every lock unit (R326).
(DESIGN CHOICE, log 15.) (DESIGN CHOICE, log 15.) -/
def Dev.startSweep (d : Dev) (c : BitVec 22) : Dev :=
  let v := d.ctxDesc c
  if cdState v = 0 ∨ cdState v = 2 then d
  else
    let g := c.toNat / 2 ^ 18
    let d := d.setCtxDesc c (putFld v 63 61 2)
    ((d.modPool g (fun p => { p with sweeps := p.sweeps ++ [{ ctx := c }] })).sendAll (poolNode g) (sweepPackets c (d.reuseGuard g))).ownerReset (poolNode g) c

/-- HLT.STATE becomes at least `st` (R536, R544): each change raises event 651. -/
def Dev.healthState (d : Dev) (st reason : Nat) : Dev :=
  if d.rfld (hltReg 0) 1 0 < st then ((d.setFld (hltReg 0) 1 0 st).setFld (hltReg 0) 15 8 reason).raiseFree 651 st else d

/-- Raise a 32-bit count that saturates. (DEDUCED, log 94.) -/
def Dev.count32 (d : Dev) (a : Nat) : Dev := let v := d.reg a; if v.toNat = 2 ^ 32 - 1 then d else d.setReg a (v + 1)

/-- Report a group lost (R536): one LOST record for each output channel its graph has used, HLT.LOST, its journal space. The value and type
of a LOST record are not given: free values. (DESIGN CHOICE, log 67.) -/
def Dev.loseGroup (d : Dev) (x : Group) : Dev :=
  let g := d.graph x.graph
  let d := g.used.foldl (fun (d : Dev) ch =>
    let (v, d) := d.free
    { d with pend := d.pend ++ [{ ch := ch, val := v, ty := (v.extractLsb' 56 8) &&& 0xBF#8, graph := x.graph, ctx := x.root, root := x.root, lost := true }] }) d
  let d := (d.setGraph x.graph { g with lost := g.lost + 1 }).count32 (hltReg 0x20)
  let js := dropDone (d.jrn.map (fun r => if x.recs.contains r.n then { r with done := true } else r))
  { d with jrn := js }

/-- Contexts of a group that are in use (R536 step 1), in any pool, with the group's root. -/
def Dev.members (d : Dev) (root : BitVec 22) : List (BitVec 22) :=
  (List.range 16).flatMap (fun g =>
    let p := (d.region g).pool
    (p.root.filter (fun x => x.2.1 == root && cdLive (mget 0 p.desc x.1))).map (fun x => BitVec.ofNat 22 (g * 2 ^ 18 + x.1)))

/-- Steps 1 and 2 of R536 for a group, and the report where it is not replayed. `stw` marks a stall-watch abort (R239): `some` says whether the
policy replays. (DEDUCED, log 27.) -/
def Dev.faultGroup (d : Dev) (root : BitVec 22) (faults : Nat) (stw : Option Bool) : Dev :=
  let v := d.ctxDesc root
  let recs := (d.jrn.filter (fun r => r.root == root && !r.done && !r.kept)).map (·.n)
  let x : Group := { root := root, graph := cdGraph v, prio := cdPrio v, faults := faults, hold := true, stw := stw == some true, recs := recs }
  let d := (d.members root).foldl (fun d c => d.startSweep c) d
  let d := { d with
    pend := d.pend.filter (fun p => p.lost || p.root != root)
    jrn := d.jrn.map (fun (r : JRec) => if recs.contains r.n then { r with kept := true } else r) }
  let d := d.healthState 1 0
  let replays : Bool := match stw with | some b => b | none => d.rbit (banked (hltReg 0x2C) x.graph) 31
  if replays && faults < 3 then { d with groups := d.groups ++ [x] } else d.loseGroup x

/-- A member of a group is faulted (R536, R541): once for the group, and not while its outputs are being released. -/
def Dev.noteFault (d : Dev) (c : BitVec 22) (stw : Option Bool) : Dev :=
  match d.rootOf c with
  | none => d
  | some r =>
    let commit := cdCommit (d.ctxDesc r)
    if commit = 2 ∨ commit = 3 then d
    else
      match d.groups.find? (fun x => x.root == r && !x.hold) with
      | some x => ({ d with groups := removeFirst (· == x) d.groups }).faultGroup r (x.faults + 1) stw
      | none => d.faultGroup r 1 stw

/-- Set FAULT in a descriptor (R109): ignored for a context that is free or sweeping. -/
def Dev.setFault (d : Dev) (c : BitVec 22) : Dev :=
  let v := d.ctxDesc c
  if cdState v = 0 ∨ cdState v = 2 then d else (d.setCtxDesc c (v ||| BitVec.ofNat 64 (2 ^ 55))).noteFault c none

/-- A fault message reaches the home pool (R109). -/
def Dev.faultMessage (d : Dev) (g : Nat) : Dev :=
  match d.takeMgmt (poolNode g) isFaultMsg with
  | some (.fault c, d) => d.setFault c
  | _ => d

/-- FAULT_MESSAGE (R109). -/
def execFaultMessage (g : Fin 16) (s : State) : Host.Outcome State Fault Refusal :=
  .next { s with dev := s.dev.faultMessage g }

/-- A flag update is ORed into FPFLAGS (R83, R100). -/
def Dev.orFlags (d : Dev) (c : BitVec 22) (f : BitVec 5) : Dev :=
  d.setCtxDesc c (d.ctxDesc c ||| BitVec.ofNat 64 (f.toNat * 2 ^ 56))

def Dev.flagUpdate (d : Dev) (g : Nat) : Dev :=
  match d.takeMgmt (poolNode g) isFlagsMsg with
  | some (.flags c f, d) => d.orFlags c f
  | _ => d

/-- The faults and flag updates that reached a pool take effect: what came after them finds them done. -/
def Dev.settlePool (d : Dev) (g : Nat) : Dev := iter (fun d => (d.faultMessage g).flagUpdate g) (d.inbox (poolNode g) 4).length d

/-- FLAG_UPDATE (R100). -/
def execFlagUpdate (g : Fin 16) (s : State) : Host.Outcome State Fault Refusal :=
  .next { s with dev := s.dev.flagUpdate g }

/-! ### Sweeps (R88 to R90) -/

/-- Tokens a pacer holds (R192). -/
def pacerSize : Nat := 65536

/-- A firing of the flow wait buffer is cancelled (R196): its flow is released, or its request withdrawn, at the home. -/
def Dev.dropFlow (d : Dev) (tl : Nat) (w : FlowWait) : Dev :=
  let flow := Firing.flow w.fir
  if w.granted then d.toFlowHome tl flow (.flowRel flow (d.ownClu tl))
  else if w.asked then d.toFlowHome tl flow (.flowCancel flow (d.ownClu tl) w.no)
  else d

/-- Firings of the flow wait buffer are cancelled (R195, R196); of each flow, the next that waits asks in its turn (R181). -/
def Dev.cancelFlows (d : Dev) (tl : Nat) (hit : FlowWait → Bool) : Dev :=
  let gone := (d.tile tl).sched.flowW.filter hit
  let d := d.modSched tl (fun x => { x with flowW := x.flowW.filter (fun w => !hit w) })
  let d := gone.foldl (fun d w => d.dropFlow tl w) d
  gone.foldl (fun d w => d.askNext tl (Firing.flow w.fir)) d

/-- Release the flow of an item that left its queue without running (R179, R195). -/
def Dev.releaseFlow (d : Dev) (tl : Nat) (flow : BitVec 20) : Dev :=
  if flow = 0 then d else d.toFlowHome tl flow (.flowRel flow (d.ownClu tl))

/-- Granted firings of an FU move from the flow wait buffer into its issue queue while it has room (R171, R180). -/
def Dev.grantMove (d : Dev) (k : Nat) : Dev :=
  let tl := k / 8
  ((d.tile tl).sched.flowW.filter (fun w => w.granted && w.fu == k)).foldl (fun d w =>
    let lvl := d.eprio tl w.fir
    if queueRoom (d.fu k).issue 32 4 lvl then
      (d.modSched tl (fun s => { s with flowW := removeFirst (· == w) s.flowW })).modFu k (fun u =>
        { u with issue := u.issue ++ [{ lvl := lvl, fu := k, fir := w.fir }] })
    else d) d

/-- Cancel the undispatched items of an FU that satisfy `p` (R195): issue queue, flow wait buffer, Runner and Stride queues. Granted firings take the room
that becomes free (R171). -/
def Dev.cancelItems (d : Dev) (k : Nat) (p : Firing → Bool) : Dev :=
  let tl := k / 8
  let hit := fun (x : Item) => x.fu == k && p x.fir
  let sc := (d.tile tl).sched
  let gone := ((d.fu k).issue ++ sc.runQ ++ sc.strQ).filter hit
  let d := d.modFu k (fun u => { u with issue := u.issue.filter (fun x => !hit x) })
  let d := d.modSched tl (fun x => { x with runQ := x.runQ.filter (fun y => !hit y), strQ := x.strQ.filter (fun y => !hit y) })
  let d := gone.foldl (fun d x => d.releaseFlow tl (Firing.flow x.fir)) d
  (d.cancelFlows tl (fun w => w.fu == k && p w.fir)).grantMove k

/-- The token is an EPOCH_CLOSE or SOURCE_RETIRE mark (R223). -/
def isMark (t : Token) : Bool := Token.ptype t == 6 && !Token.err t && (statusCode t.pay == stEPOCH_CLOSE || statusCode t.pay == stSOURCE_RETIRE)

/-- Remove a context's tokens from the region's pacer and hurdles (R194, R229): tokens held at a hurdle stay counted, and one still on its way to the hurdle unit
will be counted and not held. -/
def Dev.sweepRegion (d : Dev) (g : Nat) (c : BitVec 22) : Dev :=
  d.modRegion g (fun r => { r with
    pacer := r.pacer.filter (fun e => e.ctx != c)
    hurdles := r.hurdles.map (fun h => (h.1, { h.2 with held := h.2.held.filter (fun x => x.tok.tag.ctx != c) }))
    hrdIn := r.hrdIn.map (fun a => { a with gone := a.gone || (a.tok.tag.ctx == c && !isMark a.tok) }) })

/-- What an FU's store and tag check keep of a swept context: nothing but spills that are issued, which are deleted once they are written (R77, R88). -/
def Fu.withoutCtx (u : Fu) (c : BitVec 22) : Fu :=
  let mine := fun (t : Token) => t.tag.ctx == c
  { u with
    slice := u.slice.filter (fun (e : Nat × Entry) => !mine e.2.tok)
    held := u.held.filter (fun t => !mine t)
    heldM := u.heldM.filter (fun t => !mine t)
    fillW := u.fillW.filter (fun w => !mine w.tok)
    fills := u.fills.filter (fun f => !(f.ret && f.key.toNat / 2 ^ 23 % 2 ^ 22 == c.toNat))
    bitmap := u.bitmap.filter (fun n => !u.spill.any (fun (e : SpillEnt) => e.slot == n && !e.issued && mine e.ent.tok))
    spill := (u.spill.filter (fun (e : SpillEnt) => e.issued || !mine e.ent.tok)).map (fun (e : SpillEnt) => if mine e.ent.tok then { e with fired := true } else e) }

/-- A DELAY of the context that its send stage holds because the pacer is full is discarded, and its service ends (R194). -/
def Dev.sweepDelay (d : Dev) (k : Nat) (c : BitVec 22) : Dev :=
  match (d.fu k).results with
  | [] => d
  | r :: rs =>
    if r.delay.isSome && r.ctx == c && decide (pacerSize ≤ (d.region (k / 136)).pacer.length) then
      (d.modFu k (fun u => { u with results := rs })).releaseFlow (k / 8) r.flow
    else d

/-- An FU receives a sweep (R88): it removes the context's entries and its held token, cancels its queued items, and enters the context in its tombstone list
with the guard that the sweep carries, or waits for room there (R89); tokens of the context that reach it before that are stored and stay. (DESIGN CHOICE, log 15. DESIGN CHOICE, log 98.) -/
def Dev.sweepReceive (d : Dev) (k : Nat) (c : BitVec 22) : Dev :=
  match d.takeMgmt (fuNode k) (isSweep c) with
  | some (.sweep _ guard n, d) =>
    let u := (d.fu k).withoutCtx c
    let room := decide (u.tombs.length < 32)
    let d := d.setFu k { u with
      tombs := if room then u.tombs ++ [(c, guard.toNat)] else u.tombs
      sweeps := u.sweeps ++ [{ ctx := c, guard := guard.toNat, num := n, tomb := room }] }
    ((((d.oflSettle k).cancelItems k (fun f => Firing.ctx f == c)).sweepDelay k c).sweepRegion (k / 136) c).sweepAck k c
  | _ => d

/-- SWEEP_RECEIVE (R88). -/
def execSweepReceive (g : Fin 16) (t : Fin 17) (f : Fin 8) (c : BitVec 22) (s : State) : Host.Outcome State Fault Refusal :=
  .next { s with dev := s.dev.sweepReceive (fuKey g t f) c }

/-- The overflow part of a sweep has read every occupied slot (R90): each entry of the context there is removed with an overflow delete; the FU acknowledges once
these are done. -/
def Dev.sweepOverflow (d : Dev) (k : Nat) : Dev :=
  let u := d.fu k
  match u.sweeps.find? (fun s => !s.ofl) with
  | none => d
  | some s =>
    let d := d.setFu k { u with sweeps := replaceFirst (fun x => !x.ofl) (fun x => { x with ofl := true }) u.sweeps }
    let slots := u.bitmap.filter (fun n => !u.spill.any (fun e => e.slot == n) && !u.dels.any (fun x => x.1 == n))
    let d := slots.foldl (fun d n =>
      let e := entryOfBytes (d.read (d.oflAddr k n) 32)
      if e.st == 1 && e.tok.tag.ctx == s.ctx then d.deleteSlot k n (keyOf e.tok.tag) e.tok.tag else d) d
    d.sweepAck k s.ctx

/-- SWEEP_OVERFLOW_DONE (R90). -/
def execSweepOverflowDone (g : Fin 16) (t : Fin 17) (f : Fin 8) (s : State) : Host.Outcome State Fault Refusal :=
  .next { s with dev := s.dev.sweepOverflow (fuKey g t f) }

/-- An acknowledgement reaches the pool (R88). -/
def Dev.sweepAcked (d : Dev) (c : BitVec 22) (n : Nat) : Dev :=
  d.modPool (c.toNat / 2 ^ 18) (fun p => { p with sweeps := replaceFirst (fun x => x.ctx == c) (fun x => { x with acked := if x.acked.contains n then x.acked else x.acked ++ [n] }) p.sweeps })

/-- The FUs, by global number, whose acknowledgement a sweep waits for (R90): not those of a tile that is isolated or of a parked region, for which a router
acknowledges. -/
def Dev.sweepers (d : Dev) : List Nat :=
  (List.range 2048).filter (fun n => !d.parked (n / 128) && !d.rbit (nocReg (n / 512) (0x28 + 4 * (n / 128 % 4))) (d.tileOf (n / 128) (n / 8 % 16)))

/-- Every FU has acknowledged (R88): the reuse guard starts. -/
def Dev.sweepComplete (d : Dev) (g : Nat) (i : Nat) : Dev :=
  let c := BitVec.ofNat 22 (g * 2 ^ 18 + i)
  match (d.region g).pool.sweeps.find? (fun s => s.ctx == c) with
  | none => d
  | some s =>
    if !s.guard && d.sweepers.all (fun k => s.acked.contains k) then
      d.modPool g (fun p => { p with sweeps := replaceFirst (fun x => x.ctx == c) (fun x => { x with guard := true }) p.sweeps })
    else d

/-- SWEEP_ACK_COMPLETE (R88). -/
def execSweepAckComplete (g : Fin 16) (c : BitVec 18) (s : State) : Host.Outcome State Fault Refusal :=
  .next { s with dev := s.dev.sweepComplete g c.toNat }

/-- Return a context to the tail of the free list (R84), and serve who waits (R85). -/
def Dev.returnCtx (d : Dev) (c : BitVec 22) : Dev :=
  let g := c.toNat / 2 ^ 18
  let i := c.toNat % 2 ^ 18
  (d.modPool g (fun p => { p with desc := mset 0 p.desc i 0, tail := p.tail ++ [i], root := mdel p.root i })).serveWaiters g

/-- REUSE_GUARD after the last acknowledgement the context is free again, every tombstone of it having lapsed (R88, R89). (DESIGN CHOICE, log 13. DESIGN CHOICE, log 98.) -/
def Dev.sweepGuard (d : Dev) (g i : Nat) : Dev :=
  let c := BitVec.ofNat 22 (g * 2 ^ 18 + i)
  match (d.region g).pool.sweeps.find? (fun s => s.ctx == c) with
  | none => d
  | some s =>
    if s.guard && d.fus.all (fun u => u.2.tombs.all (fun x => x.1 != c)) then
      (d.modPool g (fun p => { p with sweeps := removeFirst (fun x => x.ctx == c) p.sweeps })).returnCtx c
    else d

/-- SWEEP_GUARD_EXPIRY (R88). -/
def execSweepGuardExpiry (g : Fin 16) (c : BitVec 18) (s : State) : Host.Outcome State Fault Refusal :=
  .next { s with dev := s.dev.sweepGuard g c.toNat }

/-- The tombstone of a context lapses (R89), its guard having run since it was entered: one entered earlier whose guard is no longer lapses before it. A sweep
that waited for room enters its own. (DESIGN CHOICE, log 98.) -/
def Dev.tombLapse (d : Dev) (k : Nat) (c : BitVec 22) : Dev :=
  let u := d.fu k
  match u.tombs.find? (fun x => x.1 == c) with
  | none => d
  | some x =>
    if (u.tombs.takeWhile (fun y => y != x)).any (fun y => y.2 ≤ x.2) then d
    else
      let ts := removeFirst (· == x) u.tombs
      match u.sweeps.find? (fun s => !s.tomb) with
      | none => d.setFu k { u with tombs := ts }
      | some s =>
        (d.setFu k { u with tombs := ts ++ [(s.ctx, s.guard)], sweeps := replaceFirst (fun x => !x.tomb) (fun x => { x with tomb := true }) u.sweeps }).sweepAck k s.ctx

/-- TOMBSTONE_LAPSE (R89). -/
def execTombstoneLapse (g : Fin 16) (t : Fin 17) (f : Fin 8 × BitVec 22) (s : State) : Host.Outcome State Fault Refusal :=
  .next { s with dev := s.dev.tombLapse (fuKey g t f.1) f.2 }

/-! ### Freeing a context (R84, R87, R538) -/

/-- A CTXFREE reaches the pool: an active context without FAULT joins the tail of the free list, a faulted one is swept, one that is
free is a double free, one that sweeps is left alone (R84, R87, R88). A group root with pending outputs first releases them (R538):
COMMIT becomes 2 and the output commit block frees it; a context of no group counts as a group of its own. `e` is the tag for a double-free status. -/
def Dev.ctxFree (d : Dev) (e : Tag) (replay : Bool) : Dev :=
  let c := e.ctx
  let v := d.ctxDesc c
  let g := c.toNat / 2 ^ 18
  match cdState v with
  | 0 =>
    let d := d.setBit (ctxReg g 0x10) 1 true
    d.sendToken (poolNode g) (d.errToken g e (status stCTX_DOUBLE_FREE originBlock c.toNat) replay)
  | 2 => d
  | _ =>
    if cdFault v then d.startSweep c
    else if d.rootOf c == some c || (d.rootOf c).isNone then
      (if d.pend.any (fun p => p.root == c) then d.setCtxDesc c (putFld v 54 52 2) else (d.reclaim c).returnCtx c)
    else d.returnCtx c

/-- The flags of a descriptor are read, or cleared (R121): what they were. -/
def Dev.flagsOf (d : Dev) (c : BitVec 22) (clear : Bool) : BitVec 5 × Dev :=
  let v := d.ctxDesc c
  (v.extractLsb' 56 5, if clear then d.setCtxDesc c (putFld v 60 56 0) else d)

end Sys2Proof.Machine
end

