-- ==== Sys2Proof/Machine/Fire.lean ====
section
/-!
DEFINITION. The firing pipeline of an FU (03_nodes_operations.md, 05_dispatch_flows_pacers.md): the opcode map, node
fetch, the checks of R107, R110 and R133, token form, and the order in which results are handed on (R166).
-/
namespace Sys2Proof.Machine

/-! ### The opcode map (R113 to R125) -/

/-- Ports an opcode uses, before IMMP takes one away. -/
def opPorts (o : Nat) : List Nat :=
  if o < 0x100 then (if o = 0 ∨ o = 3 ∨ o = 4 ∨ o = 0x13 ∨ (0x1C ≤ o ∧ o ≤ 0x1E) then [0] else [0, 1])
  else if o < 0x200 then
    (if o = 0x105 then [0, 1, 2] else if o ≤ 0x103 ∨ o = 0x108 ∨ o = 0x109 ∨ (0x110 ≤ o ∧ o ≤ 0x113) then [0, 1] else [0])
  else if o = 0x200 ∨ o = 0x202 ∨ o = 0x212 ∨ o = 0x213 then [0, 2]
  else if o = 0x204 then [0, 1, 2]
  else if o = 0x211 then [1, 2]
  else if o = 0x27F then []
  else if o < 0x280 then [0]
  else if 0x281 ≤ o ∧ o ≤ 0x283 then [0, 1]
  else if o = 0x302 ∨ o = 0x303 ∨ o = 0x304 ∨ o = 0x310 ∨ o = 0x342 then [0, 1]
  else if 0x380 ≤ o ∧ o < 0x3C0 then
    (if o = 0x38F ∨ o = 0x392 then [0] else [0, 1])
  else if o = 0x3C1 then [0, 1]
  else if o = 0x3C2 then [0, 1, 2]
  else [0]

/-- Defined opcodes that a firing can have (R125; FANEXT is none). -/
def opDefined (o : Nat) : Bool :=
  (o < 0x026 && !([0x007, 0x00C, 0x00D, 0x00E, 0x00F, 0x015, 0x016, 0x017, 0x01B, 0x01F].contains o)) ||
  (0x100 ≤ o && o ≤ 0x109) || (0x110 ≤ o && o ≤ 0x113) || (0x118 ≤ o && o ≤ 0x11C) ||
  (0x200 ≤ o && o ≤ 0x204) || (0x210 ≤ o && o ≤ 0x213) || (0x280 ≤ o && o ≤ 0x283) ||
  (0x300 ≤ o && o ≤ 0x304) || o == 0x310 || o == 0x320 || o == 0x321 || (0x340 ≤ o && o ≤ 0x343) ||
  (0x380 ≤ o && o ≤ 0x392) || (0x3C0 ≤ o && o ≤ 0x3C2) || (0x3E0 ≤ o && o ≤ 0x3E4)

/-- TYPE values an opcode accepts. -/
def opTypes (o : Nat) : List Nat :=
  if o = 3 ∨ o = 4 then [0, 2]
  else if o < 0x100 ∨ o = 0x11A ∨ o = 0x282 ∨ o = 0x283 then [0, 1, 2, 3]
  else if o < 0x110 then [4, 5, 6, 7, 8]
  else if o < 0x200 then [4, 5, 6]
  else if o = 0x280 ∨ o = 0x281 then [0, 1, 2, 3, 4, 5, 6, 7, 8]
  else if o = 0x3E3 then [5]
  else [9]

/-- NDST values an opcode accepts. -/
def opNdst (o : Nat) : List Nat :=
  if o = 0x200 ∨ o = 0x210 ∨ o = 0x303 then [2]
  else if o = 0x212 ∨ o = 0x310 then [1]
  else if o = 0x211 ∨ o = 0x213 then [1, 2]
  else if o = 0x301 ∨ o = 0x304 then [0]
  else if 0x3E0 ≤ o then [0, 1]
  else [0, 1, 2]

/-- Whether IMM32 is a parameter of the opcode (R99), and then whether `n` is in its range; none where it is no parameter. -/
def opParam (o n : Nat) : Option Bool :=
  if o = 0x118 ∨ o = 0x11A then some (decide (4 ≤ n ∧ n ≤ 6))
  else if o = 0x119 then some (decide (n ≤ 3))
  else if o = 0x203 then some (decide (n ≤ 3))
  else if o = 0x210 ∨ o = 0x211 then some (decide (n < 2 ^ 22))
  else if o = 0x212 ∨ o = 0x213 then some (decide (n < 128))
  else if 0x280 ≤ o ∧ o ≤ 0x283 then some true
  else if o = 0x300 then some (decide (n < 16 ∨ n = 31))
  else if o = 0x303 then some (decide (n < 2 ^ 29))
  else if o = 0x301 ∨ o = 0x302 ∨ o = 0x304 ∨ o = 0x320 ∨ o = 0x321 ∨ o = 0x342 ∨ o = 0x3E0 then some (n == 0)
  else if o = 0x310 ∨ o = 0x340 ∨ o = 0x3E1 then some (decide (n < 4096))
  else if o = 0x341 then some (decide (n ≤ 1000000))
  else if o = 0x343 then some (decide (n < 2 ^ 24))
  else if 0x380 ≤ o ∧ o ≤ 0x392 then some true
  else if 0x3C0 ≤ o ∧ o ≤ 0x3C2 then some (decide (n < 65536))
  else if o = 0x3E2 then some (decide (n < 32))
  else if o = 0x3E3 then some (decide (n < 16))
  else if o = 0x3E4 then some (decide (704 ≤ n ∧ n ≤ 1023))
  else none

/-- Operations whose ITOP must be 0 (R128, R133). -/
def opKeepsIter (o : Nat) : Bool :=
  (0x210 ≤ o && o ≤ 0x213) || o == 0x300 || o == 0x302 || o == 0x303 || o == 0x304 || o == 0x310 || (0x3E0 ≤ o && o ≤ 0x3E4)

/-- The port that IMMP replaces. -/
def immPort (desc : BitVec 128) : Option Nat := if dImmp desc = 1 then some 0 else if dImmp desc = 2 then some 1 else none

/-- A FANEXT descriptor has the contents of R116. (DEDUCED, log 22.) -/
def extOk (x : BitVec 128) : Bool :=
  dOpc x == 0x27F && dType x == 9 && dImmp x == 0 && dImm x == 0 && dItop x == 0 && (dNdst x == 1 || dNdst x == 2)

/-- The descriptor can be executed with the ports of its mask (R133). (DEDUCED, log 22.) -/
def descOk (desc : BitVec 128) (ext : List (BitVec 128)) (ports : List Nat) : Bool :=
  let o := dOpc desc
  dImmp desc != 3 && dNdst desc != 3 && dItop desc != 3 && decide (dRm desc ≤ 4) && (opTypes o).contains (dType desc) &&
  (dImmp desc == 0 || (dType desc != 9 && (opParam o (dImm desc).toNat).isNone && (opPorts o).contains ((immPort desc).getD 3))) &&
  ((opParam o (dImm desc).toNat).getD true) && (opNdst o).contains (dNdst desc) && (!opKeepsIter o || dItop desc == 0) &&
  ports == (opPorts o).filter (fun p => some p != immPort desc) && ext.all extOk

/-- PTYPEs a port accepts (R107). `ty` is TYPE. -/
def acceptsPtype (o ty port pt : Nat) : Bool :=
  let int := pt == 0 || pt == 1 || pt == 8
  let word := pt == 0 || pt == 1
  if o < 0x100 ∨ o = 0x11A then int
  else if o < 0x200 then pt == ptypeOf ty
  else if (o = 0x200 ∨ o = 0x204) ∧ port = 2 then word
  else if o = 0x212 ∧ port = 0 then word
  else if o = 0x281 ∨ o = 0x282 ∨ o = 0x283 then (if port = 0 then word else if ty ≤ 3 then int else pt == ptypeOf ty)
  else if o = 0x280 then word
  else if (o = 0x302 ∨ o = 0x303 ∨ o = 0x304 ∨ o = 0x310) ∧ port = 1 then word
  else if o = 0x341 ∨ o = 0x342 ∨ o = 0x3E0 ∨ o = 0x3E2 then word
  else if o = 0x3E3 then pt == 3
  else true

/-! ### Token form (R54, R97, R112) -/

/-- ITER after ITOP. -/
def iterOp (desc : BitVec 128) (i : BitVec 8) : BitVec 8 := if dItop desc = 1 then i + 1 else if dItop desc = 2 then 0 else i

/-- An output token of a firing to one destination. -/
def Dev.outTok (d : Dev) (f : Firing) (desc : BitVec 128) (dst : DstF) (pay ptype : Nat) (err : Bool) : Token :=
  let base := d.baseTag f
  { tag := Tag.seal { Tag.to base dst with iter := iterOp desc base.iter }, pay := BitVec.ofNat 64 pay
    ty := tyByte ptype err (Firing.hist f) (Firing.replay f) }

/-- The destinations of a descriptor. -/
def dstsOf (desc : BitVec 128) : List DstF := [dDst0 desc, dDst1 desc].take (dNdst desc)

/-- The same value to every destination. -/
def Dev.outAll (d : Dev) (f : Firing) (desc : BitVec 128) (pay ptype : Nat) (err : Bool) : List Token :=
  (dstsOf desc).map (fun x => d.outTok f desc x pay ptype err)

/-- Pass a consumed token's payload and type on to a destination. -/
def Dev.passTok (d : Dev) (f : Firing) (desc : BitVec 128) (dst : DstF) (t : Token) : Token :=
  d.outTok f desc dst t.pay.toNat (Token.ptype t) (Token.err t)

/-- The status of a firing of FU `k` to its graph's error port (R108, R46). -/
def Dev.errOf (d : Dev) (k : Nat) (f : Firing) (code detail : Nat) : Token :=
  d.errToken (k / 136) (d.baseTag f) (status code (d.originOf k) detail) (Firing.replay f)

/-- The signal-only token (R45). -/
def signal : Nat × Nat := (0, 7)

/-! ### Handing results on (R101, R166) -/

/-- A status to the error port with the context faulted (R109). -/
def Dev.failFiring (d : Dev) (k : Nat) (t : Token) : Dev := d.finish k 1 1 { toks := [t], fault := true }

/-- BAD_NODE (R133). -/
def Dev.badNode (d : Dev) (k : Nat) (f : Firing) : Dev :=
  (d.setBit (nodeReg (k / 136) (k / 8 % 17) 4) 2 true).failFiring k (d.errOf k f stBAD_NODE f.slot.toNat)

/-- The first consumed token with ERR, and its port (R110). (DEDUCED, log 25.) -/
def Firing.errTok (f : Firing) : Option (Nat × Token) := f.toks.find? (fun p => Token.err p.2)

/-- An operand: the immediate, or the token's payload (R98). -/
def operand (f : Firing) (desc : BitVec 128) (port : Nat) : Nat :=
  if immPort desc = some port then immOperand (dType desc) (dImm desc)
  else match Firing.port f port with | some t => t.pay.toNat | none => 0

/-- The first operand token without ERR of a PTYPE that its port does not accept (R107). -/
def mismatch (f : Firing) (desc : BitVec 128) : Option (Nat × Nat) :=
  (f.toks.find? (fun p => !Token.err p.2 && !acceptsPtype (dOpc desc) (dType desc) p.1 (Token.ptype p.2))).map (fun p => (p.1, Token.ptype p.2))

/-- An ERR token's status to the error port (R575), its context faulted, nothing emitted. -/
def Dev.errToPort (d : Dev) (k : Nat) (f : Firing) (t : Token) : Dev :=
  d.failFiring k (d.errToken (k / 136) (d.baseTag f) t.pay (Firing.replay f))

/-- The destinations of a FANOUT: its own, then those of its slots (R116). -/
def fanDsts (desc : BitVec 128) (ext : List (BitVec 128)) : List DstF := dstsOf desc ++ ext.flatMap dstsOf

/-- What the checks leave of a fetched firing of opcode `o` at FU `k`: none where the FU holds no such firing or a check has consumed it
(then the second part is the device after it). -/
def Dev.checked (d : Dev) (k o : Nat) : Option (Firing × BitVec 128 × List (BitVec 128)) × Dev :=
  match (d.fu k).fetch with
  | none => (none, d)
  | some x =>
    match x.desc with
    | none => (none, d)
    | some desc =>
      if dOpc desc ≠ o then (none, d)
      else
        let m := d.maskOf (k / 8) x.fir.slot.toNat
        let ports := maskPorts m ((x.fir.toks.headD (0, {})).1)
        if !descOk desc x.ext ports then (none, d.badNode k x.fir) else (some (x.fir, desc, x.ext), d)

/-- TYPE_MISMATCH of a firing (R107, R111), or none. (DEDUCED, log 25.) -/
def Dev.typeError (d : Dev) (k : Nat) (f : Firing) (desc : BitVec 128) : Option Dev :=
  (mismatch f desc).map (fun p => d.failFiring k (d.errOf k f stTYPE_MISMATCH (p.1 + p.2 * 8)))

/-- The checks of an operation that passes an ERR token's status to its destinations (R110): none where a check consumed the firing. A consumed
ERR token decides before an unaccepted PTYPE of another, and of two such ports the lower is named. (DEDUCED, log 25.) -/
def Dev.ready? (d : Dev) (k o : Nat) : Option (Firing × BitVec 128 × List (BitVec 128)) × Dev :=
  match d.checked k o with
  | (none, d) => (none, d)
  | (some (f, desc, ext), d) =>
    match f.errTok with
    | some (_, t) => (none, d.finish k 1 1 { toks := (fanDsts desc (if o = 0x203 then ext else [])).map (fun x => d.outTok f desc x t.pay.toNat 6 true) })
    | none =>
      match d.typeError k f desc with
      | some d => (none, d)
      | none => (some (f, desc, ext), d)

/-- Flags raised by a firing, kept where STICKY is set (R100, R142). -/
def keptFlags (desc : BitVec 128) (fl : BitVec 5) : BitVec 5 := if dSticky desc then fl else 0

/-- An arithmetic firing of opcode `o` (R113, R114, R145, R159). -/
def Dev.compute (d : Dev) (k o : Nat) : Dev :=
  match d.ready? k o with
  | (none, d) => d
  | (some (f, desc, _), d) =>
    let a := operand f desc 0
    let b := operand f desc 1
    let r := if o < 0x100 then intRes o (dType desc) (dCt desc) a b
             else fpRes o (dType desc) (dRm desc) (dCt desc) (dNcan desc) (dImm desc).toNat a b (operand f desc 2)
    d.finish k r.lat r.occ { toks := d.outAll f desc r.pay r.ptype false, flags := keptFlags desc r.fl }

/-! ### Node fetch and the hand-over (R103, R133, R170) -/

/-- The item a queue dispatches next (R170): highest level, first in within it. -/
def topItem (q : List Item) : Option Item :=
  q.foldl (fun (m : Option Item) x => match m with | none => some x | some y => if y.lvl < x.lvl then some x else some y) none

/-- The issue queue hands its next item to node fetch (R170), which reads the descriptor and, for a FANOUT, its slots (R116). `e` is
the outcome of reading the descriptor `which` places after the node's own; the firing leaves fetch in cycle `cycle`. -/
def Dev.dispatch (d : Dev) (k : Nat) (e : Ecc) (which cycle : Nat) : Dev :=
  let u := d.fu k
  if u.fetch.isSome then d
  else
    match topItem u.issue with
    | none => d
    | some it =>
      let tl := k / 8
      let slot := it.fir.slot.toNat
      let desc := d.descAt tl slot
      let n := if dOpc desc = 0x203 then (dImm desc).toNat % 4 else 0
      let ext := (List.range n).map (fun i => if slot + 1 + i < 32768 then d.descAt tl (slot + 1 + i) else 0)
      let hit := decide (which ≤ n)
      let bad := match e with | .ue _ => hit | _ => false
      let d := if e = .ce && hit then d.addSat16 (nodeReg (k / 136) (tl % 17) 0) 1 else d
      (d.setFu k { u with
        issue := removeFirst (· == it) u.issue
        fetch := some { fir := it.fir, desc := if bad then none else some desc, ext := ext, ue := BitVec.ofNat 15 (slot + which), cycle := cycle } }).grantMove k

/-- FIRING_DISPATCH (R170). -/
def execFiringDispatch (g : Fin 16) (t : Fin 17) (f : Fin 8) (e : Ecc) (which : Fin 4) (cycle : Nat) (s : State) : Host.Outcome State Fault Refusal :=
  .next { s with dev := s.dev.dispatch (fuKey g t f) e which cycle }

/-- A fetched firing that cannot be executed (R133): an uncorrectable descriptor, an undefined opcode, or a descriptor with a
forbidden field or FANEXT. -/
def Dev.undefinedOp (d : Dev) (k : Nat) : Dev :=
  match (d.fu k).fetch with
  | none => d
  | some x =>
    match x.desc with
    | none =>
      let d := d.setBit (nodeReg (k / 136) (k / 8 % 17) 4) 0 true
      let d := d.setReg (nodeReg (k / 136) (k / 8 % 17) 8) (x.ue.zeroExtend 32)
      (d.raiseTile (k / 8) 3 0).failFiring k (d.errOf k x.fir stNODE_UE x.ue.toNat)
    | some desc =>
      let o := dOpc desc
      if o = 0x27F then d.badNode k x.fir
      else if opDefined o then
        (let ports := maskPorts (d.maskOf (k / 8) x.fir.slot.toNat) ((x.fir.toks.headD (0, {})).1)
         if descOk desc x.ext ports then d else d.badNode k x.fir)
      else
        (d.setBit (nodeReg (k / 136) (k / 8 % 17) 4) 1 true).failFiring k
          (d.errOf k x.fir stUNDEFINED_OPCODE (x.fir.slot.toNat + o * 32768))

/-- UNDEFINED_OPCODE (R133). -/
def execUndefinedOpcode (g : Fin 16) (t : Fin 17) (f : Fin 8) (s : State) : Host.Outcome State Fault Refusal :=
  .next { s with dev := s.dev.undefinedOp (fuKey g t f) }

/-- The packet of a result token: with `relay` it goes to the relay link block whatever its DEV (R121). -/
def Dev.resultPacket (d : Dev) (relay : Bool) (t : Token) : Packet :=
  if relay then { dest := { die := 4, unit := 2 }, prio := t.tag.prio, body := .token t } else d.tokenPacket t

/-- Send result tokens from an FU, the last carrying the end of the firing's service (R179). -/
def Dev.sendResult (d : Dev) (k : Nat) (flow : BitVec 20) (ends relay : Bool) : List Token → Dev
  | [] => if ends then d.releaseFlow (k / 8) flow else d
  | [t] => d.send (fuNode k) { d.resultPacket relay t with ends := if ends && flow != 0 then some (flow, (d.clusterOf (k / 8)).getD 0) else none }
  | t :: ts => (d.send (fuNode k) (d.resultPacket relay t)).sendResult k flow ends relay ts

/-- T of R189: PAC.TICK.NS within 100 to 1,000,000. -/
def Dev.tickNs (d : Dev) (g : Nat) : Nat := min 1000000 (max 100 (d.rfld (pacReg g 0) 19 0))

/-- The pacer of FU `k`'s region takes the tokens of a DELAY of `n` (R190, R193). -/
def Dev.paced (d : Dev) (k n : Nat) (r : Result) : Dev :=
  let g := k / 136
  let tick := d.tickNs g
  let prio := r.toks.foldl (fun m t => max m t.tag.prio.toNat) 0
  let e : PacEnt :=
    { deadline := BitVec.ofNat 64 ((d.time.toNat / tick + n) * tick), ctx := r.ctx, toks := r.toks
      eprio := max prio (min 14 (boostOf (d.tile (k / 8)).sched.boosts r.ctx)) }
  let d := d.modRegion g (fun x => { x with pacer := x.pacer ++ [e] })
  d.hwm (pacReg g 8) 16 0 (d.region g).pacer.length

/-- The send stage behind a block's link accepts tokens: none that it sent waits there for a credit (R211). (DESIGN CHOICE, log 100.) -/
def Dev.sendRoom (d : Dev) (src : Node) : Bool := (d.link ⟨src, Node.router src⟩).q.all (fun f => Packet.lane f.pkt != 0)

/-- The send stage takes a result now (R192): a DELAY once the pacer has an entry free. -/
def Dev.sendTakes (d : Dev) (k : Nat) (r : Result) : Bool :=
  r.toks.isEmpty || (if r.delay.isSome then decide ((d.region (k / 136)).pacer.length < pacerSize) else d.sendRoom (fuNode k))

/-- The oldest result reaches token form and is sent: tokens, to the network or the pacer, flags for the context, a fault message (R100, R101, R109). -/
def Dev.complete (d : Dev) (k : Nat) : Dev :=
  let u := d.fu k
  match u.results with
  | [] => d
  | r :: rs =>
    if !d.sendTakes k r then d
    else
      let d := d.setFu k { u with results := rs }
      let d := match r.delay with
        | some n => (d.paced k n r).sendResult k r.flow r.ends r.relay []
        | none => d.sendResult k r.flow r.ends r.relay r.toks
      let d := if r.flags = 0 then d else d.sendMgmt (fuNode k) (poolDest (r.ctx.toNat / 2 ^ 18)) (.flags r.ctx r.flags)
      let d := if r.fault then d.faultCtx (fuNode k) r.ctx else d
      d.progress (k / 136)

/-- EXECUTE_COMPLETE (R166). -/
def execExecuteComplete (g : Fin 16) (t : Fin 17) (f : Fin 8) (s : State) : Host.Outcome State Fault Refusal :=
  .next { s with dev := s.dev.complete (fuKey g t f) }

end Sys2Proof.Machine
end

