-- ==== Sys2Proof/Machine/FuOps.lean ====
section
/-!
DEFINITION. The operations of firings beyond arithmetic (03_nodes_operations.md): steering, loops, memory operations
and their responses, contexts, calls and the relay link, synchronisation, dispatch to the Stride and Runner queues,
input and output.
-/
namespace Sys2Proof.Machine

/-! ### Steering (R115, R116) -/

/-- SWITCH (R110, R115): an ERR control goes to the error port; otherwise the condition steers the data. -/
def Dev.opSwitch (d : Dev) (k : Nat) : Dev :=
  match d.checked k 0x200 with
  | (none, d) => d
  | (some (f, desc, _), d) =>
    match f.port 0, f.port 2 with
    | some x, some c =>
      if Token.err c then d.errToPort k f (if Token.err x then x else c)
      else
        match d.typeError k f desc with
        | some d => d
        | none => d.finish k 1 1 { toks := [d.passTok f desc (if c.pay = 0 then dDst1 desc else dDst0 desc) x] }
    | _, _ => d

/-- MERGE, GATE and SELECT: one token passed to every destination. -/
def Dev.opPass (d : Dev) (k o : Nat) (pick : Firing → Option Token) : Dev :=
  match d.ready? k o with
  | (none, d) => d
  | (some (f, desc, _), d) =>
    match pick f with
    | some t => d.finish k 1 1 { toks := (dstsOf desc).map (fun x => d.passTok f desc x t) }
    | none => d

/-- The token SELECT passes. -/
def selectTok (f : Firing) : Option Token :=
  match f.port 2 with
  | some c => if c.pay = 0 then f.port 1 else f.port 0
  | none => none

/-- FANOUT (R116). -/
def Dev.opFanout (d : Dev) (k : Nat) : Dev :=
  match d.ready? k 0x203 with
  | (none, d) => d
  | (some (f, desc, ext), d) =>
    match f.port 0 with
    | some t => d.finish k 1 1 { toks := (fanDsts desc ext).map (fun x => d.passTok f desc x t) }
    | none => d

/-! ### Loops (R129, R130) -/

/-- A token of a loop node, with its own ITER. -/
def Dev.loopTok (d : Dev) (f : Firing) (dst : DstF) (iter : BitVec 8) (pay : W64) (ptype : Nat) (err : Bool) : Token :=
  { tag := Tag.seal { Tag.to (d.baseTag f) dst with iter := iter }, pay := pay
    ty := tyByte ptype err (Firing.hist f) (Firing.replay f) }

/-- A slot and port of the FU at which a firing stands. -/
def selfDst (f : Firing) (slot : BitVec 15) (port : BitVec 2) : DstF :=
  let t := (Firing.lead f).tag
  ⟨t.die, t.rgn, t.clu, t.fu, slot, port⟩

/-- k of a loop node, and the slot in bits 21:7. -/
def loopK (desc : BitVec 128) : Nat := (dImm desc).toNat % 128 + 1
def loopSlot (desc : BitVec 128) : BitVec 15 := BitVec.ofNat 15 ((dImm desc).toNat / 128)

/-- The tokens of LOOPENT. -/
def Dev.loopEnt (d : Dev) (f : Firing) (desc : BitVec 128) : List Token :=
  let v := Firing.lead f
  d.loopTok f (dDst0 desc) 0 v.pay (Token.ptype v) false ::
  ((List.range (loopK desc - 1)).map (fun i => d.loopTok f (dDst1 desc) (BitVec.ofNat 8 i) 0 7 false) ++
   [d.loopTok f (selfDst f (loopSlot desc) 2) 0 0 7 false])

/-- A drain with r. -/
def Dev.drainTok (d : Dev) (k : Nat) (f : Firing) (dst : DstF) (iter : BitVec 8) (r : Nat) : Token :=
  d.loopTok f dst iter (status stLOOP_DRAIN (d.originOf k) r) 6 false

/-- The tokens of LOOPNEXT. -/
def Dev.loopNext (d : Dev) (k : Nat) (f : Firing) (desc : BitVec 128) : List Token :=
  let v := (f.port 1).getD {}
  let i := (Firing.lead f).tag.iter
  if Token.ptype v = 6 ∧ statusCode v.pay = stLOOP_DRAIN then
    let r := statusDetail v.pay % 256
    if 1 < r then [d.drainTok k f (selfDst f f.slot 1) (i + 1) (r - 1)]
    else [d.loopTok f (selfDst f (loopSlot desc) 2) (i - BitVec.ofNat 8 (loopK desc - 1)) 0 7 false]
  else
    d.loopTok f (dDst0 desc) (i + 1) v.pay (Token.ptype v) false ::
    (if dNdst desc = 2 then [d.loopTok f (dDst1 desc) i 0 7 false] else [])

/-- The tokens of LOOPRET. -/
def Dev.loopRet (d : Dev) (k : Nat) (f : Firing) (desc : BitVec 128) : List Token :=
  let v := (f.port 0).getD {}
  let i := (Firing.lead f).tag.iter
  let permit := d.loopTok f (dDst0 desc) (i + BitVec.ofNat 8 (loopK desc - 1)) 0 7 false
  if v.pay = 0 then [permit, d.drainTok k f { dDst0 desc with port := 1 } i (loopK desc)]
  else [d.loopTok f (selfDst f f.slot 2) (i + 1) 0 7 false, permit]

/-- The tokens of LOOPEXIT. -/
def Dev.loopExit (d : Dev) (f : Firing) (desc : BitVec 128) : List Token :=
  let v := (f.port 0).getD {}
  d.loopTok f (dDst0 desc) 0 v.pay (Token.ptype v) false ::
  (if dNdst desc = 2 then [d.loopTok f (dDst1 desc) (Firing.lead f).tag.iter 0 7 false] else [])

/-- A loop node (R110, R130): ERR on any port goes to the error port. -/
def Dev.opLoop (d : Dev) (k o : Nat) (out : Dev → Firing → BitVec 128 → List Token) : Dev :=
  match d.checked k o with
  | (none, d) => d
  | (some (f, desc, _), d) =>
    match f.errTok with
    | some (_, t) => d.errToPort k f t
    | none =>
      match d.typeError k f desc with
      | some d => d
      | none =>
        let ts := out d f desc
        d.finish k 1 (1 + (cdiv ts.length 2 - 1)) { toks := ts }

/-! ### Memory operations (R117, R118, R206, R280, R508) -/

/-- PERM of the lowest enabled protection window that holds an address (R508). -/
def Dev.windowPerm (d : Dev) (a : Nat) : Option Nat :=
  ((List.range 16).find? (fun w =>
    d.rbit (banked (secReg 0x24) w) 8 && decide (d.pair (banked (secReg 0x14) w) ≤ a ∧ a ≤ d.pair (banked (secReg 0x1C) w)))).map
    (fun w => d.rfld (banked (secReg 0x24) w) 7 0)

/-- The window grants bits `bits` of PERM, or no window holds the address. -/
def Dev.permits (d : Dev) (a : Nat) (bits : List Nat) : Bool :=
  match d.windowPerm a with
  | none => true
  | some p => bits.all (fun b => p.testBit b)

/-- Read and write bits of PERM for a graph's FUs and Runner code. -/
def Dev.graphBits (d : Dev) (graph : Nat) (rd wr : Bool) : List Nat :=
  let o := if (d.graph graph).prot then 2 else 0
  (if rd then [o] else []) ++ (if wr then [o + 1] else [])

/-- The word an address of the lock window names (R319). -/
def lockWord (a : Nat) : Nat := if a < lockSpm then a - lockBase else spmBase + (a - lockSpm)

/-- The address lies in the lock window. -/
def inLock (a : Nat) : Bool := decide (lockBase ≤ a ∧ a < lockEnd)

/-- An address of the lock window names a word of memory. -/
def lockNames (a : Nat) : Bool := let x := lockWord a; decide (x < hbmSize) || decide (spmBase ≤ x ∧ x < spmEnd)

/-- Outcome of the tests of R118 for an access, in their order: none, or its status code. `lockOk` says that the lock window may be read; such a read must be
granted the locked word too (R508). (DEDUCED, log 23. DEDUCED, log 39.) -/
def Dev.accessError (d : Dev) (graph a w : Nat) (rd wr lockOk : Bool) : Option Nat :=
  if a % w ≠ 0 || (inLock a && lockOk && lockWord a % 8 ≠ 0) then some stMISALIGNED
  else if !(decide (a + w ≤ hbmSize) || decide (spmBase ≤ a ∧ a + w ≤ spmEnd) || (inLock a && lockNames a)) then some stADDR_RANGE
  else if !d.permits a (d.graphBits graph rd wr) then some stACCESS
  else if !inLock a then none
  else if !lockOk then some stADDR_RANGE
  else if !d.permits (lockWord a) (d.graphBits graph true false) then some stACCESS
  else none

/-- The lock unit that serves a word (R320), as a global region, and its block address. -/
def lockHome (a : Nat) : Nat := if spmBase ≤ a then (a - spmBase) / 0x1000000 % 16 else a / 4096 % 16
def lockDest (a : Nat) : Dest :=
  let g := lockHome a
  { die := BitVec.ofNat 3 (g / 4), rgn := BitVec.ofNat 2 (g % 4), tile := 31, unit := 1 }

/-- SIZE of an access (R206). -/
def sizeCode (w : Nat) : BitVec 4 := if w = 1 then 0 else if w = 2 then 1 else if w = 4 then 2 else 3

/-- Global cluster of a scratchpad address. -/
def spmCluster (a : Nat) : Nat := (a - spmBase) / 0x100000 % 256

/-- Send an access from a unit of tile `tl` where its target is (R206, R304, R305): the unit's own banks, another cluster's network port,
or an HBM controller. `cls` is the class and `who` the FU within it at the own banks. -/
def Dev.access (d : Dev) (src : Node) (tl cls who : Nat) (r : MemReq) : Dev :=
  let a := r.addr.toNat
  if spmBase ≤ a ∧ a < spmEnd then
    let c := spmCluster a
    if d.tileOfCluster c = tl then
      d.modTile tl (fun t => { t with banks := mmod {} t.banks (a / 0x40000 % 4) (fun b => { b with reqs := b.reqs ++ [{ cls := cls, fu := who, req := r }] }) })
    else
      d.request src { die := BitVec.ofNat 3 (c / 64), rgn := BitVec.ofNat 2 (c / 16 % 4), tile := BitVec.ofNat 5 (c % 16), unit := 10 } true r
  else d.request src (hbmDest a) false r

/-- Access width of a memory operation by TYPE (R117). -/
def memWidth (ty : Nat) : Nat := if ty = 6 then 2 else if ty = 2 ∨ ty = 3 ∨ ty = 5 then 4 else 8

/-- Class of an FU at a bank of its own cluster (R304): owner of bank D. -/
def fuClass (a : Nat) : Nat := if a / 0x40000 % 4 = 3 then 0 else 3

/-- Register an outstanding operation of an FU; the tag is the second part. -/
def Dev.addOut (d : Dev) (k : Nat) (kind : OutKind) (f : Firing) (desc : BitVec 128) (a : Nat) : Dev × Nat :=
  let u := d.fu k
  let tag := u.nextTag % 4096
  (d.setFu k { u with nextTag := u.nextTag + 1, out := u.out ++ [{ rtag := tag, kind := kind, fir := f, desc := desc, addr := a }] }, tag)

/-- LD, ST, AADD and SWAP (R117, R118, R216). `op` is the L1 operation. -/
def Dev.opMem (d : Dev) (k o op : Nat) (kind : OutKind) : Dev :=
  match d.ready? k o with
  | (none, d) => d
  | (some (f, desc, _), d) =>
    let a := ((operand f desc 0 : Int) + (dImm desc).toInt) % 2 ^ 64 |>.toNat
    let w := memWidth (dType desc)
    let t := d.baseTag f
    match d.accessError t.graph.toNat a w (op != 1) (op != 0) (op == 0) with
    | some c => d.failFiring k (d.errOf k f c a)
    | none =>
      if !d.respRoom k then d else
      let mk := fun (tag op a : Nat) (v : W64) =>
        ({ op := BitVec.ofNat 4 op, size := sizeCode w, addr := BitVec.ofNat 48 a, req := fuDest k, rtag := BitVec.ofNat 12 tag, prio := t.prio
           operand := v, ctx := t.ctx, graph := t.graph } : MemReq)
      if lockBase ≤ a then
        let x := lockWord a
        let (d, tag) := d.addOut k .acquire f desc a
        (d.request (fuNode k) (lockDest x) false { mk tag 4 x 0 with prio := BitVec.ofNat 4 (d.eprio (k / 8) f) }).depart k
      else
        let (d, tag) := d.addOut k kind f desc a
        (d.access (fuNode k) (k / 8) (fuClass a) (k % 8) (mk tag op a (BitVec.ofNat 64 (operand f desc 1)))).depart k

/-- LOCKACQ and LOCKREL (R216, R322, R324, R573). -/
def Dev.opLock (d : Dev) (k o : Nat) : Dev :=
  let go := fun (d : Dev) (f : Firing) (desc : BitVec 128) =>
    let a := operand f desc 0
    let t := d.baseTag f
    let acq := o == 0x341
    let err :=
      if a % 8 ≠ 0 then some stMISALIGNED
      else if !(decide (a < hbmSize) || decide (spmBase ≤ a ∧ a < spmEnd)) then some stADDR_RANGE
      else if acq && !d.permits a (d.graphBits t.graph.toNat true false) then some stACCESS
      else none
    match err with
    | some c => d.failFiring k (d.errOf k f c a)
    | none =>
      if !d.respRoom k then d else
      let (d, tag) := d.addOut k (if acq then .acquire else .release) f desc a
      (d.request (fuNode k) (lockDest a) false
        { op := if acq then 4 else 5, size := 3, addr := BitVec.ofNat 48 a, req := fuDest k, rtag := BitVec.ofNat 12 tag, prio := BitVec.ofNat 4 (d.eprio (k / 8) f)
          operand := BitVec.ofNat 64 (if acq then (dImm desc).toNat else operand f desc 1), ctx := t.ctx, graph := t.graph }).depart k
  match d.checked k o with
  | (none, d) => d
  | (some (f, desc, _), d) =>
    match f.errTok with
    | some (_, t) => d.errToPort k f t
    | none =>
      match d.typeError k f desc with
      | some d => d
      | none => go d f desc

/-- A value read as TYPE: payload and payload type (R96, R117). -/
def loadValue (ty : Nat) (v : W64) : Nat × Nat :=
  let n := v.toNat
  let x := match ty with
    | 2 => iExt 2 (n % 2 ^ 32)
    | 3 | 5 => n % 2 ^ 32
    | 6 => n % 2 ^ 16
    | _ => n
  (x, ptypeOf ty)

/-- Hand on the result of an operation that waited. -/
def Dev.handOn (d : Dev) (k : Nat) (x : OutOp) (toks : List Token) (fault : Bool) : Dev :=
  d.modFu k (fun u => { u with results := u.results ++ [{ toks := toks, ctx := Firing.ctx x.fir, flow := Firing.flow x.fir, fault := fault }] })

/-- The result of an outstanding memory or lock operation from its response (R118, R209, R309, R324). (DEDUCED, log 24.) -/
def Dev.memResult (d : Dev) (k : Nat) (x : OutOp) (r : MemResp) : Dev :=
  let fail := fun (c : Nat) => d.handOn k x [d.errOf k x.fir c x.addr] true
  let sig := fun (d : Dev) => d.handOn k x (d.outAll x.fir x.desc 0 7 false) false
  match x.kind with
  | .acquire =>
    let (v, pt) := if dOpc x.desc = 0x341 then (r.result.toNat, 1) else loadValue (dType x.desc) r.result
    if r.status.toNat = 0 ∨ r.status.toNat = 4 then d.handOn k x (d.outAll x.fir x.desc v pt false) false
    else if r.status = 5 then fail stTARGET_ISOLATED else fail stACCESS
  | .release => if r.status = 0 then sig d else if r.status = 5 then fail stTARGET_ISOLATED else fail stACCESS
  | kind =>
    match r.status.toNat with
    | 0 =>
      if kind = .store then sig d
      else let (v, pt) := loadValue (dType x.desc) r.result; d.handOn k x (d.outAll x.fir x.desc v pt false) false
    | 1 => fail stMEM_UE
    | 2 => fail stADDR_RANGE
    | 5 => fail stTARGET_ISOLATED
    | _ => fail stACCESS

/-- An L2 response reaches an FU and completes its operation (R209). -/
def Dev.fuResponse (d : Dev) (k : Nat) : Dev :=
  match d.takeResp (fuNode k) (fun r => !(r.op == 6 || r.op == 7 || r.op == 8)) with
  | none => d
  | some (r, d) =>
    let u := d.fu k
    match u.out.find? (fun x => x.rtag == r.rtag.toNat && x.kind != .io && x.kind != .flags) with
    | none => d
    | some x => (d.setFu k { u with out := removeFirst (· == x) u.out }).memResult k x r

/-! ### Contexts, calls and the relay link (R119 to R121) -/

/-- An operation of FU `k` on the pool of region `g` happens there at once: its own region's pool, with no message before it. (DESIGN CHOICE, log 15.) -/
def Dev.atPool (d : Dev) (k g : Nat) : Bool := k / 136 == g && d.poolQuiet g

/-- CTXALLOC: the value travels with ERR; the request goes to its pool, and the FU is held until the pool gives a context (R85, R86,
R119). (DEDUCED, log 26.) -/
def Dev.opCtxAlloc (d : Dev) (k : Nat) : Dev :=
  match d.checked k 0x300 with
  | (none, d) => d
  | (some (f, desc, _), d) =>
    if (d.fu k).fetch.any (fun x => x.asked.isSome) then d
    else
      let g := allocRegion k desc
      let tag := (d.fu k).nextTag % 4096
      let t := (Firing.lead f).tag
      let d := d.modFu k (fun u => { u with nextTag := u.nextTag + 1, fetch := u.fetch.map (fun x => { x with asked := some tag }) })
      if d.atPool k g then d.ctxAlloc g { fu := k, rtag := tag, ctx := Firing.ctx f, graph := t.graph.toNat, prio := (Firing.prio f).toNat }
      else d.sendMgmt (fuNode k) (poolDest g) (.ctxReq k tag (Firing.ctx f) t.graph (Firing.prio f))

/-- CTXFREE (R84, R87). -/
def Dev.opCtxFree (d : Dev) (k : Nat) : Dev :=
  match d.checked k 0x301 with
  | (none, d) => d
  | (some (f, _, _), d) =>
    let e := d.baseTag f
    let home := (Firing.ctx f).toNat / 2 ^ 18
    let here := d.atPool k home
    let d := d.finish k 1 1 {}
    if here then d.ctxFree e (Firing.replay f) else d.sendMgmt (fuNode k) (poolDest home) (.ctxFree k e (Firing.replay f))

/-- PASS, CALL, RET and RELAYSEND (R110, R119, R128): an ERR value travels on; an ERR operand on port 1 goes to the error port. -/
def Dev.opSendTo (d : Dev) (k o : Nat) (out : Dev → Firing → BitVec 128 → Token → W64 → List Token) : Dev :=
  match d.checked k o with
  | (none, d) => d
  | (some (f, desc, _), d) =>
    match f.port 0, f.port 1 with
    | some v, some c =>
      if Token.err c && !Token.err v then d.errToPort k f c
      else
        match d.typeError k f desc with
        | some d => d
        | none => d.finish k 1 1 { toks := out d f desc v c.pay, relay := o == 0x310 }
    | _, _ => d

/-- A token with its own context and ITER. (DEDUCED, log 25.) -/
def Dev.ctxTok (d : Dev) (f : Firing) (dst : DstF) (ctx : BitVec 22) (iter : BitVec 8) (pay : W64) (ptype : Nat) (err : Bool) : Token :=
  { tag := Tag.seal { Tag.to (d.baseTag f) dst with ctx := ctx, iter := iter }, pay := pay
    ty := tyByte ptype err (Firing.hist f) (Firing.replay f) }

def Dev.outPassCtx (d : Dev) (f : Firing) (desc : BitVec 128) (v : Token) (c : W64) : List Token :=
  (dstsOf desc).map (fun x => d.ctxTok f x (c.extractLsb' 0 22) 0 v.pay (Token.ptype v) (Token.err v))

def Dev.outCall (d : Dev) (f : Firing) (desc : BitVec 128) (v : Token) (c : W64) : List Token :=
  let ctx := c.extractLsb' 0 22
  let t := (Firing.lead f).tag
  [d.ctxTok f (dDst0 desc) ctx 0 v.pay (Token.ptype v) (Token.err v),
   d.ctxTok f (dDst1 desc) ctx 0 (linkWord ((dImm desc).extractLsb' 0 29) t.iter t.ctx) 1 false]

def Dev.outRet (d : Dev) (f : Firing) (_ : BitVec 128) (v : Token) (l : W64) : List Token :=
  [d.ctxTok f (DstF.ofBits (l.extractLsb' 35 29)) (l.extractLsb' 0 22) (l.extractLsb' 27 8) v.pay (Token.ptype v) (Token.err v)]

/-- The token of RELAYSEND (R120, R128). (DEDUCED, log 26.) -/
def Dev.outRelay (d : Dev) (f : Firing) (desc : BitVec 128) (v : Token) (a : W64) : List Token :=
  let t := d.ctxTok f (dDst0 desc) (a.extractLsb' 28 22) (a.extractLsb' 20 8) v.pay (Token.ptype v) (Token.err v)
  [{ t with tag := Tag.seal { t.tag with dev := a.extractLsb' 50 14, graph := (dImm desc).extractLsb' 0 12 } }]

/-- The tokens of FLAGGET with the flags that the descriptor answered, and of FLAGCLR. -/
def Dev.flagToks (d : Dev) (f : Firing) (desc : BitVec 128) (v : BitVec 5) : List Token :=
  if dOpc desc = 0x320 then d.outAll f desc v.toNat 1 false else d.outAll f desc 0 7 false

/-- FLAGGET and FLAGCLR at the home descriptor (R121): the firing stays in service until the descriptor has answered (R179). -/
def Dev.opFlags (d : Dev) (k o : Nat) : Dev :=
  match d.ready? k o with
  | (none, d) => d
  | (some (f, desc, _), d) =>
    let c := Firing.ctx f
    let home := c.toNat / 2 ^ 18
    if d.atPool k home then
      let (v, d) := d.flagsOf c (o == 0x321)
      d.finish k 1 1 { toks := d.flagToks f desc v }
    else
      let (d, tag) := d.addOut k .flags f desc 0
      (d.sendMgmt (fuNode k) (poolDest home) (.flagAsk k tag c (o == 0x321))).depart k

/-- The answer of a descriptor in another region reaches FU `k` (R121). -/
def Dev.flagAnswer (d : Dev) (k tag : Nat) (v : BitVec 5) : Dev :=
  let u := d.fu k
  match u.out.find? (fun x => x.rtag == tag && x.kind == .flags) with
  | none => d
  | some x =>
    let d := d.setFu k { u with out := removeFirst (· == x) u.out }
    d.handOn k x (d.flagToks x.fir x.desc v) false

/-! ### Synchronisation (R190, R192, R222) -/

/-- HURDLE: the consumed token goes to the region's hurdle unit; an ERR token's status goes on at once and is reported (R222). -/
def Dev.opHurdle (d : Dev) (k : Nat) : Dev :=
  match d.checked k 0x340 with
  | (none, d) => d
  | (some (f, desc, _), d) =>
    let t := Firing.lead f
    let d := d.modRegion (k / 136) (fun r => { r with
      hrdIn := r.hrdIn ++ [{ fu := k, slot := f.slot, entry := (dImm desc).toNat, tok := t, rep := Token.err t }] })
    d.finish k 1 1 { toks := if Token.err t then d.outAll f desc t.pay.toNat 6 true else [] }

/-- DELAY (R190 to R192): with n 0 the value passes to its destinations; otherwise its send stage gives it to the pacer. (DEDUCED, log 26.) -/
def Dev.opDelay (d : Dev) (k : Nat) : Dev :=
  match d.ready? k 0x343 with
  | (none, d) => d
  | (some (f, desc, _), d) =>
    let v := Firing.lead f
    let ts := (dstsOf desc).map (fun x => d.passTok f desc x v)
    let n := (dImm desc).toNat
    d.finish k 1 1 { toks := ts, delay := if n = 0 then none else some n }

/-! ### Stride and Runner dispatch (R122, R168, R171, R248) -/

/-- CODE1 to CODE3: an item for the cluster's Runner queue; a full queue holds the firing. -/
def Dev.opCode (d : Dev) (k o : Nat) : Dev :=
  let tl := k / 8
  match d.ready? k o with
  | (none, d) => d
  | (some (f, desc, _), d) =>
    let lvl := d.eprio tl f
    if queueRoom (d.tile tl).sched.runQ 64 8 lvl then
      (d.modSched tl (fun s => { s with runQ := s.runQ ++ [{ lvl := lvl, fu := k, desc := desc, fir := f }] })).depart k
    else d

/-- A Stride engine that is idle takes the next item of its queue (R176). -/
def Dev.strideNext (d : Dev) (tl : Nat) : Dev :=
  let t := d.tile tl
  if t.stride.run.isSome || d.rbit (seReg (tl / 17) (tl % 17) 0) 0 then d
  else
    match topItem t.sched.strQ with
    | none => d
    | some it => (d.modSched tl (fun s => { s with strQ := removeFirst (· == it) s.strQ })).modStride tl (fun _ => { run := some it })

/-- A Stride dispatch node fires (R168, R248): its tokens go to the engine unread. -/
def Dev.strideEnqueue (d : Dev) (k : Nat) : Dev :=
  let tl := k / 8
  match (d.fu k).fetch with
  | some { desc := some desc0, .. } =>
    if dOpc desc0 < 0x380 ∨ 0x392 < dOpc desc0 then d
    else
      (match d.checked k (dOpc desc0) with
       | (none, d) => d
       | (some (f, desc, _), d) =>
         let lvl := d.eprio tl f
         if queueRoom (d.tile tl).sched.strQ 32 4 lvl then
           ((d.modSched tl (fun s => { s with strQ := s.strQ ++ [{ lvl := lvl, fu := k, desc := desc, fir := f }] })).depart k).strideNext tl
         else d)
  | _ => d

/-! ### Input and output (R123, R126) -/

/-- The destination field of an I/O request (R126). -/
def ioDst (o imm : Nat) : DstF :=
  let clu := if o = 0x3E0 then 2 else if o = 0x3E1 then 4 else if o = 0x3E2 then 0 else if o = 0x3E3 then 1 else 3
  ⟨4, if o = 0x3E2 ∨ o = 0x3E3 then 1 else 0, BitVec.ofNat 4 clu, 0, BitVec.ofNat 15 imm, 0⟩

/-- The number by which a block answers an I/O request of FU `k`. (DEDUCED, log 19.) -/
def ioSrc (k tag : Nat) : Nat := 1 + k + 4096 * tag

/-- Send an I/O request (R123): its token carries the operand, with ERR where the operand has it. (DEDUCED, log 19.) -/
def Dev.ioRequest (d : Dev) (k o : Nat) (f : Firing) (desc : BitVec 128) : Dev :=
  let (d, tag) := d.addOut k .io f desc 0
  let t := d.passTok f desc (ioDst o (dImm desc).toNat) (Firing.lead f)
  (d.send (fuNode k) { d.tokenPacket t with src := ioSrc k tag }).depart k

/-- COMMIT, TRIP, AWRITE and EVENT: an ERR operand travels to the block (R110). -/
def Dev.opIo (d : Dev) (k o : Nat) : Dev :=
  match d.checked k o with
  | (none, d) => d
  | (some (f, desc, _), d) =>
    match d.typeError k f desc with
    | some d => d
    | none => d.ioRequest k o f desc

/-- BIND: an ERR operand's status goes to the destinations and no request is sent (R110). -/
def Dev.opBind (d : Dev) (k : Nat) : Dev :=
  match d.ready? k 0x3E0 with
  | (none, d) => d
  | (some (f, desc, _), d) => d.ioRequest k 0x3E0 f desc

/-- A block answers an I/O request (R123, R413): the firing's service ends with a value for DST0, or with nothing. (DEDUCED, log 19.) -/
def Dev.ioAnswer (d : Dev) (src : Nat) (out : Option (Nat × Nat × Bool)) : Dev :=
  if src = 0 then d
  else
    let k := (src - 1) % 4096
    let tag := (src - 1) / 4096
    let u := d.fu k
    match u.out.find? (fun x => x.rtag == tag && x.kind == .io) with
    | none => d
    | some x =>
      let d := d.setFu k { u with out := removeFirst (· == x) u.out }
      d.handOn k x (match out with | some (pay, pt, err) => d.outAll x.fir x.desc pay pt err | none => []) false

/-- The signal of an accepted request. -/
def Dev.ioSignal (d : Dev) (src : Nat) : Dev := d.ioAnswer src (some (0, 7, false))

/-! ### Commands -/

def execSwitch (g : Fin 16) (t : Fin 17) (f : Fin 8) (s : State) : Host.Outcome State Fault Refusal :=
  .next { s with dev := s.dev.opSwitch (fuKey g t f) }
def execMerge (g : Fin 16) (t : Fin 17) (f : Fin 8) (s : State) : Host.Outcome State Fault Refusal :=
  .next { s with dev := s.dev.opPass (fuKey g t f) 0x201 (fun x => x.port 0) }
def execGate (g : Fin 16) (t : Fin 17) (f : Fin 8) (s : State) : Host.Outcome State Fault Refusal :=
  .next { s with dev := s.dev.opPass (fuKey g t f) 0x202 (fun x => x.port 0) }
def execFanout (g : Fin 16) (t : Fin 17) (f : Fin 8) (s : State) : Host.Outcome State Fault Refusal :=
  .next { s with dev := s.dev.opFanout (fuKey g t f) }
def execSelect (g : Fin 16) (t : Fin 17) (f : Fin 8) (s : State) : Host.Outcome State Fault Refusal :=
  .next { s with dev := s.dev.opPass (fuKey g t f) 0x204 selectTok }
def execLoopent (g : Fin 16) (t : Fin 17) (f : Fin 8) (s : State) : Host.Outcome State Fault Refusal :=
  .next { s with dev := s.dev.opLoop (fuKey g t f) 0x210 Dev.loopEnt }
def execLoopnext (g : Fin 16) (t : Fin 17) (f : Fin 8) (s : State) : Host.Outcome State Fault Refusal :=
  .next { s with dev := s.dev.opLoop (fuKey g t f) 0x211 (fun d => d.loopNext (fuKey g t f)) }
def execLoopret (g : Fin 16) (t : Fin 17) (f : Fin 8) (s : State) : Host.Outcome State Fault Refusal :=
  .next { s with dev := s.dev.opLoop (fuKey g t f) 0x212 (fun d => d.loopRet (fuKey g t f)) }
def execLoopexit (g : Fin 16) (t : Fin 17) (f : Fin 8) (s : State) : Host.Outcome State Fault Refusal :=
  .next { s with dev := s.dev.opLoop (fuKey g t f) 0x213 Dev.loopExit }
def execLd (g : Fin 16) (t : Fin 17) (f : Fin 8) (s : State) : Host.Outcome State Fault Refusal :=
  .next { s with dev := s.dev.opMem (fuKey g t f) 0x280 0 .load }
def execSt (g : Fin 16) (t : Fin 17) (f : Fin 8) (s : State) : Host.Outcome State Fault Refusal :=
  .next { s with dev := s.dev.opMem (fuKey g t f) 0x281 1 .store }
def execAadd (g : Fin 16) (t : Fin 17) (f : Fin 8) (s : State) : Host.Outcome State Fault Refusal :=
  .next { s with dev := s.dev.opMem (fuKey g t f) 0x282 2 .atomic }
def execSwap (g : Fin 16) (t : Fin 17) (f : Fin 8) (s : State) : Host.Outcome State Fault Refusal :=
  .next { s with dev := s.dev.opMem (fuKey g t f) 0x283 3 .atomic }
def execCtxalloc (g : Fin 16) (t : Fin 17) (f : Fin 8) (s : State) : Host.Outcome State Fault Refusal :=
  .next { s with dev := s.dev.opCtxAlloc (fuKey g t f) }
def execCtxfree (g : Fin 16) (t : Fin 17) (f : Fin 8) (s : State) : Host.Outcome State Fault Refusal :=
  .next { s with dev := s.dev.opCtxFree (fuKey g t f) }
def execPass (g : Fin 16) (t : Fin 17) (f : Fin 8) (s : State) : Host.Outcome State Fault Refusal :=
  .next { s with dev := s.dev.opSendTo (fuKey g t f) 0x302 Dev.outPassCtx }
def execCall (g : Fin 16) (t : Fin 17) (f : Fin 8) (s : State) : Host.Outcome State Fault Refusal :=
  .next { s with dev := s.dev.opSendTo (fuKey g t f) 0x303 Dev.outCall }
def execRet (g : Fin 16) (t : Fin 17) (f : Fin 8) (s : State) : Host.Outcome State Fault Refusal :=
  .next { s with dev := s.dev.opSendTo (fuKey g t f) 0x304 Dev.outRet }
def execRelaysend (g : Fin 16) (t : Fin 17) (f : Fin 8) (s : State) : Host.Outcome State Fault Refusal :=
  .next { s with dev := s.dev.opSendTo (fuKey g t f) 0x310 Dev.outRelay }
def execFlagget (g : Fin 16) (t : Fin 17) (f : Fin 8) (s : State) : Host.Outcome State Fault Refusal :=
  .next { s with dev := s.dev.opFlags (fuKey g t f) 0x320 }
def execFlagclr (g : Fin 16) (t : Fin 17) (f : Fin 8) (s : State) : Host.Outcome State Fault Refusal :=
  .next { s with dev := s.dev.opFlags (fuKey g t f) 0x321 }
def execHurdle (g : Fin 16) (t : Fin 17) (f : Fin 8) (s : State) : Host.Outcome State Fault Refusal :=
  .next { s with dev := s.dev.opHurdle (fuKey g t f) }
def execLockacq (g : Fin 16) (t : Fin 17) (f : Fin 8) (s : State) : Host.Outcome State Fault Refusal :=
  .next { s with dev := s.dev.opLock (fuKey g t f) 0x341 }
def execLockrel (g : Fin 16) (t : Fin 17) (f : Fin 8) (s : State) : Host.Outcome State Fault Refusal :=
  .next { s with dev := s.dev.opLock (fuKey g t f) 0x342 }
def execDelay (g : Fin 16) (t : Fin 17) (f : Fin 8) (s : State) : Host.Outcome State Fault Refusal :=
  .next { s with dev := s.dev.opDelay (fuKey g t f) }
def execStrideEnqueue (g : Fin 16) (t : Fin 17) (f : Fin 8) (s : State) : Host.Outcome State Fault Refusal :=
  .next { s with dev := s.dev.strideEnqueue (fuKey g t f) }
def execCode1 (g : Fin 16) (t : Fin 17) (f : Fin 8) (s : State) : Host.Outcome State Fault Refusal :=
  .next { s with dev := s.dev.opCode (fuKey g t f) 0x3C0 }
def execCode2 (g : Fin 16) (t : Fin 17) (f : Fin 8) (s : State) : Host.Outcome State Fault Refusal :=
  .next { s with dev := s.dev.opCode (fuKey g t f) 0x3C1 }
def execCode3 (g : Fin 16) (t : Fin 17) (f : Fin 8) (s : State) : Host.Outcome State Fault Refusal :=
  .next { s with dev := s.dev.opCode (fuKey g t f) 0x3C2 }
def execBind (g : Fin 16) (t : Fin 17) (f : Fin 8) (s : State) : Host.Outcome State Fault Refusal :=
  .next { s with dev := s.dev.opBind (fuKey g t f) }
def execCommit (g : Fin 16) (t : Fin 17) (f : Fin 8) (s : State) : Host.Outcome State Fault Refusal :=
  .next { s with dev := s.dev.opIo (fuKey g t f) 0x3E1 }
def execTrip (g : Fin 16) (t : Fin 17) (f : Fin 8) (s : State) : Host.Outcome State Fault Refusal :=
  .next { s with dev := s.dev.opIo (fuKey g t f) 0x3E2 }
def execAwrite (g : Fin 16) (t : Fin 17) (f : Fin 8) (s : State) : Host.Outcome State Fault Refusal :=
  .next { s with dev := s.dev.opIo (fuKey g t f) 0x3E3 }
def execEvent (g : Fin 16) (t : Fin 17) (f : Fin 8) (s : State) : Host.Outcome State Fault Refusal :=
  .next { s with dev := s.dev.opIo (fuKey g t f) 0x3E4 }

end Sys2Proof.Machine
end

