-- ==== Sys2Proof/Machine/Sched.lean ====
section
/-!
DEFINITION. Cluster schedulers and pacers (05_dispatch_flows_pacers.md): ageing, atomic flows, priority inheritance,
cancels, and the pacer's releases.
-/
namespace Sys2Proof.Machine

/-! ### Ageing (R172) -/

/-- The `n`-th item of a queue moves to the tail of the next level, to 14 at most. -/
def ageQueue (q : List Item) (n : Nat) : List Item :=
  match q[n]? with
  | none => q
  | some x => if x.lvl < 14 then q.eraseIdx n ++ [{ x with lvl := x.lvl + 1 }] else q

/-- An item of queue `q` (0 to 7 an FU's issue queue, 8 the Runner's, 9 the Stride queue) has waited SCH.AGE.CYCLES at its level. -/
def Dev.ageStep (d : Dev) (tl q n : Nat) : Dev :=
  if d.rfld (schReg (tl / 17) (tl % 17) 0) 19 0 = 0 then d
  else if q < 8 then d.modFu (tl * 8 + q) (fun u => { u with issue := ageQueue u.issue n })
  else if q = 8 then d.modSched tl (fun s => { s with runQ := ageQueue s.runQ n })
  else d.modSched tl (fun s => { s with strQ := ageQueue s.strQ n })

/-- AGEING_STEP (R172). -/
def execAgeingStep (g : Fin 16) (t : Fin 17) (q : Fin 10) (n : Fin 64) (s : State) : Host.Outcome State Fault Refusal :=
  .next { s with dev := s.dev.ageStep (tileKey g t) q n }

/-! ### Atomic flows (R177 to R183) -/

/-- The in-service table has room for a request (R182): 1,024 entries, 64 of them kept for effective priority 15. -/
def serviceRoom (sv : List (BitVec 20 × Nat × Bool)) (eprio : Nat) : Bool :=
  if eprio = 15 then decide (sv.length < 1024)
  else decide (sv.length < 1024 ∧ sv.length - min 64 ((sv.filter (·.2.2)).length) < 960)

def inService (sv : List (BitVec 20 × Nat × Bool)) (f : BitVec 20) : Bool := sv.any (fun e => e.1 == f)

/-- The home at tile `tl` grants a flow to a cluster. -/
def Dev.grantFlow (d : Dev) (tl : Nat) (r : FlowReq) : Dev :=
  (d.modSched tl (fun s => { s with service := s.service ++ [(r.flow, r.clu, r.eprio == 15)] })).send (schedNode tl)
    { dest := schedDest r.clu, log := true, body := .mgmt (.flowGrant r.flow r.no) }

/-- A flow request reaches its home (R180, R183). -/
def Dev.flowRequest (d : Dev) (tl : Nat) : Dev :=
  match d.takeMgmt (schedNode tl) isFlowReq with
  | some (.flowReq f c p n, d) =>
    let s := (d.tile tl).sched
    let r : FlowReq := { flow := f, clu := c.toNat, eprio := p.toNat, no := n }
    if !inService s.service f && serviceRoom s.service p.toNat then d.grantFlow tl r
    else if s.pend.length < 256 then d.modSched tl (fun s => { s with pend := s.pend ++ [r] })
    else d.send (schedNode tl) { dest := schedDest c.toNat, log := true, body := .mgmt (.flowRefuse f n) }
  | _ => d

/-- FLOWREQ (R180). -/
def execFlowreq (g : Fin 16) (t : Fin 17) (s : State) : Host.Outcome State Fault Refusal :=
  .next { s with dev := s.dev.flowRequest (tileKey g t) }

/-- The waiting firing that a numbered answer of the home is for. -/
def asks (f : BitVec 20) (n : Nat) (w : FlowWait) : Bool := Firing.flow w.fir == f && w.asked && !w.granted && w.no == n

/-- A grant arrives (R180, R181): the firing that asked moves to its ready queue, and the next firing of the flow asks in its turn. Where that
firing was cancelled, the flow is released again (R196). -/
def Dev.flowGranted (d : Dev) (tl : Nat) : Dev :=
  match d.takeMgmt (schedNode tl) isFlowGrant with
  | some (.flowGrant f n, d) =>
    (match (d.tile tl).sched.flowW.find? (asks f n) with
     | none => d.releaseFlow tl f
     | some w =>
       ((d.modSched tl (fun s => { s with flowW := replaceFirst (asks f n) (fun x => { x with granted := true }) s.flowW })).askNext tl f).grantMove w.fu)
  | _ => d

/-- FLOWGRANT (R180). -/
def execFlowgrant (g : Fin 16) (t : Fin 17) (s : State) : Host.Outcome State Fault Refusal :=
  .next { s with dev := s.dev.flowGranted (tileKey g t) }

/-- The pending request that a freed table entry goes to (R182): a flow not in service, highest effective priority, oldest. -/
def bestRequest (s : Sched) : Option FlowReq :=
  (s.pend.filter (fun r => !inService s.service r.flow && serviceRoom s.service r.eprio)).foldl (fun (m : Option FlowReq) r =>
    match m with | none => some r | some x => if x.eprio < r.eprio then some r else some x) none

/-- A release reaches the home (R180, R182, R196): a flow that is not in service is ignored. -/
def Dev.flowReleased (d : Dev) (tl : Nat) : Dev :=
  match d.takeMgmt (schedNode tl) isFlowRel with
  | some (.flowRel f c, d) =>
    let s := (d.tile tl).sched
    let mine := fun (e : BitVec 20 × Nat × Bool) => e.1 == f && e.2.1 == c.toNat
    if !s.service.any mine then d
    else
      let d := d.modSched tl (fun s => { s with service := removeFirst mine s.service })
      let s := (d.tile tl).sched
      let next := match s.pend.find? (fun r => r.flow == f && serviceRoom s.service r.eprio) with | some r => some r | none => bestRequest s
      (match next with
       | none => d
       | some r => (d.modSched tl (fun s => { s with pend := removeFirst (· == r) s.pend })).grantFlow tl r)
  | _ => d

/-- FLOWREL (R180). -/
def execFlowrel (g : Fin 16) (t : Fin 17) (s : State) : Host.Outcome State Fault Refusal :=
  .next { s with dev := s.dev.flowReleased (tileKey g t) }

/-- A cancel withdraws a pending request at its home (R196). -/
def Dev.flowCancelled (d : Dev) (tl : Nat) : Dev :=
  match d.takeMgmt (schedNode tl) isFlowCancel with
  | some (.flowCancel f c n, d) => d.modSched tl (fun s => { s with pend := removeFirst (fun r => r.flow == f && r.clu == c.toNat && r.no == n) s.pend })
  | _ => d

/-- FLOWCANCEL (R196). -/
def execFlowcancel (g : Fin 16) (t : Fin 17) (s : State) : Host.Outcome State Fault Refusal :=
  .next { s with dev := s.dev.flowCancelled (tileKey g t) }

/-- A refused request is sent again, unless its firing was cancelled (R183, R196). -/
def Dev.flowRetry (d : Dev) (tl : Nat) : Dev :=
  match d.takeMgmt (schedNode tl) isFlowRefuse with
  | some (.flowRefuse f n, d) =>
    if (d.tile tl).sched.flowW.any (asks f n) then
      (d.modSched tl (fun s => { s with flowW := replaceFirst (asks f n) (fun x => { x with asked := false }) s.flowW })).askNext tl f
    else d
  | _ => d

/-- FLOW_REQUEST_RETRY (R183). -/
def execFlowRequestRetry (g : Fin 16) (t : Fin 17) (s : State) : Host.Outcome State Fault Refusal :=
  .next { s with dev := s.dev.flowRetry (tileKey g t) }

/-! ### Priority inheritance (R185 to R188) -/

/-- Record lock unit `unit`'s value for a context; an entry whose values are all 0 is freed. -/
def setBoost (bs : List Boost) (c : BitVec 22) (unit b : Nat) : List Boost :=
  ((if bs.any (fun x => x.ctx == c) then replaceFirst (fun x => x.ctx == c) (fun x => { x with vals := mset 0 x.vals unit b }) bs
    else bs ++ [{ ctx := c, vals := mset 0 [] unit b }])).filter (fun x => !x.vals.isEmpty)

def maxBoost (x : Boost) : Nat := x.vals.foldl (fun m v => max m v.2) 0

/-- A boost table of 64 contexts takes a message (R187): the new table, and whether BOOST_FULL is set. -/
def tableBoost (bs : List Boost) (c : BitVec 22) (unit b : Nat) : List Boost × Bool :=
  if bs.any (fun x => x.ctx == c) ∨ (b ≠ 0 ∧ bs.length < 64) then (setBoost bs c unit b, false)
  else if b = 0 then (bs, false)
  else
    let low := bs.foldl (fun m x => min m (maxBoost x)) 15
    if low < b then (setBoost (removeFirst (fun x => maxBoost x == low) bs) c unit b, true) else (bs, true)

/-- Levels after a boost change (R188): risen items go to the tail of their new level, in order. -/
def raiseLevels (eprio : Firing → Nat) (c : BitVec 22) (q : List Item) : List Item :=
  let up := fun (x : Item) => Firing.ctx x.fir == c && decide (x.lvl < eprio x.fir)
  q.filter (fun x => !up x) ++ (q.filter up).map (fun x => { x with lvl := eprio x.fir })

/-- A scheduler takes a BOOST message (R187, R188). -/
def Dev.boostSched (d : Dev) (tl : Nat) (c : BitVec 22) (unit b : Nat) : Dev :=
  let (bs, full) := tableBoost (d.tile tl).sched.boosts c unit b
  let d := d.modSched tl (fun s => { s with boosts := bs })
  let d := if full then d.setBit (schReg (tl / 17) (tl % 17) 8) 0 true else d
  let ep := d.eprio tl
  let d := d.modSched tl (fun s => { s with runQ := raiseLevels ep c s.runQ, strQ := raiseLevels ep c s.strQ })
  (List.range 8).foldl (fun d f => d.modFu (tl * 8 + f) (fun u => { u with issue := raiseLevels ep c u.issue })) d

/-- The home pool takes a BOOST message and writes the descriptor's BOOST (R83, R186). -/
def Dev.boostPool (d : Dev) (c : BitVec 22) (unit b : Nat) : Dev :=
  let d := d.modPool (c.toNat / 2 ^ 18) (fun p => { p with boosts := setBoost p.boosts c unit b })
  let v := d.ctxDesc c
  if cdState v = 0 then d else d.setCtxDesc c (putFld v 47 44 (boostOf (d.region (c.toNat / 2 ^ 18)).pool.boosts c))

/-- The oldest BOOST message that reached receiver `n` takes effect (R185): a tile's scheduler (0 to 271), or the pool of a region (272 to 287). (DESIGN CHOICE, log 15.) -/
def Dev.boostArrive (d : Dev) (n : Nat) : Dev :=
  match d.takeMgmt (if n < 272 then schedNode n else poolNode (n - 272)) isBoost with
  | some (.boost c u b, d) => if n < 272 then d.boostSched n c u.toNat b.toNat else d.boostPool c u.toNat b.toNat
  | _ => d

/-- A BOOST message for every cluster scheduler of the device and the context's home pool (R185). -/
def boostPackets (c : BitVec 22) (unit b : Nat) : List Packet :=
  let m : Body := .mgmt (.boost c (BitVec.ofNat 4 unit) (BitVec.ofNat 4 b))
  { dest := poolDest (c.toNat / 2 ^ 18), body := m } :: (List.range 256).map (fun k => { dest := schedDest k, log := true, body := m })

/-- BOOST (R188): receiver 0 to 271 is a tile's scheduler, 272 to 287 a region's pool. -/
def execBoost (n : Fin 288) (s : State) : Host.Outcome State Fault Refusal :=
  .next { s with dev := s.dev.boostArrive n }

/-! ### Cancels (R195) -/

/-- A cancel reaches an FU (R195): the undispatched items of a context that is sweeping (as a halt of its graph leaves it), or whose graph is unloaded,
leave their queues, with their flows. (DEDUCED, log 91.) -/
def Dev.cancel (d : Dev) (k : Nat) (c : BitVec 22) : Dev :=
  let v := d.ctxDesc c
  let st := (d.graph (cdGraph v)).st
  if cdState v = 2 ∨ st = 5 ∨ st = 0 then d.cancelItems k (fun f => Firing.ctx f == c) else d

/-- CANCEL (R195). -/
def execCancel (g : Fin 16) (t : Fin 17) (f : Fin 8) (c : BitVec 22) (s : State) : Host.Outcome State Fault Refusal :=
  .next { s with dev := s.dev.cancel (fuKey g t f) c }

/-! ### The pacer (R189 to R194) -/

/-- Device time has reached a deadline (R190). -/
def reached (now dl : W64) : Bool := !(now - dl).msb

/-- The entry the pacer releases next (R193): reached deadlines in order, then effective priority, then acceptance. -/
def pacerNext (now : W64) (q : List PacEnt) : Option PacEnt :=
  (q.filter (fun e => reached now e.deadline)).foldl (fun (m : Option PacEnt) e =>
    match m with
    | none => some e
    | some x =>
      let a := (now - e.deadline).toNat
      let b := (now - x.deadline).toNat
      if b < a ∨ (a = b ∧ x.eprio < e.eprio) then some e else some x) none

def pacNode (g : Nat) : Node := .regionUnit g 3

/-- One release cycle (R193): one token of the next entry is sent; the entry frees after its last. -/
def Dev.pacerRelease (d : Dev) (g : Nat) : Dev :=
  match pacerNext d.time (d.region g).pacer with
  | none => d
  | some e =>
    match e.toks with
    | [] => d.modRegion g (fun r => { r with pacer := removeFirst (· == e) r.pacer })
    | t :: ts =>
      let d := d.modRegion g (fun r => { r with
        pacer := if ts.isEmpty then removeFirst (· == e) r.pacer else replaceFirst (· == e) (fun x => { x with toks := ts }) r.pacer })
      d.sendToken (pacNode g) t

/-- PACER_RELEASE (R193). -/
def execPacerRelease (g : Fin 16) (s : State) : Host.Outcome State Fault Refusal :=
  .next { s with dev := s.dev.pacerRelease g }

/-- PAC.CTRL.HWM_CLR (R201). -/
def Dev.pacHwmClr (d : Dev) (g : Nat) (v : W32) : Dev :=
  if v.getLsbD 0 then d.setFld (pacReg g 8) 16 0 (d.region g).pacer.length else d

/-- PAC_HWM_CLR (R201). -/
def execPacHwmClr (g : Fin 16) (v : W32) (s : State) : Host.Outcome State Fault Refusal :=
  .next { s with dev := s.dev.writes (pacReg g 0xC) (s.dev.pacHwmClr g v) }

end Sys2Proof.Machine
end

