-- ==== Sys2Proof/Machine/Hurdles.lean ====
section
/-!
DEFINITION. Hurdles (06_progress_hurdles.md, R221 to R232): arrivals, completion and release, forced release, stopping
and horizons; and the stall watch (R236 to R240).
-/
namespace Sys2Proof.Machine

/-! ### Finding hurdles -/

def hrdNode (g : Nat) : Node := .regionUnit g 4

def Dev.hurdle (d : Dev) (g slot : Nat) : Hurdle := mget {} (d.region g).hurdles slot
def Dev.setHurdle (d : Dev) (g slot : Nat) (h : Hurdle) : Dev := d.modRegion g (fun r => { r with hurdles := mset {} r.hurdles slot h })
def hrdStatus (g slot : Nat) : Nat := banked (gwReg g 0x34) slot
def hrdStop (g slot : Nat) : Nat := banked (gwReg g 0x2C) slot

/-- The hurdle of a graph's table entry in a region. -/
def Dev.hurdleOf (d : Dev) (g : Nat) (graph : BitVec 12) (entry : Nat) : Option (Nat × Hurdle) :=
  (d.region g).hurdles.find? (fun c => c.2.graph == graph && c.2.entry == entry && c.2.nsrc != 0)

/-- Tokens held by a region's hurdles (GW.HOLD_USED). -/
def Dev.holdUsed (d : Dev) (g : Nat) : Nat := (d.region g).hurdles.foldl (fun n c => n + c.2.held.length) 0

/-- The key of a source and epoch. -/
def srcKey (src : Nat) (e : BitVec 8) : Nat := 256 * src + e.toNat

/-- A source is complete for an epoch (R225). -/
def Hurdle.srcDone (h : Hurdle) (e : BitVec 8) (i : Nat) : Bool :=
  h.retired.contains i || mget 0 h.cls (srcKey i e) == mget 0 h.cnt (srcKey i e) + 1

/-- The current epoch is complete (R225). -/
def Hurdle.complete (h : Hurdle) : Bool := h.nsrc != 0 && (List.range h.nsrc).all (h.srcDone h.e)

/-- The hurdle is held at its stop epoch (R231): STOP.AT has been released and EN is set. -/
def Dev.hrdStopped (d : Dev) (g slot : Nat) : Bool :=
  let h := d.hurdle g slot
  let r := d.reg (hrdStop g slot)
  r.getLsbD 8 && (h.passed || newer h.e (r.extractLsb' 0 8))

/-- The epoch lies beyond a downstream hurdle's horizon (R230). -/
def Hurdle.beyond (h : Hurdle) : Bool := h.horizon.any (fun x => newer h.e x.2)

/-- GW.HRD_PEND: the sources that are incomplete for the current epoch. -/
def Hurdle.pendBits (h : Hurdle) : Nat := (List.range h.nsrc).foldl (fun n i => if h.srcDone h.e i then n else n + 2 ^ i) 0

/-! ### The nodes and destinations of a source (R226, R464) -/

/-- The descriptor of a slot of a global FU's cluster. -/
def Dev.descOfFu (d : Dev) (fu slot : Nat) : BitVec 128 := BitVec.ofNat 128 (d.readLe (slotAddr (fu / 8) slot) 16)

/-- The hurdle of a graph's entry in any region: that of the given copy, where there is one (R136, R464). -/
def Dev.entryOf (d : Dev) (n e : Nat) (copyB : Bool) : Option Hurdle :=
  let hs := (List.range 16).filterMap (fun g => (d.hurdleOf g (BitVec.ofNat 12 n) e).map (·.2))
  (hs.find? (fun x => x.copyB == copyB)).orElse (fun _ => hs.head?)

/-- The descriptor by which source `i`'s tokens are released to a graph's entry, and the graph they carry: the hurdle's own node, or the node of
another graph's entry for the same source. No destination where that graph has gone. -/
def Dev.nodeFor (d : Dev) (h : Hurdle) (n e i : Nat) : BitVec 128 × BitVec 12 :=
  if n = h.graph.toNat ∧ e = h.entry then (d.descOfFu h.fu (h.slots.getD i 0).toNat, h.graph)
  else
    match d.entryOf n e h.copyB with
    | some x => (d.descOfFu x.fu (x.slots.getD i 0).toNat, x.graph)
    | none => (0, h.graph)

/-- The graph and entry that a hurdle feeds now. -/
def Hurdle.feeds (h : Hurdle) : Nat × Nat := h.redirect.getD (h.graph.toNat, h.entry)

def Dev.releaseNode (d : Dev) (h : Hurdle) (i : Nat) : BitVec 128 × BitVec 12 := d.nodeFor h h.feeds.1 h.feeds.2 i

/-- The tokens by which a token is passed on to the destinations of a graph's entry (R226). -/
def Dev.toksTo (d : Dev) (h : Hurdle) (dst : Nat × Nat) (x : HrdTok) : List Token :=
  let (desc, graph) := d.nodeFor h dst.1 dst.2 x.src
  d.outAll { slot := h.slots.getD x.src 0, toks := [(0, { x.tok with tag := { x.tok.tag with graph := graph } })] } desc x.tok.pay.toNat (Token.ptype x.tok) (Token.err x.tok)

/-- The tokens by which a held token is released. -/
def Dev.releaseToks (d : Dev) (h : Hurdle) (x : HrdTok) : List Token := d.toksTo h h.feeds x

/-- Where a late token with REPLAY goes (R229, R466): a token of an epoch up to that of the last swap goes to the replaced graph. -/
def Hurdle.lateFeeds (h : Hurdle) (e : BitVec 8) : Nat × Nat :=
  match h.old with
  | some (n, k, es) => if newer e es then h.feeds else (n, k)
  | none => h.feeds

/-- Send tokens from the hurdle unit (R533: releases are journalled). -/
def Dev.hrdSend (d : Dev) (g : Nat) (ts : List Token) : Dev := ts.foldl (fun d t => d.blockSend (hrdNode g) t) d

/-! ### Arrivals (R222 to R229, R576) -/

/-- An error status of the hurdle unit, with or without a fault of the context. -/
def Dev.hrdError (d : Dev) (g : Nat) (t : Token) (code detail : Nat) (fault : Bool) : Dev :=
  let d := d.sendToken (hrdNode g) (d.errToken g t.tag (status code originBlock detail) (Token.replay t))
  if fault then d.faultCtx (hrdNode g) t.tag.ctx else d

/-! The token is an EPOCH_CLOSE or a SOURCE_RETIRE mark (R223). -/
def isClose (t : Token) : Bool := Token.ptype t == 6 && !Token.err t && statusCode t.pay == stEPOCH_CLOSE
def isRetire (t : Token) : Bool := Token.ptype t == 6 && !Token.err t && statusCode t.pay == stSOURCE_RETIRE

/-- EPOCH_COUNT (R229) with COUNT_ERR. -/
def Dev.hrdCount (d : Dev) (g slot : Nat) (h : Hurdle) (t : Token) (src : Nat) (fault : Bool) : Dev :=
  (d.setBit (hrdStatus g slot) 5 true).hrdError g t stEPOCH_COUNT (mget 0 h.cnt (srcKey src t.tag.epoch) % 65536 + src * 65536) fault

/-- The epoch is E, which a stopped hurdle has released and not left (R228, R231). (DEDUCED, log 21.) -/
def Hurdle.over (h : Hurdle) (e : BitVec 8) : Bool := h.passed && e == h.e

/-- A close reaches its hurdle (R225, R229). A close beyond the window, below what was counted or of a stop epoch that is released is refused in the way of its
neighbours (notes/assumptions/21.md). (DEDUCED, log 21.) -/
def Dev.hrdClose (d : Dev) (g slot src : Nat) (h : Hurdle) (t : Token) : Dev :=
  let e := t.tag.epoch
  let dd := (e - h.e).toNat
  let n := statusDetail t.pay % 65536
  let both := e.toNat + h.e.toNat * 256
  if h.retired.contains src then d.hrdCount g slot h t src false
  else if 128 ≤ dd then (d.setBit (hrdStatus g slot) 4 true).hrdError g t stEPOCH_LATE both false
  else if h.ahead < dd then (d.setBit (hrdStatus g slot) 3 true).hrdError g t stEPOCH_AHEAD both false
  else if h.maxper < n ∨ mget 0 h.cls (srcKey src e) ≠ 0 ∨ n < mget 0 h.cnt (srcKey src e) then d.hrdCount g slot h t src false
  else if h.over e then (d.setBit (hrdStatus g slot) 4 true).hrdError g t stEPOCH_LATE both false
  else d.setHurdle g slot { h with cls := mset 0 h.cls (srcKey src e) (n + 1) }

/-- What the hurdle unit makes of a value (R229). -/
inductive Verdict where
  | hold | late | ahead | count
  deriving DecidableEq, Repr

/-- R229's rows for a value of source `src` and epoch `e`; a missing value of an epoch that was released forced is late. (DEDUCED, log 21.) -/
def Hurdle.judge (h : Hurdle) (src : Nat) (e : BitVec 8) : Verdict :=
  let dd := (e - h.e).toNat
  let c := mget 0 h.cnt (srcKey src e)
  let cl := mget 0 h.cls (srcKey src e)
  if h.retired.contains src then .count
  else if 128 ≤ dd then .late
  else if h.ahead < dd then .ahead
  else if h.maxper < c + 1 ∨ (cl ≠ 0 ∧ cl < c + 2) then .count
  else if h.over e then .late else .hold

/-- A value is counted (R225), and held unless it is a report or only counted. -/
def Hurdle.counted (h : Hurdle) (src : Nat) (a : HrdArr) : Hurdle :=
  let k := srcKey src a.tok.tag.epoch
  { h with
    cnt := mset 0 h.cnt k (mget 0 h.cnt k + 1)
    held := if a.rep || a.gone then h.held else h.held ++ [{ src := src, tok := a.tok }]
    errs := if a.rep then mset 0 h.errs k (mget 0 h.errs k + 1) else h.errs }

/-- A value reaches its hurdle (R229). The report of an ERR token (R222) passes the same tests; its status has gone to the destinations already, so a late one with REPLAY
sends nothing more. A token that is only counted (R229, R358) has had its outcome: it raises no other. (DEDUCED, log 21.) -/
def Dev.hrdValue (d : Dev) (g slot src : Nat) (h : Hurdle) (a : HrdArr) : Dev :=
  let t := a.tok
  let both := t.tag.epoch.toNat + h.e.toNat * 256
  match h.judge src t.tag.epoch with
  | .hold => let d := d.setHurdle g slot (h.counted src a); d.hwm (gwReg g 0x10) 18 0 (d.holdUsed g)
  | .late =>
    if a.gone then d
    else if Token.replay t then (if a.rep then d else d.hrdSend g (d.toksTo h (h.lateFeeds t.tag.epoch) { src := src, tok := t }))
    else (d.setBit (hrdStatus g slot) 4 true).hrdError g t stEPOCH_LATE both true
  | .ahead => if a.gone then d else (d.setBit (hrdStatus g slot) 3 true).hrdError g t stEPOCH_AHEAD both true
  | .count => if a.gone then d else d.hrdCount g slot h t src (!h.retired.contains src)

/-- The context of the first token that each node received (R227). -/
def Hurdle.seen (h : Hurdle) (src : Nat) (c : BitVec 22) : Hurdle :=
  { h with firstCtx := if h.firstCtx.any (fun x => x.1 == src) then h.firstCtx else mput h.firstCtx src c }

/-- The oldest token handed to a region's hurdle unit is judged. -/
def Dev.hurdleArrival (d : Dev) (g : Nat) : Dev :=
  match (d.region g).hrdIn with
  | [] => d
  | a :: as =>
    let d := d.modRegion g (fun r => { r with hrdIn := as })
    match d.hurdleOf g a.tok.tag.graph a.entry with
    | none => d.hrdError g a.tok stBAD_NODE a.slot.toNat true
    | some (slot, h) =>
      if !h.slots.contains a.slot || h.fu / 8 != d.originOf a.fu / 8 then d.hrdError g a.tok stBAD_NODE a.slot.toNat true
      else
        let src := h.slots.findIdx (· == a.slot)
        let h := h.seen src a.tok.tag.ctx
        let d := d.setHurdle g slot h
        if isClose a.tok then d.hrdClose g slot src h a.tok
        else if isRetire a.tok then (if h.retired.contains src then d else d.setHurdle g slot { h with retired := h.retired ++ [src] })
        else d.hrdValue g slot src h a

/-- HURDLE_ARRIVAL (R229). -/
def execHurdleArrival (g : Fin 16) (s : State) : Host.Outcome State Fault Refusal :=
  .next { s with dev := s.dev.hurdleArrival g }

/-! ### Horizons (R230) -/

/-- Send a hurdle's horizon to the origins bound to it: streams, measurement channels, upstream hurdles, and the relay link for an export
entry (R230, R442). -/
def Dev.sendHorizon (d : Dev) (g slot : Nat) : Dev :=
  let h := d.hurdle g slot
  let m : Mgmt := .horizon (BitVec.ofNat 8 g) (BitVec.ofNat 8 slot) (h.e + BitVec.ofNat 8 h.ahead)
  let d := if h.streams.isEmpty then d else d.sendMgmt (hrdNode g) { die := 4, unit := 1 } m
  let named := fun (n : Nat) => let r := d.reg (afeReg n 0x2C); r.getLsbD 31 && fld r 19 16 == g && fld r 7 0 == slot
  let d := if (List.range 64).any named then d.sendMgmt (hrdNode g) { die := 5 } m else d
  let hz := fun (i : Nat) => let r := d.reg (banked (rlyReg 0x74) i); r.getLsbD 31 && !r.getLsbD 30 && fld r 11 8 == g && fld r 7 0 == slot
  let d := if (List.range 64).any hz then d.sendMgmt (hrdNode g) { die := 4, unit := 2 } m else d
  let ups := fun (x : Nat) => (d.region x).hurdles.any (fun c => c.2.graph == h.graph && c.2.copyB == h.copyB && h.ups.contains c.2.entry)
  ((List.range 16).filter ups).foldl (fun d x =>
    d.sendMgmt (hrdNode g) { die := BitVec.ofNat 3 (x / 4), rgn := BitVec.ofNat 2 (x % 4), tile := 31, unit := 4 } m) d

/-! ### Release (R226 to R228, R231) -/

/-- The destinations of a hurdle's nodes with the sources that feed each. -/
def Dev.closeDsts (d : Dev) (h : Hurdle) : List (DstF × List Nat) :=
  (List.range h.nsrc).foldl (fun (m : List (DstF × List Nat)) i =>
    (dstsOf (d.releaseNode h i).1).foldl (fun m x =>
      if m.any (fun e => e.1 == x) then replaceFirst (fun e => e.1 == x) (fun e => (e.1, e.2 ++ [i])) m else m ++ [(x, [i])]) m) []

/-- The CTX of a close-out to a destination that the nodes `srcs` feed (R227): that of the last token released through them, or else of the first token they
received; none where they received none. A destination of several nodes gets one close: of tokens of earlier epochs, those of its lowest node count first. (DESIGN CHOICE, log 96.) -/
def closeCtx (h : Hurdle) (sent : List HrdTok) (srcs : List Nat) : Option (BitVec 22) :=
  let of := fun (m : SMap (BitVec 22)) => (srcs.findSome? (fun i => (m.find? (fun x => x.1 == i)).map (·.2)))
  match (sent.filter (fun x => srcs.contains x.src)).getLast? with
  | some x => some x.tok.tag.ctx
  | none => (of h.lastCtx).orElse (fun _ => of h.firstCtx)

/-- The close-outs of the current epoch (R227): one for each destination, with the number of the epoch's tokens sent there. ITER, FLOW, PRIO, and
CTX where no token was ever received, are not given: free values. (DESIGN CHOICE, log 96.) -/
def Dev.closeOuts (d : Dev) (g : Nat) (h : Hurdle) (sent : List HrdTok) (forced : Bool) : Dev :=
  (d.closeDsts h).foldl (fun d (e : DstF × List Nat) =>
    let (dst, srcs) := e
    let n := (sent.filter (fun x => srcs.contains x.src)).length + srcs.foldl (fun n i => n + mget 0 h.errs (srcKey i h.e)) 0
    let src := srcs.headD 0
    let (v, d) := d.free
    let tag : Tag := { dev := d.devNo, graph := (d.releaseNode h src).2, ctx := (closeCtx h sent srcs).getD (v.extractLsb' 32 22), epoch := h.e
                       iter := v.extractLsb' 0 8, flow := v.extractLsb' 8 20, prio := v.extractLsb' 28 4 }
    d.hrdSend g [{ tag := Tag.seal (Tag.to tag dst), pay := status stEPOCH_CLOSE originBlock (n % 65536 + (if forced then 65536 else 0)), ty := tyByte 6 false false false }]) d

/-- Leave the current epoch, and what was counted of it, unless it is the stop epoch (R228, R231): the horizon goes out with each advance. -/
def Dev.hrdAdvance (d : Dev) (g slot : Nat) : Dev :=
  let h := d.hurdle g slot
  let r := d.reg (hrdStop g slot)
  if r.getLsbD 8 && r.extractLsb' 0 8 == h.e then d.setHurdle g slot { h with passed := true }
  else
    -- a swap's epoch is forgotten before it leaves the serial window
    let old := match h.old with | some (n, k, es) => if h.e + 1 - es = 127 then none else some (n, k, es) | none => none
    let own := fun (k : Nat) => k % 256 == h.e.toNat
    (d.setHurdle g slot { h with
      e := h.e + 1, passed := false, late := false, old := old
      cnt := mclear h.cnt own, cls := mclear h.cls own, errs := mclear h.errs own }).sendHorizon g slot

/-- Release what is held of the current epoch, in order of source and arrival, with the close-outs (R226, R227). -/
def Dev.hrdRelease (d : Dev) (g slot : Nat) (forced : Bool) : Dev :=
  let h := d.hurdle g slot
  let ours := h.held.filter (fun x => x.tok.tag.epoch == h.e)
  let sent := (List.range h.nsrc).flatMap (fun i => ours.filter (fun x => x.src == i))
  let h := { h with lastCtx := sent.foldl (fun m x => mput m x.src x.tok.tag.ctx) h.lastCtx }
  let d := sent.foldl (fun d x => d.hrdSend g (d.releaseToks h x)) d
  let d := if h.closeout then d.closeOuts g h sent forced else d
  (d.setHurdle g slot { h with held := h.held.filter (fun x => x.tok.tag.epoch != h.e) }).hrdAdvance g slot

/-- The hurdle unit detects a complete epoch and releases it (R226), unless it is held at its stop epoch or by a downstream horizon. -/
def Dev.hurdleRelease (d : Dev) (g slot : Nat) : Dev :=
  let h := d.hurdle g slot
  if h.complete && !d.hrdStopped g slot && !h.beyond then d.hrdRelease g slot false else d

/-- HURDLE_RELEASE (R226). -/
def execHurdleRelease (g : Fin 16) (slot : BitVec 8) (s : State) : Host.Outcome State Fault Refusal :=
  .next { s with dev := s.dev.hurdleRelease g slot.toNat }

/-- The current epoch has been incomplete for WAITUS (R229). (DESIGN CHOICE, log 13.) -/
def Dev.hurdleLate (d : Dev) (g slot : Nat) : Dev :=
  let h := d.hurdle g slot
  if h.nsrc = 0 ∨ h.waitus = 0 ∨ h.complete ∨ h.late ∨ h.passed then d
  else ((d.setHurdle g slot { h with late := true }).setBit (hrdStatus g slot) 1 true).raise (258 + 4 * g) 2 slot

/-- HURDLE_WAIT_TIMEOUT (R229). -/
def execHurdleWaitTimeout (g : Fin 16) (slot : BitVec 8) (s : State) : Host.Outcome State Fault Refusal :=
  .next { s with dev := s.dev.hurdleLate g slot.toNat }

/-- GW.HRD_SEL. -/
def Dev.hrdSel (d : Dev) (g : Nat) : Nat := d.rfld (gwReg g 0x1C) 7 0

/-- FORCE of the selected hurdle (R229): a complete epoch completes normally. -/
def Dev.hrdForce (d : Dev) (g : Nat) (v : W32) : Dev :=
  let slot := d.hrdSel g
  let h := d.hurdle g slot
  if !v.getLsbD 0 || h.nsrc == 0 || h.complete || d.hrdStopped g slot then d
  else (d.setBit (hrdStatus g slot) 2 true).hrdRelease g slot true

/-- HRD_FORCE (R229): a write of GW.HRD_CTRL. -/
def execHrdForce (g : Fin 16) (v : W32) (s : State) : Host.Outcome State Fault Refusal :=
  .next { s with dev := s.dev.writes (gwReg g 0x30) (s.dev.hrdForce g v) }

/-- Write GW.HRD_STOP of a slot (R231): a hurdle that waited past its stop epoch goes on once nothing stops it there. -/
def Dev.hrdStopSet (d : Dev) (g slot : Nat) (v : W32) : Dev :=
  let d := d.setReg (hrdStop g slot) (v &&& 0x1FF#32)
  if (d.hurdle g slot).passed then d.hrdAdvance g slot else d

/-- HRD_STOP_WRITE (R231): a write of GW.HRD_STOP, for the selected hurdle. -/
def execHrdStopWrite (g : Fin 16) (v : W32) (s : State) : Host.Outcome State Fault Refusal :=
  .next { s with dev := s.dev.writes (gwReg g 0x2C) (s.dev.hrdStopSet g (s.dev.hrdSel g) v) }

/-- A write of GW.HOLD_BASE (a pair, offsets 0 and 4) or GW.HOLD_SIZE (8) (R242). -/
def Dev.holdConfig (d : Dev) (g a : Nat) (v : W32) : Dev :=
  let lo := gwReg g 0
  if a = 0 then d.holdLo lo v
  else if d.regionOpen g || d.holdUsed g != 0 then (if a = 4 then { d with loHeld := mdel d.loHeld lo } else d)
  else if a = 4 then d.pairWrite lo v
  else if a = 8 then d.setFld (lo + 8) 2 0 (fld v 2 0)
  else d

/-- HOLD_CONFIG_WRITE (R242). -/
def execHoldConfigWrite (g : Fin 16) (a : BitVec 4) (v : W32) (s : State) : Host.Outcome State Fault Refusal :=
  .next { s with dev := s.dev.writes (gwReg g a.toNat) (s.dev.holdConfig g a.toNat v) }

/-- GW.CTRL.HWM_CLR (R241). -/
def Dev.holdHwmClr (d : Dev) (g : Nat) (v : W32) : Dev := if v.getLsbD 0 then d.setFld (gwReg g 0x10) 18 0 (d.holdUsed g) else d

/-- HOLD_HWM_CLR (R241). -/
def execHoldHwmClr (g : Fin 16) (v : W32) (s : State) : Host.Outcome State Fault Refusal :=
  .next { s with dev := s.dev.writes (gwReg g 0x14) (s.dev.holdHwmClr g v) }

/-! ### The stall watch (R236 to R240) -/

def Dev.setStw (d : Dev) (g : Nat) (f : Stw → Stw) : Dev := d.modRegion g (fun r => { r with stw := f r.stw })

/-- An FU meets a condition of R236. -/
def Dev.fuStuck (d : Dev) (g k : Nat) : Bool :=
  (d.fu k).held.isSome || (d.fu k).heldM.isSome || (d.fu k).oflFull || (d.rbit (stwReg g 0) 1 && d.rfld (fuRegK k 0xC) 17 0 != 0)

/-- The FUs of a region's tiles. -/
def regionFus (g : Nat) : List Nat := (List.range 136).map (fun i => g * 136 + i)

/-- Held work of a region (R236). -/
def Dev.heldWork (d : Dev) (g : Nat) : Bool := (regionFus g).any (d.fuStuck g) || !(d.region g).pool.wait.isEmpty

/-- The stall watch's unit of a region (R206). -/
def stwNode (g : Nat) : Node := .regionUnit g 5

/-- Stage 1: a forced spill is commanded of every FU that qualifies, on L4 (R202, R237). -/
def Dev.forcedSpill (d : Dev) (g : Nat) : Dev :=
  let n := d.rfld (stwReg g 8) 7 0
  ((regionFus g).filter (d.fuStuck g)).foldl (fun d k => d.sendMgmt (stwNode g) (fuDest k) (.forceSpill n)) d

/-- The contexts among which an abort takes its victims (R238), by pool index, with their effective priority: those in use, replaying ones among them. (DEDUCED, log 27.) -/
def Dev.victims (d : Dev) (g : Nat) : List (Nat × Nat) :=
  let pol := d.reg (stwReg g 0xC)
  let graph := fld pol 11 0
  let cand := ((d.region g).pool.desc.filter (fun c => cdLive c.2 && cdGraph c.2 == graph && cdPrio c.2 != 15)).map
    (fun c => (c.1, max (cdPrio c.2) (min 14 (cdBoost c.2))))
  let low := cand.foldl (fun m c => min m c.2) 15
  if graph = 0 then [] else cand.filter (fun c => c.2 == low)

/-- A victim will be reported lost: no replay is asked, it belongs to no group, or this is its group's third fault (R239, R536). -/
def Dev.victimLost (d : Dev) (c : BitVec 22) (replay : Bool) : Bool :=
  !replay ||
    (match d.rootOf c with
     | none => true
     | some r => d.groups.any (fun x => x.root == r && !x.hold && decide (2 ≤ x.faults)))

/-- One victim is faulted and freed by a sweep (R239). One of no group is a group of its own, which is lost and commits nothing. (DEDUCED, log 27.) -/
def Dev.abortOne (d : Dev) (c : BitVec 22) (replay : Bool) : Dev :=
  let x := d.ctxDesc c
  let d := d.setCtxDesc c (x ||| BitVec.ofNat 64 (2 ^ 55))
  let d := match d.rootOf c with
    | some _ => d.noteFault c (some replay)
    | none => { d with pend := d.pend.filter (fun p => p.lost || p.root != c) }.loseGroup { root := c, graph := cdGraph x, prio := cdPrio x }
  d.startSweep c

/-- An abort under way: the contexts it has taken, whether one of them is lost. -/
structure Abort where
  dev  : Dev
  n    : Nat := 0
  lost : Bool := false

/-- Take the next candidate, unless POLICY.MAX are taken or a victim before it has set it sweeping (R238, R240). -/
def Abort.take (a : Abort) (maxN : Nat) (c : BitVec 22) (replay : Bool) : Abort :=
  if a.n < maxN && cdLive (a.dev.ctxDesc c) then { dev := a.dev.abortOne c replay, n := a.n + 1, lost := a.lost || a.dev.victimLost c replay } else a

/-- An abort (R238, R239). -/
def Dev.stallAbort (d : Dev) (g : Nat) : Dev :=
  match d.victims g with
  | [] => d.setBit (stwReg g 0x10) 3 true
  | (i, prio) :: vs =>
    let pol := d.reg (stwReg g 0xC)
    let a := ((i, prio) :: vs).foldl (fun (a : Abort) v => a.take (max 1 (fld pol 31 16)) (BitVec.ofNat 22 (g * 2 ^ 18 + v.1)) (pol.getLsbD 12)) { dev := d }
    let d := (a.dev.setBit (stwReg g 0x10) 4 true).addSat16 (stwReg g 0x1C) a.n
    let d := d.setReg (stwReg g 0x14) (BitVec.ofNat 32 (fld pol 11 0 * 65536 + prio * 256 + (if a.lost then 1 else 0)))
    d.setReg (stwReg g 0x18) (BitVec.ofNat 32 (min 65535 a.n))

/-- A window expires (R237): progress, or no held work, returns the watch to stage 0. -/
def Dev.stallExpiry (d : Dev) (g : Nat) : Dev :=
  if !d.rbit (stwReg g 0) 0 || !d.regionOpen g then d.setStw g (fun s => { s with stage := 0, progress := false })
  else
    let s := (d.region g).stw
    if s.progress || !d.heldWork g then d.setStw g (fun s => { s with stage := 0, progress := false, forceFail := false })
    else if s.stage = 0 then (d.setStw g (fun s => { s with stage := 1, forceFail := false })).forcedSpill g
    else
      let full := (regionFus g).any (fun k => (d.fu k).oflFull) || s.forceFail
      let d := d.setStw g (fun s => { s with stage := 3 })
      let victims := !(d.victims g).isEmpty
      let d := if full then d.stallAbort g else d.setBit (stwReg g 0x10) 5 true
      d.raise (256 + 4 * g) 2 ((if full then 0 else 1) + (if full && victims then 2 else 0) + (if full && !victims then 4 else 0))

/-- STALL_WINDOW_EXPIRY (R237). -/
def execStallWindowExpiry (g : Fin 16) (s : State) : Host.Outcome State Fault Refusal :=
  .next { s with dev := s.dev.stallExpiry g }

/-- One whole window with progress has passed: the groups of contexts homed here that an abort took are released for replay (R239). -/
def Dev.abortRelease (d : Dev) (g : Nat) : Dev :=
  let s := (d.region g).stw
  if s.progress then
    { (d.setStw g (fun s => { s with stage := 0, progress := false })) with
      groups := d.groups.map (fun (x : Group) => if x.stw && x.root.toNat / 2 ^ 18 == g then { x with stw := false } else x) }
  else d

/-- ABORT_REPLAY_RELEASE (R239). -/
def execAbortReplayRelease (g : Fin 16) (s : State) : Host.Outcome State Fault Refusal :=
  .next { s with dev := s.dev.abortRelease g }

/-- A write of STW.WINDOW restarts the current window's count; the stage stays (R240). -/
def Dev.stwWindow (d : Dev) (g : Nat) (v : W32) : Dev := d.setFld (stwReg g 4) 19 0 (fld v 19 0)

/-- STW_WINDOW_WRITE (R240). -/
def execStwWindowWrite (g : Fin 16) (v : W32) (s : State) : Host.Outcome State Fault Refusal :=
  .next { s with dev := s.dev.writes (stwReg g 4) (s.dev.stwWindow g v) }

end Sys2Proof.Machine
end

