-- ==== Sys2Proof/Machine/StrideMath.lean ====
section
/-!
DEFINITION. The arithmetic of the Stride engine (R255 to R260): binary32 values with the flags raised on their way,
lane sums, window coefficients, transforms, and the definition of each block operation over lists of elements. An
element list holds binary32 words; a complex element is two of them.
-/
namespace Sys2Proof.Machine

/-! ### Values and sums (R255) -/

/-- A binary32 value and the flags raised on the way to it. -/
structure SVal where
  b  : Nat := 0
  fl : BitVec 5 := 0
  deriving DecidableEq, Repr, Inhabited

/-- Every NaN result is 0x7FC0_0000. -/
def seCanon (b : Nat) : Nat := if isNan f32 b then 0x7FC00000 else b

/-- The value of an operation over `xs`: NV where it is invalid or reads a NaN, OF where it overflows. (DEDUCED, log 30.) -/
def seVal (r : FRes) (xs : List SVal) : SVal :=
  { b := seCanon r.bits
    fl := xs.foldl (fun m x => m ||| x.fl) ((r.fl &&& (flNV ||| flOF)) ||| (if xs.any (fun x => isNan f32 x.b) then flNV else 0)) }

def sv (b : Nat) : SVal := { b := b }
def sAdd (a b : SVal) : SVal := seVal (fAdd f32 0 true a.b b.b) [a, b]
def sSub (a b : SVal) : SVal := seVal (fSub f32 0 true a.b b.b) [a, b]
def sMul (a b : SVal) : SVal := seVal (fMul f32 0 true a.b b.b) [a, b]
def sDiv (a b : SVal) : SVal := seVal (fDiv f32 0 true a.b b.b) [a, b]
def sSqrt (a : SVal) : SVal := seVal (fSqrt f32 0 true a.b) [a]
def sFma (a b c : SVal) : SVal := seVal (fFma f32 0 true a.b b.b c.b) [a, b, c]
def sAbs (a : SVal) : SVal := seVal { bits := fAbs f32 a.b } [a]
def sMax (a b : SVal) : SVal := seVal (fMinMax f32 true true a.b b.b) [a, b]
def sMin (a b : SVal) : SVal := seVal (fMinMax f32 true false a.b b.b) [a, b]
/-- An integer as binary32. -/
def sInt (v : Int) : SVal := { b := (fOfInt f32 0 v).bits }
def fOne : Nat := 0x3F800000
def fHalf : Nat := 0x3F000000
def fQuarter : Nat := 0x3E800000
/-- 2^−k. -/
def fPow2Neg (k : Nat) : Nat := (127 - k) * 2 ^ 23

def sGt (a b : Nat) : Bool := !isNan f32 a && !isNan f32 b && fCmp f32 a b == 2
def sGe (a b : Nat) : Bool := !isNan f32 a && !isNan f32 b && decide (1 ≤ fCmp f32 a b)

/-- Neighbours added in pairs. -/
def pairUp : List SVal → List SVal
  | a :: b :: r => sAdd a b :: pairUp r
  | l => l

/-- A sum over elements, given with their indices: 16 lane sums in element order, then the lanes in pairs. (DEDUCED, log 30.) -/
def laneSum (xs : List (Nat × SVal)) : SVal :=
  let lanes := (List.range 16).map (fun l => (xs.filter (fun x => x.1 % 16 == l)).foldl (fun m x => sAdd m x.2) (sv 0))
  (pairUp (pairUp (pairUp (pairUp lanes)))).headD (sv 0)

/-- Elements with their indices from `i` on. -/
def indexed (i : Nat) : List SVal → List (Nat × SVal)
  | [] => []
  | x :: xs => (i, x) :: indexed (i + 1) xs

/-- (DEDUCED, log 30.) -/
def sumOf (xs : List SVal) : SVal := laneSum (indexed 0 xs)

/-- Flags raised by a list of values. -/
def flagsOf (xs : List SVal) : BitVec 5 := xs.foldl (fun m x => m ||| x.fl) 0

/-- The n-th word of a list. -/
def wordAt (xs : List Nat) (n : Nat) : Nat := xs.getD n 0

/-! ### Exact numbers -/

/-- A rational of sign `s` rounded once to binary32. -/
def roundRat (s : Bool) (num den : Nat) : Nat :=
  if num = 0 then fZero f32 s
  else if den = 0 then fInf f32 s
  else
    let k := 64 + bitLen den
    (fRound f32 0 s (num * 2 ^ k / den) (-(k : Int)) (num * 2 ^ k % den != 0)).bits

/-- The root of a rational rounded once to binary32. -/
def roundSqrtRat (num den : Nat) : Nat :=
  if num = 0 then 0
  else if den = 0 then fInf f32 false
  else
    let k := 64 + bitLen den
    let q := num * 2 ^ (2 * k) / den
    let r := isqrt q
    (fRound f32 0 false r (-(k : Int)) (r * r != q || num * 2 ^ (2 * k) % den != 0)).bits

/-- A finite binary32 value in units of 2^−149. -/
def fixOf (b : Nat) : Int :=
  let n := (fMant f32 b * 2 ^ (fScale f32 b + 149).toNat : Nat)
  if fSign f32 b then -(n : Int) else n

def isFinite32 (b : Nat) : Bool := !isNan f32 b && !isInf f32 b

/-- π in units of 2^−200. -/
def piFix : Nat := 0x3243f6a8885a308d313198a2e03707344a4093822299f31d008

def cosUnit : Nat := 2 ^ 200

/-- The cosine series: `term` is the k-th term. -/
def cosGo (x2 : Int) : Nat → Nat → Int → Int → Int
  | 0, _, _, acc => acc
  | n + 1, k, term, acc =>
    let next := -(term * x2 / (cosUnit : Int)) / (((2 * k + 1) * (2 * k + 2) : Nat) : Int)
    cosGo x2 n (k + 1) next (acc + next)

/-- cos(2πm/n) in units of 2^−200. -/
def cosFix (m n : Nat) : Int :=
  let r := min (m % n) (n - m % n)
  let x : Int := ((2 * piFix * r / n : Nat) : Int)
  cosGo (x * x / (cosUnit : Int)) 44 0 cosUnit cosUnit

/-- sin(2πm/n) in units of 2^−200. -/
def sinFix (m n : Nat) : Int := cosFix (4 * (m % n) + 3 * n) (4 * n)

/-! ### WINDOW -/

/-- Cosine coefficients of a window in units of 10^−9, the constant first (R257). -/
def windowCoefs (kind : Nat) : List Int :=
  match kind with
  | 0 => [500000000, -500000000]
  | 1 => [540000000, -460000000]
  | 2 => [215578950, -416631580, 277263158, -83578947, 6947368]
  | _ => [358750000, -488290000, 141280000, -11680000]

/-- The exact coefficient w[i] of a periodic window of `e` points, in units of 10^−9 × 2^−200. -/
def windowFix (kind e i : Nat) : Int :=
  (((windowCoefs kind).zip (List.range 5)).map (fun p => p.1 * cosFix (p.2 * i) e)).foldl (· + ·) 0

def windowUnit : Nat := 10 ^ 9 * cosUnit

def roundInt (v : Int) (den : Nat) : Nat := roundRat (decide (v < 0)) v.natAbs den

/-- NORM's factor g from exact coefficients in a unit of 1/den (R257). (DEDUCED, log 30.) -/
def windowGain (norm e den : Nat) (ws : List Int) : Nat :=
  if norm = 1 then (let s := ws.foldl (· + ·) 0; roundRat (decide (s < 0)) (e * den) s.natAbs)
  else roundSqrtRat (e * den * den) (ws.foldl (fun m w => m + w.natAbs * w.natAbs) 0)

/-- g from user coefficients that are not all finite. -/
def windowGainSpecial (norm : Nat) (ws : List Nat) : SVal :=
  let pos := ws.any (fun w => isInf f32 w && !fSign f32 w)
  let neg := ws.any (fun w => isInf f32 w && fSign f32 w)
  if ws.any (isNan f32) || (norm == 1 && pos && neg) then { b := 0x7FC00000, fl := flNV }
  else { b := fZero f32 (norm == 1 && neg) }

/-- The coefficients that multiply the elements. -/
def windowTable (kind norm e : Nat) (user : List Nat) : List SVal :=
  let fix := if kind = 4 then [] else (List.range e).map (windowFix kind e)
  let ws : List Nat := if kind = 4 then user else fix.map (fun v => roundInt v windowUnit)
  if norm = 0 ∨ 2 < norm then ws.map sv
  else
    let g : SVal :=
      if kind ≠ 4 then sv (windowGain norm e windowUnit fix)
      else if user.all isFinite32 then sv (windowGain norm e (2 ^ 149) (user.map fixOf))
      else windowGainSpecial norm user
    ws.map (fun w => sMul (sv w) g)

/-! ### Transforms -/

/-- A complex number in exact units. -/
abbrev CFix := Int × Int

/-- One point of an exact discrete transform of `xs` (n points), in units of 2^−200 of theirs. -/
def dftPoint (inv : Bool) (n k : Nat) (xs : List (Nat × CFix)) : CFix :=
  xs.foldl (fun (m : CFix) (x : Nat × CFix) =>
    let c := cosFix (x.1 * k) n
    let s := if inv then sinFix (x.1 * k) n else -(sinFix (x.1 * k) n)
    (m.1 + x.2.1 * c - x.2.2 * s, m.2 + x.2.1 * s + x.2.2 * c)) (0, 0)

def numbered (xs : List α) : List (Nat × α) := (List.range xs.length).zip xs

/-- Components taken two by two. -/
def pairs : List α → List (α × α)
  | a :: b :: r => (a, b) :: pairs r
  | _ => []

def unpairs (xs : List (α × α)) : List α := xs.flatMap (fun p => [p.1, p.2])

/-- The exact result of a transform opcode over exact components: its components in the order of its result frame (R257). -/
def exactTransform (code : Nat) (xs : List Int) : List Int :=
  match code with
  | 0x383 =>
    let n := xs.length
    let ps := numbered (xs.map (fun x => ((x, 0) : CFix)))
    let pt := fun k => dftPoint false n k ps
    unpairs (((pt 0).1, (pt (n / 2)).1) :: (List.range (n / 2 - 1)).map (fun i => pt (i + 1)))
  | 0x384 =>
    let ps : List CFix := pairs xs
    let h := ps.length
    let p0 : CFix := ps.headD (0, 0)
    let full : List CFix := (p0.1, 0) :: ps.drop 1 ++ (p0.2, 0) :: ((ps.drop 1).reverse.map (fun (p : CFix) => (p.1, -p.2)))
    (List.range (2 * h)).map (fun k => (dftPoint true (2 * h) k (numbered full)).1)
  | _ =>
    let ps : List CFix := pairs xs
    unpairs ((List.range ps.length).map (fun k => dftPoint (code == 0x382) ps.length k (numbered ps)))

/-- A transform's result (R257): the engine's bits, which lie within the stated error of the exact transform. Where an element is not finite, or the exact result
lies outside binary32, nothing bounds them; where an intermediate value might overflow, the flags are open. (DESIGN CHOICE, log 10.) -/
def seTransform (code : Nat) (scale : Bool) (n : Nat) (xs : List Nat) : List SVal :=
  let out := fun (m : Nat) => (List.range m).map (fun i => seCanon (Config.transform code scale xs i).toNat)
  let m := xs.length
  let ints := xs.map fixOf
  let open_ := Config.transformFlags code scale xs &&& (flNV ||| flOF)
  let exact := exactTransform code ints
  let div : Nat := if scale then n else 1
  let near := exact.map (fun v => roundInt v (div * cosUnit * 2 ^ 149))
  if !(xs.all isFinite32 && near.all isFinite32) then
    (out m).map (fun b => { b := b, fl := open_ ||| (if xs.any (isNan f32) then flNV else 0) })
  else
    let fl := if 2 ^ 275 ≤ 4 * ints.foldl (fun (s : Nat) (v : Int) => s + v.natAbs) 0 then open_ else 0
    let got := out m
    let l := Nat.log2 n
    let err : Nat := ((got.map fixOf).zip exact).foldl (fun (s : Nat) (p : Int × Int) => s + (p.1 * (div : Int) * (cosUnit : Int) - p.2).natAbs ^ 2) 0
    let ref : Nat := exact.foldl (fun (s : Nat) (v : Int) => s + v.natAbs ^ 2) 0
    (if got.all isFinite32 && decide (err * 10 ^ 16 ≤ (15 * l) ^ 2 * ref) then got else near).map (fun b => { b := b, fl := fl })

/-! ### Spectra -/

/-- A format wide enough that nothing overflows or is lost between √, squares and sums of binary32 values. -/
def fWide : Fmt := ⟨12, 23⟩

def wideOf (b : Nat) : Nat := (fCvt f32 fWide 0 true b).bits

/-- √(re² + im²) × 2^−k without intermediate overflow. (DEDUCED, log 30.) -/
def seMag (k : Nat) (re im : Nat) : SVal :=
  let a := wideOf re
  let b := wideOf im
  let s := (fAdd fWide 0 true (fMul fWide 0 true a a).bits (fMul fWide 0 true b b).bits).bits
  let r := (fMul fWide 0 true (fSqrt fWide 0 true s).bits (fPack fWide false (2047 - k) 0)).bits
  seVal (fCvt fWide f32 0 true r) [sv re, sv im]

/-- (re² + im²) × 2^−k. -/
def sePow (k : Nat) (re im : Nat) : SVal := sMul (sAdd (sMul (sv re) (sv re)) (sMul (sv im) (sv im))) (sv (fPow2Neg k))

/-- MAGSPEC and PWRSPEC over components. -/
def seSpectrum (f : Nat → Nat → SVal) (packed : Bool) (xs : List Nat) : List SVal :=
  let ps : List (Nat × Nat) := pairs xs
  match packed, ps with
  | true, p0 :: rest => f p0.1 0 :: (rest.map (fun p => f p.1 p.2) ++ [f p0.2 0])
  | _, _ => ps.map (fun p => f p.1 p.2)

/-! ### Averages -/

/-- COUNT + 1, saturating. -/
def countUp (n k : Nat) : Nat := min (2 ^ 32 - 1) (n + k)

/-- One AVGLIN update of `a` by `xs` (R257). -/
def avgLin (count m : Nat) (a xs : List Nat) : List SVal :=
  if count = 0 then xs.map (fun x => seVal { bits := x } [sv x])
  else
    let r := sDiv (sv fOne) (sInt (min (count + 1) m))
    (a.zip xs).map (fun p => sAdd (sv p.1) (sMul (sSub (sv p.2) (sv p.1)) r))

/-- AVGEXP's update. -/
def avgExp (count alpha : Nat) (a xs : List Nat) : List SVal :=
  if count = 0 then xs.map (fun x => seVal { bits := x } [sv x])
  else (a.zip xs).map (fun p => sFma (sv alpha) (sSub (sv p.2) (sv p.1)) (sv p.1))

def bitsOf (xs : List SVal) : List Nat := xs.map (·.b)

/-- Groups of `q` elements. -/
def groups (q : Nat) (xs : List Nat) : List (List Nat) :=
  (List.range (xs.length / q)).map (fun i => (xs.drop (i * q)).take q)

/-- TSA over its revolutions: COUNT, A, the result and its flags; with `restart` a full average starts over. (DEDUCED, log 31.) -/
def tsaGo (m : Nat) (restart : Bool) : List (List Nat) → Nat → List Nat → List Nat → BitVec 5 → Nat × Nat × List Nat × List Nat × BitVec 5
  | [], c, a, out, fl => (c, c, a, out, fl)
  | x :: rest, c, a, _, fl =>
    let v := avgLin c m a x
    let c' := countUp c 1
    let full := restart && decide (c' = m)
    let a' := bitsOf v
    match rest with
    | [] => (c', if full then 0 else c', if full then a'.map (fun _ => 0) else a', a', fl ||| flagsOf v)
    | _ => tsaGo m restart rest (if full then 0 else c') a' a' (fl ||| flagsOf v)

/-! ### Bands and peaks -/

/-- BANDEN: bins `first` to `last`, each in the lane of its index. (DEDUCED, log 30.) -/
def bandSum (root : Bool) (xs : List Nat) (first last : Nat) : SVal :=
  let s := laneSum (indexed first (((xs.drop first).take (last + 1 - first)).map sv))
  if root then sSqrt s else s

/-- The peaks of a frame: bins with amplitudes. -/
def peakBins (xs : List Nat) : List (Nat × Nat) :=
  ((List.range (xs.length - 2)).map (fun i => (i + 1, wordAt xs (i + 1)))).filter
    (fun p => sGt p.2 (wordAt xs (p.1 - 1)) && sGe p.2 (wordAt xs (p.1 + 1)))

/-- Insert by amplitude, highest first, a lower bin before a higher one of the same amplitude. -/
def insertPeak (p : Nat × Nat) : List (Nat × Nat) → List (Nat × Nat)
  | [] => [p]
  | q :: r => if sGt p.2 q.2 then p :: q :: r else q :: insertPeak p r

/-- Take candidates that lie further than `sep` bins from those taken. -/
def takePeaks (sep : Nat) (taken : List (Nat × Nat)) : List (Nat × Nat) → List (Nat × Nat)
  | [] => taken
  | p :: r =>
    if taken.any (fun q => decide (p.1 ≤ q.1 + sep ∧ q.1 ≤ p.1 + sep)) then takePeaks sep taken r else takePeaks sep (taken ++ [p]) r

/-- Position and amplitude of a peak (R257). -/
def peakOut (interp : Bool) (xs : List Nat) (p : Nat × Nat) : SVal × SVal :=
  if !interp then (sInt p.1, sv p.2)
  else
    let a := sv (wordAt xs (p.1 - 1))
    let b := sv p.2
    let c := sv (wordAt xs (p.1 + 1))
    let ac := sSub a c
    let den := sAdd (sSub a (sMul (sv 0x40000000) b)) c
    let dl := sDiv (sMul (sv fHalf) ac) den
    (sAdd (sInt p.1) dl, sSub b (sMul (sMul (sv fQuarter) ac) dl))

/-- PEAKS: j elements. -/
def sePeaks (j sep : Nat) (interp : Bool) (xs : List Nat) : List SVal :=
  let ps := (takePeaks sep [] ((peakBins xs).foldl (fun l p => insertPeak p l) [])).take j
  let got := ps.map (peakOut interp xs)
  let rest : List (SVal × SVal) := List.replicate (j - got.length) (sv 0xBF800000, sv 0)
  unpairs (got ++ rest)

/-! ### Filters -/

/-- One FIR output at position `p` of a run of samples: Σ h[j] × s[p − j]. (DEDUCED, log 30.) -/
def firAt (taps samples : List Nat) (p : Nat) : SVal :=
  laneSum ((numbered taps).map (fun t => (t.1, sMul (sv t.2) (sv (wordAt samples (p - t.1))))))

/-- Taps rounded to binary16. -/
def tapH16 (h : Nat) : Nat := (fCvt f16 f32 0 true (fCvt f32 f16 0 true h).bits).bits

/-- The last n of a list. -/
def lastN (n : Nat) (xs : List Nat) : List Nat := xs.drop (xs.length - n)

/-- FIRDEC over history (oldest first) and samples. -/
def seFir (taps hist xs : List Nat) (dec : Nat) : List SVal :=
  let s := hist ++ xs
  (List.range (xs.length / dec)).map (fun m => firAt taps s (m * dec + dec - 1 + hist.length))

/-- Sixteen taps of one half of an antisymmetric 63-tap filter are nonzero, and its response lies within ±0.1 dB of 1 at each thousandth of the sampling frequency
from 0.02 to 0.48 (R257). (DESIGN CHOICE, log 10.) -/
def hilbertFlat (h : List Nat) : Bool :=
  h.all (fun b => isFinite32 b && !isZero f32 b) &&
  (List.range 461).all (fun k =>
    let r : Int := (numbered h).foldl (fun (s : Int) (p : Nat × Nat) => s + 2 * fixOf p.2 * sinFix ((k + 20) * (31 - 2 * p.1)) 1000) 0
    decide (98856 * 2 ^ 349 ≤ 100000 * r ∧ 100000 * r ≤ 101157 * 2 ^ 349))

/-- Taps that have the stated response: they stand in where the open ones had not. (DESIGN CHOICE, log 10.) -/
def hilbertSpare : List Nat :=
  [0x3bb66bd7, 0x3b92339d, 0x3bcb648d, 0x3c0939bd, 0x3c34f5c1, 0x3c6a8de1, 0x3c961e73, 0x3cbe9b93,
   0x3cf12979, 0x3d18d7e7, 0x3d43781b, 0x3d7ee006, 0x3dac6f6a, 0x3dfabdfe, 0x3e5643d2, 0x3f22b877]

/-- Taps 0, 2, to 30 of the engine's Hilbert filter: open but for what R257 says of them. (DESIGN CHOICE, log 10.) -/
def hilbertHalf : List Nat :=
  let h := (List.range 16).map (fun i => (Config.hilbert i).toNat)
  if hilbertFlat h then h else hilbertSpare

/-- A tap of the antisymmetric Hilbert filter of 63 taps; odd taps are zero. (DESIGN CHOICE, log 10.) -/
def hilbertTap (j : Nat) : Nat :=
  if j % 2 = 1 then 0
  else if j ≤ 30 then wordAt hilbertHalf (j / 2)
  else fNeg f32 (wordAt hilbertHalf ((62 - j) / 2))

/-- ENVELOPE over history (T + 61 samples, oldest first) and samples. -/
def seEnvelope (taps hist xs : List Nat) (dec : Nat) : List SVal :=
  let s := hist ++ xs
  let t := taps.length
  let u := (List.range (xs.length + 62)).map (fun q => firAt taps s (q + t - 1))
  let at_ := fun (i : Nat) => u.getD i (sv 0)
  let v := fun (n : Nat) => laneSum ((List.range 32).map (fun i => (i, sMul (sv (hilbertTap (2 * i))) (at_ (n + 62 - 2 * i)))))
  let a := fun (n : Nat) => let x := at_ (n + 31); let y := v n; sSqrt (sAdd (sMul x x) (sMul y y))
  (List.range (xs.length / dec)).map (fun m => sDiv (sumOf ((List.range dec).map (fun i => a (m * dec + i)))) (sInt dec))

/-! ### Order tracking (R260) -/

/-- A word as a signed number. -/
def int32 (w : Nat) : Int := if w < 2 ^ 31 then w else (w : Int) - 2 ^ 32

/-- A binary64 value as an integer rounded down. -/
def floor64 (b : Nat) : Int := let n := (fToNat f64 3 b).1; if fSign f64 b then -(n : Int) else n

/-- u(m) of revolution r in binary64: t × 1000 / ts. -/
def angleU (pulses : List Int) (ppr q ts r m : Nat) : Nat :=
  let i := r * ppr + m * ppr / q
  let p0 := pulses.getD i 0
  let p1 := pulses.getD (i + 1) 0
  let t := p0 * (q : Int) + ((m * ppr % q : Nat) : Int) * (p1 - p0)
  (fDiv f64 0 true (fOfInt f64 0 (t * 1000)).bits (fOfInt f64 0 ((ts * q : Nat) : Int)).bits).bits

/-- Every u of a revolution, or none where one lies too near the frame's ends. -/
def angleRev (pulses : List Int) (ppr q ts e r : Nat) : Option (List Nat) :=
  let us := (List.range q).map (angleU pulses ppr q ts r)
  if us.all (fun u => decide (0 ≤ floor64 u - 1 ∧ floor64 u + 2 ≤ (e : Int) - 1)) then some us else none

/-- Revolutions whose end pulse is in the list. -/
def angleRevs (np ppr : Nat) : Nat := if np = 0 then 0 else (np - 1) / ppr

/-- The lock state after the revolutions (COUNT, LASTPER). -/
def angleLock (pulses : List Int) (ppr : Nat) (c0 l0 n : Nat) : Nat × Nat :=
  (List.range n).foldl (fun (s : Nat × Nat) r =>
    let p := pulses.getD (r * ppr + ppr) 0 - pulses.getD (r * ppr) 0
    let ok := s.2 != 0 && decide (8 * (p - (s.2 : Int)).natAbs < s.2)
    (if ok then min 65535 (s.1 + 1) else 0, (p % 2 ^ 32).toNat)) (c0, l0)

/-- Four-point Lagrange interpolation of x at u. (DEDUCED, log 30.) -/
def lagrange (xs : List Nat) (u : Nat) : SVal :=
  let i := floor64 u
  let s := sv (fCvt f64 f32 0 true (fSub f64 0 true u (fOfInt f64 0 i).bits).bits).bits
  let x := fun (o : Int) => sv (wordAt xs (i + o).toNat)
  let a := sAdd s (sv fOne)
  let b := s
  let c := sSub s (sv fOne)
  let e := sSub s (sv 0x40000000)
  let six := sInt 6
  let two := sInt 2
  let w0 := sDiv (sMul (sMul b c) e) (sInt (-6))
  let w1 := sDiv (sMul (sMul a c) e) two
  let w2 := sDiv (sMul (sMul a b) e) (sInt (-2))
  let w3 := sDiv (sMul (sMul a b) c) six
  sumOf [sMul w0 (x (-1)), sMul w1 (x 0), sMul w2 (x 1), sMul w3 (x 2)]

/-! ### Statistics (R258) and learning -/

/-- A statistic of the elements. Codes 10 to 15 are reserved. -/
def seStat (code : Nat) (xs : List SVal) : SVal :=
  let e := sInt xs.length
  let mean := sDiv (sumOf xs) e
  let moment := fun (f : SVal → SVal) => sDiv (sumOf (xs.map (fun x => f (sSub x mean)))) e
  let m2 := moment (fun x => sMul x x)
  let first := let x := xs.headD (sv 0); seVal { bits := x.b } [x]
  let lo := (xs.drop 1).foldl sMin first
  let hi := (xs.drop 1).foldl sMax first
  let rms := sSqrt (sDiv (sumOf (xs.map (fun x => sMul x x))) e)
  let peak := sMax (sAbs lo) (sAbs hi)
  let zero := fun (v : SVal) => isZero f32 v.b
  match code with
  | 0 => mean
  | 1 => rms
  | 2 => sSqrt m2
  | 3 => lo
  | 4 => hi
  | 5 => peak
  | 6 => sSub hi lo
  | 7 => if zero rms then { sv 0 with fl := rms.fl } else sDiv peak rms
  | 8 => if zero m2 then { sv 0 with fl := m2.fl } else sDiv (moment (fun x => sMul (sMul x x) x)) (sMul m2 (sSqrt m2))
  | _ => if zero m2 then { sv 0 with fl := m2.fl } else sDiv (moment (fun x => let y := sMul x x; sMul y y)) (sMul m2 m2)

/-- A statistic with the rule for elements that are not finite. (DESIGN CHOICE, log 32.) -/
def seStatistic (code : Nat) (xs : List Nat) : SVal :=
  if !xs.all isFinite32 && !(3 ≤ code && code ≤ 6) then { b := 0x7FC00000, fl := flNV }
  else
    let v := seStat code (xs.map sv)
    if xs.all isFinite32 then v else { v with fl := v.fl ||| flNV }

/-- Flags of both passes of STATS, whichever statistics are selected. -/
def statFlags (xs : List Nat) : BitVec 5 := (seStatistic 8 xs).fl ||| (seStatistic 9 xs).fl

/-- BASELINE's update of (μ, M2) with the count after it (R257). -/
def learn (count : Nat) (x mu m2 : Nat) : SVal × SVal :=
  let d := sSub (sv x) (sv mu)
  let mu' := sAdd (sv mu) (sDiv d (sInt count))
  (mu', sAdd (sv m2) (sMul d (sSub (sv x) mu')))

/-- DEVIATE of one element. -/
def deviate (count x mu m2 : Nat) : SVal :=
  if count < 2 then sv 0
  else
    let s := sSqrt (sDiv (sv m2) (sInt ((count : Int) - 1)))
    let d := sSub (sv x) (sv mu)
    if isZero f32 s.b then
      (if isNan f32 d.b then d
       else if isZero f32 d.b then { sv 0 with fl := d.fl ||| s.fl }
       else { sv (fInf f32 (fSign f32 d.b)) with fl := d.fl ||| s.fl })
    else sDiv d s

/-! ### THRESH (R259) -/

/-- Level of an element against its pair of limits. -/
def threshLevel (dir x alert danger : Nat) : Nat :=
  let y := if dir = 2 then fAbs f32 x else x
  let past := fun (lim : Nat) => if dir = 1 then sGt lim y else sGt y lim
  if isNan f32 x || isNan f32 alert || isNan f32 danger then 2
  else if past danger then 2 else if past alert then 1 else 0

/-- The alarm word of a frame. -/
def alarmWord (levels : List Nat) : Nat :=
  let level := levels.foldl max 0
  let first := if level = 0 then 0 else (levels.findIdx? (· == level)).getD 0
  level + first * 2 ^ 16 + (levels.filter (fun l => decide (1 ≤ l))).length * 2 ^ 32 + (levels.filter (· == 2)).length * 2 ^ 48

end Sys2Proof.Machine
end

