-- ==== Sys2Proof/Machine/Stride.lean ====
section
/-!
DEFINITION. The Stride engine (07_stride_engine.md): frames and the Z area (R244 to R247), the checks of R248, state
frames and replay (R251 to R254), the block operations, the end of an operation (R176) and the engine's reset (R264).
-/
namespace Sys2Proof.Machine

/-! ### Frames (R48, R49, R245) -/

/-- A frame descriptor (R48); `n` is LEN + 1. -/
structure Frame where
  home  : Nat := 0
  bank  : Nat := 0
  off   : Nat := 0
  n     : Nat := 1
  et    : Nat := 0
  stamp : Nat := 0
  deriving DecidableEq, Repr

def Frame.ofBits (v : W64) : Frame :=
  { home := fld v 63 55, bank := fld v 54 53, off := fld v 52 37, n := fld v 36 21 + 1, et := fld v 20 17, stamp := fld v 16 0 }

def Frame.toBits (f : Frame) : W64 :=
  BitVec.ofNat 64 (f.home * 2 ^ 55 + f.bank * 2 ^ 53 + f.off * 2 ^ 37 + (f.n - 1) % 65536 * 2 ^ 21 + f.et * 2 ^ 17 + f.stamp)

/-- Bytes of an element (R49). -/
def elemSize (et : Nat) : Nat := if et = 1 then 8 else if et = 2 then 2 else 4

def Frame.bytes (f : Frame) : Nat := f.n * elemSize f.et

/-- Complex element types. -/
def isComplex (et : Nat) : Bool := et == 1 || et == 3

/-- R48, R49 and R245 hold for the engine of global cluster `c`. -/
def Frame.placed (f : Frame) (c : Nat) : Bool :=
  decide (f.et ≤ 4) && f.bank == 0 && f.home == c / 64 * 64 + c / 16 % 4 * 16 + c % 16 && decide (f.off * 4 + f.bytes ≤ 262144)

/-- Runs of bytes of bank A that share a byte. -/
def overlap (a la b lb : Nat) : Bool := decide (a < b + lb ∧ b < a + la)

/-- The components of a frame as binary32 words (R255). -/
def Dev.elems (d : Dev) (c : Nat) (x : Frame) : List Nat :=
  let base := bankAddr c 0 (x.off * 4)
  let m := x.n * (if isComplex x.et then 2 else 1)
  if x.et = 2 ∨ x.et = 3 then (List.range m).map (fun i => (fCvt f16 f32 0 false (d.readLe (base + 2 * i) 2)).bits)
  else if x.et = 4 then (List.range m).map (fun i => (fOfInt f32 0 (int32 (d.readLe (base + 4 * i) 4))).bits)
  else (List.range m).map (fun i => d.readLe (base + 4 * i) 4)

/-- `n` words of bank A from word `w` on. -/
def Dev.bankWords (d : Dev) (c w n : Nat) : List Nat := (List.range n).map (fun i => d.readLe (bankAddr c 0 (4 * (w + i))) 4)

/-- Store words in bank A from word `w` on. -/
def Dev.putWords (d : Dev) (c w : Nat) (xs : List Nat) : Dev := d.write (bankAddr c 0 (4 * w)) (xs.flatMap (leBytes 4))

/-- Leave `n` words of bank A from word `w` on undefined: each becomes a free value. (DESIGN CHOICE, log 32.) -/
def Dev.freeWords (d : Dev) (c w n : Nat) : Dev :=
  { d.putWords c w ((List.range n).map (fun i => (Config.freeValue (d.fresh + i)).toNat)) with fresh := d.fresh + n }

/-! ### What an operation asks of its operands, and what it computes -/

/-- What R256 says of an operation for given parameters, input frame and Z area. -/
structure SeSpec where
  y       : Bool := true
  shape   : Bool := true
  inPlace : Bool := false
  zlen    : Nat := 0
  p       : Nat := 0
  s       : Nat := 0
  bad     : Option Nat := none
  res     : Nat := 0
  deriving DecidableEq, Repr

/-- What an operation reads: IMM32 15:0, the frame and its components, its parameter or table words, the state copy it starts from. -/
structure SeIn where
  imm : Nat := 0
  x   : Frame := {}
  xs  : List Nat := []
  z   : List Nat := []
  st  : List Nat := []
  deriving DecidableEq, Repr

/-- What an operation gives: its result frame (elements, ETYPE, words), scalars (payload, PTYPE) for the destinations, whether a destination gets
X, the new state, HISTINC (R263), its flags. -/
structure SeRes where
  frame : Option (Nat × Nat × List Nat) := none
  a     : Option (Nat × Nat) := none
  b     : Option (Nat × Nat) := none
  passX : Bool := false
  mark  : Bool := false
  state : Option (List Nat) := none
  hist  : Bool := false
  fl    : BitVec 5 := 0
  deriving DecidableEq, Repr

/-- A frame result of binary32 values. -/
def seFrame (et : Nat) (vs : List SVal) : SeRes :=
  { frame := some (if et = 1 then vs.length / 2 else vs.length, et, bitsOf vs), fl := flagsOf vs }

/-- A fraction of parameters. -/
def bits (n hi lo : Nat) : Nat := n / 2 ^ lo % 2 ^ (hi + 1 - lo)

def pow2In (n lo hi : Nat) : Bool := decide (lo ≤ n ∧ n ≤ hi) && n == 2 ^ Nat.log2 n

/-- COUNT of a state copy, and its other words. -/
def stCount (st : List Nat) : Nat := wordAt st 0

/-! ### Status registers (R248, R265) -/

/-- (DEDUCED, log 31.) -/
def seStatusReg (tl : Nat) : Nat := seReg (tl / 17) (tl % 17) 4
def seLastErr (tl : Nat) : Nat := seReg (tl / 17) (tl % 17) 8

/-- CODE of the engine's own statuses (R250). -/
def stFRAME_PLACE : Nat := 0x501
def stFRAME_SHAPE : Nat := 0x502
def stFRAME_OVERLAP : Nat := 0x503
def stOUT_SPACE : Nat := 0x504
def stSTATE_BAD : Nat := 0x505
def stNO_REVOLUTION : Nat := 0x506

/-- The operation has its tokens. -/
def Dev.seDone (d : Dev) (tl : Nat) (toks : List Token) (fault : Bool) (fl : BitVec 5) : Dev :=
  d.modStride tl (fun s => { s with done := true, toks := toks, fault := fault, flags := fl })

/-- SE.LASTERR records a status. -/
def Dev.seLast (d : Dev) (tl code opc : Nat) : Dev := d.setReg (seLastErr tl) (BitVec.ofNat 32 (code * 65536 + opc))

/-- A status with ERR to every destination, its SE.STATUS bit set (R248, R249). -/
def Dev.seFail (d : Dev) (tl : Nat) (it : Item) (bit code detail : Nat) (fault : Bool) : Dev :=
  let d := (d.setBit (seStatusReg tl) bit true).seLast tl code (dOpc it.desc)
  d.seDone tl (d.outAll it.fir it.desc (status code (d.originOf it.fu) detail).toNat 6 true) fault 0

/-- A result token, with HISTINC also where the operation lacks history (R263). -/
def Dev.seTok (d : Dev) (it : Item) (hist : Bool) (dst : DstF) (pay ptype : Nat) : Token :=
  let t := d.outTok it.fir it.desc dst pay ptype false
  if hist then { t with ty := t.ty ||| 0x10 } else t

/-! ### The checks of R248 -/

/-- The parameters of a Stride dispatch are in range (R256). -/
def strideParam (o n : Nat) : Bool :=
  let p := n % 65536
  if o = 0x380 then decide (p < 32 ∧ p % 8 ≤ 4 ∧ p / 8 ≤ 2)
  else if o ≤ 0x384 then decide (p < 2)
  else if o ≤ 0x386 then decide (p < 64)
  else if o = 0x387 then decide (1 ≤ p % 32768)
  else if o = 0x388 ∨ o = 0x390 then p == 0
  else if o = 0x389 ∨ o = 0x38F then decide (p < 512)
  else if o = 0x38A then decide (p < 8192)
  else if o = 0x38B then true
  else if o = 0x38C then decide (p < 32768)
  else if o = 0x38D then decide (p < 8)
  else if o = 0x38E then decide (1 ≤ p / 16)
  else if o = 0x391 then decide (p < 2)
  else decide (p ≤ 2)

/-- The operation has a Z area for these parameters (R245, R256). -/
def strideHasZ (o n : Nat) : Bool :=
  if o = 0x380 then n % 8 == 4
  else [0x387, 0x388, 0x389, 0x38B, 0x38C, 0x38D, 0x38E, 0x390, 0x391, 0x392].contains o

/-- The first check from FRAME_PLACE on that fails: its SE.STATUS bit, code and detail. An operation without a Z area has ZOFF 0 (R245). `param` is the detail for
parameters of IMM32 out of range, none where they are in range. -/
def seCheck (c : Nat) (x : Frame) (y : Option Frame) (zoff : Nat) (sp : SeSpec) (header : Nat) (param : Option Nat) : Option (Nat × Nat × Nat) :=
  let zin := if sp.zlen = 0 then zoff == 0 else decide (zoff + sp.zlen ≤ 65536)
  let ov := fun (a : Frame) (lz : Nat) => lz != 0 && overlap (a.off * 4) a.bytes (zoff * 4) (lz * 4)
  if !x.placed c then some (2, stFRAME_PLACE, 0)
  else if !((y.map (fun f => f.placed c)).getD true) then some (2, stFRAME_PLACE, 1)
  else if !zin then some (2, stFRAME_PLACE, 2)
  else if !sp.shape then some (3, stFRAME_SHAPE, x.et * 4 + x.n * 64)
  else if (y.map (fun f => overlap (x.off * 4) x.bytes (f.off * 4) f.bytes && !(sp.inPlace && f.off == x.off))).getD false then
    some (4, stFRAME_OVERLAP, 1 * 4)
  else if ov x sp.zlen then some (4, stFRAME_OVERLAP, 2 * 4)
  else if (y.map (fun f => ov f sp.zlen)).getD false then some (4, stFRAME_OVERLAP, 1 + 2 * 4)
  else if sp.s ≠ 0 ∧ header / 2 ^ 18 % 2 ^ 13 ≠ 0 then some (6, stSTATE_BAD, 0)
  else
    match param.or sp.bad with
    | some i => some (6, stSTATE_BAD, i)
    | none =>
      if (y.map (fun f => decide (f.bytes < sp.res))).getD false then some (5, stOUT_SPACE, sp.res) else none

/-- The copy a stateful operation starts from, and the copy it writes (R252). -/
def seCopies (header : Nat) (replay : Bool) (stamp : Nat) : Nat × Nat :=
  let cur := header / 2 ^ 31 % 2
  if replay && header / 2 ^ 17 % 2 == 1 && header % 2 ^ 17 == stamp then (1 - cur, cur) else (cur, 1 - cur)

/-- Write what an operation computed and form its tokens (R247, R252). -/
def Dev.seWrite (d : Dev) (tl c : Nat) (it : Item) (x : Frame) (y : Option Frame) (zoff : Nat) (sp : SeSpec) (dstCopy : Nat) (r : SeRes) : Dev :=
  let d := match r.frame, y with
    | some (_, _, ws), some f => d.putWords c f.off ws
    | _, _ => d
  let d := match r.state with
    | some st => (d.putWords c (zoff + 4 + sp.p + dstCopy * sp.s) st).putWords c zoff [dstCopy * 2 ^ 31 + 2 ^ 17 + x.stamp]
    | none => d
  let fr : Option (Nat × Nat) := match r.frame, y with
    | some (n, et, _), some f => some ((Frame.toBits { f with n := n, et := et, stamp := x.stamp }).toNat, 5)
    | _, _ => none
  let mk := fun (dst : DstF) (v : Option (Nat × Nat)) => (v.map (fun p => d.seTok it r.hist dst p.1 p.2)).toList
  if r.mark then
    (d.seLast tl stNO_REVOLUTION (dOpc it.desc)).seDone tl
      ((dstsOf it.desc).map (fun z => d.seTok it r.hist z (status stNO_REVOLUTION (d.originOf it.fu) 0).toNat 6)) false (keptFlags it.desc r.fl)
  else
    let toks := match dstsOf it.desc with
      | [] => []
      | [p] => mk p (r.a.or fr)
      | p :: q :: _ =>
        mk p (r.a.or fr) ++ (if r.passX then [d.passTok it.fir it.desc q ((it.fir.port 0).getD {})] else mk q (r.b.or (r.a.or fr)))
    d.seDone tl toks false (keptFlags it.desc r.fl)

/-- Another master wrote a word of X, Y or Z while the operation ran (R264). (DESIGN CHOICE, log 32.) -/
def seTouched (hits : List Nat) (x : Frame) (y : Option Frame) (zoff zlen : Nat) : Bool :=
  hits.any (fun h =>
    let inF := fun (f : Frame) => decide (f.off ≤ h ∧ 4 * h < 4 * f.off + f.bytes)
    inF x || (y.map inF).getD false || decide (zoff ≤ h ∧ h < zoff + zlen))

/-- An undefined result (R264): its words, scalars and new state are free values from number `n` on. (DESIGN CHOICE, log 32.) -/
def SeRes.undefined (r : SeRes) (n : Nat) : SeRes :=
  let f := fun (i : Nat) => (Config.freeValue (n + i)).toNat % 2 ^ 32
  let k := 3 + (r.frame.map (fun x => x.2.2.length)).getD 0
  { r with
    frame := r.frame.map (fun x => (x.1, x.2.1, (List.range x.2.2.length).map (fun i => f (3 + i))))
    a := r.a.map (fun p => (f 0, p.2)), b := r.b.map (fun p => (f 1, p.2))
    fl := BitVec.ofNat 5 (f 2) &&& (flNV ||| flOF)
    state := r.state.map (fun s => (List.range s.length).map (fun i => f (k + i))) }

/-- How many free values an undefined result takes. -/
def SeRes.size (r : SeRes) : Nat := 3 + (r.frame.map (fun x => x.2.2.length)).getD 0 + (r.state.map List.length).getD 0

/-- The block operation of opcode `code` runs on the engine of a tile. `e` is the worst outcome of its reads of bank A, at word `w`. (DEDUCED, log 31.) -/
def Dev.seRun (d : Dev) (tl code : Nat) (e : Ecc) (w : BitVec 16) (spec : Nat → Frame → (Nat → Nat) → SeSpec) (run : SeIn → SeRes) : Dev :=
  match (d.tile tl).stride.run with
  | none => d
  | some it =>
    if dOpc it.desc ≠ code ∨ (d.tile tl).stride.done then d
    else
      let f := it.fir
      let t0 := (f.port 0).getD {}
      let c := regionOf t0.tag.die.toNat t0.tag.rgn.toNat * 16 + t0.tag.clu.toNat
      let x := Frame.ofBits t0.pay
      let imm := (dImm it.desc).toNat
      let zoff := imm / 65536
      let zw := fun (i : Nat) => d.readLe (bankAddr c 0 (4 * (zoff + i))) 4
      let sp := spec (imm % 65536) x zw
      let y := if sp.y then (f.port 1).map (fun t => Frame.ofBits t.pay) else none
      match f.errTok with
      | some (_, t) => d.seDone tl (d.outAll f it.desc t.pay.toNat 6 true) false 0
      | none =>
        if Token.ptype t0 = 6 then d.seDone tl ((dstsOf it.desc).map (fun z => d.passTok f it.desc z t0)) false 0
        else
          match f.toks.find? (fun p => Token.ptype p.2 != 5) with
          | some p => d.seFail tl it 1 stTYPE_MISMATCH (p.1 + Token.ptype p.2 * 8) false
          | none =>
            let header := if sp.s = 0 then 0 else zw 0
            let odd := if strideParam code imm then none else some ((Config.freeValue d.fresh).toNat % 65536)
            let d : Dev := if odd.isSome then { d with fresh := d.fresh + 1 } else d
            let bank := d.bank tl 0
            match seCheck c x y zoff sp header odd with
            | some (bit, st, detail) => d.seFail tl it bit st detail false
            | none =>
              -- the bank turns on, or a write cycle is under way in it: the access waits (R305, R311)
              if bank.target = some 2 ∨ !bank.second.isEmpty then d
              else if bank.state ≠ 2 ∨ bank.target.isSome then
                let d := (d.setBit (spmR tl 0xC) 1 true).seLast tl stACCESS code
                d.seDone tl (d.outAll f it.desc (status stACCESS (d.originOf it.fu) (bankAddr c 0 (4 * x.off))).toNat 6 true) true 0
              else
                let d := match e with
                  | .ce => d.addSat16 (spmR tl 8) 1
                  | _ => d
                match e with
                | .ue _ =>
                  let d := (d.spmUe tl (4 * w.toNat)).freeWords c ((y.map (·.off)).getD 0) ((y.map (fun f => f.bytes / 4)).getD 0)
                  let d := if sp.s = 0 ∨ code = 0x391 then d else d.freeWords c (zoff + 4 + sp.p + (seCopies header (Token.replay t0) x.stamp).2 * sp.s) sp.s
                  d.seFail tl it 7 stMEM_UE (bankAddr c 0 (4 * w.toNat)) true
                | _ =>
                  let (src, dst) := seCopies header (Token.replay t0) x.stamp
                  let z := d.bankWords c zoff (if sp.s = 0 then sp.zlen else 4 + sp.p)
                  let z := if code = 0x38D then d.bankWords c zoff sp.zlen else z
                  let src := if code = 0x391 then header / 2 ^ 31 % 2 else src
                  let r := run { imm := imm % 65536, x := x, xs := d.elems c x, z := z, st := d.bankWords c (zoff + 4 + sp.p + src * sp.s) sp.s }
                  if seTouched (d.tile tl).stride.hits x y zoff sp.zlen then
                    { d with fresh := d.fresh + r.size }.seWrite tl c it x y zoff sp dst (r.undefined d.fresh)
                  else d.seWrite tl c it x y zoff sp dst r

/-! ### The operations (R256, R257) -/

def seRealIn (x : Frame) : Bool := x.et == 0 || x.et == 2

def specWindow (imm : Nat) (x : Frame) (_ : Nat → Nat) : SeSpec :=
  { shape := decide (x.et ≤ 3), inPlace := decide (x.et ≤ 1), zlen := if bits imm 2 0 = 4 then x.n else 0
    res := x.n * (if isComplex x.et then 8 else 4) }
def seWindow (i : SeIn) : SeRes :=
  let ws := windowTable (bits i.imm 2 0) (bits i.imm 4 3) i.x.n i.z
  let cs := if isComplex i.x.et then ws.flatMap (fun w => [w, w]) else ws
  seFrame (if isComplex i.x.et then 1 else 0) ((i.xs.zip cs).map (fun p => sMul (sv p.1) p.2))

def specFft (_ : Nat) (x : Frame) (_ : Nat → Nat) : SeSpec :=
  { shape := isComplex x.et && pow2In x.n 16 32768, inPlace := x.et == 1, res := 8 * x.n }
def seFft (code : Nat) (i : SeIn) : SeRes := seFrame 1 (seTransform code (i.imm % 2 == 1) i.x.n i.xs)

def specRfft (_ : Nat) (x : Frame) (_ : Nat → Nat) : SeSpec :=
  { shape := seRealIn x && pow2In x.n 32 65536, inPlace := x.et == 0, res := 4 * x.n }
def seRfft (i : SeIn) : SeRes := seFrame 1 (seTransform 0x383 (i.imm % 2 == 1) i.x.n i.xs)

def specRifft (_ : Nat) (x : Frame) (_ : Nat → Nat) : SeSpec :=
  { shape := x.et == 1 && pow2In x.n 16 32768, inPlace := true, res := 8 * x.n }
def seRifft (i : SeIn) : SeRes := seFrame 0 (seTransform 0x384 (i.imm % 2 == 1) (2 * i.x.n) i.xs)

def specSpectrum (imm : Nat) (x : Frame) (_ : Nat → Nat) : SeSpec :=
  { shape := isComplex x.et, inPlace := x.et == 1, res := 4 * (x.n + bits imm 5 5) }
def seMagspec (i : SeIn) : SeRes := seFrame 0 (seSpectrum (seMag (i.imm % 32)) (bits i.imm 5 5 == 1) i.xs)
def sePwrspec (i : SeIn) : SeRes := seFrame 0 (seSpectrum (sePow (i.imm % 32)) (bits i.imm 5 5 == 1) i.xs)

def stateLen (p s : Nat) : Nat := 4 + p + 2 * s

def specAvglin (_ : Nat) (x : Frame) (_ : Nat → Nat) : SeSpec :=
  { shape := x.et == 0, inPlace := true, zlen := stateLen 0 (1 + x.n), s := 1 + x.n, res := 4 * x.n }
def seAvglin (i : SeIn) : SeRes :=
  let m := bits i.imm 14 0
  let v := avgLin (stCount i.st) m (i.st.drop 1) i.xs
  let c := countUp (stCount i.st) 1
  let empty := i.imm.testBit 15 && decide (c = m)
  { seFrame 0 v with state := some (if empty then List.replicate (1 + i.x.n) 0 else c :: bitsOf v), hist := decide (c < m) }

def specAvgexp (_ : Nat) (x : Frame) (zw : Nat → Nat) : SeSpec :=
  { shape := x.et == 0, inPlace := true, zlen := stateLen 2 (1 + x.n), p := 2, s := 1 + x.n, res := 4 * x.n
    bad := if 0 < zw 4 ∧ zw 4 ≤ fOne then none else some 4 }
def seAvgexp (i : SeIn) : SeRes :=
  let v := avgExp (stCount i.st) (wordAt i.z 4) (i.st.drop 1) i.xs
  let c := countUp (stCount i.st) 1
  { seFrame 0 v with state := some (c :: bitsOf v), hist := decide (c < wordAt i.z 5) }

/-- (DEDUCED, log 31.) -/
def specBanden (imm : Nat) (x : Frame) (zw : Nat → Nat) : SeSpec :=
  let b := bits imm 7 0 + 1
  let bad := (List.range b).find? (fun k => decide (int32 (zw (2 * k)) < 0 ∨ int32 (zw (2 * k + 1)) < int32 (zw (2 * k)) ∨ (x.n : Int) ≤ int32 (zw (2 * k + 1))))
  { shape := x.et == 0, inPlace := decide (b ≤ x.n), zlen := 2 * b, bad := bad.map (fun k => 2 * k), res := 4 * b }
def seBanden (i : SeIn) : SeRes :=
  seFrame 0 ((List.range (bits i.imm 7 0 + 1)).map (fun b => bandSum (i.imm.testBit 8) i.xs (wordAt i.z (2 * b)) (wordAt i.z (2 * b + 1))))

def specPeaks (imm : Nat) (x : Frame) (_ : Nat → Nat) : SeSpec :=
  let j := bits imm 5 0 + 1
  { shape := x.et == 0 && decide (3 ≤ x.n), inPlace := decide (2 * j ≤ x.n), res := 8 * j }
def sePeaksOp (i : SeIn) : SeRes :=
  let r := seFrame 1 (sePeaks (bits i.imm 5 0 + 1) (bits i.imm 11 6) (i.imm.testBit 12) i.xs)
  { r with fl := r.fl ||| (if i.xs.any (isNan f32) then flNV else 0) }

/-- T and D of a filter's parameters. -/
def firT (imm : Nat) : Nat := bits imm 8 0 + 1
def firD (imm : Nat) : Nat := bits imm 14 9 + 1

def specFirdec (imm : Nat) (x : Frame) (_ : Nat → Nat) : SeSpec :=
  { shape := seRealIn x && x.n % firD imm == 0 && (!imm.testBit 15 || x.et == 2), inPlace := true
    zlen := stateLen (firT imm) (firT imm), p := firT imm, s := firT imm, res := 4 * (x.n / firD imm) }
def seFirdec (i : SeIn) : SeRes :=
  let t := firT i.imm
  let taps := (i.z.drop 4).take t
  let taps := if i.imm.testBit 15 then taps.map tapH16 else taps
  let hist := i.st.drop 1
  let v := seFir taps hist i.xs (firD i.imm)
  { seFrame 0 v with
    state := some (countUp (stCount i.st) i.x.n :: lastN (t - 1) (hist ++ i.xs)), hist := decide (stCount i.st < t - 1) }

def specEnvelope (imm : Nat) (x : Frame) (_ : Nat → Nat) : SeSpec :=
  { shape := seRealIn x && x.n % firD imm == 0, inPlace := true
    zlen := stateLen (firT imm) (firT imm + 62), p := firT imm, s := firT imm + 62, res := 4 * (x.n / firD imm) }
def seEnvelopeOp (i : SeIn) : SeRes :=
  let t := firT i.imm
  let hist := i.st.drop 1
  let v := seEnvelope ((i.z.drop 4).take t) hist i.xs (firD i.imm)
  { seFrame 0 v with
    state := some (countUp (stCount i.st) i.x.n :: lastN (t + 61) (hist ++ i.xs)), hist := decide (stCount i.st < t + 61) }

/-- Q of ANGLERS and TSA. -/
def anglQ (imm : Nat) : Nat := 2 ^ (bits imm 2 0 + 5)

/-- The pulse list of an ANGLERS Z area. -/
def pulsesOf (zw : Nat → Nat) : List Int := (List.range (zw 6)).map (fun i => int32 (zw (11 + i)))

/-- The revolutions ANGLERS writes, each with its positions. -/
def angleOut (imm e : Nat) (zw : Nat → Nat) : List (List Nat) :=
  let ps := pulsesOf zw
  (List.range (angleRevs (zw 6) (zw 5))).filterMap (angleRev ps (zw 5) (anglQ imm) (zw 4) e)

def specAnglers (imm : Nat) (x : Frame) (zw : Nat → Nat) : SeSpec :=
  let np := zw 6
  let ps := pulsesOf zw
  let bad :=
    if zw 4 = 0 then some 4
    else if zw 5 = 0 ∨ min 64 (anglQ imm) < zw 5 then some 5
    else if 4096 < np then some 6
    else ((List.range (np - 1)).find? (fun i => decide (ps.getD (i + 1) 0 ≤ ps.getD i 0))).map (fun i => 12 + i)
  { shape := seRealIn x && decide (4 ≤ x.n), zlen := if np ≤ 4096 then 11 + np else 11, p := 3, s := 2, bad := bad
    res := if bad.isNone then 4 * anglQ imm * (angleOut imm x.n zw).length else 0 }
def seAnglers (i : SeIn) : SeRes :=
  let zw := wordAt i.z
  let revs := angleOut i.imm i.x.n zw
  let (c, l) := angleLock (pulsesOf zw) (zw 5) (wordAt i.st 0) (wordAt i.st 1) (angleRevs (zw 6) (zw 5))
  let v := revs.flatMap (fun us => us.map (lagrange i.xs))
  { seFrame 0 v with mark := revs.isEmpty, state := some [c, l], hist := decide (c < 4) }

def specTsa (imm : Nat) (x : Frame) (_ : Nat → Nat) : SeSpec :=
  let q := anglQ imm
  { shape := x.et == 0 && x.n % q == 0, inPlace := decide (q ≤ x.n), zlen := stateLen 0 (1 + q), s := 1 + q, res := 4 * q }
def seTsa (i : SeIn) : SeRes :=
  let q := anglQ i.imm
  let m := bits i.imm 15 4
  let (after, c, a, out, fl) := tsaGo m (i.imm.testBit 3) (groups q i.xs) (stCount i.st) (i.st.drop 1) [] 0
  { frame := some (q, 0, out), state := some (c :: a), hist := decide (after < m), fl := fl }

def specStats (_ : Nat) (x : Frame) (_ : Nat → Nat) : SeSpec := { y := false, shape := x.et == 0 || x.et == 2 || x.et == 4 }

/-- STATS; a reserved statistic is a free value of its operands. -/
def seStats (i : SeIn) : SeRes :=
  let stat := fun (c : Nat) =>
    if c ≤ 9 then seStatistic c i.xs else { b := (Config.transform 0x38F false i.xs c).toNat, fl := 0 }
  let a := stat (bits i.imm 3 0)
  let b := stat (bits i.imm 7 4)
  let pass := i.imm.testBit 8
  { a := some (a.b, 3), b := some (b.b, 3), passX := pass, fl := a.fl ||| statFlags i.xs ||| (if pass then 0 else b.fl) }

def specBaseline (_ : Nat) (x : Frame) (zw : Nat → Nat) : SeSpec :=
  { shape := x.et == 0, inPlace := true, zlen := stateLen 1 (1 + 2 * x.n), p := 1, s := 1 + 2 * x.n
    bad := if 1 ≤ zw 4 ∧ zw 4 ≤ 16777216 then none else some 4, res := 4 * x.n }
def seBaseline (i : SeIn) : SeRes :=
  let l := wordAt i.z 4
  let n := i.x.n
  let c := stCount i.st
  if c < l then
    let ms := (i.xs.zip (((i.st.drop 1).take n).zip (i.st.drop (1 + n)))).map (fun (p : Nat × Nat × Nat) => learn (c + 1) p.1 p.2.1 p.2.2)
    let mu := ms.map (·.1)
    let m2 := ms.map (·.2)
    { frame := some (n, 0, i.xs), state := some ((c + 1) :: (bitsOf mu ++ bitsOf m2)), hist := decide (c + 1 < l), fl := flagsOf mu ||| flagsOf m2 }
  else { frame := some (n, 0, i.xs), state := some i.st, fl := if i.xs.any (isNan f32) then flNV else 0 }

def specDeviate (_ : Nat) (x : Frame) (zw : Nat → Nat) : SeSpec :=
  { shape := x.et == 0, inPlace := true, zlen := stateLen 1 (1 + 2 * x.n), p := 1, s := 1 + 2 * x.n
    bad := if 1 ≤ zw 4 ∧ zw 4 ≤ 16777216 then none else some 4, res := 4 * x.n }
def seDeviate (i : SeIn) : SeRes :=
  let n := i.x.n
  let c := stCount i.st
  let zs := (i.xs.zip (((i.st.drop 1).take n).zip (i.st.drop (1 + n)))).map (fun (p : Nat × Nat × Nat) => deviate c p.1 p.2.1 p.2.2)
  let r := { seFrame 0 zs with hist := decide (c < wordAt i.z 4) }
  if i.imm % 2 = 1 then
    let m := ((zs.drop 1).map sAbs).foldl sMax (sAbs (zs.headD (sv 0)))
    { r with b := some (m.b, 3), fl := r.fl ||| m.fl }
  else r

def specThresh (_ : Nat) (x : Frame) (_ : Nat → Nat) : SeSpec :=
  { y := false, shape := x.et == 0 && decide (x.n ≤ 32768), zlen := 2 * x.n }
def seThresh (i : SeIn) : SeRes :=
  let ls := (numbered i.xs).map (fun p => threshLevel (i.imm % 4) p.2 (wordAt i.z (2 * p.1)) (wordAt i.z (2 * p.1 + 1)))
  { a := some (alarmWord ls, 0), fl := if (i.xs ++ i.z).any (isNan f32) then flNV else 0 }

/-! ### The end of an operation (R176) and reset (R264) -/

def seNode (tl : Nat) : Node := .tileUnit (tl / 17) (tl % 17) 9

/-- Send a firing's result tokens from a block of tile `tl`, the last ending its service (R179). -/
def Dev.sendFrom (d : Dev) (src : Node) (tl : Nat) (flow : BitVec 20) : List Token → Dev
  | [] => d.releaseFlow tl flow
  | [t] => d.send src { d.tokenPacket t with ends := if flow != 0 then some (flow, (d.clusterOf tl).getD 0) else none }
  | t :: ts => (d.send src (d.tokenPacket t)).sendFrom src tl flow ts

/-- A firing's tokens, flags and fault leave a block of tile `tl` together. -/
def Dev.sendFiring (d : Dev) (src : Node) (tl : Nat) (f : Firing) (toks : List Token) (flags : BitVec 5) (fault : Bool) : Dev :=
  let c := Firing.ctx f
  let d := d.sendFrom src tl (Firing.flow f) toks
  let d := if flags = 0 then d else d.sendMgmt src (poolDest (c.toNat / 2 ^ 18)) (.flags c flags)
  let d := if fault then d.faultCtx src c else d
  d.progress (tl / 17)

/-- An operation that has computed sends its result; the engine takes its next item. -/
def Dev.strideEnd (d : Dev) (tl : Nat) : Dev :=
  let s := (d.tile tl).stride
  match s.run with
  | none => d
  | some it =>
    if !s.done then d
    else
      -- a DMA channel may be paced by the engine (R337)
      let d := { d with pulses := d.pulses ++ [(4, (d.logicalOf (tl / 17) (tl % 17)).getD 0, tl / 17)] }
      ((d.modStride tl (fun _ => {})).sendFiring (seNode tl) tl it.fir s.toks s.flags s.fault).strideNext tl

/-- A block reset abandons a firing of a context: the context is faulted, and its home pool sends an owner reset to the lock units (R264, R301, R326). -/
def Dev.abandonCtx (d : Dev) (c : BitVec 22) : Dev :=
  let p := poolNode (c.toNat / 2 ^ 18)
  (d.faultCtx p c).ownerReset p c

/-- The running operation is abandoned: its Y is undefined, no token leaves, its context is replayed (R264). -/
def Dev.strideAbandon (d : Dev) (tl : Nat) : Dev :=
  match (d.tile tl).stride.run with
  | none => d
  | some it =>
    let c := (d.clusterOf tl).getD 0
    let d := match it.fir.port 1 with
      | some t => let y := Frame.ofBits t.pay; if y.placed c then d.freeWords c y.off (y.bytes / 4) else d
      | none => d
    (((d.modStride tl (fun _ => {})).setBit (seStatusReg tl) 8 true).abandonCtx (Firing.ctx it.fir)).releaseFlow tl (Firing.flow it.fir)

/-- A write of SE.CTRL. -/
def Dev.seSrst (d : Dev) (tl : Nat) (v : W32) : Dev :=
  let a := seReg (tl / 17) (tl % 17) 0
  if d.resetting then d
  else
    let d := d.setBit a 0 (v.getLsbD 0)
    if v.getLsbD 0 then d.strideAbandon tl else d.strideNext tl

/-! ### Commands -/

def execWindow (g : Fin 16) (t : Fin 17) (e : Ecc) (w : BitVec 16) (s : State) : Host.Outcome State Fault Refusal :=
  .next { s with dev := s.dev.seRun (tileKey g t) 0x380 e w specWindow seWindow }
def execFft (g : Fin 16) (t : Fin 17) (e : Ecc) (w : BitVec 16) (s : State) : Host.Outcome State Fault Refusal :=
  .next { s with dev := s.dev.seRun (tileKey g t) 0x381 e w specFft (seFft 0x381) }
def execIfft (g : Fin 16) (t : Fin 17) (e : Ecc) (w : BitVec 16) (s : State) : Host.Outcome State Fault Refusal :=
  .next { s with dev := s.dev.seRun (tileKey g t) 0x382 e w specFft (seFft 0x382) }
def execRfft (g : Fin 16) (t : Fin 17) (e : Ecc) (w : BitVec 16) (s : State) : Host.Outcome State Fault Refusal :=
  .next { s with dev := s.dev.seRun (tileKey g t) 0x383 e w specRfft seRfft }
def execRifft (g : Fin 16) (t : Fin 17) (e : Ecc) (w : BitVec 16) (s : State) : Host.Outcome State Fault Refusal :=
  .next { s with dev := s.dev.seRun (tileKey g t) 0x384 e w specRifft seRifft }
def execMagspec (g : Fin 16) (t : Fin 17) (e : Ecc) (w : BitVec 16) (s : State) : Host.Outcome State Fault Refusal :=
  .next { s with dev := s.dev.seRun (tileKey g t) 0x385 e w specSpectrum seMagspec }
def execPwrspec (g : Fin 16) (t : Fin 17) (e : Ecc) (w : BitVec 16) (s : State) : Host.Outcome State Fault Refusal :=
  .next { s with dev := s.dev.seRun (tileKey g t) 0x386 e w specSpectrum sePwrspec }
def execAvglin (g : Fin 16) (t : Fin 17) (e : Ecc) (w : BitVec 16) (s : State) : Host.Outcome State Fault Refusal :=
  .next { s with dev := s.dev.seRun (tileKey g t) 0x387 e w specAvglin seAvglin }
def execAvgexp (g : Fin 16) (t : Fin 17) (e : Ecc) (w : BitVec 16) (s : State) : Host.Outcome State Fault Refusal :=
  .next { s with dev := s.dev.seRun (tileKey g t) 0x388 e w specAvgexp seAvgexp }
def execBanden (g : Fin 16) (t : Fin 17) (e : Ecc) (w : BitVec 16) (s : State) : Host.Outcome State Fault Refusal :=
  .next { s with dev := s.dev.seRun (tileKey g t) 0x389 e w specBanden seBanden }
def execPeaks (g : Fin 16) (t : Fin 17) (e : Ecc) (w : BitVec 16) (s : State) : Host.Outcome State Fault Refusal :=
  .next { s with dev := s.dev.seRun (tileKey g t) 0x38A e w specPeaks sePeaksOp }
def execFirdec (g : Fin 16) (t : Fin 17) (e : Ecc) (w : BitVec 16) (s : State) : Host.Outcome State Fault Refusal :=
  .next { s with dev := s.dev.seRun (tileKey g t) 0x38B e w specFirdec seFirdec }
def execEnvelope (g : Fin 16) (t : Fin 17) (e : Ecc) (w : BitVec 16) (s : State) : Host.Outcome State Fault Refusal :=
  .next { s with dev := s.dev.seRun (tileKey g t) 0x38C e w specEnvelope seEnvelopeOp }
def execAnglers (g : Fin 16) (t : Fin 17) (e : Ecc) (w : BitVec 16) (s : State) : Host.Outcome State Fault Refusal :=
  .next { s with dev := s.dev.seRun (tileKey g t) 0x38D e w specAnglers seAnglers }
def execTsa (g : Fin 16) (t : Fin 17) (e : Ecc) (w : BitVec 16) (s : State) : Host.Outcome State Fault Refusal :=
  .next { s with dev := s.dev.seRun (tileKey g t) 0x38E e w specTsa seTsa }
def execStats (g : Fin 16) (t : Fin 17) (e : Ecc) (w : BitVec 16) (s : State) : Host.Outcome State Fault Refusal :=
  .next { s with dev := s.dev.seRun (tileKey g t) 0x38F e w specStats seStats }
def execBaseline (g : Fin 16) (t : Fin 17) (e : Ecc) (w : BitVec 16) (s : State) : Host.Outcome State Fault Refusal :=
  .next { s with dev := s.dev.seRun (tileKey g t) 0x390 e w specBaseline seBaseline }
def execDeviate (g : Fin 16) (t : Fin 17) (e : Ecc) (w : BitVec 16) (s : State) : Host.Outcome State Fault Refusal :=
  .next { s with dev := s.dev.seRun (tileKey g t) 0x391 e w specDeviate seDeviate }
def execThresh (g : Fin 16) (t : Fin 17) (e : Ecc) (w : BitVec 16) (s : State) : Host.Outcome State Fault Refusal :=
  .next { s with dev := s.dev.seRun (tileKey g t) 0x392 e w specThresh seThresh }
def execBlockOperationEnd (g : Fin 16) (t : Fin 17) (s : State) : Host.Outcome State Fault Refusal :=
  .next { s with dev := s.dev.strideEnd (tileKey g t) }
def execSeSrstWrite (g : Fin 16) (t : Fin 17) (v : W32) (s : State) : Host.Outcome State Fault Refusal :=
  .next { s with dev := s.dev.writes (seReg g t 0) (s.dev.seSrst (tileKey g t) v) }

end Sys2Proof.Machine
end

