-- ==== Sys2Proof/Machine/RunnerCore.lean ====
section
/-!
DEFINITION. The core of Runner and Steward (08_runner_isa.md): registers, instruction decoding (R269 to R278), fetch
(R271, R295), the hand-over of a firing (R267), faults and traps (R294, R297), and the instructions that touch no
memory. Core n is the Runner core of tile n, and core 272 the Steward pair.
-/
namespace Sys2Proof.Machine

/-! ### Registers (R266) -/

def stewCore : Nat := 272

def Dev.modStew (d : Dev) (f : Steward → Steward) : Dev := { d with stew := f d.stew }

def Dev.core (d : Dev) (n : Nat) : Runner := if n = stewCore then d.stew.core else (d.tile n).runner

def Dev.modCore (d : Dev) (n : Nat) (f : Runner → Runner) : Dev :=
  if n = stewCore then d.modStew (fun s => { s with core := f s.core }) else d.modRunner n f

/-- A read of g0 gives 0. -/
def Runner.get (r : Runner) (i : Nat) : W64 := if i = 0 then 0 else mget 0 r.g i

/-- A write to g0 is discarded. -/
def Runner.set (r : Runner) (i : Nat) (v : W64) : Runner := if i = 0 then r else { r with g := mset 0 r.g i v }

/-! ### Decoding (R269 to R278) -/

/-- The instructions by name; `illegal` is every word that raises illegal-instruction whatever the core. -/
inductive RcKind where
  | illegal | intOp | fpOp | addi | andi | ori | xori | slti | sltiu | shli | shri | srai | shori
  | ld | lw | lwu | lh | lhu | lb | lbu | sd | sw | sh | sb | aadd | swap | lockrel | emit
  | bz | bnz | j | jr | call | callr | ret | mfs | mts | fence | waitw | mfc | mtc | mbPop | eret | wfi | evack | tsend
  deriving DecidableEq, Repr

/-- A decoded word with its fields. -/
structure RcIns where
  kind : RcKind := .illegal
  rd   : Nat := 0
  ra   : Nat := 0
  rb   : Nat := 0
  fn   : Nat := 0
  imm  : BitVec 16 := 0
  off  : Int := 0
  mask : Nat := 0
  deriving DecidableEq, Repr

/-- A field that holds a signed offset. -/
def signedFld (n w : Nat) : Int := if n < 2 ^ (w - 1) then n else (n : Int) - 2 ^ w

/-- Major 0x00 is legal (R273). -/
def intLegal (fn rb : Nat) : Bool :=
  let o := fn % 256
  let ty := fn / 512
  decide (o < 0x100) && opDefined o && (opPorts o == [0, 1] || rb == 0) && ((opTypes o).contains ty)

/-- Major 0x01 is legal (R274). -/
def fpLegal (fn rb : Nat) : Bool :=
  let o := 0x100 + fn % 32
  let rbOk :=
    if o = 0x118 then rb / 8 % 2 == 0 && decide (4 ≤ rb % 8 ∧ rb % 8 ≤ 6)
    else if o = 0x119 then rb / 8 % 2 == 0 && decide (rb % 8 ≤ 3)
    else if o = 0x11A then fn / 64 % 2 == 0 && decide (4 ≤ rb % 8 ∧ rb % 8 ≤ 6)
    else opPorts o != [0] || rb == 0
  opDefined o && decide (fn / 256 ≤ 4) && rbOk

/-- Major 0x02 (R278): the operation, where the fields it does not use are zero. -/
def sysKind (rd ra rb fn : Nat) : RcKind :=
  let pick := fun (ok : Bool) (k : RcKind) => if ok then k else .illegal
  let none3 := rd == 0 && ra == 0 && rb == 0
  if 32 ≤ fn then .illegal
  else
    match fn with
    | 0 => pick none3 .waitw
    | 1 => pick none3 .ret
    | 2 => pick (rd == 0 && rb == 0) .jr
    | 3 => pick (ra == 0 && decide (rb ≤ 4)) .mfs
    | 4 => pick (rd == 0 && rb == 2) .mts
    | 5 => pick none3 .fence
    | 8 => pick (ra == 0) .mfc
    | 9 => pick (rd == 0) (if rb = 11 then .mbPop else .mtc)
    | 10 => pick none3 .eret
    | 11 => pick none3 .wfi
    | 12 => pick (rd == 0 && rb == 0) .evack
    | 13 => pick (rd == 0 && rb == 0) .tsend
    | _ => .illegal

/-- The instruction a word names. (DESIGN CHOICE, log 35.) -/
def rcDecode (w : W32) : RcIns :=
  let n := w.toNat
  let major := n / 2 ^ 26
  let rd := n / 2 ^ 21 % 32
  let ra := n / 2 ^ 16 % 32
  let rb := n / 2 ^ 11 % 32
  let fn := n % 2048
  let imm : BitVec 16 := w.extractLsb' 0 16
  let rr := fun (k : RcKind) (ok : Bool) => ({ kind := if ok then k else .illegal, rd := rd, ra := ra, rb := rb, fn := fn } : RcIns)
  let ri := fun (k : RcKind) => ({ kind := k, rd := rd, ra := ra, imm := imm } : RcIns)
  let sh := fun (k : RcKind) => if n % 65536 < 128 then ri k else {}
  let br := fun (k : RcKind) => ({ kind := k, ra := rd, off := signedFld (n % 2 ^ 21) 21 } : RcIns)
  match major with
  | 0x00 => rr .intOp (intLegal fn rb)
  | 0x01 => rr .fpOp (fpLegal fn rb)
  | 0x02 => rr (sysKind rd ra rb fn) true
  | 0x04 => ri .addi
  | 0x05 => ri .andi
  | 0x06 => ri .ori
  | 0x07 => ri .xori
  | 0x08 => ri .slti
  | 0x09 => ri .sltiu
  | 0x0A => sh .shli
  | 0x0B => sh .shri
  | 0x0C => sh .srai
  | 0x0D => ri .shori
  | 0x10 => ri .ld
  | 0x11 => ri .lw
  | 0x12 => ri .lwu
  | 0x13 => ri .lh
  | 0x14 => ri .lhu
  | 0x15 => ri .lb
  | 0x16 => ri .lbu
  | 0x18 => ri .sd
  | 0x19 => ri .sw
  | 0x1A => ri .sh
  | 0x1B => ri .sb
  | 0x1C => rr .aadd (decide (fn ≤ 1))
  | 0x1D => rr .swap (decide (fn ≤ 1))
  | 0x1E => rr .lockrel (rd == 0 && fn == 0)
  | 0x20 => if (n % 65536 / 2 ^ 10 == 0 && n / 2 ^ 6 % 4 == 0 && n / 2 ^ 8 % 4 != 3 && decide (n % 16 ≤ 8) : Bool) then ri .emit else {}
  | 0x30 => br .bz
  | 0x31 => br .bnz
  | 0x32 => if rd = 0 then br .j else {}
  | 0x38 => { kind := .call, mask := n / 2 ^ 18 % 256, off := signedFld (n % 2 ^ 18) 18 }
  | 0x39 => if (rd == 0 && rb == 0 && decide (fn < 256) : Bool) then { kind := .callr, ra := ra, mask := fn } else {}
  | _ => {}

/-! ### Fetch (R271, R295) -/

/-- A word index from which a core may fetch. -/
def pcValid (n : Nat) (pc : Nat) : Bool :=
  if n = stewCore then decide (pc < 0x10000 ∨ (0x400000 ≤ pc ∧ pc < 0x600000)) else decide (pc < 65536)

/-- Global cluster of a Runner core. -/
def Dev.rcCluster (d : Dev) (n : Nat) : Nat := (d.clusterOf n).getD 0

/-- Address of a code word. -/
def Dev.codeAddr (d : Dev) (n pc : Nat) : Nat := if n = stewCore then romBase + 4 * pc else bankAddr (d.rcCluster n) 1 (4 * pc)

/-- The word at a core's PC. -/
def Dev.codeWord (d : Dev) (n : Nat) : W32 := BitVec.ofNat 32 (d.readLe (d.codeAddr n (d.core n).pc) 4)

/-- The source's token waits at the event block: it is pending and not the Steward's (R529). -/
def Dev.evtQueued (d : Dev) (n : Nat) : Bool := d.evtQ.any (fun x => x.1 == n) || d.evtWait.any (fun x => x.1 == n)

/-- The pending source of highest PRIO that is routed to the Steward, the lowest number among equals (R296, R528). -/
def Dev.eventTop (d : Dev) : Option Nat :=
  (List.range 1024).foldl (fun (m : Option Nat) n =>
    let p := d.rfld (banked (evtReg 4) n) 3 0
    if d.evtPending n && p != 0 && !d.evtQueued n then
      (match m with
       | none => some n
       | some k => if d.rfld (banked (evtReg 4) k) 3 0 < p then some n else m)
    else m) none

def Dev.stewIrq (d : Dev) : Bool := d.eventTop.isSome || !d.stew.mbox.isEmpty

/-- A core executes instructions: a firing runs, or the Steward is out of reset and not asleep; no access holds it. -/
def Dev.coreRuns (d : Dev) (n : Nat) : Bool :=
  (d.core n).wait.isNone && !(d.core n).ending &&
  (if n = stewCore then d.stew.on && (!d.stew.wfi || d.stewIrq) else (d.core n).item.isSome)

/-! ### The end of a firing, faults and traps (R276, R292, R294, R297) -/

def rcNode (n : Nat) : Node := if n = stewCore then .hubUnit 0 else .tileUnit (n / 17) (n % 17) 8
def rcR (n o : Nat) : Nat := rcReg (n / 17) (n % 17) o

/-- FFLAGS go to the context when the node's STICKY is set (R276). -/
def Dev.rcFlags (d : Dev) (n : Nat) (it : Item) : Dev :=
  let fl := keptFlags it.desc (d.core n).fflags
  let c := Firing.ctx it.fir
  if fl = 0 then d else d.sendMgmt (rcNode n) (poolDest (c.toNat / 2 ^ 18)) (.flags c fl)

/-- The firing's service ends and the core is in WAITW (R179). -/
def Dev.rcEnd (d : Dev) (n : Nat) (it : Item) : Dev :=
  ((d.modCore n (fun r => { r with item := none, wait := none, stores := [], ending := false })).releaseFlow n (Firing.flow it.fir)).progress (n / 17)

/-- A stopped firing returns to WAITW (R292, R294): its service ends once every response is there. -/
def Dev.rcReturn (d : Dev) (n : Nat) (it : Item) : Dev :=
  let r := d.core n
  if r.wait.isNone && r.stores.isEmpty then d.rcEnd n it else d.modCore n (fun r => { r with ending := true })

/-- The status of a fault (R294). -/
def rcStatus (cause pc addr entry : Nat) : Nat × Nat :=
  if cause = 7 then (stMISALIGNED, addr) else if cause = 8 then (stADDR_RANGE, addr) else if cause = 9 then (stACCESS, addr)
  else if cause = 10 then (stMEM_UE, addr) else if cause = 11 then (stRUN_LIMIT, entry)
  else (stCODE_FAULT, pc % 65536 + cause * 65536)

/-- A fault of a code firing (R294). -/
def Dev.firingFault (d : Dev) (n cause addr : Nat) : Dev :=
  match (d.core n).item with
  | none => d
  | some it =>
    let pc := (d.core n).pc
    let (st, detail) := rcStatus cause pc addr ((dImm it.desc).toNat % 65536)
    let d := d.rcFlags n it
    let d := (d.sendToken (rcNode n) (d.errOf it.fu it.fir st detail)).faultCtx (rcNode n) (Firing.ctx it.fir)
    let d := (d.setBit (rcR n 0xC) 1 true).setReg (rcR n 0x10) (BitVec.ofNat 32 (pc % 65536 + cause * 65536))
    let d := if 7 ≤ cause ∧ cause ≤ 10 then d.setPair (rcR n 0x14) addr else d
    d.rcReturn n it

/-- A fault of the Steward is a trap, and with INTRAP set a double trap, which stops the pair until it restarts (R297, R298). -/
def Dev.stewTrap (d : Dev) (cause addr : Nat) : Dev :=
  d.modStew (fun s =>
    if s.sstat.getLsbD 2 then { s with on := false, fatal := some cause }
    else
      { s with
        epc := BitVec.ofNat 64 s.core.pc, cause := cause
        bad := if 7 ≤ cause ∧ cause ≤ 10 then BitVec.ofNat 64 addr else s.bad
        sstat := (s.sstat &&& 8#4) ||| 4#4 ||| (if s.sstat.getLsbD 0 then 2#4 else 0#4), wfi := false
        core := { s.core with pc := s.vbase.toNat, wait := none } })

/-- A fault at the current instruction of a core. -/
def Dev.rcFault (d : Dev) (n cause addr : Nat) : Dev := if n = stewCore then d.stewTrap cause addr else d.firingFault n cause addr

/-- The Steward takes an interrupt between instructions (R297). -/
def Dev.stewInterrupt (d : Dev) : Dev :=
  if d.stew.on && d.stew.core.wait.isNone && d.stew.sstat.getLsbD 0 && d.stewIrq then
    let cause := if d.eventTop.isSome then 15 else 14
    d.modStew (fun s => { s with
      epc := BitVec.ofNat 64 s.core.pc, cause := cause, wfi := false
      sstat := (s.sstat &&& 8#4) ||| 6#4, core := { s.core with pc := (s.vbase + 16).toNat } })
  else d

/-! ### Executing a word -/

/-- Call mode of a core (R284): 1 stack mode. -/
def Dev.stackMode (d : Dev) (n : Nat) : Bool := if n = stewCore then d.stew.sstat.getLsbD 3 else (d.core n).mode

/-- What a Runner core or the Steward may not execute (R278, R284, R295, R296): the cause. (DESIGN CHOICE, log 34.) -/
def Dev.rcRefuses (d : Dev) (n : Nat) (i : RcIns) : Option Nat :=
  let stew := n == stewCore
  match i.kind with
  | .illegal => some 1
  | .waitw | .emit => if stew then some 1 else none
  | .eret | .wfi | .evack => if stew then none else some 2
  | .mfc => if !stew then some 2 else if 12 < i.rb then some 1 else none
  | .mtc => if !stew then some 2 else if [0, 1, 4, 12].contains i.rb then none else some 1
  | .mbPop => if stew then none else some 2
  | .tsend => if !stew then some 2 else if i.ra % 4 = 0 ∧ 4 ≤ i.ra ∧ i.ra ≤ 28 then none else some 1
  | .call | .callr => if d.stackMode n && i.mask != 0 then some 1 else none
  | _ => none

/-- How a core's fetch goes. -/
inductive Fetch where
  | word | wait | fault | refused
  deriving DecidableEq, Repr

def isUe (e : Ecc) : Bool := match e with | .ue _ => true | _ => false

/-- A fetch (R271, R310, R311): a Runner core's word is read from bank B, which may be turning on, refuse the access, or be in a write cycle of the word's sub-bank. (DESIGN CHOICE, log 34.) -/
def Dev.rcFetch (d : Dev) (n : Nat) (e : Ecc) : Fetch :=
  let pc := (d.core n).pc
  let x := d.bank n 1
  if !pcValid n pc then .fault
  else if n = stewCore then (if isUe e then .fault else .word)
  else if x.target = some 2 then .wait
  else if x.state ≠ 2 ∨ x.target.isSome then .refused
  else if x.second.any (fun c => c.1 == subOf (4 * pc)) then .wait
  else if isUe e then .fault else .word

/-- What a fetch leaves in the bank's registers (R313): a corrected error counted, an uncorrectable one with its address, a refused access. -/
def Dev.fetchNote (d : Dev) (n : Nat) (e : Ecc) : Dev :=
  if n = stewCore ∨ !pcValid n (d.core n).pc then d
  else
    match d.rcFetch n e with
    | .refused => d.setBit (spmR n 0xC) 1 true
    | .fault => d.spmUe n (0x40000 + 4 * (d.core n).pc)
    | .word => if e = .ce then d.addSat16 (spmR n 8) 1 else d
    | .wait => d

/-- A core executes the word at its PC if that is an instruction of kind `k`; a word it cannot fetch or execute raises its fault. `e`
is the outcome of reading the word. (DESIGN CHOICE, log 35.) -/
def Dev.rcStep (d : Dev) (n : Nat) (e : Ecc) (k : RcKind) (act : Dev → RcIns → Runner → Dev) : Dev :=
  let r := d.core n
  if !d.coreRuns n then d
  else
    let f := d.rcFetch n e
    let d := d.fetchNote n e
    let d := if n = stewCore then d.modStew (fun s => { s with wfi := false }) else d
    match f with
    | .wait => d
    | .fault => d.rcFault n 3 0
    | .refused => d.rcFault n 9 (d.codeAddr n r.pc)
    | .word =>
      let i := rcDecode (d.codeWord n)
      match d.rcRefuses n i with
      | some c => d.rcFault n c 0
      | none => if i.kind = k then act d i r else d

/-- The next instruction in order, with an update of the core. -/
def Dev.rcNext (d : Dev) (n : Nat) (f : Runner → Runner) : Dev := d.modCore n (fun r => let r := f r; { r with pc := r.pc + 1 })

/-- A jump to a word index; a target outside the fetch range raises a fetch fault (R271). -/
def Dev.rcJump (d : Dev) (n : Nat) (target : Int) (f : Runner → Runner) : Dev :=
  if 0 ≤ target ∧ pcValid n target.toNat then d.modCore n (fun r => { f r with pc := target.toNat }) else d.rcFault n 3 0

/-- An instruction that writes rd. -/
def Dev.rcWrite (d : Dev) (n : Nat) (e : Ecc) (k : RcKind) (val : RcIns → Runner → W64) : Dev :=
  d.rcStep n e k (fun d i r => d.rcNext n (fun x => x.set i.rd (val i r)))

/-- Integer operations (R273). -/
def Dev.rcInt (d : Dev) (n : Nat) (e : Ecc) : Dev :=
  d.rcStep n e .intOp (fun d i r =>
    let v := intRes (i.fn % 256) (i.fn / 512) (i.fn.testBit 8) (r.get i.ra).toNat (r.get i.rb).toNat
    d.rcNext n (fun x => { x.set i.rd (BitVec.ofNat 64 v.pay) with fflags := x.fflags ||| v.fl }))

/-- The result and flags of a floating-point word (R274, R275). -/
def rcFpValue (i : RcIns) (a b c : Nat) : Nat × BitVec 5 :=
  let o := 0x100 + i.fn % 32
  let rm := i.fn / 256
  let ncan := i.fn.testBit 7
  let ct := i.fn.testBit 5
  let fmt := if i.fn.testBit 6 then 5 else 4
  let src := if i.rb.testBit 4 then 6 else fmt
  let r :=
    if o = 0x118 ∨ o = 0x119 then fpRes o src rm ct ncan (i.rb % 8) a b c
    else if o = 0x11A then fpRes o (i.rb / 8) rm ct ncan (i.rb % 8) a b c
    else fpRes o fmt rm ct ncan 0 a b c
  (r.pay, r.fl)

def Dev.rcFp (d : Dev) (n : Nat) (e : Ecc) : Dev :=
  d.rcStep n e .fpOp (fun d i r =>
    let v := rcFpValue i (r.get i.ra).toNat (r.get i.rb).toNat (r.get i.rd).toNat
    d.rcNext n (fun x => { x.set i.rd (BitVec.ofNat 64 v.1) with fflags := x.fflags ||| v.2 }))

/-- imm16 sign-extended and zero-extended. -/
def simm (i : RcIns) : W64 := i.imm.signExtend 64
def zimm (i : RcIns) : W64 := i.imm.zeroExtend 64

/-- BZ and BNZ. -/
def Dev.rcBranch (d : Dev) (n : Nat) (e : Ecc) (k : RcKind) (taken : W64 → Bool) : Dev :=
  d.rcStep n e k (fun d i r => if taken (r.get i.ra) then d.rcJump n (r.pc + 1 + i.off) id else d.rcNext n id)

/-- CYCLE (R268): the cycles since it was last read are a free number, at least 1. (DESIGN CHOICE, log 92.) -/
def Dev.readCycle (d : Dev) (n : Nat) : W64 × Dev :=
  let (v, d) := d.free
  let c := (d.core n).cyc + 1 + (v &&& 0xFFFFFFFF#64)
  (c, d.modCore n (fun r => { r with cyc := c }))

/-- Special registers (R268). (DESIGN CHOICE, log 34.) -/
def Dev.special (d : Dev) (n num : Nat) : W64 × Dev :=
  let r := d.core n
  match num with
  | 0 => d.readCycle n
  | 1 => (d.time, d)
  | 2 => (r.fflags.zeroExtend 64, d)
  | 3 =>
    (match r.item with
     | some it =>
       let t := (Firing.lead it.fir).tag
       (BitVec.ofNat 64 (t.ctx.toNat + t.graph.toNat * 2 ^ 22 + it.fir.slot.toNat * 2 ^ 34 + dNdst it.desc * 2 ^ 49), d)
     | none => (0, d))
  | _ => (BitVec.ofNat 64 (d.devNo.toNat + (if n = stewCore then 0xFF else d.rcCluster n) * 2 ^ 14), d)

/-- (DESIGN CHOICE, log 92.) -/
def Dev.rcMfs (d : Dev) (n : Nat) (e : Ecc) : Dev :=
  d.rcStep n e .mfs (fun d i _ => let (v, d) := d.special n i.rb; d.rcNext n (fun x => x.set i.rd v))

def Dev.rcMts (d : Dev) (n : Nat) (e : Ecc) : Dev :=
  d.rcStep n e .mts (fun d i r => d.rcNext n (fun x => { x with fflags := (r.get i.ra).extractLsb' 0 5 }))

/-- Nothing of the core is outstanding. -/
def Runner.quiet (r : Runner) : Bool := r.stores.isEmpty

def Dev.rcFence (d : Dev) (n : Nat) (e : Ecc) : Dev := d.rcStep n e .fence (fun d _ r => if r.quiet then d.rcNext n id else d)

/-- WAITW (R292): after the last response the firing ends. -/
def Dev.rcWaitw (d : Dev) (n : Nat) (e : Ecc) : Dev :=
  d.rcStep n e .waitw (fun d _ r =>
    match r.item with
    | some it => if r.quiet then (d.rcFlags n it).rcEnd n it else d
    | none => d)

/-! ### EMIT (R288 to R291) -/

/-- The token of an EMIT to one destination. -/
def Dev.emitTok (d : Dev) (it : Item) (i : RcIns) (pay ov : W64) (dst : DstF) : Token :=
  let imm := i.imm.toNat
  let t := d.outTok it.fir it.desc dst pay.toNat (imm % 16) (imm.testBit 5)
  let tag := t.tag
  let tag := if ov.getLsbD 40 then { tag with epoch := ov.extractLsb' 0 8 } else tag
  let tag := if ov.getLsbD 41 then { tag with iter := ov.extractLsb' 8 8 } else tag
  let tag := if ov.getLsbD 42 then { tag with flow := ov.extractLsb' 16 20 } else tag
  { t with tag := Tag.seal tag, ty := if imm.testBit 4 then t.ty ||| 0x10 else t.ty }

/-- An FU's send stage takes tokens in order (R219, R291): behind those of it that wait for the journal. -/
def Dev.fuSend (d : Dev) (k : Nat) (ts : List Token) : Dev := ts.foldl (fun (d : Dev) t => d.blockSendAs (fuNode k) none t none) d

/-- EMIT (R288 to R291): it stalls while the send stage of the node's FU cannot accept the token. -/
def Dev.rcEmit (d : Dev) (n : Nat) (e : Ecc) : Dev :=
  d.rcStep n e .emit (fun d i r =>
    match r.item with
    | none => d
    | some it =>
      let dsel := i.imm.toNat / 256 % 4
      let need := if dsel = 0 then 1 else 2
      if dNdst it.desc < need then d.rcFault n 6 0
      else if !d.sendRoom (fuNode it.fu) then d
      else
        let dsts := if dsel = 0 then [dDst0 it.desc] else if dsel = 1 then [dDst1 it.desc] else [dDst0 it.desc, dDst1 it.desc]
        (d.fuSend it.fu (dsts.map (d.emitTok it i (r.get i.rd) (r.get i.ra)))).rcNext n id)

/-! ### The hand-over (R174, R267) -/

/-- g4 at the hand-over. -/
def firingInfo (f : Firing) : W64 :=
  let ty := fun (p : Nat) => match f.port p with | some t => t.ty.toNat | none => 0
  BitVec.ofNat 64 (ty 0 + ty 1 * 2 ^ 8 + ty 2 * 2 ^ 16 + (Firing.epoch f).toNat * 2 ^ 24 + (Firing.prio f).toNat * 2 ^ 32 +
    (Firing.lead f).tag.iter.toNat * 2 ^ 36 + (Firing.flow f).toNat * 2 ^ 44)

/-- RC.SRST is clear. -/
def Dev.rcFree (d : Dev) (n : Nat) : Bool := !d.rbit (rcR n 0x1C) 0

/-- A core in WAITW takes the highest item of its queue. -/
def Dev.runnerTake (d : Dev) (n : Nat) : Dev :=
  let t := d.tile n
  if t.runner.item.isSome || !d.rcFree n then d
  else
    match topItem t.sched.runQ with
    | none => d
    | some it =>
      let pay := fun (p : Nat) => match it.fir.port p with | some x => x.pay | none => 0
      let top := min 32768 (d.rfld (rcR n 4) 18 3)
      let sp := BitVec.ofNat 64 (bankAddr (d.rcCluster n) 1 (8 * top))
      let r : Runner := { pc := (dImm it.desc).toNat % 65536, item := some it, mode := d.rbit (rcR n 0) 0, top := top
                          limit := d.rfld (rcR n 8) 18 3, nextTag := t.runner.nextTag, gone := t.runner.gone, cyc := t.runner.cyc }
      let r := [(1, pay 0), (2, pay 1), (3, pay 2), (4, firingInfo it.fir), (29, sp), (30, sp)].foldl (fun (r : Runner) p => r.set p.1 p.2) r
      (d.modSched n (fun s => { s with runQ := removeFirst (· == it) s.runQ })).modRunner n (fun _ => r)

/-! ### Reset of a Runner core and the run limit (R175, R301) -/

/-- A firing is abandoned without status: its service ends, its context is replayed. (DEDUCED, log 36.) -/
def Dev.runnerAbandon (d : Dev) (n : Nat) : Dev :=
  match (d.core n).item with
  | none => d
  | some it => ((d.abandonCtx (Firing.ctx it.fir)).releaseFlow n (Firing.flow it.fir)).modRunner n (fun r => { nextTag := r.nextTag, gone := r.gone })

/-- A write of RC.SRST: CYCLE starts from 0 at the release (R268). -/
def Dev.rcSrst (d : Dev) (n : Nat) (v : W32) : Dev :=
  if d.resetting then d
  else
    let d := d.setBit (rcR n 0x1C) 0 (v.getLsbD 0)
    if v.getLsbD 0 then (d.runnerAbandon n).modRunner n (fun r => { r with cyc := 0 }) else d

/-- A write of RC.CFG, RC.STACK_TOP or RC.STACK_LIMIT: the next hand-over reads it (R301). -/
def Dev.rcConfig (d : Dev) (n a : Nat) (v : W32) : Dev :=
  if a = 0 then d.setBit (rcR n 0) 0 (v.getLsbD 0)
  else if a = 4 ∨ a = 8 then d.setFld (rcR n a) 18 3 (fld v 18 3)
  else d

/-! ### Steward instructions (R295 to R297) -/

/-- A control register as MFC reads it. -/
def Dev.stewControl (d : Dev) (num : Nat) : W64 :=
  let s := d.stew
  let hd := (s.mbox.head?).map (·.1)
  match num with
  | 0 => s.sstat.zeroExtend 64
  | 1 => s.epc
  | 2 => BitVec.ofNat 64 s.cause
  | 3 => s.bad
  | 4 => s.vbase
  | 5 => match d.eventTop with | some n => BitVec.ofNat 64 (2 ^ 31 + n) | none => 0
  | 6 => BitVec.ofNat 64 s.mbox.length
  | 7 => match hd with | some t => (Tag.toBits t.tag).extractLsb' 64 64 | none => 0
  | 8 => match hd with | some t => (Tag.toBits t.tag).extractLsb' 0 64 | none => 0
  | 9 => match hd with | some t => t.pay | none => 0
  | 10 => match hd with | some t => t.ty.zeroExtend 64 | none => 0
  | 12 => s.stklim
  | _ => 0

def Dev.rcMfc (d : Dev) (n : Nat) (e : Ecc) : Dev :=
  d.rcStep n e .mfc (fun d i _ => d.rcNext n (fun x => x.set i.rd (d.stewControl i.rb)))

def Dev.rcMtc (d : Dev) (n : Nat) (e : Ecc) : Dev :=
  d.rcStep n e .mtc (fun d i r =>
    let v := r.get i.ra
    (d.modStew (fun s =>
      match i.rb with
      | 0 => { s with sstat := v.extractLsb' 0 4 }
      | 1 => { s with epc := v }
      | 4 => { s with vbase := v }
      | _ => { s with stklim := v })).rcNext n id)

/-- The head of the mailbox leaves and its credit returns (R215, R296). -/
def Dev.mboxPop (d : Dev) : Dev :=
  match d.stew.mbox with
  | [] => d
  | (_, part) :: rest =>
    let d := d.modStew (fun s => { s with mbox := rest })
    match part with
    | some h => d.oweE2e .hub h 32 1
    | none => d

def Dev.rcMbPop (d : Dev) (n : Nat) (e : Ecc) : Dev := d.rcStep n e .mbPop (fun d _ _ => d.mboxPop.rcNext n id)

def Dev.rcEret (d : Dev) (n : Nat) (e : Ecc) : Dev :=
  d.rcStep n e .eret (fun d _ _ => d.modStew (fun s => { s with
    sstat := (s.sstat &&& 10#4) ||| (if s.sstat.getLsbD 1 then 1#4 else 0#4), core := { s.core with pc := s.epc.toNat } }))

def Dev.rcWfi (d : Dev) (n : Nat) (e : Ecc) : Dev :=
  d.rcStep n e .wfi (fun d _ _ => (d.rcNext n id).modStew (fun s => { s with wfi := !d.stewIrq }))

/-- EVACK clears a source's pending bit (R528). -/
def Dev.rcEvack (d : Dev) (n : Nat) (e : Ecc) : Dev :=
  d.rcStep n e .evack (fun d i r => (d.setEvtPending ((r.get i.ra).toNat % 1024) false).rcNext n id)

/-- TSEND (R295): it stalls for credit. -/
def Dev.rcTsend (d : Dev) (n : Nat) (e : Ecc) : Dev :=
  d.rcStep n e .tsend (fun d i r =>
    if !d.sendRoom (rcNode n) then d
    else
    let tag := Tag.seal (Tag.ofBits (r.get i.ra ++ r.get (i.ra + 1)))
    let t : Token := { tag := tag, pay := r.get (i.ra + 2), ty := (r.get (i.ra + 3)).extractLsb' 0 8 }
    (d.sendToken (rcNode n) t).rcNext n id)

/-- A token for the Steward enters the mailbox while it has room (R296): its place in the receive buffer is free again, its end-to-end credit returns as it is popped. -/
def Dev.mailboxReceive (d : Dev) : Dev :=
  let n := rcNode stewCore
  -- tokens of class M come on L4
  let lane := if (d.inbox n 4).isEmpty then 0 else 4
  match d.inbox n lane with
  | { body := .token t, part := part, .. } :: ps =>
    if 1024 ≤ d.stew.mbox.length || !d.stew.on then d
    else
      (match d.blockTag n t (infieldIs t.tag 0 0 0 && t.tag.graph == 0) with
       | (some t, d) => ((d.setInbox n lane ps).oweHop (some ⟨Node.router n, n⟩) lane 1).modStew (fun s => { s with mbox := s.mbox ++ [(t, part)] })
       | (none, d) => match d.takeInbox n lane with | some (_, d) => d | none => d)
  | _ => d

end Sys2Proof.Machine
end

