-- ==== Sys2Proof/Machine/Memory.lean ====
section
/-!
DEFINITION. The memories (09_memories_locks.md): scratchpad banks with their arbitration, atomics and power states
(R302 to R313), and the HBM controllers with scrubbing and spare rows (R314 to R318).
-/
namespace Sys2Proof.Machine

/-! ### Answers -/

/-- Bytes of an access by SIZE (R206). -/
def accessBytes (size : BitVec 4) : Nat :=
  match size.toNat with
  | 0 => 1
  | 1 => 2
  | 2 => 4
  | 3 => 8
  | 4 => 32
  | 5 => 64
  | 6 => 256
  | _ => 0

/-- The response to a request (R209). -/
def respOf (r : MemReq) (status result : Nat) (data : List Byte) : MemResp :=
  { op := r.op, status := BitVec.ofNat 4 status, req := r.req, rtag := r.rtag, result := BitVec.ofNat 64 result, prio := r.prio, data := data }

/-- Answer a request from a block. -/
def Dev.respond (d : Dev) (src : Node) (r : MemReq) (status result : Nat) (data : List Byte) : Dev :=
  d.send src { dest := r.req, prio := r.prio, body := .resp (respOf r status result data) }

/-- A master other than the Stride engine writes at `a`: where that is bank A of a cluster whose engine computes, the engine's operation is touched (R264). (DESIGN CHOICE, log 32.) -/
def Dev.noteWrite (d : Dev) (a : Nat) : Dev :=
  if spmBase ≤ a ∧ a < spmEnd ∧ bankOf a = 0 then
    let tl := d.tileOfCluster (spmCluster a)
    let s := (d.tile tl).stride
    if s.run.isSome && !s.done then d.modStride tl (fun s => { s with hits := s.hits ++ [a % 0x40000 / 4, (a + 4) % 0x40000 / 4] }) else d
  else d

/-- Carry out a read, write or atomic on stored bytes (R308): the device after it and the response. -/
def Dev.memAccess (d : Dev) (r : MemReq) : Dev × MemResp :=
  let a := r.addr.toNat
  let n := accessBytes r.size
  let old := d.readLe a n
  match r.op.toNat with
  | 0 => (d, if n ≤ 8 then respOf r 0 old [] else respOf r 0 0 (d.read a n))
  | 1 => (if n ≤ 8 then d.writeLe a n r.operand.toNat else d.write a r.data, respOf r 0 0 [])
  | 2 => (d.writeLe a n (old + r.operand.toNat), respOf r 0 old [])
  | _ => (d.writeLe a n r.operand.toNat, respOf r 0 old [])

/-- The access needs the old contents: a read, an atomic, or a write of 1 or 2 bytes (R303). -/
def readsOld (r : MemReq) : Bool := r.op == 0 || r.op == 2 || r.op == 3 || (r.op == 1 && r.size.toNat ≤ 1)

/-- A write of 1 or 2 bytes and an atomic take a read cycle and a write cycle. -/
def twoCycles (r : MemReq) : Bool := r.op == 2 || r.op == 3 || (r.op == 1 && r.size.toNat ≤ 1)

/-! ### Scratchpad banks (R302 to R309) -/

def portNode (tl : Nat) : Node := .tileUnit (tl / 17) (tl % 17) 10

/-- Class of a request that arrives from the mesh (R304). -/
def portClass (r : MemReq) : Nat :=
  let dma := (r.req.tile == 31 && r.req.unit == 0 && r.req.die.toNat < 4) || (r.req.die == 4 && r.req.unit == 1)
  if dma then (if bankOf r.addr.toNat = 2 then 0 else 1) else 4

/-- The address a request is at: of a burst, its next word (R303). -/
def BankReq.addr (q : BankReq) : Nat := q.req.addr.toNat + q.pos

/-- Requests of one class that a bank's input holds while the bank turns on (R312). -/
def inputDepth : Nat := 4

/-- Requests of one class in a cluster's port queue (R306). -/
def portDepth : Nat := 8

/-- The port queue of the DMA class, or of the network class. -/
def Tile.portQ (t : Tile) (dma : Bool) : List BankReq := if dma then t.dmaQ else t.netQ
def Tile.setPortQ (t : Tile) (dma : Bool) (q : List BankReq) : Tile := if dma then { t with dmaQ := q } else { t with netQ := q }

/-- A request packet of the DMA class, or of the network class. -/
def isPortReq (dma : Bool) (p : Packet) : Bool := match p.body with | .req r => (portClass r != 4) == dma | _ => false

/-- A network-port request enters its queue while it has room (R306). -/
def Dev.portTake (d : Dev) (tl : Nat) (dma : Bool) : Dev :=
  if portDepth ≤ ((d.tile tl).portQ dma).length then d
  else
    match d.popInbox (portNode tl) 1 (isPortReq dma) with
    | some ({ body := .req r, .. }, d) => d.modTile tl (fun t => t.setPortQ dma (t.portQ dma ++ [{ cls := portClass r, fu := 16, req := r }]))
    | _ => d

/-- The head of a queue moves to the input of its bank while that bank turns on (R311, R312). -/
def Dev.portHold (d : Dev) (tl : Nat) (dma : Bool) : Dev :=
  match (d.tile tl).portQ dma with
  | [] => d
  | q :: qs =>
    let b := bankOf q.addr
    let x := d.bank tl b
    if x.target = some 2 ∧ (x.input.filter (fun r => (r.cls != 4) == dma)).length < inputDepth then
      (d.modTile tl (fun t => t.setPortQ dma qs)).modBank tl b (fun y => { y with input := y.input ++ [q] })
    else d

/-- The network port delivers what its queues have room for. -/
def Dev.portFill (d : Dev) (tl : Nat) : Dev :=
  [true, false].foldl (fun d dma => iter (fun d => (d.portTake tl dma).portHold tl dma) (portDepth + inputDepth) d) d

/-- The request of a port class that competes at a bank: the oldest of the bank's input, or the queue's head. -/
def Dev.portHead (d : Dev) (tl b : Nat) (dma : Bool) : Option BankReq :=
  match (d.bank tl b).input.find? (fun r => (r.cls != 4) == dma) with
  | some q => some q
  | none => ((d.tile tl).portQ dma).head?.filter (fun q => bankOf q.addr == b)

/-- The first request of each local master at a sub-bank. -/
def firstOfEach (sub : Nat) (seen : List Nat) : List BankReq → List BankReq
  | [] => []
  | q :: qs =>
    if subOf q.addr = sub ∧ !seen.contains q.fu then q :: firstOfEach sub (q.fu :: seen) qs else firstOfEach sub seen qs

/-- The requests that compete for a sub-bank. -/
def Dev.competing (d : Dev) (tl b sub : Nat) : List BankReq :=
  firstOfEach sub [] (d.bank tl b).reqs ++ ([true, false].filterMap (d.portHead tl b)).filter (fun q => subOf q.addr == sub)

/-- Rank of a request: its class, then its place after the FU served last (R305). -/
def bankRank (last : Nat) (q : BankReq) : Nat := q.cls * 32 + (if q.fu < 8 then (q.fu + 16 - last) % 8 else 8)

/-- The request of lowest rank. -/
def bestReq (last : Nat) (qs : List BankReq) : Option BankReq :=
  qs.foldl (fun (m : Option BankReq) q => match m with | none => some q | some x => if bankRank last q < bankRank last x then some q else some x) none

/-- Hand a response to its requester: within the tile at once, otherwise on L2. -/
def Dev.bankAnswer (d : Dev) (tl : Nat) (q : BankReq) (a : MemResp) : Dev :=
  if q.fu < 16 then
    let n : Node := .tileUnit (tl / 17) (tl % 17) q.fu
    d.setInbox n ownLane (d.inbox n ownLane ++ [{ dest := q.req.req, prio := q.req.prio, body := .resp a }])
  else d.send (portNode tl) { dest := q.req.req, prio := q.req.prio, body := .resp a }

/-- Replace a waiting request, or take it away, wherever it stands. -/
def putReq (q : BankReq) (to_ : Option BankReq) (qs : List BankReq) : List BankReq :=
  match to_ with
  | none => removeFirst (· == q) qs
  | some r => replaceFirst (· == q) (fun _ => r) qs

def Dev.bankPut (d : Dev) (tl b : Nat) (q : BankReq) (to_ : Option BankReq) : Dev :=
  if q.fu < 16 then d.modBank tl b (fun x => { x with reqs := putReq q to_ x.reqs })
  else if (d.bank tl b).input.contains q then d.modBank tl b (fun x => { x with input := putReq q to_ x.input })
  else d.modTile tl (fun t => t.setPortQ (q.cls != 4) (putReq q to_ (t.portQ (q.cls != 4))))

/-- Take a request out of where it waits. -/
def Dev.bankTake (d : Dev) (tl b : Nat) (q : BankReq) : Dev := d.bankPut tl b q none

/-- One word of a burst (R303): written, or read into what is gathered; the burst is answered after its last. -/
def Dev.burstWord (d : Dev) (tl b : Nat) (q : BankReq) : Dev :=
  let n := accessBytes q.req.size
  let d := if q.req.op = 1 then (d.write q.addr ((q.req.data.drop q.pos).take 8)).noteWrite q.addr else d
  let q' : BankReq := { q with pos := q.pos + 8, got := if q.req.op = 1 then [] else q.got ++ d.read q.addr 8 }
  if n ≤ q'.pos then (d.bankTake tl b q).bankAnswer tl q (respOf q.req 0 0 q'.got) else d.bankPut tl b q (some q')

/-- An access of a bank whose word is good, in its cycle. (DEDUCED, log 41.) -/
def Dev.bankServe (d : Dev) (tl b : Nat) (q : BankReq) : Dev :=
  if 8 < accessBytes q.req.size then d.burstWord tl b q
  else
    let x := (d.bankTake tl b q).memAccess q.req
    (if q.req.op = 0 then x.1 else x.1.noteWrite q.addr).bankAnswer tl q x.2

/-- An access of a bank whose word has an uncorrectable error (R309): answered with STATUS 1, nothing written. -/
def Dev.bankUe (d : Dev) (tl b : Nat) (q : BankReq) : Dev := (d.bankTake tl b q).bankAnswer tl q (respOf q.req 1 0 [])

/-- A bank refuses an access (R310). (DEDUCED, log 41.) -/
def Dev.bankRefuse (d : Dev) (tl b : Nat) (q : BankReq) : Dev :=
  ((d.bankTake tl b q).setBit (spmR tl 0xC) 1 true).bankAnswer tl q (respOf q.req 3 0 [])

/-- The write cycle of an atomic or narrow write (R303). -/
def Dev.writeCycle (d : Dev) (tl b sub : Nat) (q : BankReq) : Dev :=
  let x := (d.modBank tl b (fun y => { y with second := mdel y.second sub })).memAccess q.req
  (x.1.noteWrite q.addr).bankAnswer tl q x.2

/-- What one cycle of a sub-bank serves for the winner `q` (R305): every read of its word, with the old data, and one write of the word, the winner or that of the
highest class, or the read cycle of an atomic or narrow write. (DEDUCED, log 41.) -/
def sharers (last : Nat) (q : BankReq) (qs : List BankReq) : List BankReq × Option BankReq :=
  let word := qs.filter (fun r => r.addr / 8 == q.addr / 8)
  (word.filter (fun r => r.req.op == 0), if q.req.op = 0 then bestReq last (word.filter (fun r => r.req.op != 0)) else some q)

/-- The sub-bank reads its word in this cycle. -/
def cycleReads (s : List BankReq × Option BankReq) : Bool := !s.1.isEmpty || (s.2.any (fun w => twoCycles w.req))

/-- Serve the winner's cycle, with the outcome of reading the word. (DEDUCED, log 41.) -/
def Dev.winnerCycle (d : Dev) (tl b sub : Nat) (q : BankReq) (qs : List BankReq) (e : Ecc) : Dev :=
  let last := mget 0 (d.bank tl b).rr sub
  let s := sharers last q qs
  let d := if q.fu < 8 then d.modBank tl b (fun y => { y with rr := mset 0 y.rr sub ((q.fu + 1) % 8) }) else d
  let d := if !cycleReads s then d else if e = .ce then d.addSat16 (spmR tl 8) 1 else if isUe e then d.spmUe tl (q.addr / 8 * 8 % 0x100000) else d
  let d := s.1.foldl (fun d r => if isUe e then d.bankUe tl b r else d.bankServe tl b r) d
  match s.2 with
  | none => d
  | some w =>
    if !twoCycles w.req then d.bankServe tl b w
    else if isUe e then d.bankUe tl b w
    else (d.bankTake tl b w).modBank tl b (fun y => { y with second := mput y.second sub w })

/-- What a sub-bank does in a cycle with the requests before it (R305, R310, R311): a write cycle under way, or the winner with the accesses that share its cycle; a bank
that is not on refuses all but a burst it has begun, and holds them while it turns on. (DEDUCED, log 41.) -/
def Dev.bankTurn (d : Dev) (tl b sub : Nat) (e : Ecc) : Dev :=
  let x := d.bank tl b
  match x.second.find? (fun c => c.1 == sub) with
  | some c => d.writeCycle tl b sub c.2
  | none =>
    let qs := d.competing tl b sub
    if x.target = some 2 then d
    else if x.state ≠ 2 ∨ x.target.isSome then
      let d := (qs.filter (fun q => q.pos == 0)).foldl (fun d q => d.bankRefuse tl b q) d
      match qs.filter (fun q => q.pos != 0) with
      | [] => d
      | q :: _ => d.winnerCycle tl b sub q [q] e
    else
      match bestReq (mget 0 x.rr sub) qs with
      | none => d
      | some q => d.winnerCycle tl b sub q qs e

/-- One cycle of a sub-bank: the port's queues take what they have room for (R306), then the sub-bank serves. -/
def Dev.bankCycle (d : Dev) (tl b sub : Nat) (e : Ecc) : Dev := (d.portFill tl).bankTurn tl b sub e

/-- BANK_REQUEST (R305). -/
def execBankRequest (g : Fin 16) (t : Fin 17) (b : Fin 4) (sub : Fin 16) (e : Ecc) (s : State) : Host.Outcome State Fault Refusal :=
  .next { s with dev := s.dev.bankCycle (tileKey g t) b sub e }

/-! ### Bank power (R310 to R312) -/

/-- A write of SPM.PWR: each bank starts towards its value, or keeps it for the end of the transition that runs; 3 is ignored. -/
def Dev.spmPwr (d : Dev) (tl : Nat) (v : W32) : Dev :=
  (List.range 4).foldl (fun d b =>
    let x := fld v (2 * b + 1) (2 * b)
    if x = 3 then d
    else
      let d := d.setFld (spmR tl 0) (2 * b + 1) (2 * b) x
      d.modBank tl b (fun y => if y.target.isSome then { y with next := some x } else if y.state = x then y else { y with target := some x })) d

/-- SPM_PWR_WRITE (R311). -/
def execSpmPwrWrite (g : Fin 16) (t : Fin 17) (v : W32) (s : State) : Host.Outcome State Fault Refusal :=
  .next { s with dev := s.dev.spmPwr (tileKey g t) v }

/-- A bank's contents become zeros. -/
def Dev.clearBank (d : Dev) (tl b : Nat) : Dev :=
  match d.clusterOf tl with
  | some c => d.clearMem (bankAddr c b 0) (bankAddr c b 0x40000)
  | none => d

/-- A burst has begun at a bank: an access in flight (R311). -/
def Dev.burstAt (d : Dev) (tl b : Nat) : Bool := ([true, false].filterMap (d.portHead tl b)).any (fun q => q.pos != 0)

/-- A bank enters its new state (R311): its accesses in flight are done; off loses the contents. (DESIGN CHOICE, log 13.) -/
def Dev.bankDone (d : Dev) (tl b : Nat) : Dev :=
  let x := d.bank tl b
  match x.target with
  | none => d
  | some y =>
    if !x.second.isEmpty ∨ d.burstAt tl b then d
    else
      let d := if y = 0 ∨ x.state = 0 then d.clearBank tl b else d
      let go := match x.next with | some z => if z = y then none else some z | none => none
      d.modBank tl b (fun q => { q with state := y, target := go, next := none })

/-- BANK_TRANSITION_DONE (R311). -/
def execBankTransitionDone (g : Fin 16) (t : Fin 17) (b : Fin 4) (s : State) : Host.Outcome State Fault Refusal :=
  .next { s with dev := s.dev.bankDone (tileKey g t) b }

/-- The scrubber reads a word of a bank that is on (R312). -/
def Dev.spmScrub (d : Dev) (tl b off : Nat) (e : Ecc) : Dev :=
  let x := d.bank tl b
  if x.state ≠ 2 ∨ x.target ≠ none then d
  else
    match e with
    | .ok => d
    | .ce => d.addSat16 (spmR tl 8) 1
    | .ue _ => d.spmUe tl (b * 0x40000 + off)

/-- SPM_SCRUB (R312). -/
def execSpmScrub (g : Fin 16) (t : Fin 17) (b : Fin 4) (off : BitVec 18) (e : Ecc) (s : State) : Host.Outcome State Fault Refusal :=
  .next { s with dev := s.dev.spmScrub (tileKey g t) b off.toNat e }

/-! ### HBM (R208, R314 to R318) -/

def hbmNode (k : Nat) : Node := .hubUnit (6 + k)
def Dev.hbmOf (d : Dev) (k : Nat) : Hbm := mget {} d.hbm k
def Dev.modHbm (d : Dev) (k : Nat) (f : Hbm → Hbm) : Dev := { d with hbm := mmod {} d.hbm k f }
def stackBase (k : Nat) : Nat := k * 0x600000000

/-- A row is copied to a spare when one is free (R315). -/
def Dev.spareRow (d : Dev) (k row : Nat) : Dev :=
  let a := hbmReg k 0x1C
  if d.rfld a 9 0 = 0 ∨ (d.hbmOf k).copying.contains row then d
  else ((d.setFld a 9 0 (d.rfld a 9 0 - 1)).setFld a 25 16 (d.rfld a 25 16 + 1)).modHbm k (fun x => { x with copying := x.copying ++ [row] })

/-- What a read of HBM finds at an address (R314, R315). (DESIGN CHOICE, log 42.) -/
def Dev.hbmEcc (d : Dev) (k a : Nat) (e : Ecc) : Dev :=
  let row := Config.hbmRow a
  match e with
  | .ok => d
  | .ce =>
    let d := (d.addSat16 (hbmReg k 4) 1).modHbm k (fun x => { x with ce := mmod 0 x.ce row (· + 1) })
    let th := d.rfld (hbmReg k 0x20) 3 0
    if th ≠ 0 ∧ th ≤ mget 0 (d.hbmOf k).ce row then d.spareRow k row else d
  | .ue _ => (((d.addSat16 (hbmReg k 8) 1).setPair (hbmReg k 0xC) a).raiseFree 335 k).spareRow k row

/-- A spilled entry's slot with STATE 0 (R208). -/
def Dev.emptySlotAt (d : Dev) (a : Nat) : Dev := d.write a (entryBytes { entryOfBytes (d.read a 32) with st := 0 })

/-- A fill (R208): the bucket as it was, its slots of the key emptied. -/
def Dev.hbmFill (d : Dev) (r : MemReq) : Dev × MemResp :=
  let a := r.addr.toNat
  let hit := (List.range 8).filter (fun i => let e := entryOfBytes (d.read (a + 32 * i) 32); e.st != 0 && keyOf e.tok.tag == r.operand)
  (hit.foldl (fun d i => d.emptySlotAt (a + 32 * i)) d, respOf r 0 0 (d.read a 256))

/-- A whole request at a controller (R208, R308, R316). A fill and an overflow delete act on the slots whatever the read's outcome: an uncorrectable error is the response's STATUS.
(DEDUCED, log 107.) (DEDUCED, log 107.) -/
def Dev.hbmServe (d : Dev) (k : Nat) (r : MemReq) (e : Ecc) : Dev × MemResp :=
  let a := r.addr.toNat
  let n := if r.op = 6 ∨ r.op = 8 then 32 else accessBytes r.size
  let reads := readsOld r || r.op == 7 || r.op == 8
  let d := if reads then d.hbmEcc k a e else d
  let bad := isUe e && reads
  if a < stackBase k ∨ stackBase (k + 1) < a + n ∨ 8 < r.op.toNat ∨ r.op = 4 ∨ r.op = 5 then (d, respOf r 2 0 [])
  else
    let st := if bad then 1 else 0
    match r.op.toNat with
    | 6 => (d.write a (entryBytes { entryOfBytes r.data with st := 1 }), respOf r 0 0 [])
    | 7 => let x := d.hbmFill r; (x.1, { x.2 with status := BitVec.ofNat 4 st })
    | 8 => (d.emptySlotAt a, respOf r st 0 [])
    | _ => if bad then (d, respOf r 1 0 []) else d.memAccess r

/-- A request is carried out and answered. -/
def Dev.hbmAnswer (d : Dev) (k : Nat) (r : MemReq) (e : Ecc) : Dev :=
  let x := d.hbmServe k r e
  x.1.send (hbmNode k) { dest := r.req, prio := r.prio, body := .resp x.2 }

/-- The row of an address is being copied. -/
def Dev.rowCopies (d : Dev) (k : Nat) (a : Nat) : Bool := (d.hbmOf k).copying.contains (Config.hbmRow a)

/-- The next request at a controller that accepts requests (R315, R317): the oldest of those held whose row's copy is done, or the next of L1; one to a row being copied leaves L1 and
is held (R217). -/
def Dev.hbmRequest (d : Dev) (k : Nat) (e : Ecc) : Dev :=
  if !d.rbit (hbmReg k 0) 0 then d
  else
    match (d.hbmOf k).held.find? (fun r => !d.rowCopies k r.addr.toNat) with
    | some r => (d.modHbm k (fun x => { x with held := removeFirst (· == r) x.held })).hbmAnswer k r e
    | none =>
      match d.takeInbox (hbmNode k) 1 with
      | some ({ body := .req r, .. }, d) =>
        if d.rowCopies k r.addr.toNat then d.modHbm k (fun x => { x with held := x.held ++ [r] }) else d.hbmAnswer k r e
      | _ => d

/-- HBM_REQUEST (R316). -/
def execHbmRequest (k : Fin 2) (e : Ecc) (s : State) : Host.Outcome State Fault Refusal :=
  .next { s with dev := s.dev.hbmRequest k e }

/-- The scrubber reads at an offset of its stack; `last` ends the pass (R315). -/
def Dev.hbmScrub (d : Dev) (k off : Nat) (e : Ecc) (last : Bool) : Dev :=
  if d.rfld (hbmReg k 0x14) 7 0 = 0 ∨ !d.rbit (hbmReg k 0) 0 then d
  else
    let d := d.hbmEcc k (stackBase k + off) e
    let d := d.setFld (hbmReg k 0x18) 7 0 (if last then 0 else off * 256 / 0x600000000)
    if last then (d.setBit (hbmReg k 0x18) 8 true).modHbm k (fun x => { x with ce := [] }) else d

/-- HBM_SCRUB (R315). -/
def execHbmScrub (k : Fin 2) (off : Fin 0x600000000) (e : Ecc) (last : Bool) (s : State) : Host.Outcome State Fault Refusal :=
  .next { s with dev := s.dev.hbmScrub k off e last }

/-- The oldest copy to a spare row completes, with a health event (R315). -/
def Dev.spareDone (d : Dev) (k : Nat) : Dev :=
  match (d.hbmOf k).copying with
  | [] => d
  | row :: rest => (d.modHbm k (fun x => { x with copying := rest, ce := mdel x.ce row })).raiseFree 335 k

/-- SPARE_ROW_DONE (R315). -/
def execSpareRowDone (k : Fin 2) (s : State) : Host.Outcome State Fault Refusal :=
  .next { s with dev := s.dev.spareDone k }

/-- A stack's training completes (R317). -/
def Dev.hbmTrained (d : Dev) (k : Nat) : Dev :=
  if d.rbit (hbmReg k 0) 1 && d.rfld (pwrReg (0x100 + 4 * (39 + k))) 3 2 != 0 && d.islands.contains (303 + k) then (d.setBit (hbmReg k 0) 1 false).setBit (hbmReg k 0) 0 true else d

/-- HBM_TRAINING_DONE (R317). -/
def execHbmTrainingDone (k : Fin 2) (s : State) : Host.Outcome State Fault Refusal :=
  .next { s with dev := s.dev.hbmTrained k }

end Sys2Proof.Machine
end

