-- ==== Sys2Proof/Machine/Locks.lean ====
section
/-!
DEFINITION. The lock units (09_memories_locks.md, R319 to R328): leases, waiters, grants, the ways a lease ends, and
the boost of a holder (R185).
-/
namespace Sys2Proof.Machine

def lckNode (g : Nat) : Node := .regionUnit g 1
def lckStatus (g : Nat) : Nat := lckReg g 0x20
def Dev.lck (d : Dev) (g : Nat) : LockUnit := (d.region g).lck

/-- OWNER of the Steward (R321). -/
def stewOwner : BitVec 22 := 0x3FFFFF

def LockUnit.leaseOn (u : LockUnit) (a : Nat) : Option Lease := u.leases.find? (fun l => l.addr == a)

/-- A lease period in µs (R328). -/
def Dev.leaseUs (d : Dev) (g : Nat) : Nat := min 1000000 (max 1 (d.rfld (lckReg g 0) 19 0))

/-- A grant word (R321). (DESIGN CHOICE, log 43.) -/
def grantWord (h : LockHist) (recov : Bool) (l : Lease) : W64 :=
  BitVec.ofNat 64 (2 ^ 63 + (if h.reset || recov then 2 ^ 62 else 0) + (if h.revoked then 2 ^ 61 else 0) + l.owner.toNat * 2 ^ 39 +
    l.seq.toNat * 2 ^ 32 + l.expiry.toNat)

/-! ### Boosts (R185) -/

/-- The boost the unit gives a holder: the highest waiter on its leases, at most 14, and 0 where its base PRIO is no lower. (DESIGN CHOICE, log 43.) -/
def Dev.lockBoost (d : Dev) (g : Nat) (c : BitVec 22) : Nat :=
  let u := d.lck g
  let words := (u.leases.filter (fun l => l.owner == c)).map (·.addr)
  let b := min 14 ((u.wait.filter (fun w => words.contains w.addr)).foldl (fun m w => max m w.prio) 0)
  if c = stewOwner ∨ b ≤ cdPrio (d.ctxDesc c) then 0 else b

/-- Send a BOOST message where a holder's boost changed. (DESIGN CHOICE, log 15.) -/
def Dev.boostOne (d : Dev) (g : Nat) (c : BitVec 22) : Dev :=
  let b := d.lockBoost g c
  if b = mget 0 (d.lck g).boosts c.toNat then d
  else (d.modLck g (fun u => { u with boosts := mset 0 u.boosts c.toNat b })).sendAll (lckNode g) (boostPackets c g b)

/-- Recompute the boosts of a unit's holders, present and former. -/
def Dev.lockBoosts (d : Dev) (g : Nat) : Dev :=
  let u := d.lck g
  let cs := (u.boosts.map (fun x => BitVec.ofNat 22 x.1) ++ u.leases.map (·.owner)).eraseDups
  cs.foldl (fun d c => d.boostOne g c) d

/-! ### Grants and the end of a lease (R322 to R327) -/

/-- Answer an acquire or release. -/
def Dev.lockAnswer (d : Dev) (g : Nat) (r : MemReq) (status result : Nat) : Dev := d.respond (lckNode g) r status result []

/-- Grant a lease on a word and answer its requester. -/
def Dev.lockGrant (d : Dev) (g a : Nat) (r : MemReq) : Dev :=
  let u := d.lck g
  let h := mget {} u.hist (a / 8)
  let l : Lease := { addr := a, owner := r.ctx, seq := if h.used then h.seq + 1 else 0, expiry := BitVec.ofNat 32 (d.time.toNat / 1000 + d.leaseUs g) }
  let word := grantWord h u.recov l
  let d := d.modLck g (fun u => { u with
    leases := u.leases ++ [l], hist := mset {} u.hist (a / 8) { seq := l.seq, used := true } })
  (d.hwm (lckReg g 0xC) 12 0 (d.lck g).leases.length).lockAnswer g r 0 word.toNat

/-- The waiter of highest effective priority, the oldest among equals. -/
def bestWaiter (ws : List LockWait) : Option LockWait :=
  ws.foldl (fun (m : Option LockWait) w => match m with | none => some w | some x => if x.prio < w.prio then some w else some x) none

/-- Grant one waiter whose word is free, one on word `a` first, while the table has room. -/
def Dev.lockServe (d : Dev) (g a : Nat) : Dev :=
  let u := d.lck g
  if 4096 ≤ u.leases.length then d
  else
    let free := u.wait.filter (fun w => (u.leaseOn w.addr).isNone)
    match (bestWaiter (free.filter (fun w => w.addr == a))).or (bestWaiter free) with
    | none => d
    | some w => (d.modLck g (fun u => { u with wait := removeFirst (· == w) u.wait })).lockGrant g w.addr w.req

/-- A lease ends; how it ended is kept for the next grant on the word. -/
def Dev.leaseEnd (d : Dev) (g a : Nat) (reset revoked : Bool) : Dev :=
  let d := d.modLck g (fun u => { u with
    leases := u.leases.filter (fun l => l.addr != a), hist := mmod {} u.hist (a / 8) (fun h => { h with reset := reset, revoked := revoked }) })
  (d.lockServe g a).lockBoosts g

/-- The request at the front of a unit's L1 queue. -/
def Dev.lockFront (d : Dev) (g op : Nat) : Option (MemReq × Dev) :=
  match d.takeInbox (lckNode g) 1 with
  | some ({ body := .req r, .. }, d) => if r.op.toNat = op then some (r, d) else none
  | _ => none

/-- An acquire reaches its home (R322, R327). (DESIGN CHOICE, log 43.) -/
def Dev.lockAcquire (d : Dev) (g : Nat) : Dev :=
  match d.lockFront g 4 with
  | none => d
  | some (r, d) =>
    let a := r.addr.toNat
    let u := d.lck g
    if !d.regionOpen g then d.lockAnswer g r 0 0
    else
      match u.leaseOn a with
      | none =>
        if u.leases.length < 4096 then d.lockGrant g a r
        else if u.wait.length < 8192 then d.modLck g (fun u => { u with wait := u.wait ++ [{ addr := a, req := r, prio := r.prio.toNat }] })
        else (d.setBit (lckStatus g) 5 true).lockAnswer g r 0 0
      | some l =>
        if l.owner = r.ctx then (d.setBit (lckStatus g) 4 true).lockAnswer g r 0 0
        else if u.wait.length < 8192 then
          (d.modLck g (fun u => { u with wait := u.wait ++ [{ addr := a, req := r, prio := r.prio.toNat }] })).lockBoosts g
        else (d.setBit (lckStatus g) 5 true).lockAnswer g r 0 0

/-- LOCK_ACQUIRE (R322). -/
def execLockAcquire (g : Fin 16) (s : State) : Host.Outcome State Fault Refusal := .next { s with dev := s.dev.lockAcquire g }

/-- A release reaches its home (R324). -/
def Dev.lockRelease (d : Dev) (g : Nat) : Dev :=
  match d.lockFront g 5 with
  | none => d
  | some (r, d) =>
    let a := r.addr.toNat
    match (d.lck g).leaseOn a with
    | some l =>
      if r.operand.extractLsb' 39 22 = l.owner ∧ r.operand.extractLsb' 32 7 = l.seq then (d.lockAnswer g r 0 0).leaseEnd g a false false
      else (d.setBit (lckStatus g) 3 true).lockAnswer g r 3 0
    | none => (d.setBit (lckStatus g) 3 true).lockAnswer g r 3 0

/-- LOCK_RELEASE (R324). -/
def execLockRelease (g : Fin 16) (s : State) : Host.Outcome State Fault Refusal := .next { s with dev := s.dev.lockRelease g }

/-- A lease expires (R323). (DESIGN CHOICE, log 13.) -/
def Dev.leaseExpiry (d : Dev) (g a : Nat) : Dev :=
  match (d.lck g).leaseOn a with
  | none => d
  | some _ => ((d.setBit (lckStatus g) 1 true).raise (258 + 4 * g) 1 0).leaseEnd g a false true

/-- LEASE_EXPIRY (R323). -/
def execLeaseExpiry (g : Fin 16) (a : BitVec 48) (s : State) : Host.Outcome State Fault Refusal := .next { s with dev := s.dev.leaseExpiry g a.toNat }

/-- The n-th waiter's timeout passes (R322). -/
def Dev.lockTimeout (d : Dev) (g n : Nat) : Dev :=
  match (d.lck g).wait[n]? with
  | none => d
  | some w => ((d.modLck g (fun u => { u with wait := u.wait.eraseIdx n })).lockAnswer g w.req 4 0).lockBoosts g

/-- LOCK_WAIT_TIMEOUT (R322). -/
def execLockWaitTimeout (g : Fin 16) (n : BitVec 13) (s : State) : Host.Outcome State Fault Refusal :=
  .next { s with dev := s.dev.lockTimeout g n.toNat }

/-- A write of LCK.FORCE_HI (R325). -/
def Dev.lockForce (d : Dev) (g : Nat) (v : W32) : Dev :=
  let d := d.pairWrite (lckReg g 0x18) v
  let a := d.pair (lckReg g 0x18)
  match (d.lck g).leaseOn a with
  | none => d
  | some _ => (d.setBit (lckStatus g) 2 true).leaseEnd g a false true

/-- LCK_FORCE (R325). -/
def execLckForce (g : Fin 16) (v : W32) (s : State) : Host.Outcome State Fault Refusal :=
  .next { s with dev := s.dev.writes (lckReg g 0x1C) (s.dev.lockForce g v) }

/-- A context's leases end with PREV_RESET and its waiters go without an answer (R326). -/
def Dev.ownerGone (d : Dev) (g : Nat) (c : BitVec 22) : Dev :=
  let d := d.modLck g (fun u => { u with wait := u.wait.filter (fun w => w.req.ctx != c) })
  (((d.lck g).leases.filter (fun l => l.owner == c)).foldl (fun d l => d.leaseEnd g l.addr true false) d).lockBoosts g

/-- An owner reset reaches a lock unit. -/
def Dev.ownerResetAt (d : Dev) (g : Nat) : Dev :=
  match d.takeMgmt (lckNode g) isOwnerReset with
  | some (.ownerReset c, d) => d.ownerGone g c
  | _ => d

/-- OWNER_RESET (R326). -/
def execOwnerReset (g : Fin 16) (s : State) : Host.Outcome State Fault Refusal := .next { s with dev := s.dev.ownerResetAt g }

/-- LOCK_RECOVERY_END (R327). -/
def execLockRecoveryEnd (g : Fin 16) (s : State) : Host.Outcome State Fault Refusal :=
  .next { s with dev := s.dev.modLck g (fun u => { u with recov := false }) }

/-- LCK_HWM_CLR (R328). -/
def Dev.lckHwmClr (d : Dev) (g : Nat) (v : W32) : Dev := if v.getLsbD 0 then d.setFld (lckReg g 0xC) 12 0 (d.lck g).leases.length else d
def execLckHwmClr (g : Fin 16) (v : W32) (s : State) : Host.Outcome State Fault Refusal :=
  .next { s with dev := s.dev.writes (lckReg g 0x14) (s.dev.lckHwmClr g v) }

end Sys2Proof.Machine
end

