-- ==== Sys2Proof/Machine/Dma.lean ====
section
/-!
DEFINITION. The DMA engines (10_dma.md): descriptors and their check, bursts, arbitration and pacing, completion, the
done token, and the writes that act on a channel.
-/
namespace Sys2Proof.Machine

def dmaNode (g : Nat) : Node := .regionUnit g 0
def Dev.dmaCh (d : Dev) (g c : Nat) : DmaCh := mget {} (d.region g).dma c
def Dev.modDma (d : Dev) (g c : Nat) (f : DmaCh → DmaCh) : Dev := d.modRegion g (fun r => { r with dma := mmod {} r.dma c f })
def chCtrl (g c : Nat) : Nat := dmaChReg g c 0
def chStatus (g c : Nat) : Nat := dmaChReg g c 4

/-! ### Descriptors (R331) -/

/-- A register of the active set by its offset. -/
def DmaCh.r (x : DmaCh) (o : Nat) : Nat := (mget 0 x.set o).toNat
def DmaCh.pair (x : DmaCh) (o : Nat) : Nat := x.r o + x.r (o + 4) * 2 ^ 32
/-- A signed stride. -/
def DmaCh.stride (x : DmaCh) (o : Nat) : Int := (mget 0 x.set o).toInt

def DmaCh.mode (x : DmaCh) : Nat := x.r 0x48 % 4
/-- The bytes that the channel moves. -/
def DmaCh.total (x : DmaCh) : Nat := x.r 0x3C % 2 ^ 20 * (x.r 0x40 % 65536 + 1)

/-- The address at byte `p` of a side. -/
def sideAddr (base : Nat) (len : Nat) (stride : Int) (p : Nat) : Nat := ((base : Int) + (p / len : Nat) * stride + (p % len : Nat)).toNat
def DmaCh.srcAt (x : DmaCh) (p : Nat) : Nat := sideAddr (x.pair 0x20) (x.r 0x30 % 2 ^ 20) (x.stride 0x38) p
def DmaCh.dstAt (x : DmaCh) (p : Nat) : Nat := sideAddr (x.pair 0x28) (x.r 0x3C % 2 ^ 20) (x.stride 0x44) p

/-- A line lies wholly inside HBM or inside one bank of the scratchpad window. -/
def lineOk (a : Int) (len : Nat) : Bool :=
  (decide (0 ≤ a ∧ a + len ≤ hbmSize)) ||
  (decide ((spmBase : Int) ≤ a ∧ a + len ≤ spmEnd) && a / 0x40000 == (a + len - 1) / 0x40000)

/-- One side passes R331. -/
def sideOk (base len lines : Nat) (stride : Int) : Bool :=
  base % 32 == 0 && len % 32 == 0 && stride % 32 == 0 && decide (32 ≤ len ∧ len ≤ 1048544) &&
  (List.range (lines + 1)).all (fun i => lineOk ((base : Int) + i * stride) len)

/-- The descriptor check (R331, R337, R343). -/
def DmaCh.descOk (x : DmaCh) (reqsrc : Nat) : Bool :=
  let sl := x.r 0x30 % 2 ^ 20
  let sn := x.r 0x34 % 65536
  let dl := x.r 0x3C % 2 ^ 20
  let dn := x.r 0x40 % 65536
  let dst := DstF.ofBits (BitVec.ofNat 29 (x.r 0x54))
  decide (x.mode ≤ 2) && decide (x.r 0x48 / 4 % 4 ≤ 2) && decide (reqsrc ≤ 4) &&
  sideOk (x.pair 0x28) dl dn (x.stride 0x44) &&
  (x.mode == 1 || (sideOk (x.pair 0x20) sl sn (x.stride 0x38) && sl * (sn + 1) == dl * (dn + 1))) &&
  (x.r 0x48 / 16 % 2 == 0 || (decide (dst.die.toNat ≤ 3) && decide (dst.port.toNat ≤ 2))) && x.r 0x5C / 2 ^ 12 % 16 != 15

/-! ### Bursts (R332, R336) -/

/-- The size of the burst at byte `p`. -/
def DmaCh.burstLen (x : DmaCh) (p : Nat) : Nat :=
  let most := match x.r 0x48 / 4 % 4 with | 0 => 32 | 1 => 64 | _ => 256
  let dl := x.r 0x3C % 2 ^ 20
  let sl := x.r 0x30 % 2 ^ 20
  let fits := fun (n : Nat) =>
    decide (n ≤ most) && x.dstAt p % n == 0 && decide (p % dl + n ≤ dl) && (x.mode == 1 || (x.srcAt p % n == 0 && decide (p % sl + n ≤ sl)))
  if fits 256 then 256 else if fits 64 then 64 else 32

/-- SIZE of a burst. -/
def burstSize (n : Nat) : BitVec 4 := if n = 32 then 4 else if n = 64 then 5 else 6

/-- FILL repeated from its byte 0 at each 8-byte boundary. -/
def DmaCh.fillBytes (x : DmaCh) (n : Nat) : List Byte := (List.range (n / 8)).flatMap (fun _ => leBytes 8 (x.pair 0x4C))

/-- PRIO of a level's requests (R336). -/
def dmaPrio (level : Nat) : BitVec 4 := if level = 0 then 0 else if level = 1 then 5 else if level = 2 then 10 else 14

def Dev.dmaLevel (d : Dev) (g c : Nat) : Nat := d.rfld (chCtrl g c) 9 8

/-- A request of a channel. -/
def Dev.dmaReq (d : Dev) (g c op tag a n : Nat) (data : List Byte) : Dev :=
  d.access (dmaNode g) 10000 0 0
    { op := BitVec.ofNat 4 op, size := burstSize n, addr := BitVec.ofNat 48 a, rtag := BitVec.ofNat 12 (c * 128 + tag)
      req := { die := BitVec.ofNat 3 (g / 4), rgn := BitVec.ofNat 2 (g % 4), tile := 31, unit := 0 }
      prio := dmaPrio (d.dmaLevel g c), data := data }

/-! ### Completion (R338, R340) -/

def stDMA_FAULT : Nat := 0x701
def stDMA_MISMATCH : Nat := 0x702
def stDMA_BADDESC : Nat := 0x703
def stDMA_ABORTED : Nat := 0x704

/-- The done token. -/
def Dev.doneToken (d : Dev) (x : DmaCh) (code detail : Nat) (err : Bool) : Token :=
  let tag : Tag := { dev := d.devNo, graph := BitVec.ofNat 12 (x.r 0x5C), ctx := BitVec.ofNat 22 (x.r 0x58)
                     prio := BitVec.ofNat 4 (x.r 0x5C / 2 ^ 12), epoch := BitVec.ofNat 8 (x.r 0x5C / 2 ^ 16) }
  { tag := Tag.seal (Tag.to tag (DstF.ofBits (BitVec.ofNat 29 (x.r 0x54)))), pay := status code originBlock detail, ty := tyByte 6 err false false }

/-- A transfer ends: status bits, the done token, and a restart with LOOP (R338 to R340). CH_REMAIN keeps what was not issued. (DEDUCED, log 44.) -/
def Dev.dmaComplete (d : Dev) (g c : Nat) (bad : Bool) : Dev :=
  let x := d.dmaCh g c
  let err := x.err != 0 || bad
  let a := d.pair (dmaChReg g c 0xC)
  let d := (d.setBit (chStatus g c) 1 true).setBit (dmaReg g 4) c true
  let d := if err then ((d.setBit (chStatus g c) 2 true).setBit (dmaReg g 8) c true).raise (259 + 4 * g) (if bad then 2 else 1) c else d
  let d := if bad then d.setBit (chStatus g c) 6 true else d
  let d := if x.abort then d.setBit (chStatus g c) 4 true else d
  let d := if x.cmpAt.isSome then d.setBit (chStatus g c) 3 true else d
  let (code, detail) : Nat × Nat :=
    if bad then (stDMA_BADDESC, 0)
    else if x.err ≠ 0 then (stDMA_FAULT, x.err + a / 16 * 16)
    else if x.cmpAt.isSome then (stDMA_MISMATCH, a)
    else if x.abort then (stDMA_ABORTED, x.issued / 32)
    else (0, x.total / 32)
  let d := if x.r 0x48 / 16 % 2 = 1 then d.blockSend (dmaNode g) (d.doneToken x code detail err) else d
  let again := d.rbit (chCtrl g c) 4 && !d.rbit (chCtrl g c) 3
  d.modDma g c (fun y => { y with busy := again, issued := if again then 0 else y.issued, bursts := [], abort := false, cmpAt := none, err := 0, bad := again && bad })

/-- Complete once nothing is outstanding and nothing more will be issued. -/
def Dev.dmaFinish (d : Dev) (g c : Nat) : Dev :=
  let x := d.dmaCh g c
  if x.busy && x.bursts.isEmpty && (x.err != 0 || x.abort || x.cmpAt.isSome || decide (x.total ≤ x.issued)) then d.dmaComplete g c false else d

/-- An error of a burst: the first is recorded (R338). -/
def Dev.dmaError (d : Dev) (g c st a : Nat) : Dev :=
  if (d.dmaCh g c).err ≠ 0 then d
  else ((d.modDma g c (fun y => { y with err := st })).setFld (chStatus g c) 19 16 st).setPair (dmaChReg g c 0xC) a

/-! ### Hand-over (R339) -/

/-- Offsets of the shadow set. -/
def shadowOffsets : List Nat := (List.range 16).map (fun i => 0x20 + 4 * i)

/-- The engine is held in block reset. -/
def Dev.dmaHeld (d : Dev) (g : Nat) : Bool := d.rbit (dmaReg g 0xC) 0 || d.rbit (rstReg 0x10) g

/-- The channel is in no reset. -/
def Dev.dmaFree (d : Dev) (g c : Nat) : Bool := !d.rbit (chCtrl g c) 2 && !d.dmaHeld g

/-- An enabled idle channel takes a valid shadow; a refused set that LOOP restarted is refused again. (DEDUCED, log 44.) -/
def Dev.dmaHandover (d : Dev) (g c : Nat) : Dev :=
  let x := d.dmaCh g c
  if !d.dmaFree g c || !d.rbit (chCtrl g c) 0 then d
  else if x.busy then (if x.bad then d.dmaComplete g c true else d)
  else if !d.rbit (chCtrl g c) 3 then d
  else
    let set : SMap W32 := shadowOffsets.foldl (fun m o => mset 0 m o (d.reg (dmaChReg g c o))) []
    let d := d.setBit (chCtrl g c) 3 false
    let x := { x with busy := true, set := set, issued := 0, bursts := [], abort := false, cmpAt := none, err := 0, bad := false }
    let d := d.modDma g c (fun _ => x)
    if x.descOk (d.rfld (chCtrl g c) 14 12) then d else d.dmaComplete g c true

/-- DMA_HANDOVER (R339). -/
def execDmaHandover (g : Fin 16) (c : Fin 32) (s : State) : Host.Outcome State Fault Refusal := .next { s with dev := s.dev.dmaHandover g c }

/-! ### Issue (R335 to R337) -/

/-- A channel is ready. -/
def Dev.dmaReady (d : Dev) (g c : Nat) : Bool :=
  let x := d.dmaCh g c
  d.rbit (chCtrl g c) 0 && d.dmaFree g c && x.busy && !x.bad && x.err == 0 && !x.abort && x.cmpAt.isNone && decide (x.issued < x.total) &&
  decide (x.bursts.length < 4) && (d.rfld (chCtrl g c) 14 12 == 0 || decide (0 < x.pend))

/-- Bursts outstanding in the engine. -/
def Dev.dmaOutstanding (d : Dev) (g : Nat) : Nat := (d.region g).dma.foldl (fun n c => n + c.2.bursts.length) 0

/-- The channel served next: highest level, round robin within it. (DESIGN CHOICE, log 5.) -/
def Dev.dmaPick (d : Dev) (g : Nat) : Option Nat :=
  let at_ := fun (lv : Nat) =>
    ((List.range 32).map (fun i => (mget 0 (d.region g).dmaRr lv + i) % 32)).find? (fun c => d.dmaLevel g c == lv && d.dmaReady g c)
  (at_ 3).or ((at_ 2).or ((at_ 1).or (at_ 0)))

/-- DMA may read or write at an address (R329, R508). -/
def Dev.dmaPermits (d : Dev) (a : Nat) (wr : Bool) : Bool := d.permits a [if wr then 5 else 4]

/-- The tag of the channel's next burst: one that no burst uses and no discarded response still names. -/
def DmaCh.freeTag (x : DmaCh) : Nat :=
  let ok := fun (t : Nat) => !x.gone.contains t && !x.gone.contains (t + 1) && !x.bursts.any (fun b => b.rtag == t)
  (((List.range 64).map (fun i => 2 * ((x.nextTag + i) % 64))).find? ok).getD (2 * (x.nextTag % 64))

/-- Issue a burst of the chosen channel. (DEDUCED, log 44.) -/
def Dev.dmaIssue (d : Dev) (g : Nat) : Dev :=
  if 64 ≤ d.dmaOutstanding g then d
  else
    match d.dmaPick g with
    | none => d
    | some c =>
      let x := d.dmaCh g c
      let lv := d.dmaLevel g c
      let n := x.burstLen x.issued
      let tag := x.freeTag
      let sa := x.srcAt x.issued
      let da := x.dstAt x.issued
      let d := d.modRegion g (fun r => { r with dmaRr := mset 0 r.dmaRr lv ((c + 1) % 32) })
      let b : Burst := { rtag := tag, off := x.issued, len := n, wr := x.mode == 1 }
      let d := d.modDma g c (fun y => { y with
        issued := y.issued + n, nextTag := tag / 2 + 1, bursts := y.bursts ++ [b]
        pend := if d.rfld (chCtrl g c) 14 12 = 0 then y.pend else y.pend - 1 })
      let drop := fun (d : Dev) (a : Nat) => ((d.modDma g c (fun y => { y with bursts := y.bursts.filter (fun z => z.rtag != tag) })).dmaError g c 3 a).dmaFinish g c
      if x.mode ≠ 1 ∧ !d.dmaPermits sa false then drop d sa
      else if x.mode = 2 ∧ !d.dmaPermits da false then drop d da
      else if x.mode ≠ 2 ∧ !d.dmaPermits da true then drop d da
      else if x.mode = 1 then d.dmaReq g c 1 tag da n (x.fillBytes n)
      else if x.mode = 0 then d.dmaReq g c 0 tag sa n []
      else (d.dmaReq g c 0 tag sa n []).dmaReq g c 0 (tag + 1) da n []

/-- DMA_BURST_ISSUE (R335). -/
def execDmaBurstIssue (g : Fin 16) (s : State) : Host.Outcome State Fault Refusal := .next { s with dev := s.dev.dmaIssue g }

/-! ### Responses (R333, R334, R336, R338) -/

/-- The channel's burst with a tag replaced or, with none, removed. -/
def Dev.setBurst (d : Dev) (g c tag : Nat) (b : Option Burst) : Dev :=
  d.modDma g c (fun y => { y with
    bursts := match b with
      | some z => replaceFirst (fun q => q.rtag == tag) (fun _ => z) y.bursts
      | none => y.bursts.filter (fun q => q.rtag != tag) })

/-- The offset of the first 8-byte word that differs. -/
def firstDiff (a b : List Byte) : Option Nat := ((a.zip b).findIdx? (fun p => p.1 != p.2)).map (fun i => i / 8 * 8)

/-- Both sides of a compare burst are answered: compared where both were read. -/
def Dev.dmaCompare (d : Dev) (g c : Nat) (b : Burst) : Dev :=
  match b.src, b.dst with
  | some s, some t =>
    let x := d.dmaCh g c
    let d := d.setBurst g c b.rtag none
    match (if b.bad then none else firstDiff s t) with
    | none => d
    | some i =>
      let a := x.dstAt b.off + i
      let low := match x.cmpAt with | some y => min y a | none => a
      let d := d.modDma g c (fun y => { y with cmpAt := some low })
      if x.err = 0 then d.setPair (dmaChReg g c 0xC) low else d
  | _, _ => d.setBurst g c b.rtag (some b)

/-- A response to a burst of before the channel's reset is discarded (R341). -/
def Dev.dmaGone (d : Dev) (g c tag : Nat) : Dev := d.modDma g c (fun y => { y with gone := removeFirst (· == tag) y.gone })

/-- A read of the engine failed (R338): a copy burst ends; a compare burst waits for its other read. -/
def Dev.dmaReadFails (d : Dev) (g c st : Nat) (isDst : Bool) (b : Burst) : Dev :=
  let x := d.dmaCh g c
  let d := d.dmaError g c st (if isDst then x.dstAt b.off else x.srcAt b.off)
  (if x.mode = 2 then d.dmaCompare g c { (if isDst then { b with dst := some [] } else { b with src := some [] }) with bad := true } else d.setBurst g c b.rtag none).dmaFinish g c

/-- A read response of the engine. -/
def Dev.dmaRead (d : Dev) (g : Nat) : Dev :=
  match d.takeResp (dmaNode g) (fun r => r.op == 0) with
  | none => d
  | some (r, d) =>
    let c := r.rtag.toNat / 128
    let tag := r.rtag.toNat % 128
    let x := d.dmaCh g c
    if x.gone.contains tag then d.dmaGone g c tag
    else
    match x.bursts.find? (fun b => b.rtag == tag / 2 * 2 && !b.wr) with
    | none => d
    | some b =>
      let isDst := tag % 2 == 1
      if r.status ≠ 0 then d.dmaReadFails g c r.status.toNat isDst b
      else if x.mode = 2 then
        (d.dmaCompare g c (if isDst then { b with dst := some r.data } else { b with src := some r.data })).dmaFinish g c
      else if x.err ≠ 0 then (d.setBurst g c b.rtag none).dmaFinish g c
      else (d.setBurst g c b.rtag (some { b with wr := true })).dmaReq g c 1 b.rtag (x.dstAt b.off) b.len r.data

/-- DMA_READ_RESPONSE (R336). -/
def execDmaReadResponse (g : Fin 16) (s : State) : Host.Outcome State Fault Refusal := .next { s with dev := s.dev.dmaRead g }

/-- Leave bytes undefined: each becomes a free value. (DEDUCED, log 44.) -/
def Dev.freeBytes (d : Dev) (a n : Nat) : Dev :=
  { d.write a ((List.range n).map (fun i => (Config.freeValue (d.fresh + i)).extractLsb' 0 8)) with fresh := d.fresh + n }

/-- A write response of the engine. (DEDUCED, log 44.) -/
def Dev.dmaWrite (d : Dev) (g : Nat) : Dev :=
  match d.takeResp (dmaNode g) (fun r => r.op == 1) with
  | none => d
  | some (r, d) =>
    let c := r.rtag.toNat / 128
    let x := d.dmaCh g c
    if x.gone.contains (r.rtag.toNat % 128) then d.dmaGone g c (r.rtag.toNat % 128)
    else
    match x.bursts.find? (fun b => b.rtag == r.rtag.toNat % 128 && b.wr) with
    | none => d
    | some b =>
      let d := d.setBurst g c b.rtag none
      let d := if r.status = 0 then d else (d.freeBytes (x.dstAt b.off) b.len).dmaError g c r.status.toNat (x.dstAt b.off)
      d.dmaFinish g c

/-- DMA_WRITE_RESPONSE (R338). -/
def execDmaWriteResponse (g : Fin 16) (s : State) : Host.Outcome State Fault Refusal := .next { s with dev := s.dev.dmaWrite g }

/-! ### Request lines (R337) -/

/-- A pulse reaches a channel that its line paces. -/
def Dev.dmaPulseAt (d : Dev) (g c : Nat) : Dev :=
  if (d.dmaCh g c).pend = 255 then (d.setBit (chStatus g c) 5 true).raise (259 + 4 * g) 3 c
  else d.modDma g c (fun y => { y with pend := y.pend + 1 })

/-- A channel is paced by the line: `g0` is the region of a Stride engine's line. -/
def Dev.pacedBy (d : Dev) (g c src idx g0 : Nat) : Bool :=
  d.rbit (chCtrl g c) 0 && d.dmaFree g c && d.rfld (chCtrl g c) 14 12 == src && d.rfld (chCtrl g c) 21 16 == idx && (src != 4 || g == g0)

/-- The oldest pulse of a request line is counted by every channel it paces. -/
def Dev.dmaPulse (d : Dev) : Dev :=
  match d.pulses with
  | [] => d
  | (src, idx, g0) :: rest =>
    (((List.range 16).flatMap (fun g => (List.range 32).map (fun c => (g, c)))).filter (fun p => d.pacedBy p.1 p.2 src idx g0)).foldl
      (fun d p => d.dmaPulseAt p.1 p.2) { d with pulses := rest }

/-- DMA_REQUEST_PULSE (R337). -/
def execDmaRequestPulse (s : State) : Host.Outcome State Fault Refusal := .next { s with dev := s.dev.dmaPulse }

/-! ### Writes that act on a channel (R338, R339, R341) -/

/-- The active transfer issues no further bursts. (DEDUCED, log 44.) -/
def Dev.dmaAbort (d : Dev) (g c : Nat) : Dev :=
  if (d.dmaCh g c).busy && d.dmaFree g c then (d.modDma g c (fun y => { y with abort := true })).dmaFinish g c else d

/-- A write of CH_CTRL.EN. (DEDUCED, log 77.) -/
def Dev.dmaEn (d : Dev) (g c : Nat) (en : Bool) : Dev :=
  if !d.dmaFree g c then d
  else
  let d := d.setBit (chCtrl g c) 0 en
  if en then d else d.dmaAbort g c

/-- A write of SHADOW_VALID. (DEDUCED, log 77.) -/
def Dev.dmaShadow (d : Dev) (g c : Nat) (v : Bool) : Dev := if d.dmaFree g c then d.setBit (chCtrl g c) 3 v else d

/-- A write of a shadow register by its offset. (DEDUCED, log 77.) -/
def Dev.dmaShadowReg (d : Dev) (g c o : Nat) (v : W32) : Dev :=
  let a := dmaChReg g c o
  if !d.dmaFree g c then d
  else if d.rbit (chCtrl g c) 3 then d.setBit (chStatus g c) 7 true
  else
    match regLoc a with
    | none => d
    | some l =>
      if o = 0x20 ∨ o = 0x28 ∨ o = 0x4C then d.holdLo a v
      else if o = 0x24 ∨ o = 0x2C ∨ o = 0x50 then d.pairWrite (a - 4) v
      else d.setReg a (accessWrite l.spec false (d.reg a) v)

/-- The tags of a channel whose responses are outstanding. -/
def DmaCh.openTags (x : DmaCh) : List Nat :=
  x.bursts.flatMap (fun b =>
    if x.mode = 2 then (if b.src.isNone then [b.rtag] else []) ++ (if b.dst.isNone then [b.rtag + 1] else []) else [b.rtag])

/-- A channel after its reset (R341): its outstanding responses will be discarded. -/
def DmaCh.afterReset (x : DmaCh) : DmaCh := { nextTag := x.nextTag, gone := x.gone ++ x.openTags }

/-- A channel's registers return to their reset values and its transfer is lost, with held and captured halves (R10, R341); SRST stays as written. -/
def Dev.dmaReset (d : Dev) (g c : Nat) : Dev :=
  let mine := fun (k : Nat) => decide (dmaChReg g c 0 ≤ k ∧ k < dmaChReg g c 0x80)
  let d := { d with regs := mclear d.regs mine, loHeld := mclear d.loHeld mine, hiCap := mclear d.hiCap mine }
  d.modDma g c DmaCh.afterReset

/-- A write of CH_CTRL.SRST. (DEDUCED, log 77.) -/
def Dev.dmaChSrst (d : Dev) (g c : Nat) (v : Bool) : Dev :=
  if d.resetting || d.dmaHeld g then d
  else if v then (d.dmaReset g c).setBit (chCtrl g c) 2 true else d.setBit (chCtrl g c) 2 false

/-- A write of DMA.SRST. (DEDUCED, log 77.) -/
def Dev.dmaSrst (d : Dev) (g : Nat) (v : Bool) : Dev :=
  if d.resetting || d.rbit (rstReg 0x10) g then d
  else if v then
    let d := (List.range 32).foldl (fun d c => d.dmaReset g c) d
    let d := ((d.setReg (dmaReg g 4) 0).setReg (dmaReg g 8) 0).setReg (dmaReg g 0xC) 1
    d.modRegion g (fun r => { r with dmaRr := [] })
  else d.setReg (dmaReg g 0xC) 0

def execDmaChEnWrite (g : Fin 16) (c : Fin 32) (en : Bool) (s : State) : Host.Outcome State Fault Refusal :=
  .next { s with dev := s.dev.dmaEn g c en }
def execAbort (g : Fin 16) (c : Fin 32) (s : State) : Host.Outcome State Fault Refusal := .next { s with dev := s.dev.dmaAbort g c }
def execShadowValidWrite (g : Fin 16) (c : Fin 32) (v : Bool) (s : State) : Host.Outcome State Fault Refusal :=
  .next { s with dev := s.dev.dmaShadow g c v }
def execShadowRegisterWrite (g : Fin 16) (c : Fin 32) (o : Fin 16) (v : W32) (s : State) : Host.Outcome State Fault Refusal :=
  .next { s with dev := s.dev.dmaShadowReg g c (0x20 + 4 * o) v }
def execChSrstWrite (g : Fin 16) (c : Fin 32) (v : Bool) (s : State) : Host.Outcome State Fault Refusal :=
  .next { s with dev := s.dev.dmaChSrst g c v }
def execDmaSrstWrite (g : Fin 16) (v : Bool) (s : State) : Host.Outcome State Fault Refusal := .next { s with dev := s.dev.dmaSrst g v }

end Sys2Proof.Machine
end

