-- ==== Sys2Proof/Machine/NocCtl.lean ====
section
/-!
DEFINITION. The control side of tiles and fabrics: tile clocks (01_six_levels.md, R20 to R27), region maps (R30 to R36), route
commits and epoch flips (11_package_network.md, R349 to R357), isolation and parking (R358 to R364), heartbeats (R531), block resets of a tile and
of a die fabric (R26, R472), and the writes of node memory and of the mask table (R103, R104).
-/
namespace Sys2Proof.Machine

/-! ### Resets of registers and stations -/

/-- The registers at addresses that satisfy `p` take their reset values, held and captured halves with them (R10). -/
def Dev.resetRegs (d : Dev) (p : Nat → Bool) : Dev :=
  let q := fun (k : Nat) => p (k % 2 ^ 48)
  { d with regs := mclear d.regs q, loHeld := mclear d.loHeld q, hiCap := mclear d.hiCap q }

/-- Node codes of a tile: its router and its units. -/
def tileCodes (k n : Nat) : Bool := n == k || (decide (1024 + k * 16 ≤ n) && decide (n < 1040 + k * 16))

/-! ### What a block reset discards (R26) -/

/-- The packets inside the stations that satisfy `p`, each once. -/
def Dev.packetsIn (d : Dev) (p : Nat → Bool) : List Packet :=
  (d.net.links.filter (fun c => p (c.1 / 8192))).flatMap (fun c => ((Link.waiting c.2).filter (fun f => f.idx == 0)).map (·.pkt)) ++
  (d.net.inbox.filter (fun c => p (c.1 / 8))).flatMap (·.2) ++
  d.net.doms.flatMap (fun c => (c.2.held.filter (fun h => p (Node.code (entryStation c.1 h.1)) || p (Node.code h.1))).map (·.2.pkt)) ++
  (d.jrnWait.filter (fun w => p (Node.code w.src) || p (Node.code (Node.router w.src)))).map (fun w => d.tokenPacket w.tok)

/-- The address names a unit of a cluster. -/
def Dest.isTileUnit (x : Dest) : Bool := decide (x.die.toNat < 4) && decide (x.tile.toNat ≤ 16)

/-- The context whose operation a response answers, where a unit of a cluster waits for it. -/
def Dev.respCtx (d : Dev) (r : MemResp) : List (BitVec 22) :=
  if !Dest.isTileUnit r.req then []
  else
    let tl := tileKey (regionOf r.req.die.toNat r.req.rgn.toNat) r.req.tile.toNat
    let u := d.fu (tl * 8 + r.req.unit.toNat)
    if r.req.unit = 8 then ((d.tile tl).runner.item.map (fun (x : Item) => Firing.ctx x.fir)).toList
    else if 8 < r.req.unit.toNat then []
    else match r.op.toNat with
      | 6 => (u.spill.filter (fun e => e.issued && e.tag == r.rtag.toNat)).map (·.ent.tok.tag.ctx)
      | 7 => (u.fills.filter (fun f => f.tag == r.rtag.toNat)).map (fun f => BitVec.ofNat 22 (f.key.toNat / 2 ^ 23))
      | 8 => (u.dels.filter (fun x => x.1 % 4096 == r.rtag.toNat)).map (fun x => BitVec.ofNat 22 (x.2.toNat / 2 ^ 23))
      | _ => (u.out.filter (fun o => o.rtag == r.rtag.toNat)).map (fun o => Firing.ctx o.fir)

/-- The contexts that a packet's loss affects: that of a token, that of a cluster's request or of its answer. -/
def Dev.packetCtx (d : Dev) (p : Packet) : List (BitVec 22) :=
  match p.body with
  | .token t => [t.tag.ctx]
  | .req r => if Dest.isTileUnit r.req then [r.ctx] else []
  | .resp r => d.respCtx r
  | .mgmt _ => []

/-- The contexts that a block reset affects are faulted, so that their groups are replayed from the journal (R26). (DESIGN CHOICE, log 46.) -/
def Dev.recover (d : Dev) (cs : List (BitVec 22)) : Dev :=
  cs.eraseDups.foldl (fun d c => d.faultCtx (poolNode (c.toNat / 2 ^ 18)) c) d

/-- The pool sends a sweep that a reset discarded to its FU once more, unless it has the acknowledgement. (DESIGN CHOICE, log 46.) -/
def Dev.resweep (d : Dev) (c : BitVec 22) (n : Nat) : Dev :=
  let g := c.toNat / 2 ^ 18
  if (d.region g).pool.sweeps.any (fun s => s.ctx == c && !s.guard && !s.acked.contains n) then d.send (poolNode g) (sweepPacket c (d.reuseGuard g) n) else d

/-- The sweep that a packet carries or acknowledges. -/
def sweepIn (p : Packet) : Option (BitVec 22 × Nat) :=
  match p.body with
  | .mgmt (.sweep c _ n) => some (c, n)
  | .mgmt (.sweepAck c n) => some (c, n)
  | _ => none

def Dev.resweeps (d : Dev) (ps : List Packet) : Dev := (ps.filterMap sweepIn).foldl (fun d x => d.resweep x.1 x.2) d

/-- The end-to-end credit that a discarded token holds, and those in the accumulators of the stations, are their holders' again. (DESIGN CHOICE, log 46.) -/
def Dev.creditsBack (d : Dev) (p : Nat → Bool) : Dev :=
  let d := (d.packetsIn p).foldl (fun (d : Dev) q =>
    match q.part with
    | none => d
    | some h => d.e2eBack h (match infieldBlock q with | some b => 32 + b | none => regionOf q.dest.die.toNat q.dest.rgn.toNat) 1) d
  (d.net.acc.filter (fun c => p (c.1 / 4096))).foldl (fun (d : Dev) c => d.e2eBack (c.1 / 64 % 64) (c.1 % 64) c.2) d

/-- The packets inside stations are discarded, and their credits return (R26). -/
def Dev.discard (d : Dev) (p : Nat → Bool) : Dev := (d.creditsBack p).clearStations p

/-- Packets are discarded and the contexts they were for recovered (R26). -/
def Dev.discardAll (d : Dev) (p : Nat → Bool) : Dev :=
  let ps := d.packetsIn p
  ((d.discard p).recover (ps.flatMap (fun q => d.packetCtx q))).resweeps ps

/-! ### A tile loses its queues (R26, R264, R301) -/

/-- Contexts of the firings that the FUs of a tile have in service. -/
def Fu.servedCtxs (u : Fu) : List (BitVec 22) :=
  (u.fetch.map (fun x => Firing.ctx x.fir)).toList ++ u.results.map (·.ctx) ++ u.out.map (fun o => Firing.ctx o.fir)

/-- Contexts of the tokens and queued firings that an FU holds. -/
def Fu.heldCtxs (u : Fu) : List (BitVec 22) :=
  u.slice.map (fun (c : Nat × Entry) => c.2.tok.tag.ctx) ++ (u.held.toList ++ u.heldM.toList).map (·.tag.ctx) ++ u.spill.map (fun e => e.ent.tok.tag.ctx) ++
    u.fillW.map (fun w => w.tok.tag.ctx) ++ (u.fills.flatMap (·.ents)).map (·.tag.ctx) ++ u.issue.map (fun i => Firing.ctx i.fir)

/-- Contexts of the queued firings of a scheduler. -/
def Sched.heldCtxs (s : Sched) : List (BitVec 22) :=
  s.flowW.map (fun w => Firing.ctx w.fir) ++ (s.runQ ++ s.strQ).map (fun i => Firing.ctx i.fir)

def tileFus (k : Nat) : List Nat := (List.range 8).map (fun f => k * 8 + f)

/-- What the units of a tile send when the tile loses its state leaves by the region's gateway. (DESIGN CHOICE, log 46.) -/
def Dev.gatewaySends (d : Dev) (k : Nat) : Dev :=
  let l : LinkId := ⟨schedNode k, Node.router (schedNode k)⟩
  let m : LinkId := ⟨.regionUnit (k / 17) 4, .gw (k / 17)⟩
  let q := (d.link l).q
  let d := d.setLink l { d.link l with q := [] }
  d.setLink m { d.link m with q := (d.link m).q ++ q }

/-- The FUs of a tile lose their state: the flows of the firings in service are released. -/
def Dev.emptyFus (d : Dev) (k : Nat) : Dev :=
  (tileFus k).foldl (fun d f =>
    let u := d.fu f
    let flows := (u.fetch.map (fun x => Firing.flow x.fir)).toList ++ u.results.map (·.flow) ++ u.out.map (fun o => Firing.flow o.fir)
    (flows.foldl (fun d w => d.releaseFlow k w) d).setFu f { nextTag := u.nextTag }) (d.cancelFlows k (fun _ => true) |> fun d => (tileFus k).foldl (fun d f => d.cancelItems f (fun _ => true)) d)

/-- The FUs' spilled entries are forgotten: OFL.USED stays the sum over the region (R91). -/
def Dev.forgetSpilled (d : Dev) (k : Nat) : Dev :=
  let n := (tileFus k).foldl (fun n f => n + d.rfld (fuRegK f 0xC) 17 0) 0
  d.setFld (ctxReg (k / 17) 0x10C) 24 0 (d.rfld (ctxReg (k / 17) 0x10C) 24 0 - n)

/-- Context requests of a tile's FUs no longer wait (R86). -/
def Dev.dropWaiters (d : Dev) (k : Nat) : Dev :=
  (List.range 16).foldl (fun d g =>
    if (d.region g).pool.wait.any (fun w => w.fu / 8 == k) then (d.modPool g (fun p => { p with wait := p.wait.filter (fun w => w.fu / 8 != k) })).starveSettle g
    else d) d

/-- What waits in a tile's queues and pipelines is lost; flows that its firings held are released, the contexts are recovered, and a sweep that it had not acknowledged
is sent again (R26, R264, R301). Banks keep contents and power state, node memory and the mask table their contents (R312). (DESIGN CHOICE, log 46.) -/
def Dev.emptyTile (d : Dev) (k : Nat) : Dev :=
  let ps := d.packetsIn (tileCodes k)
  let us := (tileFus k).map d.fu
  let lost := ps.flatMap (fun q => d.packetCtx q) ++ us.flatMap Fu.heldCtxs ++ (d.tile k).sched.heldCtxs
  let served := (us.flatMap Fu.servedCtxs).eraseDups
  let swept := us.flatMap (fun u => u.sweeps.map (fun s => (s.ctx, s.num)))
  let d := ((d.discard (tileCodes k)).forgetSpilled k).emptyFus k
  let d := ((d.strideAbandon k).runnerAbandon k).modTile k (fun t => { t with
    held := [], dmaQ := [], netQ := [], sched := {}
    banks := t.banks.map (fun c => (c.1, { c.2 with reqs := [], rr := [], second := [], input := [] })) })
  let d := served.foldl (fun d c => d.abandonCtx c) ((d.gatewaySends k).dropWaiters k)
  swept.foldl (fun d x => d.resweep x.1 x.2) ((d.recover (lost.filter (fun c => !served.contains c))).resweeps ps)

/-! ### The tile clock (R21 to R23, R27) -/

def cluStatus (k : Nat) : Nat := cluReg (k / 17) (k % 17) 8

/-- The tile is held in reset: its island's, its block reset, its region's, or because it is not mapped (R25, R30). -/
def Dev.tileHeld (d : Dev) (k : Nat) : Bool :=
  !d.islands.contains k || d.rbit (cluReg (k / 17) (k % 17) 0xC) 0 || d.rbit (rstReg 0x10) (k / 17) || !(d.map (k / 17)).contains (k % 17)

/-- Start, retarget or end a frequency change so that CUR follows FREQ, once the tile is out of reset (R27): so a frequency whose relock failed is tried again when
a block reset of the tile is released. (DESIGN CHOICE, log 46.) -/
def Dev.clkApply (d : Dev) (k : Nat) : Dev :=
  let f := d.rfld (cluReg (k / 17) (k % 17) 4) 4 0
  if d.tileHeld k then d
  else if f ≤ 4 then ((d.setFld (cluStatus k) 10 6 4).setBit (cluStatus k) 0 false).modTile k (fun t => { t with pll := none })
  else if d.rfld (cluStatus k) 10 6 = f ∧ (d.tile k).pll.isNone then d
  else ((d.setFld (cluStatus k) 10 6 4).setBit (cluStatus k) 0 true).modTile k (fun t => { t with pll := some f })

/-- A write of CLU.CLK (R27). (DESIGN CHOICE, log 46.) -/
def Dev.clkWrite (d : Dev) (k fmax : Nat) (v : W32) : Dev :=
  let f := fld v 4 0
  if f < 4 ∨ 20 < f then d
  else
    let d := if fmax < f then d.setBit (cluStatus k) 2 true else d
    (d.setFld (cluReg (k / 17) (k % 17) 4) 4 0 (min f fmax)).clkApply k

/-- The PLL locks: the tile runs at the target (R22). -/
def Dev.pllDone (d : Dev) (k : Nat) : Dev :=
  match (d.tile k).pll with
  | none => d
  | some f => ((d.setFld (cluStatus k) 10 6 f).setBit (cluStatus k) 0 false).modTile k (fun t => { t with pll := none })

/-- The PLL did not lock in 50 µs (R27). (DESIGN CHOICE, log 46.) -/
def Dev.pllTimeout (d : Dev) (k : Nat) : Dev :=
  match (d.tile k).pll with
  | none => d
  | some _ =>
    (((((d.setFld (cluStatus k) 10 6 4).setBit (cluStatus k) 0 false).setBit (cluStatus k) 1 true).modTile k (fun t => { t with pll := none }))).raiseTile k 4 0

/-- The tile runs on the fallback clock: an unmapped tile (R30), or one in a region that resets. -/
def Dev.clkIdle (d : Dev) (k : Nat) : Dev := ((d.setFld (cluStatus k) 10 6 4).setBit (cluStatus k) 0 false).modTile k (fun t => { t with pll := none })

/-- A tile's state and the registers of its blocks return to reset; an operation of the Stride engine that this ends leaves SE.STATUS.ABANDONED set (R264). -/
def Dev.resetTile (d : Dev) (k : Nat) : Dev :=
  let ab := (d.tile k).stride.run.isSome || d.rbit (seStatusReg k) 8
  let d := (d.emptyTile k).resetRegs (tileRegs k)
  if ab then d.setBit (seStatusReg k) 8 true else d

/-- A write of CLU.SRST (R26): 1 holds the tile in reset; on 0 a stored FREQ is applied (R27). (DESIGN CHOICE, log 46.) -/
def Dev.cluSrst (d : Dev) (k : Nat) (v : W32) : Dev :=
  let a := cluReg (k / 17) (k % 17) 0xC
  if d.resetting then d
  else if v.getLsbD 0 then (d.resetTile k).setBit a 0 true
  else (d.setBit a 0 false).clkApply k

/-! ### Region maps (R31 to R36) -/

/-- The shadow map. -/
def Dev.mapShadow (d : Dev) (g : Nat) : List Nat :=
  (List.range 16).map (fun c => d.rfld (rgnReg g (0x20 + 4 * (c / 4))) (8 * (c % 4) + 4) (8 * (c % 4)))

/-- Make a map the active one (RGN.MAP0 to RGN.MAP3). -/
def Dev.setMap (d : Dev) (g : Nat) (m : List Nat) : Dev :=
  (List.range 16).foldl (fun d c => d.setFld (rgnReg g (0x10 + 4 * (c / 4))) (8 * (c % 4) + 4) (8 * (c % 4)) (m.getD c 31)) d

/-- The tile a map leaves out (R31). -/
def unmapped (m : List Nat) : Nat := ((List.range 17).find? (fun t => !m.contains t)).getD 31

def mapCtrl (g : Nat) : Nat := rgnReg g 0x30

/-- RGN.RESERVE: the unmapped tile, and whether it is a healthy reserve that neither factory test nor a remap has taken (R34, R36). (DEDUCED, log 48.) -/
def Dev.reserveWord (d : Dev) (g : Nat) : W32 :=
  let u := unmapped (d.map g)
  let fr := d.rbit (rgnReg g 0x34) u && !d.rbit (mapCtrl g) 3 && !(d.region g).spent
  BitVec.ofNat 32 (u + if fr then 32 else 0)

/-- The shadow may be committed (R31, R36): 16 distinct tiles up to 16, and no cluster moves to an unhealthy tile. -/
def Dev.mapOk (d : Dev) (g : Nat) (m : List Nat) : Bool :=
  m.all (fun t => decide (t ≤ 16)) && decide m.Nodup &&
  (List.range 16).all (fun c => m.getD c 31 == d.tileOf g c || d.rbit (rgnReg g 0x34) (m.getD c 31))

/-- Isolated tiles by NOC.ISO. -/
def Dev.isoTiles (d : Dev) (g : Nat) : List Nat := (List.range 17).filter (fun t => d.rbit (nocReg (g / 4) (0x28 + 4 * (g % 4))) t)

/-! ### Degraded operation (R544) -/

/-- An HBM stack is unusable: its block is isolated. -/
def Dev.hbmLost (d : Dev) : Bool := d.blkIso 6 || d.blkIso 7

/-- A running graph of one copy has nodes on an isolated tile of a region without a free reserve. -/
def Dev.graphLost (d : Dev) (n : Nat) : Bool :=
  let x := d.graph n
  x.st == 2 && !x.dup && x.slots.any (fun p =>
    (d.isoTiles (p.1 / 16)).contains (d.tileOf (p.1 / 16) (p.1 % 16)) && !(d.reserveWord (p.1 / 16)).getLsbD 5)

/-- STATE and REASON that hold now, the worst first. (DESIGN CHOICE, log 67.) -/
def Dev.healthCause (d : Dev) : Nat × Nat :=
  if d.hbmLost then (3, 5)
  else if d.graphs.any (fun x => x.2.st == 2 && x.2.dup && !x.2.aliveA && !x.2.aliveB) then (3, 3)
  else if d.graphs.any (fun x => d.graphLost x.1) then (2, 1)
  else if d.graphs.any (fun x => x.2.st == 2 && x.2.dup && (!x.2.aliveA || !x.2.aliveB)) then (2, 2)
  else if d.groups.any (·.hold) then (1, 0)
  else (0, 0)

/-- HLT.STATE rises to what holds now. -/
def Dev.healthUpdate (d : Dev) : Dev := let c := d.healthCause; d.healthState c.1 c.2

/-- The isolations that wait for a commit are lifted (R360). (DEDUCED, log 45.) -/
def Dev.liftIso (d : Dev) (g : Nat) : Dev :=
  let ts := mget [] d.net.lifts g
  let d := ts.foldl (fun d t => d.setBit (nocReg (g / 4) (0x28 + 4 * (g % 4))) t false) d
  d.modNet (fun n => { n with lifts := mset [] n.lifts g [] })

/-- Memory of a cluster that a commit moves: scratchpad windows and node memory read 0 (R312). (DEDUCED, log 45.) -/
def Dev.clearCluster (d : Dev) (c : Nat) : Dev :=
  (d.clearMem (bankAddr c 0 0) (bankAddr (c + 1) 0 0)).clearMem (slotAddr c 0) (slotAddr (c + 1) 0)

/-- A tile that a commit gives another cluster: banks cleared and on, node memory cleared, masks with VALID 0 (R312). SPM.PWR of the tile asks for all banks on, also where two
mapped clusters exchange tiles: no rule gives the register's update. (DESIGN CHOICE, log 106.) -/
def Dev.freshTile (d : Dev) (k : Nat) : Dev :=
  (d.modTile k (fun t => { t with masks := [], held := [], banks := [] })).setReg (spmReg (k / 17) (k % 17) 0) 0xAA

/-- A tile that a commit leaves unmapped: held in reset on the fallback clock, banks off, contents lost (R30, R312); SPM.PWR asks for all banks off. (DEDUCED, log 45. DESIGN CHOICE, log 106.) -/
def Dev.retireTile (d : Dev) (k : Nat) : Dev :=
  (((d.resetTile k).clkIdle k).modTile k (fun t => { t with masks := [], banks := offTile.banks })).setReg (spmReg (k / 17) (k % 17) 0) 0

/-- The table half of a map: it avoids the isolated tiles and an unmapped one whose router others would need. (DEDUCED, log 45.) -/
def meshHalfOf (m iso : List Nat) : MeshHalf :=
  let u := unmapped m
  { map := m, iso := if u < 16 ∧ !iso.contains u then iso ++ [u] else iso }

/-- RGN.MAP_CTRL.COMMIT (R36, R355): the new table holds the new map and avoids the isolated tiles and the unmapped one; tiles that it cuts off are isolated (R350).
(DEDUCED, log 45.) (DEDUCED, log 45.) -/
def Dev.mapCommit (d : Dev) (g : Nat) (v : W32) : Dev :=
  let d := if v.getLsbD 2 then d.setBit (mapCtrl g) 2 false else d
  if !v.getLsbD 0 then d
  else
    let m := d.mapShadow g
    if d.rbit (mapCtrl g) 1 || !d.mapOk g m then d.setBit (mapCtrl g) 2 true
    else if m = d.map g then
      let d := d.liftIso g
      let h := meshHalfOf m (d.isoTiles g)
      (d.setDom g { d.dom g with mesh0 := h, mesh1 := h }).isolateCutOff g
    else
      let old := d.map g
      let moved := (List.range 16).filter (fun c => old.getD c 31 != m.getD c 31)
      let d := moved.foldl (fun d c => (d.clearCluster (16 * g + c)).freshTile (tileKey g (m.getD c 31))) d
      let d := (d.setMap g m).modRegion g (fun r => { r with spent := r.spent || m.contains (unmapped old) })
      let lifts := mget [] d.net.lifts g
      let half := meshHalfOf m ((d.isoTiles g).filter (fun t => !lifts.contains t))
      let x := d.dom g
      let x := if x.epoch then { x with mesh0 := half } else { x with mesh1 := half }
      (((d.setDom g { x with epoch := !x.epoch, flip := true }).setBit (mapCtrl g) 1 true).isolateCutOff g).clkApply (tileKey g (unmapped old))

/-! ### Route commits of a fabric (R349, R357, R577) -/

/-- The shadow entries of fabric `k`. -/
def Dev.nocShadow (d : Dev) (k : Nat) : List Nat :=
  (List.range 24).map (fun i => d.rfld (nocReg k (4 * (i / 8))) (4 * (i % 8) + 3) (4 * (i % 8)))

/-- An entry that a commit refuses. -/
def badEntry (k i e : Nat) : Bool :=
  if k = 4 then decide (6 ≤ e ∧ e ≤ 14) else decide (7 ≤ e ∧ e ≤ 14) || (decide (e < 4) && i != 4 * k + e)

/-- NOC.CTRL.COMMIT. (DEDUCED, log 45. DESIGN CHOICE, log 47.) -/
def Dev.nocCommit (d : Dev) (k : Nat) (v : W32) : Dev :=
  let a := nocReg k 0x20
  let d := if v.getLsbD 2 then d.setBit a 2 false else d
  if !v.getLsbD 0 then d
  else if d.rbit a 1 then d.setBit a 2 true
  else
    let sh := d.nocShadow k
    if ((List.range 24).any (fun i => badEntry k i (sh.getD i 15))) then (d.setBit a 2 true).raise (321 + 2 * k) 2 0
    else if sh = d.nocActive k then d
    else
      let old := d.nocActive k
      let x := d.dom (16 + k)
      let x := if x.epoch then { x with tab0 := sh, tab1 := old } else { x with tab0 := old, tab1 := sh }
      let d := (List.range 3).foldl (fun d m => d.setReg (nocReg k (0x10 + 4 * m)) (d.reg (nocReg k (4 * m)))) d
      let d := d.setDom (16 + k) { x with epoch := !x.epoch, flip := true }
      (d.setBit a 1 true).setBit a 3 (!x.epoch)

/-! ### The end of a flip (R355, R356) -/

/-- The route domain of a station's code. -/
def domOfCode (n : Nat) : Nat :=
  if n < 272 then n / 17 else if n < 288 then n - 272 else if n < 292 then 16 + (n - 288) else if n = 292 then 20 else 21

/-- No flit of the old epoch remains in domain `k`. -/
def Dev.oldGone (d : Dev) (k : Nat) : Bool :=
  let e := (d.dom k).epoch
  d.net.links.all (fun c => domOfCode (c.1 / 8192) != k || c.2.q.all (fun f => f.pkt.repoch == e))

/-- The flip ends: held packets enter in their order, BUSY clears; a tile that the new map leaves out is held in reset, and lifted isolations clear. (DEDUCED, log 45.) -/
def Dev.flipDone (d : Dev) (k : Nat) : Dev :=
  let x := d.dom k
  if !x.flip || !d.oldGone k then d
  else
    let d := d.setDom k { x with flip := false, held := [] }
    let d :=
      if k < 16 then
        let d := (d.liftIso k).setBit (mapCtrl k) 1 false
        if unmapped (d.map k) ≤ 16 then d.retireTile (tileKey k (unmapped (d.map k))) else d
      else d.setBit (nocReg (k - 16) 0x20) 1 false
    x.held.foldl (fun d h =>
      let at_ := entryStation k h.1
      d.forward at_ { h.2 with pkt := d.enter (some h.1) at_ h.2.pkt }) d

/-! ### Isolation, parking, health of a tile (R358 to R361, R36, R531) -/

/-- NOC.ISO_SET of die `k`. -/
def Dev.isoSet (d : Dev) (k : Nat) (v : W32) : Dev :=
  let g := k * 4 + fld v 18 17
  (((List.range 17).filter (fun t => v.getLsbD t)).foldl (fun d t => d.isolate g t 2) d).healthUpdate

/-- A write of NOC.ISO of region `g`: the tiles are lifted at the next commit (R360). -/
def Dev.isoLift (d : Dev) (g : Nat) (v : W32) : Dev :=
  let ts := (d.isoTiles g).filter (fun t => v.getLsbD t)
  let old := mget [] d.net.lifts g
  d.modNet (fun n => { n with lifts := mset [] n.lifts g (old ++ ts.filter (fun t => !old.contains t)) })

/-- Isolate hub block `u`: one event of the infield die (R358). -/
def Dev.isolateBlk (d : Dev) (u : Nat) : Dev :=
  if d.rbit (nocReg 4 0x54) u then d else (d.setBit (nocReg 4 0x54) u true).raise 328 2 u

def Dev.blkIsoSet (d : Dev) (v : W32) : Dev :=
  (((List.range 16).filter (fun u => v.getLsbD u)).foldl (fun d u => d.isolateBlk u) d).healthUpdate
def Dev.blkIsoClear (d : Dev) (v : W32) : Dev := d.setReg (nocReg 4 0x54) (d.reg (nocReg 4 0x54) &&& ~~~v)

/-- The tokens for a region now parked that wait at an output go into its queue (R361): those of which no flit has left. -/
def Dev.parkOutput (d : Dev) (l : LinkId) : Dev :=
  (d.link l).q.foldl (fun d f =>
    if Packet.lane f.pkt ≠ 0 then d
    else match d.parkFlit l f with
      | (some d, _) => let x := d.link l; d.setLink l { x with q := removeFirst (· == f) x.q }
      | (none, d) => d) d

/-- The copies of NOC.PARK that go to the gateways on L4 (R361). -/
def parkPackets (v : W32) : List Packet :=
  (List.range 16).map (fun g => { dest := holderDest g, body := .mgmt (.park (v.extractLsb' 0 16)) })

/-- A write of NOC.PARK (R361): the hub fabric's entry ports take the bits at once, and a copy leaves for every gateway. (DESIGN CHOICE, log 47.) -/
def Dev.parkWrite (d : Dev) (v : W32) : Dev :=
  let d := d.setFld (nocReg 4 0x40) 15 0 (fld v 15 0)
  let d := (List.range 4).foldl (fun d k => d.parkOutput ⟨.hub, .die k⟩) d
  (parkPackets v).foldl (fun (d : Dev) p => d.forward .hub { pkt := p }) d

/-- A gateway takes its copy of NOC.PARK (R361). -/
def Dev.parkTaken (d : Dev) (g : Nat) (mask : BitVec 16) : Dev :=
  (d.modNet (fun n => { n with park := mset 0 n.park g mask.toNat })).parkOutput ⟨.gw g, .die (g / 4)⟩

/-- A tile fails its checks (R36): HEALTHY clears, and a mapped tile raises its cluster's event. -/
def Dev.tileUnhealthy (d : Dev) (k : Nat) : Dev :=
  if d.rbit (rgnReg (k / 17) 0x34) (k % 17) then (d.setBit (rgnReg (k / 17) 0x34) (k % 17) false).raiseTile k 5 0 else d

/-- Islands that send heartbeats (R531): tiles 0 to 271, regions 272 to 287, die fabrics 288 to 291, hub blocks 292 to 307, the measurement
die 308. An island that missed three is isolated. (DESIGN CHOICE, log 47.) -/
def Dev.islandDead (d : Dev) (n : Nat) : Dev :=
  if n < 272 then d.isolate (n / 17) (n % 17) 0
  else if n < 288 then (List.range 17).foldl (fun d t => d.isolate (n - 272) t 0) d
  else if n < 292 then
    let k := n - 288
    ((d.dropDieLink ⟨.die k, .die ((k + 1) % 4)⟩).dropDieLink ⟨.die k, .die ((k + 3) % 4)⟩).dropDieLink ⟨.die k, .hub⟩
  else if n < 308 then d.isolateBlk (n - 292)
  else if (d.link ⟨.hub, .meas⟩).down then d
  else d.dropMeasLink

/-- A heartbeat arrives: the count of misses starts again. -/
def Dev.heartbeat (d : Dev) (n : Nat) : Dev := { d with hbMiss := mset 0 d.hbMiss n 0 }

/-- One more heartbeat is missing. (DESIGN CHOICE, log 47.) -/
def Dev.heartbeatMiss (d : Dev) (n : Nat) : Dev :=
  let c := mget 0 d.hbMiss n + 1
  if c < 3 then { d with hbMiss := mset 0 d.hbMiss n c } else ({ d with hbMiss := mset 0 d.hbMiss n 0 }.islandDead n).healthUpdate

/-! ### Block reset of a die fabric (R472, R357) -/

/-- The fabric's domain and tables return to reset, and the packets inside are lost; NOC.ISO and the links' states stay. (DESIGN CHOICE, log 46.) -/
def Dev.diefSrst (d : Dev) (k : Nat) (v : W32) : Dev :=
  let a := diefReg k 0xC
  if d.resetting then d
  else if v.getLsbD 0 then
    let n := nocReg k 0
    let d := (d.discardAll (fun c => c == 288 + k)).resetRegs (fun x => decide (n ≤ x ∧ x < n + 0x28))
    (d.setDom (16 + k) {}).setBit a 0 true
  else d.setBit a 0 false

/-! ### Node memory and the mask table (R103, R104) -/

/-- A 32-bit write of word `w` of a slot through the node-memory window: the first three words are held, the fourth makes the descriptor take
effect (R103). -/
def Dev.nodeWrite (d : Dev) (c slot w : Nat) (v : W32) : Dev :=
  let k := d.tileOfCluster c
  if w < 3 then d.modTile k (fun t => { t with held := mput t.held (slot * 4 + w) v })
  else
    let hs := (d.tile k).held
    let word := fun (d : Dev) (j : Nat) =>
      match hs.find? (fun c => c.1 == slot * 4 + j) with
      | some (_, x) => d.writeLe (slotAddr c slot + 4 * j) 4 x.toNat
      | none => d
    let d := (((word d 0 |> fun d => word d 1) |> fun d => word d 2)).writeLe (slotAddr c slot + 12) 4 v.toNat
    d.modTile k (fun t => { t with held := mclear t.held (fun x => x / 4 == slot) })

/-- NODE.MASK_DATA of a tile. -/
def Dev.maskData (d : Dev) (k : Nat) (v : W32) : Dev :=
  d.modTile k (fun t => { t with masks := mset 0 t.masks (d.rfld (nodeReg (k / 17) (k % 17) 0xC) 14 0) (fld v 4 0) })

/-! ### Commands -/

def execClkFreqWrite (g : Fin 16) (t : Fin 17) (v : W32) (s : State) : Host.Outcome State Fault Refusal :=
  .next { s with dev := s.dev.clkWrite (tileKey g t) (s.dev.fmax s.fuses) v }
def execPllRelockDone (g : Fin 16) (t : Fin 17) (s : State) : Host.Outcome State Fault Refusal := .next { s with dev := s.dev.pllDone (tileKey g t) }
def execPllLockTimeout (g : Fin 16) (t : Fin 17) (s : State) : Host.Outcome State Fault Refusal := .next { s with dev := s.dev.pllTimeout (tileKey g t) }
def execCluSrstWrite (g : Fin 16) (t : Fin 17) (v : W32) (s : State) : Host.Outcome State Fault Refusal :=
  .next { s with dev := s.dev.cluSrst (tileKey g t) v }
def execMapCommit (g : Fin 16) (v : W32) (s : State) : Host.Outcome State Fault Refusal :=
  .next { s with dev := s.dev.writes (mapCtrl g) (s.dev.mapCommit g v) }
def execTileUnhealthy (g : Fin 16) (t : Fin 17) (s : State) : Host.Outcome State Fault Refusal := .next { s with dev := s.dev.tileUnhealthy (tileKey g t) }
def execRouteEpochFlipDone (k : Fin 21) (s : State) : Host.Outcome State Fault Refusal := .next { s with dev := s.dev.flipDone k }
def execNocCommit (k : Fin 5) (v : W32) (s : State) : Host.Outcome State Fault Refusal :=
  .next { s with dev := s.dev.writes (nocReg k 0x20) (s.dev.nocCommit k v) }
/-- LINK_DOWN (R346). -/
def execLinkDown (l : LinkId) (s : State) : Host.Outcome State Fault Refusal := .next { s with dev := (s.dev.linkDown l).healthUpdate }
def execIsoSet (k : Fin 4) (v : W32) (s : State) : Host.Outcome State Fault Refusal :=
  .next { s with dev := s.dev.writes (nocReg k 0x24) (s.dev.isoSet k v) }
def execIsoLiftWrite (g : Fin 16) (v : W32) (s : State) : Host.Outcome State Fault Refusal := .next { s with dev := s.dev.isoLift g v }
def execBlkIsoSet (v : W32) (s : State) : Host.Outcome State Fault Refusal := .next { s with dev := s.dev.blkIsoSet v }
def execBlkIsoClear (v : W32) (s : State) : Host.Outcome State Fault Refusal := .next { s with dev := s.dev.blkIsoClear v }
def execParkWrite (v : W32) (s : State) : Host.Outcome State Fault Refusal := .next { s with dev := s.dev.parkWrite v }
def execHeartbeat (n : Fin 309) (s : State) : Host.Outcome State Fault Refusal := .next { s with dev := s.dev.heartbeat n }
def execHeartbeatMiss (n : Fin 309) (s : State) : Host.Outcome State Fault Refusal := .next { s with dev := s.dev.heartbeatMiss n }
def execDiefSrstWrite (k : Fin 4) (v : W32) (s : State) : Host.Outcome State Fault Refusal := .next { s with dev := s.dev.diefSrst k v }
def execNodeSlotWrite (c : BitVec 8) (slot : BitVec 15) (w : Fin 4) (v : W32) (s : State) : Host.Outcome State Fault Refusal :=
  .next { s with dev := s.dev.nodeWrite c.toNat slot.toNat w v }
def execMaskDataWrite (g : Fin 16) (t : Fin 17) (v : W32) (s : State) : Host.Outcome State Fault Refusal :=
  .next { s with dev := s.dev.writes (nodeReg g t 0x10) (s.dev.maskData (tileKey g t) v) }

end Sys2Proof.Machine
end

