-- ==== Sys2Proof/Machine/Meas.lean ====
section
/-!
DEFINITION. The measurement die (12_measurement_control.md): channels with settling, delivery, faults, limits and calibration (R367 to R381, R392,
R393), tachometers (R382, R383), trip lines (R384 to R387) and analog outputs (R388, R389).
-/
namespace Sys2Proof.Machine

/-! ### Tokens at a block -/

def measNode : Node := .hubUnit 16

/-- Take the first token of a block's L0 inbox that satisfies `p`, returning its credits (R211, R215). -/
def Dev.takeTok (d : Dev) (n : Node) (p : Token → Bool) : Option (Packet × Token × Dev) :=
  match d.popInbox n 0 (fun (q : Packet) => match q.body with | .token t => p t | _ => false) with
  | some (q, d) => (match q.body with | .token t => some (q, t, d) | _ => none)
  | none => none

/-! ### Channels: state and settings -/

def afeStatus (n : Nat) : Nat := afeReg n 0x48
def Dev.afe (d : Dev) (n : Nat) : AfeCh := mget {} d.meas.ch n
def Dev.modMeas (d : Dev) (f : Meas → Meas) : Dev := { d with meas := f d.meas }
def Dev.modAfe (d : Dev) (n : Nat) (f : AfeCh → AfeCh) : Dev := d.modMeas (fun m => { m with ch := mmod {} m.ch n f })
def Dev.afeOn (d : Dev) (n : Nat) : Bool := d.rbit (afeReg n 0) 31
def Dev.afeValid (d : Dev) (n : Nat) : Bool := d.rbit (afeStatus n) 31

/-- A power domain is on (R486). -/
def Dev.domOn (d : Dev) (k : Nat) : Bool := d.rfld (pwrReg (0x100 + 4 * k)) 3 2 == 2

/-- Samples of a block and of the ring (R371, R394). (DEDUCED, log 50.) -/
def Dev.afeB (d : Dev) (n : Nat) : Nat := 16 * 2 ^ min 8 (d.rfld (afeReg n 0) 15 12)
/-- (DEDUCED, log 50.) -/
def Dev.afeS (d : Dev) (n : Nat) : Nat := 1024 * 2 ^ min 8 (d.rfld (afeReg n 0) 11 8)

/-- The first sample index after device time `t` at RATE `r` (R368, R377). (DEDUCED, log 49.) -/
def firstIndex (t r : Nat) : Nat := t * 204800 / (2 ^ r * 1000000000) + 1

/-! ### Tokens of a channel (R372 to R376) -/

def stSENSOR_FAULT : Nat := 0x901
def stCHANNEL_OFFLINE : Nat := 0x902
def stSAMPLE_GAP : Nat := 0x903
def stTACH_STOPPED : Nat := 0x904
def stIO_UNBOUND : Nat := 0x905

/-- Mark of a channel's tokens in the send queue. -/
def afeMark (n : Nat) : Nat := 2 ^ 26 + n

/-- A token of the measurement die (R373). -/
def Dev.measTok (d : Dev) (dst ctx tok graph : W32) (e : BitVec 8) (pay : W64) (ty : Byte) : Token :=
  let tag : Tag := { dev := d.devNo, graph := graph.extractLsb' 0 12, ctx := ctx.extractLsb' 0 22, flow := tok.extractLsb' 12 20
                     prio := tok.extractLsb' 8 4, epoch := e }
  { tag := Tag.seal (Tag.to tag (DstF.ofBits (dst.extractLsb' 0 29))), pay := pay, ty := ty }

/-- Send a token from the measurement die, journalled for a member of a group (R533). -/
def Dev.measSend (d : Dev) (mark : Nat) (t : Token) : Dev := d.blockSend measNode t mark

/-- The destinations of a channel (R373). -/
def Dev.afeDsts (d : Dev) (n : Nat) : List Nat := List.range (d.rfld (afeReg n 0x20) 7 6)

/-- Send one token to destination `i` of a channel. -/
def Dev.afeSend (d : Dev) (n i : Nat) (e : BitVec 8) (pay : W64) (ty : Byte) : Dev :=
  d.measSend (afeMark n) (d.measTok (d.reg (afeReg n (0x10 + 4 * i))) (d.reg (afeReg n (0x18 + 4 * i))) (d.reg (afeReg n 0x20)) (d.reg (afeReg n 0x24)) e pay ty)

/-- The channel's current epoch. -/
def Dev.afeEpoch (d : Dev) (n : Nat) : BitVec 8 := (d.reg (afeReg n 0x28)).extractLsb' 0 8

/-- A status to every destination. -/
def Dev.afeStat (d : Dev) (n code detail : Nat) (err : Bool) : Dev :=
  (d.afeDsts n).foldl (fun d i => d.afeSend n i (d.afeEpoch n) (status code originBlock detail) (tyByte 6 err false false)) d

/-- Tokens of a channel in the send queue (R374). -/
def Dev.afeQueued (d : Dev) (n : Nat) : Nat := d.marked ⟨measNode, .meas⟩ (afeMark n)

/-- Room for a token to each destination. -/
def Dev.afeRoom (d : Dev) (n : Nat) : Bool := decide (d.afeQueued n + (d.afeDsts n).length ≤ 64)

/-- Announce the samples not announced (R374). -/
def Dev.afeGap (d : Dev) (n : Nat) : Dev :=
  let g := (d.afe n).gap
  if g = 0 then d
  else if (d.afeDsts n).isEmpty then d.modAfe n (fun c => { c with gap := 0 })
  else ((d.modAfe n (fun c => { c with gap := 0 })).afeStat n stSAMPLE_GAP (min g (2 ^ 32 - 1)) false).setBit (afeStatus n) 2 true

/-- Send a value token for `k` samples: replaced while the sensor is at fault (R378), counted for the epoch's close, not formed while the queue is
full (R374). Closes and marks are not replaced. (DEDUCED, log 50.) -/
def Dev.afeEmit (d : Dev) (n k : Nat) (e : BitVec 8) (pay : W64) (ty : Byte) : Dev :=
  if (d.afe n).full || !d.afeRoom n then d.modAfe n (fun c => { c with full := true, gap := c.gap + k })
  else
    let d := d.afeGap n
    let f := d.rfld (afeStatus n) 27 25
    let (pay, ty) := if f ≠ 0 ∧ !d.rbit (afeReg n 0) 16 then (status stSENSOR_FAULT originBlock (f + n * 16), tyByte 6 true false false) else (pay, ty)
    (d.afeDsts n).foldl (fun d i => (d.afeSend n i e pay ty).modAfe n (fun c => { c with sent := mmod 0 c.sent (2 * e.toNat + i) (· + 1) })) d

/-- Room returned to the queue (R374). -/
def Dev.afeResume (d : Dev) (n : Nat) : Dev :=
  if (d.afe n).full && d.afeRoom n then (d.modAfe n (fun c => { c with full := false })).afeGap n else d

/-! ### Delivery (R370 to R372, R375) -/

/-- The horizon of the hurdle a channel is held at: the last received, or before any the hurdle's own (R230, R375). (DEDUCED, log 50.) -/
def Dev.afeHorizon (d : Dev) (n : Nat) : Option (BitVec 8) :=
  let r := d.reg (afeReg n 0x2C)
  if !r.getLsbD 31 then none
  else
    let g := fld r 19 16
    let k := fld r 7 0
    match d.meas.hz.find? (fun c => c.1 == g * 256 + k) with
    | some (_, h) => some h
    | none => ((d.region g).hurdles.find? (fun c => c.1 == k)).map (fun c => c.2.e + BitVec.ofNat 8 c.2.ahead)

/-- A block of epoch `e` is held. -/
def Dev.afeHolds (d : Dev) (n : Nat) (e : BitVec 8) : Bool :=
  match d.afeHorizon n with
  | none => false
  | some h => newer e h

/-- The gap is announced ahead of what is sent next, unless the queue is full (R374, R375). -/
def Dev.afeGapNow (d : Dev) (n : Nat) : Dev := if (d.afe n).full then d else d.afeGap n

/-- What the end of a block sends (R372, R375, R380): the request pulse, the block token, and after the last block of an epoch the closes. A block with a refused
write, or that the ring overwrote while it was held, is a gap. (DEDUCED, log 50.) -/
def Dev.afeBlockEnd (d : Dev) (n : Nat) (b : AfeBlk) : Dev :=
  let B := d.afeB n
  let cfg := d.reg (afeReg n 0)
  let d :=
    if b.bad || b.gone then d.modAfe n (fun c => { c with gap := c.gap + B })
    else
      let d := d.afeGapNow n
      let d := { d with pulses := d.pulses ++ [(2, n, 0)] }
      if fld cfg 18 17 = 1 then d.afeEmit n B b.e (BitVec.ofNat 64 (b.j * B)) (tyByte 1 false false false) else d
  let r := d.reg (afeReg n 0x28)
  let len := fld r 31 16
  if len ≠ 0 ∧ (b.j + 1) % len = 0 ∧ r.getLsbD 8 then
    let d := d.afeGapNow n
    let d := (d.afeDsts n).foldl (fun d i =>
      d.afeSend n i b.e (status stEPOCH_CLOSE originBlock (mget 0 (d.afe n).sent (2 * b.e.toNat + i) % 65536)) (tyByte 6 false false false)) d
    d.modAfe n (fun c => { c with sent := mclear c.sent (fun k => k / 2 == b.e.toNat) })
  else d

/-- The sample tokens that a block holds back are sent. -/
def Dev.afeToks (d : Dev) (n : Nat) (b : AfeBlk) : Dev := b.toks.foldl (fun d t => d.afeEmit n 1 b.e t.1 t.2) d

/-- Send what the horizon permits, in order (R372, R375): the tokens and the end of each complete block, then the sample tokens of those that are not complete;
`fuel` bounds the blocks looked at. -/
def Dev.afeFlush (d : Dev) (n : Nat) : Nat → Dev
  | 0 => d
  | fuel + 1 =>
    match (d.afe n).blks with
    | [] => d
    | b :: bs =>
      if d.afeHolds n b.e then d
      else if b.fin then
        (((d.modAfe n (fun c => { c with blks := bs })).afeToks n b).afeBlockEnd n b).afeFlush n fuel
      else
        let rel := (b :: bs).takeWhile (fun x => !d.afeHolds n x.e)
        rel.foldl (fun d x => d.afeToks n x)
          (d.modAfe n (fun c => { c with blks := rel.map (fun x => { x with toks := [] }) ++ (b :: bs).drop rel.length }))

/-- The oldest `n` complete blocks that were intact are overwritten: their samples are a gap once they are released (R375). -/
def overwritten : Nat → List AfeBlk → List AfeBlk
  | 0, bs => bs
  | _, [] => []
  | n + 1, b :: bs => if b.fin && !b.gone then { b with gone := true, toks := [] } :: overwritten n bs else b :: overwritten (n + 1) bs

/-- The blocks after a write in block `j` (R371, R415): the open block of that number, or a new one, whose number is `no`; `shut` says that the write is the
block's last. Beside them, the number of the block written to. -/
def blkAdd (bs : List AfeBlk) (j no : Nat) (e : BitVec 8) (toks : List (W64 × Byte)) (shut : Bool) : List AfeBlk × Nat :=
  match bs.getLast? with
  | some b =>
    if b.j == j && !b.shut then (bs.dropLast ++ [{ b with toks := b.toks ++ toks, shut := shut }], b.no)
    else (bs ++ [{ j := j, no := no, e := e, toks := toks, shut := shut }], no)
  | none => ([{ j := j, no := no, e := e, toks := toks, shut := shut }], no)

/-- The blocks after the response to a write of block `no` (R371): refused by any STATUS but 0, complete with the block's last write. -/
def blkDone (bs : List AfeBlk) (no : Nat) (ok last : Bool) : List AfeBlk :=
  bs.map (fun b => if b.no == no then { b with bad := b.bad || !ok, fin := b.fin || last } else b)

/-- Held blocks beyond the ring's blocks less one are overwritten (R375), and CH_STATUS.HELD follows. -/
def Dev.afeTrim (d : Dev) (n : Nat) : Dev :=
  let cap := d.afeS n / d.afeB n - 1
  let d := d.modAfe n (fun c => { c with blks := overwritten ((c.blks.filter (fun b => b.fin && !b.gone)).length - cap) c.blks })
  d.setBit (afeStatus n) 0 (d.afe n |>.blks.any (fun b => d.afeHolds n b.e))

def Dev.afePush (d : Dev) (n : Nat) : Dev := (d.afeFlush n ((d.afe n).blks.length + 1)).afeTrim n

/-- The code of a sample (R370): clipped to full scale. -/
def clipCode (c : Int) : Int := if 8388607 < c then 8388607 else if c < -8388607 then -8388607 else c

/-- `c` × `rn` / `rd` × `scale` as binary32, rounded once to nearest even (R370, R415). -/
def scaleBits (c : Int) (rn rd : Nat) (scale : W32) : Nat :=
  let x := scale.toNat
  if isNan f32 x then fQnan f32
  else if isInf f32 x then (if c = 0 then fQnan f32 else fInf f32 (Bool.xor (fSign f32 x) (decide (c < 0))))
  else roundRat (Bool.xor (fSign f32 x) (decide (c < 0))) (c.natAbs * rn * (fixOf x).natAbs) (rd * 2 ^ 149)

/-- The sample as its 32 bits (R370). -/
def sampleBits (format : Bool) (range : Nat) (scale : W32) (c : Int) : Nat :=
  if format then (c % 2 ^ 32).toNat
  else
    let (rn, rd) : Nat × Nat := if range = 0 then (25, 1) else if range = 1 then (10, 1) else (5, 2)
    scaleBits c rn (8388607 * rd) scale

/-- A sample is delivered (R371, R372): written to the ring, and in sample mode a token. The epoch advances at the first sample of a block that starts one, so not
while the channel is offline. (DEDUCED, logs 49 and 50.) (DEDUCED, log 49. DEDUCED, log 50.) -/
def Dev.sampleDeliver (d : Dev) (n : Nat) (code : BitVec 32) : Dev :=
  if !d.afeOn n || !d.afeValid n then d
  else
    let cfg := d.reg (afeReg n 0)
    let c := clipCode code.toInt
    let d := if c = code.toInt then d else d.setBit (afeStatus n) 1 true
    let x := d.afe n
    let i := x.next
    let j := i / d.afeB n
    let len := d.rfld (afeReg n 0x28) 31 16
    let d := if i % d.afeB n = 0 ∧ len ≠ 0 ∧ j % len = 0 then d.setFld (afeReg n 0x28) 7 0 ((d.afeEpoch n).toNat + 1) else d
    let bits := sampleBits (cfg.getLsbD 19) (fld cfg 30 29) (d.reg (afeReg n 0xC)) c
    let tag := n * 32 + x.wtag % 32
    let toks : List (W64 × Byte) :=
      if fld cfg 18 17 = 2 then
        [if cfg.getLsbD 19 then (BitVec.ofInt 64 c, tyByte 0 false false false) else (BitVec.ofNat 64 bits, tyByte 3 false false false)]
      else []
    let a := d.pair (afeReg n 4) + 4 * (i % d.afeS n)
    let last := (i + 1) % d.afeB n == 0
    let (bs, no) := blkAdd x.blks j x.wtag (d.afeEpoch n) toks last
    let d := d.modAfe n (fun (c : AfeCh) => { c with next := i + 1, wtag := c.wtag + 1, writes := c.writes ++ [(tag, no, last)], blks := bs })
    let d := d.request measNode (hbmDest a) false
      { op := 1, size := 2, addr := BitVec.ofNat 48 a, req := { die := 5 }, rtag := BitVec.ofNat 12 tag, operand := BitVec.ofNat 64 bits }
    d.afePush n

/-- One ring write response of a channel (R371): a refused write sets RINGERR and raises the channel's event (R380). -/
def Dev.afeWritten (d : Dev) (n : Nat) : Option (Bool × Dev) :=
  let ws := (d.afe n).writes
  match d.takeResp measNode (fun r => ws.any (fun w => w.1 == r.rtag.toNat)) with
  | none => none
  | some (r, d) =>
    match ws.find? (fun w => w.1 == r.rtag.toNat) with
    | none => none
    | some w =>
      let d := d.modAfe n (fun c => { c with writes := removeFirst (· == w) c.writes, blks := blkDone c.blks w.2.1 (r.status == 0) w.2.2 })
      some (w.2.2, if r.status == 0 then d else (d.setBit (afeStatus n) 5 true).raiseFree (400 + n) 0)

/-- Responses are taken until one completes a block. -/
def Dev.afeComplete (d : Dev) (n : Nat) : Nat → Dev
  | 0 => d
  | fuel + 1 =>
    match d.afeWritten n with
    | none => d
    | some (last, d) => if last then d.afePush n else d.afeComplete n fuel

/-- The horizon of a hurdle arrives at the channels (R375). -/
def Dev.measHorizon (d : Dev) (g slot : Nat) (h : BitVec 8) : Dev :=
  let d := d.modMeas (fun m => { m with hz := mput m.hz (g * 256 + slot) h })
  (List.range 64).foldl (fun d n =>
    let r := d.reg (afeReg n 0x2C)
    if r.getLsbD 31 && fld r 19 16 == g && fld r 7 0 == slot then d.afePush n else d) d

/-! ### Trip lines (R384 to R387) -/

def w32bits (p : Nat → Bool) : W32 := BitVec.ofNat 32 ((List.range 32).foldl (fun n i => if p i then n + 2 ^ i else n) 0)

/-- Lines that some channel demands (R379): its limit is active, or it is offline with OFFTRIP. -/
def Dev.hwDemand (d : Dev) : W32 :=
  (List.range 64).foldl (fun m n =>
    let st := d.reg (afeStatus n)
    let lc := d.reg (afeReg n 0x38)
    if (lc.getLsbD 4 && st.getLsbD 28) || (lc.getLsbD 5 && st.getLsbD 30) then m ||| d.reg (afeReg n 0x3C) else m) 0

/-- Lines with a copy A, and with a copy B, bound (R384). -/
def Dev.boundA (d : Dev) : W32 := w32bits (fun l => d.rfld (tripReg (0x104 + 8 * l)) 15 0 != 0)
def Dev.boundB (d : Dev) : W32 := w32bits (fun l => d.rfld (tripReg (0x104 + 8 * l)) 31 16 != 0)

/-- Lines of which a bound copy has sent no request for TRIP.WD.MS; 0 turns the watchdog off (R385, R398). -/
def Dev.tripWdA (d : Dev) : W32 := if d.rfld (tripReg 0x24) 15 0 = 0 then 0 else d.meas.trip.wdA &&& d.boundA
def Dev.tripWdB (d : Dev) : W32 := if d.rfld (tripReg 0x24) 15 0 = 0 then 0 else d.meas.trip.wdB &&& d.boundB

/-- Lines with a cause other than their latch (R385). -/
def Dev.tripRaw (d : Dev) : W32 :=
  let t := d.meas.trip
  ~~~ d.reg (tripReg 0) ||| d.reg (tripReg 4) ||| (t.latA &&& d.boundA) ||| (t.latB &&& d.boundB) ||| d.tripWdA ||| d.tripWdB ||| d.hwDemand

/-- The lines follow their causes: a demand that starts latches a latching line, and the pin, its readback and TRIP.CAUSE follow (R385). (DESIGN CHOICE, log 52.) -/
def Dev.tripUpdate (d : Dev) : Dev :=
  let raw := d.tripRaw
  let old := d.reg (tripReg 0x10)
  let lat := d.meas.trip.latched ||| (raw &&& ~~~old &&& d.reg (tripReg 8))
  let dem := raw ||| lat
  let d := d.modMeas (fun m => { m with trip := { m.trip with latched := lat } })
  let rb := (d.reg (tripReg 0x14) &&& ~~~(dem ^^^ old)) ||| (dem &&& (dem ^^^ old))
  (d.setReg (tripReg 0x10) dem).setReg (tripReg 0x14) rb

/-- TRIP.CAUSE of line `l`. (DESIGN CHOICE, log 52.) -/
def Dev.tripCause (d : Dev) (l : Nat) : W32 :=
  let t := d.meas.trip
  let b := fun (v : W32) (k : Nat) => if v.getLsbD l then 2 ^ k else 0
  BitVec.ofNat 32 (b (~~~ d.reg (tripReg 0)) 0 + b t.latA 1 + b t.latB 2 + b d.tripWdA 3 + b d.tripWdB 4 + b d.hwDemand 5 +
    b (d.reg (tripReg 4)) 6 + b t.latched 7)

def Dev.modTrip (d : Dev) (f : Trip → Trip) : Dev := (d.modMeas (fun m => { m with trip := f m.trip })).tripUpdate

/-- The copy a request belongs to (R384): false A, true B. -/
def copyOf (bind regs : W32) (t : Tag) : Option Bool :=
  let g := t.ctx.toNat / 2 ^ 18
  if t.graph.toNat ≠ fld bind 11 0 then none
  else if regs.getLsbD g then some false
  else if regs.getLsbD (16 + g) then some true
  else none

/-- A TRIP request (R123, R124, R384, R385). (DESIGN CHOICE, log 52.) -/
def Dev.tripRequest (d : Dev) : Dev :=
  match d.takeTok measNode (fun t => t.tag.clu != 1) with
  | none => d
  | some (q, t, d) =>
    match d.blockTag measNode t (infieldIs t.tag 1 0 0) with
    | (none, d) => d.ioAnswer q.src none
    | (some t, d) =>
      let l := t.tag.node.toNat
      if 32 ≤ l then (d.blockError measNode t stBAD_NODE l).ioAnswer q.src none
      else
        match copyOf (d.reg (tripReg (0x100 + 8 * l))) (d.reg (tripReg (0x104 + 8 * l))) t.tag with
        | none => (d.blockError measNode t stIO_UNBOUND l).ioAnswer q.src none
        | some b =>
          let dem := if Token.err t || t.pay != 0 then 1 else 0
          let set := fun (v : W32) (x : Nat) => putFld v l l x
          (d.modTrip (fun r => if b then { r with latB := set r.latB dem, wdB := set r.wdB 0 } else { r with latA := set r.latA dem, wdA := set r.wdA 0 })).ioSignal q.src

/-- A copy of a DUP graph is lost (R544): some cluster that holds nodes of it is isolated or in a closed region. (DEDUCED, log 29.) -/
def Dev.copyLost (d : Dev) (n : Nat) (b : Bool) : Bool :=
  let x := d.graph n
  let rs := if b then x.regsB else x.regsA
  x.slots.any (fun p => rs.contains (p.1 / 16) &&
    (!d.regionOpen (p.1 / 16) || (d.isoTiles (p.1 / 16)).contains (d.tileOf (p.1 / 16) (p.1 % 16))))

/-- A bound copy has sent no request for TRIP.WD.MS (R385); a lost copy of a DUP graph counts as withdrawn (R544). (DEDUCED, log 29.) -/
def Dev.tripWatchdog (d : Dev) (l : Nat) (b : Bool) : Dev :=
  if d.rfld (tripReg 0x24) 15 0 = 0 ∨ !(if b then d.boundB else d.boundA).getLsbD l then d
  else
    let d := d.modTrip (fun r => if b then { r with wdB := putFld r.wdB l l 1 } else { r with wdA := putFld r.wdA l l 1 })
    let n := d.rfld (tripReg (0x100 + 8 * l)) 11 0
    if (d.graph n).dup && d.copyLost n b then
      let x := d.graph n
      let x := if b then { x with aliveB := false } else { x with aliveA := false }
      let d := d.setGraph n x
      if x.aliveA || x.aliveB then d.healthState 2 2 else d.healthState 3 3
    else d

/-- TRIP.RESET (R385, R387): a latched line without another cause is released. -/
def Dev.tripReset (d : Dev) (v : W32) : Dev := let raw := d.tripRaw; d.modTrip (fun r => { r with latched := r.latched &&& ~~~(v &&& ~~~raw) })

/-- TRIP.ARM. -/
def Dev.tripArm (d : Dev) (v : W32) : Dev := (d.setReg (tripReg 0) v).tripUpdate

/-- The level of a pin read back differs for longer than RBWIN (R386). -/
def Dev.readback (d : Dev) (l : Nat) (level : Bool) : Dev :=
  let d := d.setBit (tripReg 0x14) l level
  if d.rbit (tripReg 0x10) l = level then d else (d.setBit (tripReg 0x18) l true).raiseFree (472 + l) 0

/-- The copy latches of a line disagree for longer than 1 ms (R386). -/
def Dev.copyDisagree (d : Dev) (l : Nat) : Dev :=
  if (d.boundA &&& d.boundB).getLsbD l && d.meas.trip.latA.getLsbD l != d.meas.trip.latB.getLsbD l then
    (d.setBit (tripReg 0x1C) l true).raiseFree (472 + l) 0
  else d

/-- A binding is rewritten (R384): `k` below 32 a trip line, else 32 + an analog output; `regs` names its region sets. A line's watchdogs start again. (DESIGN CHOICE, log 52.) -/
def Dev.bindingWrite (d : Dev) (k : Nat) (regs : Bool) (v : W32) : Dev :=
  if k < 32 then
    let d := if regs then d.setReg (tripReg (0x104 + 8 * k)) v else d.setFld (tripReg (0x100 + 8 * k)) 11 0 (fld v 11 0)
    d.modTrip (fun r => { r with latA := putFld r.latA k k 1, latB := putFld r.latB k k 1, wdA := putFld r.wdA k k 0, wdB := putFld r.wdB k k 0 })
  else
    let m := k - 32
    let d := if regs then d.setReg (aoutReg m 0x10) v else d.setFld (aoutReg m 0xC) 11 0 (fld v 11 0)
    d.modMeas (fun x => { x with aout := mmod {} x.aout m (fun (o : Aout) => { o with a := none, b := none }) })

/-! ### Going offline and settling (R377, R380) -/

/-- A channel goes offline: one CHANNEL_OFFLINE, and nothing of its open or held blocks is announced. `settle` says that it settles next. (DEDUCED, log 50.) -/
def Dev.afeOffline (d : Dev) (n reason : Nat) (settle : Bool) : Dev :=
  let d := if d.afeValid n then d.afeStat n stCHANNEL_OFFLINE (reason + n * 16) true else d
  let d := ((d.setBit (afeStatus n) 31 false).setBit (afeStatus n) 30 true).setBit (afeStatus n) 28 false |>.setBit (afeStatus n) 0 false
  (d.modAfe n (fun c => { c with settle := settle, blks := [], gap := 0, full := false })).tripUpdate

/-- The settling time ends: the next sample instant is the first valid sample (R377). (DEDUCED, log 49.) -/
def Dev.settlingEnd (d : Dev) (n : Nat) : Dev :=
  if !(d.afe n).settle || !d.afeOn n || !d.domOn (44 + n / 16) then d
  else
    let i := firstIndex d.time.toNat (d.rfld (afeReg n 0) 24 21)
    let d := ((d.setBit (afeStatus n) 31 true).setBit (afeStatus n) 30 false).setPair (afeReg n 0x50) i
    (d.modAfe n (fun c => { c with settle := false, next := i })).tripUpdate

/-- A write of AFE.CH_CFG (R380). With IEPE off FAULT reads 0; that change of FAULT raises its event too (R378). (DEDUCED, log 50.) -/
def Dev.chCfg (d : Dev) (n : Nat) (v : W32) : Dev :=
  let a := afeReg n 0
  let old := d.reg a
  let on := old.getLsbD 31
  let keep := fun (w : W32) (hi lo : Nat) => putFld w hi lo (fld old hi lo)
  let v := v &&& 0xFFFFFF00#32
  let v := if fld v 30 29 = 3 then keep v 30 29 else v
  let v := if 6 ≤ fld v 27 25 then keep v 27 25 else v
  let v := if 10 ≤ fld v 24 21 then keep v 24 21 else v
  let v := if fld v 18 17 = 3 then keep v 18 17 else v
  let v := if on then keep (keep (keep (keep v 19 19) 18 17) 15 12) 11 8 else v
  let d := d.setReg a v
  let d :=
    if fld v 27 25 = 0 then
      let e := (d.setFld (afeStatus n) 27 25 0).modAfe n (fun c => { c with cls := 0 })
      if d.rfld (afeStatus n) 27 25 = 0 then e else e.raiseFree (400 + n) 0
    else d
  if !v.getLsbD 31 then (if on then d.afeOffline n 3 false else d)
  else if !on then d.afeOffline n 3 (d.domOn (44 + n / 16))
  else if fld v 30 20 ≠ fld old 30 20 then d.afeOffline n 1 true
  else d

/-- A write of one of a channel's registers at offset `o`, by the rules of R380; `rw` are its RW bits and `w1c` its W1C bits. A write of AFE.RING_BASE_HI that is
refused because the channel is on leaves a held _LO half standing. A limit that is disabled is not active. (DEDUCED, log 50. DESIGN CHOICE, log 76.) -/
def Dev.chWriteNow (d : Dev) (n o : Nat) (rw w1c v : W32) : Dev :=
  let a := afeReg n o
  let on := d.afeOn n
  let plain := fun (d : Dev) (v : W32) => d.setReg a (((d.reg a &&& ~~~rw) ||| (v &&& rw)) &&& ~~~(v &&& w1c))
  if o = 0 then d.chCfg n v
  else if o = 4 then (if on then d else d.holdLo a v)
  else if o = 8 then (if on then d else d.pairWrite (afeReg n 4) v)
  else if o = 0x28 ∧ on then d
  else if (o = 0x10 ∨ o = 0x14) ∧ 4 ≤ fld v 28 26 then d
  else if o = 0x20 ∧ fld v 7 6 = 3 then plain d (putFld v 7 6 (d.rfld a 7 6))
  else if o = 0x38 then (if v.getLsbD 4 then plain d v else (plain d v).setBit (afeStatus n) 28 false).tripUpdate
  else if o = 0x3C then (plain d v).tripUpdate
  else plain d v

/-- The same while the channel's group is under calibration: the write is held (R380). -/
def Dev.chWrite (d : Dev) (n o : Nat) (rw w1c v : W32) : Dev :=
  if d.meas.cal = some (n / 16) then d.modAfe n (fun c => { c with held := c.held ++ [(o, v)] }) else d.chWriteNow n o rw w1c v

def Dev.chCfgWrite (d : Dev) (n : Nat) (v : W32) : Dev := d.chWrite n 0 0xFFFFFF00 0 v

/-! ### Sensor faults and limits (R378, R379) -/

/-- The bias class of a measurement (R378). -/
def biasClass (mv viepe win : Nat) : Nat :=
  if mv < 1000 then 4 else if viepe < mv + 3000 then 3 else if mv < win % 65536 then 1 else if win / 65536 < mv then 2 else 0

/-- The bias is measured and classed. -/
def Dev.biasMeasure (d : Dev) (n mv : Nat) : Dev :=
  if d.rfld (afeReg n 0) 27 25 = 0 then d
  else
    let d := d.setReg (afeReg n 0x4C) (BitVec.ofNat 32 mv)
    let k := biasClass mv (d.rfld (afeCtlReg 0xC) 15 0) (d.reg (afeReg n 0x40)).toNat
    d.modAfe n (fun c => { c with cls := k })

/-- The class has held for FAULT_MS. -/
def Dev.faultAdopt (d : Dev) (n : Nat) : Dev :=
  let k := (d.afe n).cls
  if d.rfld (afeReg n 0) 27 25 = 0 ∨ d.rfld (afeStatus n) 27 25 = k then d
  else
    let d := d.setFld (afeStatus n) 27 25 k
    (if k = 0 then d else d.setBit (afeStatus n) 3 true).raiseFree (400 + n) 0

/-- The last COUNT + 1 fast samples satisfy `p`. -/
def lastRun (count : Nat) (cs : List (BitVec 24)) (p : Int → Bool) : Bool :=
  decide (count < cs.length) && (cs.drop (cs.length - (count + 1))).all (fun c => p c.toInt)

/-- A fast sample lies beyond a limit. -/
def Dev.beyond (d : Dev) (n : Nat) (c : Int) : Bool :=
  decide (((d.reg (afeReg n 0x30)).extractLsb' 0 24).toInt < c) || decide (c < ((d.reg (afeReg n 0x34)).extractLsb' 0 24).toInt)

def Dev.limitOn (d : Dev) (n : Nat) (cs : List (BitVec 24)) : Dev :=
  if d.rbit (afeReg n 0x38) 4 && d.afeValid n && !d.rbit (afeStatus n) 28 && lastRun (d.rfld (afeReg n 0x38) 3 0) cs (d.beyond n) then
    (((d.setBit (afeStatus n) 28 true).setBit (afeStatus n) 4 true).raiseFree (400 + n) 0).tripUpdate
  else d

def Dev.limitOff (d : Dev) (n : Nat) (cs : List (BitVec 24)) : Dev :=
  if d.rbit (afeStatus n) 28 && lastRun (d.rfld (afeReg n 0x38) 3 0) cs (fun c => !d.beyond n c) then (d.setBit (afeStatus n) 28 false).tripUpdate else d

/-! ### Calibration (R392, R393) -/

def groupCh (g : Nat) : List Nat := (List.range 16).map (fun i => 16 * g + i)

/-- A write of AFE.CAL. -/
def Dev.calStart (d : Dev) (v : W32) : Dev :=
  let a := afeCtlReg 0
  let d := d.setFld a 1 0 (fld v 1 0)
  let d := if v.getLsbD 29 then d.setBit a 29 false else d
  if !v.getLsbD 31 then d
  else
    let g := fld v 1 0
    if d.meas.cal.isSome || !d.domOn (44 + g) || !d.rbit (afeCtlReg 4) 2 then d.setBit a 29 true
    else
      let d := (groupCh g).foldl (fun d n => (d.afeOffline n 0 false).setBit (afeStatus n) 29 true) d
      (d.modMeas (fun m => { m with cal := some g })).setBit a 30 true

/-- A calibration ends (R392 step 7): `co` gives each channel's coefficients, none where its reference was out of range. -/
def Dev.calEnd (d : Dev) (co : List (Option (W32 × BitVec 24))) : Dev :=
  match d.meas.cal with
  | none => d
  | some g =>
    let d := d.modMeas (fun m => { m with cal := none })
    let d := (List.range 16).foldl (fun d i =>
      let n := 16 * g + i
      let d := match co.getD i none with
        | some (gain, offs) => (d.setReg (afeReg n 0x58) gain).setReg (afeReg n 0x5C) (offs.zeroExtend 32)
        | none => (d.setBit (afeCtlReg 0) 29 true).raiseFree (400 + n) 0
      let ws := (d.afe n).held
      let d := (d.setBit (afeStatus n) 29 false).modAfe n (fun c => { c with held := [], settle := d.afeOn n })
      ws.foldl (fun d w =>
        match findReg w.1 regsAfe with
        | some (r, _) => d.chWriteNow n w.1 r.rw r.w1c w.2
        | none => d) d) d
    d.setBit (afeCtlReg 0) 30 false

/-! ### Tachometers (R382, R383) -/

def Dev.modTach (d : Dev) (t : Nat) (f : Tach → Tach) : Dev := d.modMeas (fun m => { m with tach := mmod {} m.tach t f })

/-- Responses to a tachometer's ring writes are dropped. -/
def Dev.tachDrop (d : Dev) (t : Nat) : Dev :=
  match d.takeResp measNode (fun r => r.rtag.toNat == 2048 + t) with
  | some (_, d) => d
  | none => d

/-- Send a token of a tachometer. -/
def Dev.tachSend (d : Dev) (t : Nat) (pay : W64) (ty : Byte) : Dev :=
  d.measSend 0 (d.measTok (d.reg (tchReg t 0x10)) (d.reg (tchReg t 0x14)) (d.reg (tchReg t 0x18)) (d.reg (tchReg t 0x1C)) 0 pay ty)

/-- An edge after a pulse of `width` units of 2.5 ns: a shorter pulse than GLITCH is filtered; every DIV + 1 edges the count rises, the timestamp is
written and sent. -/
def Dev.tachEdge (d : Dev) (t width : Nat) : Dev :=
  let d := d.tachDrop t
  if !d.rbit (tchReg t 0) 31 then d
  else if width < d.rfld (tchReg t 8) 15 0 then d.setBit (tchReg t 0x30) 0 true
  else
    let d := d.setBit (tchReg t 0x30) 2 false
    let x := mget {} d.meas.tach t
    if x.edges < d.rfld (tchReg t 0) 23 16 then d.modTach t (fun x => { x with edges := x.edges + 1 })
    else
      let c := d.pair (tchReg t 0x28) + 1
      let a := d.pair (tchReg t 0x20) + 8 * (c % 4096)
      let d := (d.modTach t (fun x => { x with edges := 0, ts := d.time })).setPair (tchReg t 0x28) (c % 2 ^ 64)
      let d := d.request measNode (hbmDest a) false
        { op := 1, size := 3, addr := BitVec.ofNat 48 a, req := { die := 5 }, rtag := BitVec.ofNat 12 (2048 + t), operand := d.time }
      if !d.rbit (tchReg t 0x18) 7 then d
      else if x.busy then (d.modTach t (fun x => { x with due := true })).setBit (tchReg t 0x30) 1 true
      else (d.tachSend t d.time (tyByte 8 false false false)).modTach t (fun x => { x with busy := true })

/-- The microsecond after a token ends (R383). -/
def Dev.tachTimer (d : Dev) (t : Nat) : Dev :=
  let d := d.tachDrop t
  let x := mget {} d.meas.tach t
  if x.due then (d.tachSend t x.ts (tyByte 8 false false false)).modTach t (fun x => { x with due := false })
  else d.modTach t (fun x => { x with busy := false })

/-- No edge for TIMEOUT ms (R383). TACH_STOPPED is a token, so it is sent with SEND set. (DEDUCED, log 50.) -/
def Dev.tachTimeout (d : Dev) (t : Nat) : Dev :=
  if !d.rbit (tchReg t 0) 31 || d.rfld (tchReg t 0xC) 15 0 == 0 || d.rbit (tchReg t 0x30) 2 then d
  else
    let d := (d.setBit (tchReg t 0x30) 2 true).raiseFree (464 + t) 0
    if d.rbit (tchReg t 0x18) 7 then d.tachSend t (status stTACH_STOPPED originBlock t) (tyByte 6 false false false) else d

/-! ### Analog outputs (R388, R389) -/

/-- The DAC code of a binary32 value, and whether it was clamped (R388). (DESIGN CHOICE, log 52.) -/
def dacCode (v : Nat) : Int × Bool :=
  if isInf f32 v then (if fSign f32 v then (-32768, true) else (32767, true))
  else
    let x := fixOf v * 32768
    let den : Int := 10 * 2 ^ 149
    let q := x / den
    let r := x % den
    let c := if den < 2 * r ∨ (2 * r = den ∧ q % 2 = 1) then q + 1 else q
    if 32767 < c then (32767, true) else if c < -32768 then (-32768, true) else (c, false)

def Dev.modAout (d : Dev) (m : Nat) (f : Aout → Aout) : Dev := d.modMeas (fun x => { x with aout := mmod {} x.aout m f })
def Dev.setCode (d : Dev) (m v : Nat) : Dev := d.setFld (aoutReg m 0x14) 31 16 ((dacCode v).1 % 65536).toNat

/-- The output goes to SAFE; entering it raises the event. The code of a SAFE value that is a NaN is not given: a free value. (DESIGN CHOICE, log 52.) -/
def Dev.aoutSafe (d : Dev) (m : Nat) (event : Bool) : Dev :=
  let v := (d.reg (aoutReg m 8)).toNat
  let (f, d) := d.free
  let d := if isNan f32 v then d.setFld (aoutReg m 0x14) 31 16 (f.toNat % 65536) else d.setCode m v
  if d.rbit (aoutReg m 0x14) 8 then d else (if event then d.raiseFree (504 + m) 0 else d).setBit (aoutReg m 0x14) 8 true

/-- An AWRITE request (R123, R124, R384, R388). -/
def Dev.aoutRequest (d : Dev) : Dev :=
  match d.takeTok measNode (fun t => t.tag.clu == 1) with
  | none => d
  | some (q, t, d) =>
    match d.blockTag measNode t (infieldIs t.tag 1 1 0) with
    | (none, d) => d.ioAnswer q.src none
    | (some t, d) =>
      let m := t.tag.node.toNat
      if 16 ≤ m then (d.blockError measNode t stBAD_NODE m).ioAnswer q.src none
      else
        match copyOf (d.reg (aoutReg m 0xC)) (d.reg (aoutReg m 0x10)) t.tag with
        | none => ((d.blockError measNode t stIO_UNBOUND (m + 32)).setBit (aoutReg m 0x14) 4 true).ioAnswer q.src none
        | some b =>
          let v : W32 := t.pay.extractLsb' 0 32
          let ok := !Token.err t && !isNan f32 v.toNat
          let d := if ok && (dacCode v.toNat).2 then d.setBit (aoutReg m 0x14) 3 true else d
          (d.modAout m (fun o => if b then { o with b := some (v, ok) } else { o with a := some (v, ok) })).ioSignal q.src

/-- Make copy `b` active (R389). -/
def Dev.aoutSwitch (d : Dev) (m : Nat) (b : Bool) : Dev :=
  (((d.setBit (aoutReg m 0x14) 7 b).setBit (aoutReg m 0x14) 6 true).setBit (aoutReg m 0x14) 0 true).raiseFree (504 + m) 0

/-- Drive a value. -/
def Dev.aoutDrive (d : Dev) (m : Nat) (v : W32) : Dev := ((d.setCode m v.toNat).setBit (aoutReg m 0x14) 8 false).modAout m (fun o => { o with miss := 0 })

/-- An update at t_k (R389); while the output is off the requests serve an update that drives nothing (R388). (DESIGN CHOICE, log 52.) -/
def Dev.aoutUpdate (d : Dev) (m : Nat) : Dev :=
  if !d.rbit (aoutReg m 0) 31 then d.modAout m (fun o => { o with a := none, b := none })
  else
    let st := d.reg (aoutReg m 0x14)
    let x := mget {} d.meas.aout m
    let latched := st.getLsbD 6
    let act := st.getLsbD 7
    let mine := if act then x.b else x.a
    let other := if d.rfld (aoutReg m 0x10) 31 16 = 0 then (if act then x.a else none) else if act then x.a else x.b
    let use := fun (o : Option (W32 × Bool)) => match o with | some (v, true) => some v | _ => none
    let d := d.modAout m (fun o => { o with a := none, b := none })
    match use mine, use other with
    | some v, some w =>
      if v = w then d.aoutDrive m v
      else
        let d := (d.setBit (aoutReg m 0x14) 2 true).raiseFree (504 + m) 0
        if latched then d.aoutDrive m v else (d.aoutSwitch m (!act)).aoutDrive m w
    | some v, none => d.aoutDrive m v
    | none, some w => (if latched then d else d.aoutSwitch m (!act)).aoutDrive m w
    | none, none =>
      if mine.isNone && other.isNone then
        let d := (d.setBit (aoutReg m 0x14) 1 true).modAout m (fun o => { o with miss := o.miss + 1 })
        if d.rfld (aoutReg m 0) 23 16 < x.miss + 1 then d.aoutSafe m true else d
      else (d.modAout m (fun o => { o with miss := 0 })).aoutSafe m true

/-- AOUT.CTRL.RESTORE (R389, R397). -/
def Dev.aoutRestore (d : Dev) (m : Nat) : Dev := (d.setBit (aoutReg m 0x14) 7 false).setBit (aoutReg m 0x14) 6 false

/-- A write of AOUT.CTRL (R397): RATE 10 to 15 is ignored, and setting EN drives SAFE (R389). -/
def Dev.aoutCtrl (d : Dev) (m : Nat) (v : W32) : Dev :=
  let a := aoutReg m 0
  let was := d.rbit a 31
  let d := if v.getLsbD 30 then d.aoutRestore m else d
  let d := (d.setBit a 31 (v.getLsbD 31)).setFld a 23 16 (fld v 23 16)
  let d := if fld v 27 24 ≤ 9 then d.setFld a 27 24 (fld v 27 24) else d
  if v.getLsbD 31 && !was then ((d.setBit (aoutReg m 0x14) 8 false).aoutSafe m false) else d

/-! ### The die's own status (R380, R381) and its reset (R387) -/

/-- VIEPE is measured (R380). -/
def Dev.viepe (d : Dev) (mv : Nat) : Dev := (d.setReg (afeCtlReg 0xC) (BitVec.ofNat 32 mv)).setBit (afeCtlReg 4) 3 (decide (mv < 26000))

/-- A step of device time by `ns` (R381): beyond the slew limit every enabled channel goes offline and realigns. -/
def Dev.measStep (d : Dev) (ns : Nat) : Dev :=
  if ns ≤ 100 then d
  else
    let d := d.setBit (afeCtlReg 4) 0 false
    if ns ≤ d.rfld (afeCtlReg 8) 19 0 * 1000 then d
    else
      let d := (List.range 64).foldl (fun d n => if d.afeOn n && d.meas.cal != some (n / 16) then d.afeOffline n 2 true else d) d
      d.setBit (afeCtlReg 4) 1 true

/-- The power of a channel group goes (R380, R488). -/
def Dev.measGroupOff (d : Dev) (g : Nat) : Dev := (groupCh g).foldl (fun d n => d.afeOffline n 3 false) d

/-- The power of a channel group came: enabled channels settle. -/
def Dev.measGroupOn (d : Dev) (g : Nat) : Dev := (groupCh g).foldl (fun d n => if d.afeOn n then d.modAfe n (fun c => { c with settle := true }) else d) d

/-- The measurement die in reset (R387). -/
def Dev.measReset (d : Dev) : Dev :=
  { ((d.discardAll (fun c => c == 293 || c == 6672)).resetRegs (fun a => decide (measBase ≤ a ∧ a < measBase + 0x500000))) with meas := {} }

/-! ### Commands -/

def execSampleDeliver (n : Fin 64) (c : BitVec 32) (s : State) : Host.Outcome State Fault Refusal := .next { s with dev := s.dev.sampleDeliver n c }
def execChannelBlockComplete (n : Fin 64) (s : State) : Host.Outcome State Fault Refusal :=
  .next { s with dev := s.dev.afeComplete n ((s.dev.afe n).writes.length + 1) }
def execChannelCreditResume (n : Fin 64) (s : State) : Host.Outcome State Fault Refusal := .next { s with dev := s.dev.afeResume n }
def execSettlingEnd (n : Fin 64) (s : State) : Host.Outcome State Fault Refusal := .next { s with dev := s.dev.settlingEnd n }
def execChCfgWrite (n : Fin 64) (v : W32) (s : State) : Host.Outcome State Fault Refusal := .next { s with dev := s.dev.chCfgWrite n v }
def execBiasMeasure (n : Fin 64) (mv : W16) (s : State) : Host.Outcome State Fault Refusal := .next { s with dev := s.dev.biasMeasure n mv.toNat }
def execFaultClassAdopt (n : Fin 64) (s : State) : Host.Outcome State Fault Refusal := .next { s with dev := s.dev.faultAdopt n }
def execLimitActivate (n : Fin 64) (cs : List (BitVec 24)) (s : State) : Host.Outcome State Fault Refusal := .next { s with dev := s.dev.limitOn n cs }
def execLimitDeactivate (n : Fin 64) (cs : List (BitVec 24)) (s : State) : Host.Outcome State Fault Refusal := .next { s with dev := s.dev.limitOff n cs }
def execCalStart (v : W32) (s : State) : Host.Outcome State Fault Refusal := .next { s with dev := s.dev.calStart v }
def execCalEnd (co : List (Option (W32 × BitVec 24))) (s : State) : Host.Outcome State Fault Refusal := .next { s with dev := s.dev.calEnd co }
def execTachEdge (t : Fin 8) (width : W16) (s : State) : Host.Outcome State Fault Refusal := .next { s with dev := s.dev.tachEdge t width.toNat }
def execTachTokenTimer (t : Fin 8) (s : State) : Host.Outcome State Fault Refusal := .next { s with dev := s.dev.tachTimer t }
def execTachTimeout (t : Fin 8) (s : State) : Host.Outcome State Fault Refusal := .next { s with dev := s.dev.tachTimeout t }
def execTripRequest (s : State) : Host.Outcome State Fault Refusal := .next { s with dev := s.dev.tripRequest }
def execTripWatchdog (l : Fin 32) (b : Bool) (s : State) : Host.Outcome State Fault Refusal := .next { s with dev := s.dev.tripWatchdog l b }
def execTripReset (v : W32) (s : State) : Host.Outcome State Fault Refusal := .next { s with dev := s.dev.tripReset v }
def execTripArmWrite (v : W32) (s : State) : Host.Outcome State Fault Refusal := .next { s with dev := s.dev.tripArm v }
def execReadbackMismatch (l : Fin 32) (level : Bool) (s : State) : Host.Outcome State Fault Refusal := .next { s with dev := s.dev.readback l level }
def execCopyDisagree (l : Fin 32) (s : State) : Host.Outcome State Fault Refusal := .next { s with dev := s.dev.copyDisagree l }
def execBindingWrite (k : Fin 48) (regs : Bool) (v : W32) (s : State) : Host.Outcome State Fault Refusal := .next { s with dev := s.dev.bindingWrite k regs v }
def execAoutRequest (s : State) : Host.Outcome State Fault Refusal := .next { s with dev := s.dev.aoutRequest }
def execAoutUpdate (m : Fin 16) (s : State) : Host.Outcome State Fault Refusal := .next { s with dev := s.dev.aoutUpdate m }
def execRestore (m : Fin 16) (s : State) : Host.Outcome State Fault Refusal := .next { s with dev := s.dev.aoutRestore m }
def execViepeLow (mv : W16) (s : State) : Host.Outcome State Fault Refusal := .next { s with dev := s.dev.viepe mv.toNat }
def execAlign (b : Bool) (s : State) : Host.Outcome State Fault Refusal := .next { s with dev := s.dev.setBit (afeCtlReg 4) 0 b }

end Sys2Proof.Machine
end

