-- ==== Sys2Proof/Machine/Ether.lean ====
section
/-!
DEFINITION. The Ethernet ports and device time (14_ethernet_time_relay.md, R421 to R431): frames and their headers, receive buffers and flow
control, MACsec, sending, host rings, steps of device time, PPS and SyncE.
-/
namespace Sys2Proof.Machine

/-! ### Frames -/

/-- The big-endian number of `n` bytes at offset `o`. -/
def be (bs : List Byte) (o n : Nat) : Nat := beNat ((bs.drop o).take n)

/-- Offset of the EtherType (R402, R422): after one 802.1Q tag. -/
def etherOff (bs : List Byte) : Nat := if be bs 12 2 = 0x8100 then 16 else 12
def etherType (bs : List Byte) : Nat := be bs (etherOff bs) 2

/-- Priority of a frame (R422). -/
def pcpOf (bs : List Byte) : Nat := if be bs 12 2 = 0x8100 then be bs 14 1 / 32 else 0

/-- A UDP datagram over IPv4, or over IPv6 without extension headers: its destination port, the offset of its payload, and whether it is an IPv4
fragment. -/
def udpOf (bs : List Byte) : Option (Nat × Nat × Bool) :=
  let o := etherOff bs + 2
  if etherType bs = 0x0800 ∧ be bs (o + 9) 1 = 17 ∧ be bs (o + 6) 2 % 0x2000 = 0 then
    let u := o + be bs o 1 % 16 * 4
    some (be bs (u + 2) 2, u + 8, decide (be bs (o + 6) 2 % 0x4000 ≠ 0))
  else if etherType bs = 0x86DD ∧ be bs (o + 6) 1 = 17 then some (be bs (o + 42) 2, o + 48, false)
  else none

/-- The offset of a packet carried raw under `ety` or in UDP to `port`, and whether it comes in an IPv4 fragment. -/
def transport (bs : List Byte) (raw udp : Bool) (ety port : Nat) : Option (Nat × Bool) :=
  if raw && etherType bs == ety then some (etherOff bs + 2, false)
  else match udpOf bs with
    | some (p, o, frag) => if udp && p == port then some (o, frag) else none
    | none => none

/-- A PTP frame (R429): EtherType 0x88F7, or UDP port 319 or 320; the offset of its header. -/
def ptpOff (bs : List Byte) : Option Nat :=
  if etherType bs = 0x88F7 then some (etherOff bs + 2)
  else match udpOf bs with
    | some (p, o, _) => if p = 319 ∨ p = 320 then some o else none
    | none => none

/-- Write bytes over a frame. -/
def patch (bs : List Byte) (o : Nat) (x : List Byte) : List Byte := bs.take o ++ x ++ bs.drop (o + x.length)

/-! ### Ports (R421 to R423) -/

def Dev.ethPort (d : Dev) (p : Nat) : EthPort := mget {} d.eth p
def Dev.modEth (d : Dev) (p : Nat) (f : EthPort → EthPort) : Dev := { d with eth := mmod {} d.eth p f }
def Dev.ethCount (d : Dev) (p sub i : Nat) : Dev := d.modEth p (fun x => { x with cnt := mmod 0 x.cnt (16 * sub + i) (· + 1) })

/-- Subports of a mode (R421). -/
def subports (mode : Nat) : Nat := match mode with | 1 => 1 | 2 => 2 | 3 => 4 | 4 => 4 | 5 => 4 | _ => 0

def Dev.subUp (d : Dev) (p sub : Nat) : Bool := d.rbit (ethReg p 4) sub
def Dev.fcpPcp (d : Dev) (p : Nat) : Nat := d.rfld (ethReg p 8) 2 0

/-- PFC is on for a priority; never for FCP_PCP (R423). (PRESUMED, log 55.) -/
def Dev.pfcOn (d : Dev) (p c : Nat) : Bool := d.rbit (ethReg p 8) (8 + c) && c != d.fcpPcp p

/-- MAC address of a subport. -/
def Dev.macOf (d : Dev) (p sub : Nat) : Nat := d.pair (ethReg p (0x10 + 8 * sub)) % 2 ^ 48

/-! ### MACsec (R426) -/

/-- Number of an association in ETH.MSEC_SEL. -/
def msecSel (rx : Bool) (sub sc an : Nat) : Nat := (if rx then 512 else 0) + sub * 128 + sc * 4 + an
def Dev.msecSa (d : Dev) (p sel : Nat) : W32 := d.reg (banked (ethReg p 0x68) sel)
def Dev.msecPn (d : Dev) (p sel : Nat) : Nat := (d.reg (banked (ethReg p 0x6C) sel)).toNat + (d.reg (banked (ethReg p 0x70) sel)).toNat * 2 ^ 32
def Dev.msecSci (d : Dev) (p sel : Nat) : Nat := (d.reg (banked (ethReg p 0x74) sel)).toNat + (d.reg (banked (ethReg p 0x78) sel)).toNat * 2 ^ 32
def Dev.setPn (d : Dev) (p sel n : Nat) : Dev :=
  (d.setReg (banked (ethReg p 0x6C) sel) (BitVec.ofNat 32 n)).setReg (banked (ethReg p 0x70) sel) (BitVec.ofNat 32 (n / 2 ^ 32))

/-- The bytes of a key slot. -/
def Dev.keyBytes (d : Dev) (slot : Nat) : List Byte := (mget {} d.sec.keys slot).data.flatMap (fun w => beBytes 4 w.toNat)

/-- The packet number of a received frame, its upper half recovered with XPN. (PRESUMED, log 54.) -/
def fullPn (xpn : Bool) (low pn : Nat) : Nat :=
  if !xpn then pn
  else (low / 2 ^ 32 + (if pn < low % 2 ^ 32 ∧ 2 ^ 31 ≤ low % 2 ^ 32 ∧ pn < 2 ^ 31 then 1 else 0)) * 2 ^ 32 + pn

/-- What MACsec leaves of a received frame: none where it is discarded (R426). (PRESUMED, log 54.) -/
def Dev.msecReceive (d : Dev) (p sub : Nat) (bs : List Byte) : Option (List Byte) × Dev :=
  let ctl := d.reg (ethReg p 0x60)
  if !ctl.getLsbD 0 then (some bs, d)
  else if be bs 12 2 ≠ 0x88E5 then ((if ctl.getLsbD 1 && etherType bs != 0x888E then none else some bs), d)
  else
    let tci := be bs 14 1
    let sci := if tci / 32 % 2 = 1 then be bs 20 8 else be bs 6 6 * 65536 + 1
    match (List.range 16).find? (fun sc => let s := msecSel true sub sc (tci % 4); (d.msecSa p s).getLsbD 31 && d.msecSci p s == sci) with
    | none => (none, d)
    | some sc =>
      let s := msecSel true sub sc (tci % 4)
      let sa := d.msecSa p s
      let low := d.msecPn p s
      let pn := fullPn (sa.getLsbD 30) low (be bs 16 4)
      if pn < low then (none, d)
      else
        match Config.macsecOpen (d.keyBytes (fld sa 7 0)) sci pn bs with
        | none => (none, d.ethCount p sub 7)
        | some f => (some f, d.setPn p s (pn + 1))

/-- The transmit association of a subport. -/
def Dev.txSel (d : Dev) (p sub : Nat) : Nat := msecSel false sub 0 (d.rfld (ethReg p 0x60) 3 2)

/-- The last packet number of an association, and the number at which it warns (R426). -/
def pnLast (xpn : Bool) : Nat := if xpn then 2 ^ 64 - 1 else 2 ^ 32 - 1
def pnWarn (xpn : Bool) : Nat := if xpn then 2 ^ 64 - 2 ^ 32 else 2 ^ 32 - 2 ^ 24

/-- A frame can be protected now: the association is usable and not at its last packet number. -/
def Dev.msecReady (d : Dev) (p sub : Nat) : Bool :=
  let sa := d.msecSa p (d.txSel p sub)
  !d.rbit (ethReg p 0x60) 0 || (sa.getLsbD 31 && decide (d.msecPn p (d.txSel p sub) < pnLast (sa.getLsbD 30)))

/-- Protect a frame that leaves (R426). (PRESUMED, log 54.) -/
def Dev.msecSend (d : Dev) (p sub : Nat) (bs : List Byte) : List Byte × Dev :=
  if !d.rbit (ethReg p 0x60) 0 then (bs, d)
  else
    let s := d.txSel p sub
    let sa := d.msecSa p s
    let pn := d.msecPn p s
    let d := d.setPn p s (pn + 1)
    let d := if pn + 1 = pnWarn (sa.getLsbD 30) then (d.setBit (ethReg p 0x48) 3 true).raiseFree (344 + p) 0 else d
    (Config.macsecSeal (d.keyBytes (fld sa 7 0)) (d.msecSci p s) pn (d.rfld (ethReg p 0x60) 3 2) bs, d)

/-- A write of ETH.MSEC_SA: in modes 1 to 3 an association without XPN does not become VALID (R426). -/
def Dev.msecSaWrite (d : Dev) (p sel : Nat) (v : W32) : Dev :=
  let mode := d.rfld (ethReg p 0) 2 0
  let v := v &&& 0xC00000FF#32
  d.setReg (banked (ethReg p 0x68) sel) (if 1 ≤ mode ∧ mode ≤ 3 ∧ !v.getLsbD 30 then v &&& 0x7FFFFFFF#32 else v)

/-! ### Sending (R423, R429) -/

/-- One's-complement sum of the 16-bit words of a list, folded. -/
def sum16 : List Byte → Nat
  | a :: b :: r => a.toNat * 256 + b.toNat + sum16 r
  | [a] => a.toNat * 256
  | [] => 0
def fold16 (n : Nat) : Nat := let m := n % 65536 + n / 65536; let m := m % 65536 + m / 65536; m % 65536 + m / 65536

/-- A Sync that leaves with ONESTEP takes its departure time as origin timestamp; its UDP checksum is cleared for IPv4 and corrected for
IPv6 (R429). -/
def Dev.oneStep (d : Dev) (bs : List Byte) : List Byte :=
  match ptpOff bs with
  | none => bs
  | some o =>
    if !d.rbit (ptpReg 0x14) 0 || be bs o 1 % 16 != 0 then bs
    else
      let t := d.time.toNat
      let stamp := beBytes 6 (t / 1000000000) ++ beBytes 4 (t % 1000000000)
      let old := (bs.drop (o + 34)).take 10
      let bs := patch bs (o + 34) stamp
      if etherType bs = 0x0800 then patch bs (o - 2) [0, 0]
      else if etherType bs = 0x86DD then
        let c := 65535 - be bs (o - 2) 2
        let c := 65535 - fold16 (c + (5 * 65535 - sum16 old) + sum16 stamp)
        patch bs (o - 2) (beBytes 2 (if c = 0 then 65535 else c))
      else bs

/-- The frame that leaves a port next: FCP_PCP first, then the highest priority, the oldest among equals; none of a paused priority, of a
subport that is down, or that MACsec holds. (DESIGN CHOICE, log 53.) -/
def Dev.ethNext (d : Dev) (p : Nat) : Option TxFrame :=
  let x := d.ethPort p
  let rank := fun (f : TxFrame) => if f.prio = d.fcpPcp p then 8 else f.prio
  (x.txq.filter (fun f => d.subUp p f.sub && !(x.paused.contains (8 * f.sub + f.prio) && d.pfcOn p f.prio) && d.msecReady p f.sub)).foldl
    (fun (m : Option TxFrame) f => match m with | none => some f | some g => if rank g < rank f then some f else some g) none

/-- Send what may be sent; `fuel` bounds the frames. -/
def Dev.ethDrain (d : Dev) (p : Nat) : Nat → Dev
  | 0 => d
  | fuel + 1 =>
    match d.ethNext p with
    | none => d
    | some f =>
      let d := d.modEth p (fun x => { x with txq := removeFirst (· == f) x.txq })
      let (bs, d) := d.msecSend p f.sub (d.oneStep f.bytes)
      let d : Dev := { d with wire := d.wire ++ [{ f with bytes := bs }] }
      (d.ethCount p f.sub 1).ethDrain p fuel

/-- Send frames that could not leave before. -/
def Dev.ethKick (d : Dev) (p : Nat) : Dev := d.ethDrain p (d.ethPort p).txq.length

/-- Give a frame to a port, padded to its least length. (DESIGN CHOICE, log 53.) -/
def Dev.ethSend (d : Dev) (p sub prio mark : Nat) (bs : List Byte) : Dev :=
  (d.modEth p (fun x => { x with txq := x.txq ++ [{ port := p, sub := sub, prio := prio, mark := mark, bytes := bs ++ List.replicate (60 - bs.length) 0 }] })).ethKick p

/-- A PFC frame of a port on each of its subports that are up (R423): `on` pauses the priority. (PRESUMED, log 55.) -/
def Dev.sendPfc (d : Dev) (p c : Nat) (on : Bool) : Dev :=
  ((List.range 4).filter (d.subUp p)).foldl (fun d s =>
    let bs := beBytes 6 0x0180C2000001 ++ beBytes 6 (d.macOf p s) ++ beBytes 2 0x8808 ++ beBytes 2 0x0101 ++ beBytes 2 (2 ^ c) ++
      (List.range 8).flatMap (fun i => if i = c ∧ on then [0xFF#8, 0xFF#8] else [0, 0]) ++ List.replicate 26 0
    let d : Dev := { d with wire := d.wire ++ [{ port := p, sub := s, bytes := bs }] }
    d.ethCount p s 6) d

/-! ### Receiving (R422 to R425) -/

/-- Bytes of the receive buffer that frames satisfying `c` take. -/
def EthPort.used (x : EthPort) (c : Nat → Bool) : Nat := ((x.rx.filter (fun f => c f.prio)).map (fun f => f.bytes.length + 4)).foldl (· + ·) 0

/-- A frame is kept in the receive buffer or discarded for want of room; its priority's XOFF goes out above 512 KiB. -/
def Dev.ethBuffer (d : Dev) (p sub : Nat) (bs : List Byte) : Dev :=
  let c := pcpOf bs
  let x := d.ethPort p
  let fcp := d.fcpPcp p
  let n := bs.length + 4
  let room := decide (x.used (fun _ => true) + n ≤ 0x400000) && (c == fcp || decide (x.used (· != fcp) + n ≤ 0x3C0000))
  if !room then ((d.setBit (ethReg p 0x48) 0 true).raiseFree (346 + p) 0).ethCount p sub 3
  else
    let d := d.modEth p (fun x => { x with rx := x.rx ++ [{ sub := sub, prio := c, ts := d.time, bytes := bs }] })
    if d.pfcOn p c && !x.xoff.contains c && decide (0x80000 < (d.ethPort p).used (· == c)) then
      (d.modEth p (fun x => { x with xoff := x.xoff ++ [c] })).sendPfc p c true
    else d

/-- A frame arrives at a subport (R422): `bs` is the frame without FCS. (DESIGN CHOICE, log 53. DESIGN CHOICE, log 56.) -/
def Dev.ethReceive (d : Dev) (p sub : Nat) (bs : List Byte) (fcs : Bool) : Dev :=
  if !d.subUp p sub then d
  else if !fcs then d.ethCount p sub 2
  else if bs.length + 4 < 64 then d
  else if d.rfld (ethReg p 0xC) 13 0 < bs.length + 4 then (d.setBit (ethReg p 0x48) 1 true).ethCount p sub 4
  else
    match (d.ethCount p sub 0).msecReceive p sub bs with
    | (none, d) => d
    | (some f, d) => d.ethBuffer p sub f

/-- A received PFC frame (R423). (PRESUMED, log 55.) -/
def Dev.pfcFrame (d : Dev) (p sub c : Nat) (pause : Bool) : Dev :=
  if !d.subUp p sub then d
  else
    let d := d.ethCount p sub 5
    if !d.pfcOn p c then d
    else if pause then d.modEth p (fun x => { x with paused := (8 * sub + c) :: x.paused.filter (· != 8 * sub + c) })
    else (d.modEth p (fun x => { x with paused := x.paused.filter (· != 8 * sub + c) })).ethKick p

/-- A priority for which XOFF was sent has fallen below 256 KiB (R423). -/
def Dev.xon (d : Dev) (p c : Nat) : Dev :=
  let x := d.ethPort p
  if x.xoff.contains c && decide (x.used (· == c) < 0x40000) then (d.modEth p (fun x => { x with xoff := x.xoff.filter (· != c) })).sendPfc p c false
  else d

/-- A frame goes to the port's host ring (R425): a slot is free until TAIL stands just after HEAD. (DESIGN CHOICE, log 56.) -/
def Dev.hostRing (d : Dev) (p : Nat) (f : RxFrame) : Dev :=
  let h := d.rfld (ethReg p 0x38) 7 0
  if (h + 1) % 256 = d.rfld (ethReg p 0x38) 23 16 then ((d.setBit (ethReg p 0x48) 2 true).raiseFree (346 + p) 0)
  else
    let a := d.pair (ethReg p 0x30) / 0x400000 * 0x400000 + h * 0x4000
    (d.write a (leBytes 4 f.bytes.length ++ leBytes 4 f.sub ++ leBytes 8 f.ts.toNat ++ f.bytes)).setFld (ethReg p 0x38) 7 0 ((h + 1) % 256)

/-- A write of ETH.TX_CTRL (R425, R445): with GO the frame at TX_ADDR is sent. (DESIGN CHOICE, log 56.) -/
def Dev.ethTxCtrl (d : Dev) (p : Nat) (v : W32) : Dev :=
  if (d.ethPort p).busy then d
  else
    let d := d.setReg (ethReg p 0x44) (v &&& 0x2000FFFF#32)
    if !v.getLsbD 31 then d
    else
      let bs := d.read (d.pair (ethReg p 0x3C)) (fld v 13 0)
      (d.modEth p (fun x => { x with busy := true })).ethSend p (fld v 15 14) (pcpOf bs) 1 bs

/-- The host frame has left (R425): BUSY clears and the departure time is captured with TS. (DESIGN CHOICE, log 56.) -/
def Dev.ethTxDone (d : Dev) (p : Nat) : Dev :=
  let x := d.ethPort p
  if !x.busy || x.txq.any (fun f => f.mark == 1) then d
  else
    let d := d.modEth p (fun x => { x with busy := false })
    if d.rbit (ethReg p 0x44) 29 then d.setPair (ethReg p 0x58) d.time.toNat else d

/-! ### Device time (R427 to R431) -/

/-- What a step of device time does to the pacers (R194): deadlines it passes are released, and the step is noted. (DEDUCED, log 91.) -/
def Dev.pacerStep (d : Dev) (was step : W64) : Dev :=
  (List.range 16).foldl (fun (d : Dev) g =>
    if step.msb then d.setBit (pacReg g 0x10) 2 true
    else if (d.region g).pacer.any (fun e => !reached was e.deadline && reached (was + step) e.deadline) then d.setBit (pacReg g 0x10) 1 true
    else d) d

/-- One nanosecond of the system reference (R428): device time advances by 1 + PTP.ADJ × 2^−32, ADJ clamped to ±500 ppm. It stands at 0 during a cold
reset (R427). (DESIGN CHOICE, log 11.) -/
def Dev.tick (d : Dev) : Dev :=
  if d.rst.phase ≠ 0 ∧ d.rst.cold then d
  else
    let adj : Int := max (-2147484) (min 2147484 (d.reg (ptpReg 0x10)).toInt)
    let n : Int := (d.time.toNat * 2 ^ 32 + d.frac.toNat : Nat) + (2 ^ 32 + adj)
    { d with time := BitVec.ofNat 64 (n.toNat / 2 ^ 32), frac := BitVec.ofNat 32 n.toNat }

/-- A write of PTP.STEP_HI with the low half held or last written (R428, R10). (DEDUCED, log 57.) -/
def Dev.ptpStep (d : Dev) (hi : W32) : Dev :=
  let d := d.pairWrite (ptpReg 8) hi
  let step : W64 := hi ++ d.reg (ptpReg 8)
  let d := { d.pacerStep d.time step with time := d.time + step }
  ((d.setBit (ptpReg 0x28) 2 true).raiseFree 348 0).measStep step.toInt.natAbs

/-- PPS_OUT rises at a whole second (R430): the second and the width in 10 µs units. -/
def Dev.ppsOutEdge (d : Dev) : Dev :=
  if d.rbit (ptpReg 0x14) 1 then { d with ppsOut := (d.time.toNat / 1000000000, min 50000 (max 1 (d.rfld (ptpReg 0x18) 15 0))) } else d

def Dev.ppsInEdge (d : Dev) : Dev := { d.setPair (ptpReg 0x1C) d.time.toNat with ppsSeen := true }

/-- (DEDUCED, log 57.) -/
def Dev.ppsInLost (d : Dev) : Dev :=
  if d.ppsSeen then (({ d with ppsSeen := false } : Dev).setBit (ptpReg 0x28) 1 true).raiseFree 349 0 else d

/-- (DEDUCED, log 57.) -/
def Dev.synceLost (d : Dev) : Dev :=
  if d.rbit (ptpReg 0x24) 7 && d.rbit (ptpReg 0x24) 5 then
    (((d.setBit (ptpReg 0x24) 5 false).setBit (ptpReg 0x24) 6 true).setBit (ptpReg 0x28) 0 true).raiseFree 350 0
  else d

def Dev.synceLock (d : Dev) : Dev :=
  if d.rbit (ptpReg 0x24) 7 then (d.setBit (ptpReg 0x24) 5 true).setBit (ptpReg 0x24) 6 false else d

/-! ### Commands -/

def execEthFrameReceive (p : Fin 2) (sub : Fin 4) (bs : List Byte) (fcs : Bool) (s : State) : Host.Outcome State Fault Refusal :=
  .next { s with dev := s.dev.ethReceive p sub bs fcs }
def execPfcFrame (p : Fin 2) (sub : Fin 4) (c : Fin 8) (pause : Bool) (s : State) : Host.Outcome State Fault Refusal :=
  .next { s with dev := s.dev.pfcFrame p sub c pause }
def execXon (p : Fin 2) (c : Fin 8) (s : State) : Host.Outcome State Fault Refusal := .next { s with dev := s.dev.xon p c }
def execEthTxGo (p : Fin 2) (v : W32) (s : State) : Host.Outcome State Fault Refusal :=
  .next { s with dev := s.dev.writes (ethReg p 0x44) (s.dev.ethTxCtrl p v) }
def execEthTxDone (p : Fin 2) (s : State) : Host.Outcome State Fault Refusal :=
  .next { s with dev := s.dev.ethTxDone p }
def execPtpStep (v : W32) (s : State) : Host.Outcome State Fault Refusal := .next { s with dev := s.dev.ptpStep v }
def execPpsOutEdge (s : State) : Host.Outcome State Fault Refusal := .next { s with dev := s.dev.ppsOutEdge }
def execPpsInEdge (s : State) : Host.Outcome State Fault Refusal := .next { s with dev := s.dev.ppsInEdge }
def execPpsInLost (s : State) : Host.Outcome State Fault Refusal := .next { s with dev := s.dev.ppsInLost }
def execSynceLost (s : State) : Host.Outcome State Fault Refusal := .next { s with dev := s.dev.synceLost }
def execSynceRelock (s : State) : Host.Outcome State Fault Refusal := .next { s with dev := s.dev.synceLock }

end Sys2Proof.Machine
end

