-- ==== Sys2Proof/Machine/Relay.lean ====
section
/-!
DEFINITION. The relay link (14_ethernet_time_relay.md, R432 to R443): frames and records, sessions, credits, go-back-N, rings, routing and
horizons between devices; and the links of the ports (R421, R444), on which sessions depend.
-/
namespace Sys2Proof.Machine

def rlyNode : Node := .hubUnit 2
def Dev.modRly (d : Dev) (f : Relay → Relay) : Dev := { d with rly := f d.rly }
def Dev.peer (d : Dev) (p : Nat) : Peer := mget {} d.rly.peers p
def Dev.modPeer (d : Dev) (p : Nat) (f : Peer → Peer) : Dev := d.modRly (fun r => { r with peers := mmod {} r.peers p f })
def Dev.peerCfg (d : Dev) (p : Nat) : W32 := d.reg (banked (rlyReg 0x30) p)
def Dev.peerMac (d : Dev) (p : Nat) : Nat := ((d.reg (banked (rlyReg 0x34) p)).toNat + (d.reg (banked (rlyReg 0x38) p)).toNat * 2 ^ 32) % 2 ^ 48
def peerPort (c : W32) : Nat := fld c 29 29
def peerSub (c : W32) : Nat := fld c 28 27

/-- Records of a transmit or receive ring (R439), of a DATA frame (R435), and frames a sender keeps (R438). -/
def Dev.ringRecs (d : Dev) : Nat := 8192 * 2 ^ min 5 (d.rfld (rlyReg 0x28) 2 0)
def Dev.frameRecs (d : Dev) (p : Nat) : Nat := if (d.peerCfg p).getLsbD 30 then 280 else 46
def Dev.peerWin (d : Dev) (p : Nat) : Nat := max 1 (fld (d.peerCfg p) 11 0)

/-! ### Frames and records (R432 to R434) -/

def recBytes : RRec → List Byte
  | .token t => beBytes 16 (Tag.toBits t.tag).toNat ++ beBytes 8 t.pay.toNat ++ [t.ty, 0] ++ List.replicate 6 0
  | .horizon g k e => [g, k, e] ++ List.replicate 22 0 ++ [1] ++ List.replicate 6 0

/-- The record that 32 bytes spell: a reserved kind or a nonzero reserved byte spells none. -/
def recOf (bs : List Byte) : Option RRec :=
  if be bs 26 6 ≠ 0 then none
  else match be bs 25 1 with
    | 0 => some (.token { tag := Tag.ofBits (BitVec.ofNat 128 (be bs 0 16)), pay := BitVec.ofNat 64 (be bs 16 8), ty := bs.getD 24 0 })
    | 1 => if be bs 3 22 = 0 then some (.horizon (bs.getD 0 0) (bs.getD 1 0) (bs.getD 2 0)) else none
    | _ => none

/-- The records of a frame whose header begins it; none where one is malformed. -/
def recsOf (bs : List Byte) : Nat → Option (List RRec)
  | 0 => some []
  | n + 1 =>
    match recsOf bs n, recOf ((bs.drop (28 + 32 * n)).take 32) with
    | some rs, some r => some (rs ++ [r])
    | _, _ => none

/-- Mark of a DATA frame that waits at its port. -/
def dataMark (p : Nat) (seq : W32) : Nat := 2 ^ 40 + p * 2 ^ 32 + seq.toNat

/-- Send a relay frame to a peer: every frame carries ACK and GRANT (R433, R438). -/
def Dev.relaySend (d : Dev) (p kind : Nat) (seq : W32) (recs : List Byte) : Dev :=
  let x := d.peer p
  let c := d.peerCfg p
  let dst := if kind = 3 ∧ !x.known then 0x3FFF else x.dev.toNat
  let tag := if fld c 26 24 = 0 ∧ fld c 23 12 = 0 then [] else beBytes 2 0x8100 ++ beBytes 2 (fld c 26 24 * 8192 + fld c 23 12)
  let hdr := [BitVec.ofNat 8 (16 + kind), 0] ++ beBytes 2 d.devNo.toNat ++ beBytes 2 dst ++ beBytes 2 (recs.length / 32) ++ beBytes 4 seq.toNat ++
    beBytes 4 x.expect.toNat ++ beBytes 4 x.taken.toNat ++ beBytes 4 (d.reg (rlyReg 4)).toNat ++ List.replicate 4 0
  let bs := beBytes 6 (d.peerMac p) ++ beBytes 6 (d.macOf (peerPort c) (peerSub c)) ++ tag ++ beBytes 2 (d.rfld (rlyReg 8) 15 0) ++ hdr ++ recs
  d.ethSend (peerPort c) (peerSub c) (fld c 26 24) (if kind = 0 then dataMark p seq else 0) bs

/-- Send a SYNC with its session record (R434, R436); the first SEQ used is 0. -/
def Dev.relaySync (d : Dev) (p : Nat) : Dev :=
  let known := (d.peer p).known
  let mtu := if (d.peerCfg p).getLsbD 30 then 9000 else 1500
  let r := beBytes 4 d.ringRecs ++ beBytes 2 (d.peerWin p) ++ beBytes 2 mtu ++ beBytes 4 0 ++ List.replicate 13 0 ++ [2] ++ List.replicate 6 0
  (d.modPeer p (fun x => { x with told := x.told || known })).relaySend p 3 0 r

def Dev.relayData (d : Dev) (p : Nat) (f : W32 × List RRec) : Dev := d.relaySend p 0 f.1 (f.2.flatMap recBytes)

/-! ### Rings and routes (R437, R439, R440) -/

def RRec.isTok : RRec → Bool
  | .token _ => true
  | _ => false

/-- DEV of a token record. -/
def RRec.dev? : RRec → Option Nat
  | .token t => some t.tag.dev.toNat
  | _ => none

/-- Records that a peer's transmit ring holds. -/
def Peer.ring (x : Peer) : List RRec := x.frames.flatMap (·.2) ++ x.q

/-- The route of a DEV: its peer where it is valid. -/
def Dev.routeOf (d : Dev) (dev : Nat) : Option Nat :=
  let r := d.reg (banked (rlyReg 0x48) dev)
  if r.getLsbD 31 then some (fld r 7 0) else none

/-- Count a token lost to a peer (R443). -/
def Dev.peerLost (d : Dev) (p n : Nat) : Dev :=
  let a := banked (rlyReg 0x40) p
  d.setReg a (BitVec.ofNat 32 (min (2 ^ 32 - 1) ((d.reg a).toNat + n)))

/-- Put a token on its peer's transmit ring, or lose it to a peer whose session is not up (R443); none where the ring is full, with event 353 once (R439).
(DEDUCED, log 58.) (DEDUCED, log 58.) -/
def Dev.toPeer (d : Dev) (p : Nat) (t : Token) : Except Dev Dev :=
  let x := d.peer p
  if x.st ≠ 2 ∧ x.st ≠ 3 then .ok (d.peerLost p 1)
  else if d.ringRecs ≤ x.ring.length then
    .error (if x.full then d else (d.modPeer p (fun x => { x with full := true })).raiseFree 353 p)
  else .ok (d.modPeer p (fun x => { x with q := x.q ++ [.token t], full := false }))

/-- A token at the relay block (R440): delivered here, refused for want of a route, held by a route change, or queued; an error is a full ring, at
whose input the token stays. -/
def Dev.relayRoute (d : Dev) (t : Token) : Except Dev Dev :=
  let dev := t.tag.dev.toNat
  if t.tag.dev = d.devNo then .ok (d.blockSend rlyNode t)
  else
    match d.routeOf dev with
    | none => .ok ((d.setBit (rlyReg 0x7C) 3 true).blockError rlyNode t stRELAY_NOROUTE dev)
    | some p =>
      if d.rly.moves.any (fun m => m.1 == dev) then .ok (d.modRly (fun r => { r with held := r.held ++ [t] })) else d.toPeer p t

/-- Give held tokens of a DEV to its new route, in order; with what a full ring refuses. -/
def Dev.unhold (d : Dev) : List Token → List Token × Dev
  | [] => ([], d)
  | t :: ts => match d.relayRoute t with
    | .ok d => d.unhold ts
    | .error d => (t :: ts, d)

/-- Route changes whose old peer has acknowledged every token of the DEV, or is down, take effect (R440); one whose new ring is full goes on holding. (DEDUCED, log 58.) -/
def Dev.relayMoves (d : Dev) : Dev :=
  (d.rly.moves.filter (fun m => let x := d.peer m.2; (x.st != 2 && x.st != 3) || !x.ring.any (fun r => r.dev? == some m.1))).foldl (fun d m =>
    let mine := d.rly.held.filter (fun t => t.tag.dev.toNat == m.1)
    let (left, d) := (d.modRly (fun r => { r with moves := removeFirst (· == m) r.moves, held := r.held.filter (fun t => t.tag.dev.toNat != m.1) })).unhold mine
    if left.isEmpty then d else d.modRly (fun r => { r with moves := r.moves ++ [m], held := r.held ++ left })) d

/-- A token of the relay block's input (R440). -/
def Dev.relayEnqueue (d : Dev) : Dev :=
  match d.takeTok rlyNode (fun _ => true) with
  | none => d
  | some (_, t, d') =>
    match d'.relayRoute t with
    | .ok d' => d'
    | .error _ => (match d.relayRoute t with | .error d => d | .ok _ => d)

/-- A write of RLY.ROUTE (R440): tokens for the DEV wait for each other peer that still has some queued or unacknowledged. -/
def Dev.routeWrite (d : Dev) (v : W32) : Dev :=
  let dev := d.rfld (rlyReg 0x44) 13 0
  let d := d.setReg (banked (rlyReg 0x48) dev) (v &&& 0x800000FF#32)
  if !v.getLsbD 31 then d
  else
    let old := (d.rly.peers.filter (fun c => c.1 != fld v 7 0 && decide (2 ≤ c.2.st) && c.2.ring.any (fun r => r.dev? == some dev))).map (fun c => (dev, c.1))
    d.modRly (fun r => { r with moves := r.moves ++ old.filter (fun m => !r.moves.contains m) })

/-! ### Sending frames, acknowledgement, go-back-N (R435, R437, R438) -/

/-- Records for the next frame: at most `n`, tokens while credit lasts. -/
def takeRecs : Nat → Nat → List RRec → List RRec × List RRec
  | 0, _, q => ([], q)
  | _, _, [] => ([], [])
  | n + 1, c, r :: q =>
    if r.isTok && c == 0 then ([], r :: q)
    else let (a, b) := takeRecs n (if r.isTok then c - 1 else c) q; (r :: a, b)

/-- Close the next DATA frame and send it. -/
def Dev.frameClose (d : Dev) (p : Nat) : Dev :=
  let x := d.peer p
  if x.st ≠ 2 ∨ d.peerWin p ≤ x.frames.length then d
  else
    let (rs, q) := takeRecs (d.frameRecs p) (x.rq - (x.sent - x.grant).toNat) x.q
    if rs.isEmpty then d
    else
      let n := (rs.filter (·.isTok)).length
      (d.modPeer p (fun x => { x with q := q, frames := x.frames ++ [(x.seq, rs)], seq := x.seq + 1, sent := x.sent + BitVec.ofNat 32 n })).relayData p (x.seq, rs)

/-- Frames of a session that still wait at the port do not leave (R443). -/
def Dev.stopResend (d : Dev) (p : Nat) (seqs : List W32) : Dev :=
  d.modEth (peerPort (d.peerCfg p)) (fun x => { x with txq := x.txq.filter (fun f => !(seqs.map (dataMark p)).contains f.mark) })

/-- Resend every unacknowledged frame, the oldest first (R438). -/
def Dev.goBack (d : Dev) (p : Nat) : Dev :=
  let fs := (d.peer p).frames
  fs.foldl (fun d f => d.relayData p f) (d.stopResend p (fs.map (·.1)))

/-- Take ACK and GRANT of a received frame: SEQs compare modulo 2^32, so an ACK before the oldest frame frees none (R438). (DEDUCED, log 58.) -/
def Dev.relayAck (d : Dev) (p : Nat) (ack grant : W32) : Dev :=
  let x := d.peer p
  let first := (x.frames.head?.map (·.1)).getD x.seq
  let k := if (ack - first).msb then 0 else (ack - first).toNat
  let d := d.modPeer p (fun x => { x with grant := grant })
  if x.frames.length < k then d.setBit (rlyReg 0x7C) 1 true
  else if k = 0 then d
  else ((d.modPeer p (fun x => { x with frames := x.frames.drop k, tries := 0, full := false })).stopResend p ((x.frames.take k).map (·.1))).relayMoves

/-- A peer goes down (R438, R443): its tokens are lost and counted. -/
def Dev.peerDown (d : Dev) (p : Nat) : Dev :=
  let x := d.peer p
  let d := (d.peerLost p (x.ring.filter (·.isTok)).length).stopResend p (x.frames.map (·.1))
  let d := d.modPeer p (fun x => { x with st := 0, q := [], frames := [], known := false, told := false, tries := 0, full := false })
  ((d.setBit (rlyReg (0x50 + 4 * (p / 32))) (p % 32) true).raiseFree 351 p).relayMoves

/-- The oldest frame has waited its timeout (R438 steps 6 and 7). (DEDUCED, log 58.) -/
def Dev.relayRto (d : Dev) (p : Nat) : Dev :=
  let x := d.peer p
  if x.st ≠ 2 ∨ x.frames.isEmpty then d
  else if max 1 (d.rfld (rlyReg 0x10) 31 24) ≤ x.tries + 1 then d.peerDown p
  else (d.modPeer p (fun x => { x with tries := x.tries + 1 })).goBack p

/-- An ACK frame of a session that is up (R438 step 5). -/
def Dev.relayAckTimer (d : Dev) (p : Nat) : Dev :=
  let x := d.peer p
  if x.st = 2 then d.relaySend p 1 0 [] else d

/-! ### Receiving -/

/-- The oldest received frame, if it is of a kind. -/
def Dev.relayFront (d : Dev) (kind : Nat) : Option (RelayRx × Dev) :=
  match d.rly.rx with
  | f :: fs => if be f.bytes 0 1 = 16 + kind then some (f, d.modRly (fun r => { r with rx := fs })) else none
  | [] => none

/-- Reserved header fields of a relay frame are zero and its records are within their limit (R433, R443). -/
def relayHdrOk (bs : List Byte) (limit : Nat) : Bool :=
  be bs 1 1 == 0 && be bs 2 2 < 0x4000 && be bs 24 4 == 0 && decide (be bs 6 2 ≤ limit ∧ 28 + 32 * be bs 6 2 ≤ bs.length)

/-- An enabled peer whose session is not up sends a SYNC (R436). -/
def Dev.syncTimer (d : Dev) (p : Nat) : Dev :=
  let c := d.peerCfg p
  if c.getLsbD 31 && decide ((d.peer p).st ≤ 1) && d.subUp (peerPort c) (peerSub c) then (d.modPeer p (fun x => { x with st := 1 })).relaySync p else d

/-- A received SYNC (R436). The peer has accepted this device's SYNC when it names its DEV (DEDUCED). (DEDUCED, log 58.) -/
def Dev.syncFrame (d : Dev) : Dev :=
  match d.relayFront 3 with
  | none => d
  | some (f, d) =>
    let bs := f.bytes
    let p := f.peer
    let src := be bs 2 2
    let rec_ := (bs.drop 28).take 32
    if !relayHdrOk bs 1 || be bs 6 2 != 1 || be rec_ 25 1 != 2 || be rec_ 26 6 != 0 || be rec_ 12 13 != 0 then d
    else if be bs 20 4 ≠ (d.reg (rlyReg 4)).toNat ∨ src = d.devNo.toNat then (d.setBit (rlyReg 0x7C) 2 true).raiseFree 354 p
    else
      let x := d.peer p
      let up := decide (2 ≤ x.st)
      let mine := be bs 4 2 == d.devNo.toNat
      let d := if up then ((d.peerLost p (x.ring.filter (·.isTok)).length).stopResend p (x.frames.map (·.1))).raiseFree 352 p else d
      let d := d.modPeer p (fun x => { x with
        st := if mine then 2 else 1
        dev := BitVec.ofNat 14 src
        known := true
        rq := be rec_ 0 4
        q := if up then [] else x.q
        frames := []
        seq := 0
        expect := BitVec.ofNat 32 (be rec_ 8 4)
        sent := 0
        grant := 0
        taken := 0
        nak := false
        tries := 0
        full := false
        rx := x.rx.map (fun r => (r.1, false)) })
      (if !mine || !(d.peer p).told then d.relaySync p else d).relayMoves

/-- An imported horizon (R442). (DEDUCED, log 59.) -/
def Dev.importHz (d : Dev) (dev : BitVec 14) (g k e : BitVec 8) : Dev :=
  (List.range 64).foldl (fun d i =>
    let l := d.reg (banked (rlyReg 0x74) i)
    let r := d.reg (banked (rlyReg 0x78) i)
    if l.getLsbD 31 && l.getLsbD 30 && fld r 25 12 == dev.toNat && fld r 11 8 == g.toNat && fld r 7 0 == k.toNat then
      let x := fld l 11 8
      d.sendMgmt rlyNode { die := BitVec.ofNat 3 (x / 4), rgn := BitVec.ofNat 2 (x % 4), tile := 31, unit := 4 }
        (.importHz (BitVec.ofNat 8 (fld l 7 0)) (BitVec.ofNat 8 i) e)
    else d) d

/-- A received DATA frame (R438 steps 3 and 4). (DEDUCED, log 58.) -/
def Dev.dataFrame (d : Dev) : Dev :=
  match d.relayFront 0 with
  | none => d
  | some (f, d) =>
    let p := f.peer
    let x := d.peer p
    if x.st ≠ 2 ∨ !relayHdrOk f.bytes (d.frameRecs p) then d
    else
      match recsOf f.bytes (be f.bytes 6 2) with
      | none => d
      | some rs =>
        if be f.bytes 8 4 ≠ x.expect.toNat then (if x.nak then d else (d.modPeer p (fun x => { x with nak := true })).relaySend p 2 0 [])
        else
          let toks := rs.filterMap (fun r => match r with | .token t => some (t, true) | _ => none)
          let d := d.modPeer p (fun x => { x with expect := x.expect + 1, nak := false, rx := x.rx ++ toks })
          let d := rs.foldl (fun d r => match r with | .horizon g k e => d.importHz x.dev g k e | _ => d) d
          d.relayAck p (BitVec.ofNat 32 (be f.bytes 12 4)) (BitVec.ofNat 32 (be f.bytes 16 4))

/-- A received ACK (kind 1) or NAK (kind 2); a NAK makes the sender go back. -/
def Dev.ackFrame (d : Dev) (kind : Nat) : Dev :=
  match d.relayFront kind with
  | none => d
  | some (f, d) =>
    if (d.peer f.peer).st ≠ 2 ∨ !relayHdrOk f.bytes 0 ∨ be f.bytes 8 4 ≠ 0 then d
    else
      let d := d.relayAck f.peer (BitVec.ofNat 32 (be f.bytes 12 4)) (BitVec.ofNat 32 (be f.bytes 16 4))
      if kind = 2 then d.goBack f.peer else d

/-! ### Delivery of records (R439) -/

/-- Tokens for region `g` that wait in the hub fabric or in a hub block's link. -/
def Dev.hubQueued (d : Dev) (g : Nat) : Nat :=
  ((d.net.links.filter (fun c => c.1 / 8192 == 292 || 6656 ≤ c.1 / 8192)).map (fun c => (c.2.q.filter (fun f =>
    f.idx == 0 && Packet.lane f.pkt == 0 && regionOf f.pkt.dest.die.toNat f.pkt.dest.rgn.toNat == g)).length)).foldl (· + ·) 0

/-- The hub's partition has a credit for a token's destination region that no token ahead of it in the hub takes (R213). (DEDUCED, log 95.) -/
def Dev.hubCredit (d : Dev) (t : Token) : Bool :=
  let g := regionOf t.tag.die.toNat t.tag.rgn.toNat
  decide (16 ≤ g) || decide (mget 0 d.net.e2e (16 * 64 + g) + d.hubQueued g < 64)

/-- Tokens of the side lists whose region has a credit leave. (DEDUCED, log 59.) -/
def Dev.sideLists (d : Dev) : Dev :=
  (List.range 16).foldl (fun d g =>
    match mget [] d.rly.side g with
    | [] => d
    | t :: ts => if d.hubCredit t then (d.modRly (fun r => { r with side := mset [] r.side g ts })).blockSend rlyNode t else d) d

/-- Take the oldest record of a receive ring. -/
def Dev.recTaken (d : Dev) (p : Nat) : Dev :=
  d.modPeer p (fun x => match x.rx with | [] => x | r :: rs => { x with rx := rs, taken := if r.2 then x.taken + 1 else x.taken })

/-- The oldest record of a session's receive ring leaves it. -/
def Dev.recordOut (d : Dev) (p : Nat) : Dev :=
  match (d.peer p).rx with
  | [] => d
  | (t, _) :: _ =>
    if !Tag.crcOk t.tag then (d.recTaken p).raiseFree 355 p
    else if t.tag.dev = d.devNo then
      let g := regionOf t.tag.die.toNat t.tag.rgn.toNat
      let side := mget [] d.rly.side g
      if d.hubCredit t && side.isEmpty then (d.recTaken p).blockSend rlyNode t
      else if side.length < 64 then (d.recTaken p).modRly (fun r => { r with side := mset [] r.side g (side ++ [t]) })
      else d
    else match d.relayRoute t with
      | .ok d => d.recTaken p
      | .error d => d

/-- RELAY_RECORD_DELIVER: the side lists first, then the ring's oldest record. -/
def Dev.recordDeliver (d : Dev) (p : Nat) : Dev := d.sideLists.recordOut p

/-! ### Horizons to other devices (R442) -/

/-- The transmit rings that a local hurdle's horizon goes to have room (R439, R442). (DEDUCED, log 59.) -/
def Dev.exportRoom (d : Dev) (g k : BitVec 8) : Bool :=
  (List.range 64).all (fun i =>
    let l := d.reg (banked (rlyReg 0x74) i)
    if l.getLsbD 31 && !l.getLsbD 30 && fld l 11 8 == g.toNat && fld l 7 0 == k.toNat then
      match d.routeOf (d.rfld (banked (rlyReg 0x78) i) 25 12) with
      | some p => decide ((d.peer p).st < 2) || decide ((d.peer p).ring.length + 64 ≤ d.ringRecs)
      | none => true
    else true)

/-- A local hurdle's horizon goes out for each export entry that names it. (DEDUCED, log 59.) -/
def Dev.exportHz (d : Dev) (g k e : BitVec 8) : Dev :=
  (List.range 64).foldl (fun d i =>
    let l := d.reg (banked (rlyReg 0x74) i)
    if l.getLsbD 31 && !l.getLsbD 30 && fld l 11 8 == g.toNat && fld l 7 0 == k.toNat then
      match d.routeOf (d.rfld (banked (rlyReg 0x78) i) 25 12) with
      | some p => if 2 ≤ (d.peer p).st then d.modPeer p (fun x => { x with q := x.q ++ [.horizon g k e] }) else d
      | none => d
    else d) d

/-! ### Links of the subports (R421, R443, R444) -/

/-- Sessions of a subport are suspended, or resume and resend. -/
def Dev.relayLink (d : Dev) (p sub : Nat) (up : Bool) : Dev :=
  (d.rly.peers.map (·.1)).foldl (fun d n =>
    let c := d.peerCfg n
    if peerPort c ≠ p ∨ peerSub c ≠ sub then d
    else if up && (d.peer n).st == 3 then (d.modPeer n (fun x => { x with st := 2 })).goBack n
    else if !up && (d.peer n).st == 2 then d.modPeer n (fun x => { x with st := 3 })
    else d) d

/-- A subport's link comes up or drops. -/
def Dev.subLink (d : Dev) (p sub : Nat) (up : Bool) : Dev :=
  let may := decide (sub < subports (d.rfld (ethReg p 0) 2 0)) && d.domOn (37 + p) && d.islands.contains (301 + p) && !d.rbit (rstReg 0xC) (12 + p)
  if up = d.subUp p sub ∨ (up && !may) then d
  else
    let d := d.setBit (ethReg p 4) sub up
    let d := if up then d else d.setBit (ethReg p 4) (4 + sub) true
    ((d.raiseFree (336 + 4 * p + sub) 0).relayLink p sub up).ethKick p

def Dev.portDown (d : Dev) (p : Nat) : Dev := (List.range 4).foldl (fun d s => d.subLink p s false) d

/-- A write of ETH.MODE (R421, R445): MODE 6 and 7 and FEC25 3 are ignored; a change of mode retrains the port. -/
def Dev.ethMode (d : Dev) (p : Nat) (v : W32) : Dev :=
  let old := d.rfld (ethReg p 0) 2 0
  let m := if 6 ≤ fld v 2 0 then old else fld v 2 0
  let d := if m = old then d else d.portDown p
  let d := if fld v 5 4 = 3 then d else d.setFld (ethReg p 0) 5 4 (fld v 5 4)
  (d.setFld (ethReg p 0) 3 3 (fld v 3 3)).setFld (ethReg p 0) 2 0 m

/-! ### Commands -/

def execRelayTokenEnqueue (s : State) : Host.Outcome State Fault Refusal := .next { s with dev := s.dev.relayEnqueue }
def execRelayFrameClose (p : BitVec 8) (s : State) : Host.Outcome State Fault Refusal := .next { s with dev := s.dev.frameClose p.toNat }
def execSyncTimer (p : BitVec 8) (s : State) : Host.Outcome State Fault Refusal := .next { s with dev := s.dev.syncTimer p.toNat }
def execSync (s : State) : Host.Outcome State Fault Refusal := .next { s with dev := s.dev.syncFrame }
def execRelayData (s : State) : Host.Outcome State Fault Refusal := .next { s with dev := s.dev.dataFrame }
def execRelayRecordDeliver (p : BitVec 8) (s : State) : Host.Outcome State Fault Refusal := .next { s with dev := s.dev.recordDeliver p.toNat }
def execAck (s : State) : Host.Outcome State Fault Refusal := .next { s with dev := s.dev.ackFrame 1 }
def execNak (s : State) : Host.Outcome State Fault Refusal := .next { s with dev := s.dev.ackFrame 2 }
def execRelayAckTimer (p : BitVec 8) (s : State) : Host.Outcome State Fault Refusal := .next { s with dev := s.dev.relayAckTimer p.toNat }
def execRelayRto (p : BitVec 8) (s : State) : Host.Outcome State Fault Refusal := .next { s with dev := s.dev.relayRto p.toNat }
def execRelayHoldExpiry (p : BitVec 8) (s : State) : Host.Outcome State Fault Refusal :=
  .next { s with dev := if (s.dev.peer p.toNat).st = 3 then s.dev.peerDown p.toNat else s.dev }
def execRlyRouteWrite (v : W32) (s : State) : Host.Outcome State Fault Refusal :=
  .next { s with dev := s.dev.writes (rlyReg 0x48) (s.dev.routeWrite v) }
def execEthModeWrite (p : Fin 2) (v : W32) (s : State) : Host.Outcome State Fault Refusal :=
  .next { s with dev := s.dev.writes (ethReg p 0) (s.dev.ethMode p v) }
def execSubportLinkChange (p : Fin 2) (sub : Fin 4) (up : Bool) (s : State) : Host.Outcome State Fault Refusal :=
  .next { s with dev := s.dev.subLink p sub up }

end Sys2Proof.Machine
end

