-- ==== Sys2Proof/Machine/Streams.lean ====
section
/-!
DEFINITION. Sensor segments, streams and the call room (13_sensor_segments_streams.md): the classifier, the flow table and bindings, delivery of
samples, streams that go, and the call room's exchanges.
-/
namespace Sys2Proof.Machine

def ingNode : Node := .hubUnit 1
def ingStatus : Nat := ingReg 0x30
def Dev.modIng (d : Dev) (f : Ing → Ing) : Dev := { d with ing := f d.ing }
def Dev.str (d : Dev) (k : Nat) : Stream := mget {} d.ing.streams k
def Dev.modStr (d : Dev) (k : Nat) (f : Stream → Stream) : Dev := d.modIng (fun i => { i with streams := mmod {} i.streams k f })
def Dev.badPkt (d : Dev) : Dev := d.setBit ingStatus 3 true

/-! ### Segments (R399, R400) -/

/-- A segment runs: enabled, powered and out of reset. -/
def Dev.segOn (d : Dev) (s : Nat) : Bool := d.rbit (segReg s 0) 31 && d.domOn 42 && !d.rbit (rstReg 0xC) 5

/-- A frame goes to a segment's receive ring; a slot is free until RX_TAIL stands just after RX_HEAD. (DESIGN CHOICE, log 56.) -/
def Dev.segRing (d : Dev) (s : Nat) (bs : List Byte) : Dev :=
  let n := 16 * 2 ^ min 8 (d.rfld (segReg s 0x18) 3 0)
  let h := d.rfld (segReg s 0x1C) 15 0
  if (h + 1) % n = d.rfld (segReg s 0x20) 15 0 % n then (d.setBit (segReg s 8) 3 true).raiseFree (520 + s) 0
  else
    let a := d.pair (segReg s 0x10) / (n * 2048) * (n * 2048) + h % n * 2048
    let d := (d.write a (leBytes 4 bs.length ++ bs)).setFld (segReg s 0x1C) 15 0 ((h + 1) % n)
    let c := mget 0 d.ing.segN s + 1
    if c < max 1 (d.rfld (segReg s 0x18) 15 8) then d.modIng (fun i => { i with segN := mset 0 i.segN s c })
    else { d.modIng (fun i => { i with segN := mset 0 i.segN s 0 }) with pulses := d.pulses ++ [(3, s, 0)] }

/-! ### Classification (R408 to R410, R467) -/

/-- A quiesce rule is present. -/
def Dev.quiet (d : Dev) (kind v : Nat) : Bool := d.ing.quiesce.any (· == some (kind, BitVec.ofNat 64 v))

/-- The bound slot of a stream. -/
def Dev.boundSlot (d : Dev) (p : Stream → Bool) : Option Nat := (d.ing.streams.find? (fun c => p c.2)).map (·.1)

/-- SOURCE and STREAM of a bound stream's entry. -/
def Stream.source (x : Stream) : W64 := x.ent.getD 1 0 ++ x.ent.getD 2 0
def Stream.id (x : Stream) : Nat := fld (x.ent.getD 0 0) 15 0

/-- A packet of the stream transport (R403, R408): what it does at the classifier. -/
def Dev.classifyStream (d : Dev) (origin : Nat) (h : List Byte) : Dev :=
  let kind := be h 0 1 % 16
  let len := be h 2 2
  let src := be h 4 8
  let id := be h 12 2
  if h.length < 32 ∨ be h 0 1 / 16 ≠ 1 ∨ !(kind == 0 || kind == 1 || kind == 3 || kind == 4) ∨ h.length < 32 + len then d.badPkt
  else if d.quiet 0 src then d
  else if kind = 0 then
    let mine := d.boundSlot (fun x => x.source.toNat == src && x.id == id)
    if (mine.map (fun k => d.quiet 1 (d.str k).flow)).getD false then d
    else
      let p : StrPkt := { source := BitVec.ofNat 64 src, stream := id, gone := be h 1 1 % 2 == 1, resync := be h 1 1 / 2 % 2 == 1, len := len
                          index := be h 16 8, fmt := be h 24 1 % 16, rate := be h 25 1, nsamp := be h 26 2, sstat := be h 28 1
                          body := (h.drop 32).take len }
      d.modIng (fun i => { i with data := i.data ++ [p] })
  else
    let size := (d.ing.cr.map (fun c => c.bytes.length)).foldl (· + ·) 0
    if 1024 ≤ d.ing.cr.length ∨ 65536 < size + 32 + len then d.setBit ingStatus 0 true
    else d.modIng (fun i => { i with cr := i.cr ++ [{ origin := origin, bytes := h.take (32 + len) }] })

/-- The peer that a relay frame comes from: its subport and its MAC address. -/
def Dev.relayFrom (d : Dev) (p sub mac : Nat) : Option Nat :=
  (List.range 256).find? (fun n => let c := d.peerCfg n; c.getLsbD 31 && peerPort c == p && peerSub c == sub && d.peerMac n == mac)

/-- A relay frame reaches the relay block (R432, R433). -/
def Dev.classifyRelay (d : Dev) (p : Nat) (f : RxFrame) : Dev :=
  let h := f.bytes.drop (etherOff f.bytes + 2)
  match d.relayFrom p f.sub (be f.bytes 6 6) with
  | none => d
  | some n =>
    if d.rbit (rstReg 0xC) 2 || d.quiet 4 n || h.length < 28 || be h 0 1 / 16 != 1 || 3 < be h 0 1 % 16 then d
    else d.modRly (fun r => { r with rx := r.rx ++ [{ peer := n, bytes := h }] })

/-- The command interpreter takes packets: the pair and the block are out of reset, and firmware or the ROM in warm-up mode serves it (R485, R513,
R520). -/
def Dev.fcpServed (d : Dev) : Bool := d.stew.on && (d.rbit (bootReg 4) 0 || d.rbit (bootReg 8) 7) && !d.rbit (rstReg 0xC) 3

/-- The classifier (R408): the first row that matches. Origin 0 and 1 are the ports, 8 + s the segments. (DESIGN CHOICE, log 60.) -/
def Dev.classify (d : Dev) (origin : Nat) (f : RxFrame) : Dev :=
  let bs := f.bytes
  let seg := decide (8 ≤ origin)
  let ptp := (ptpOff bs).isSome
  let other := fun (d : Dev) => if seg then d.segRing (origin - 8) bs else d.hostRing origin f
  match transport bs (d.rbit (cmdReg 0) 1) (d.rbit (cmdReg 0) 0) (d.rfld (cmdReg 4) 15 0) (d.rfld (cmdReg 8) 15 0) with
  | some (o, false) =>
    if !d.fcpServed || (seg && d.quiet 2 (origin - 8)) then d
    else { d with fcp := { d.fcp with rx := d.fcp.rx ++ [{ route := { port := origin, sub := f.sub, prio := f.prio, pre := bs.take o }, bytes := bs.drop o }] } }
  | _ =>
    if seg && !ptp && d.quiet 2 (origin - 8) then d
    else if !seg && !ptp && d.quiet 3 (4 * origin + f.sub) then d
    else if etherType bs == d.rfld (rlyReg 8) 15 0 then d.classifyRelay origin f
    else if ptp then other d
    else
      match transport bs (d.rbit (ingReg 0) 1) (d.rbit (ingReg 0) 0) (d.rfld (ingReg 4) 15 0) (d.rfld (ingReg 8) 15 0) with
      | some (_, true) => d.badPkt
      | some (o, false) => if d.rbit (rstReg 0xC) 1 then d else d.classifyStream origin (bs.drop o)
      | none => other d

/-- FRAME_CLASSIFY: the oldest frame of a port, or a frame that a segment receives (R400, R419). -/
def Dev.frameClassify (d : Dev) : FrameFrom → Dev
  | .port p =>
    (match (d.ethPort p).rx with
     | [] => d
     | f :: fs => (d.modEth p (fun x => { x with rx := fs })).classify p f)
  | .segment s bs fcs jabber =>
    if !d.segOn s then d
    else
      let d := if jabber then d.setBit (segReg s 8) 1 true else d
      if fcs then d.classify (8 + s) { bytes := bs, ts := d.time } else d.setBit (segReg s 8) 4 true

/-! ### The flow table (R411, R412) -/

def Dev.ftAddr (d : Dev) (flow : Nat) : Nat := d.pair (ingReg 0xC) / 0x4000000 * 0x4000000 + flow * 64
def Dev.ftWord (d : Dev) (flow i : Nat) : W32 := BitVec.ofNat 32 (d.readLe (d.ftAddr flow + 4 * i) 4)
def Dev.ftEntry (d : Dev) (flow : Nat) : List W32 := (List.range 16).map (d.ftWord flow)
def Dev.ftStore (d : Dev) (flow : Nat) (ws : List W32) : Dev := d.write (d.ftAddr flow) (ws.flatMap (fun w => leBytes 4 w.toNat))

/-- Samples of a block and of the ring of an entry. -/
def entB (ws : List W32) : Nat := 16 * 2 ^ fld (ws.getD 3 0) 23 20
def entS (ws : List W32) : Nat := 1024 * 2 ^ fld (ws.getD 3 0) 19 16

/-- An entry may be written (R411): reserved bits and codes are zero, the ring holds two blocks, a bank C ring stays in its bank. RATE 0 is legal where VALID is 0, so
that zeros clear an entry. (DESIGN CHOICE, log 60.) -/
def entOk (ws : List W32) : Bool :=
  let w := fun i => ws.getD i 0
  let masks : List W32 := [0xFC00FFFF, 0xFFFFFFFF, 0xFFFFFFFF, 0xFFFFFFFF, 0xFF00FFFF, 0x0FFFFFFF, 0x0FFFFFFF, 0xFFFFFFFF, 0xFFFFFF01]
  (List.range 16).all (fun i => w i &&& ~~~(masks.getD i 0) == 0) &&
  fld (w 0) 30 29 != 3 && fld (w 3) 31 28 ≤ 3 && (2 ≤ fld (w 3) 27 24 || (fld (w 3) 27 24 == 0 && !(w 0).getLsbD 31)) && fld (w 3) 27 24 ≤ 9 && fld (w 3) 23 20 ≤ 8 && fld (w 3) 19 16 ≤ 6 &&
  fld (w 3) 13 12 ≤ 2 && fld (w 3) 11 8 ≤ 14 && !(fld (w 3) 31 28 == 3 && (w 3).getLsbD 14) && 2 * entB ws ≤ entS ws &&
  (!(w 3).getLsbD 15 || decide (fld (w 4) 15 0 + entS ws ≤ 65536))

def Dev.flowBound (d : Dev) (flow : Nat) : Bool := (d.boundSlot (fun x => x.flow == flow)).isSome

/-- FT_CTRL.WRITE. -/
def Dev.ftWrite (d : Dev) : Dev :=
  let flow := d.rfld (ingReg 0x50) 19 0
  let ws := (List.range 16).map (fun i => d.reg (ingReg (0x60 + 4 * i)))
  if !entOk ws || d.flowBound flow then d.setBit (ingReg 0xA0) 2 true else d.ftStore flow ws

/-- FT_CTRL.READ. -/
def Dev.ftRead (d : Dev) : Dev :=
  let flow := d.rfld (ingReg 0x50) 19 0
  (List.range 16).foldl (fun d i => d.setReg (ingReg (0x60 + 4 * i)) (d.ftWord flow i)) d

/-- The flows whose entries are VALID: the table's bytes that hold a VALID bit. -/
def Dev.validFlows (d : Dev) : List Nat :=
  let b := d.ftAddr 0
  (d.mem.filter (fun c => decide (b ≤ c.1 ∧ c.1 < b + 0x4000000 ∧ (c.1 - b) % 64 = 3) && c.2.getLsbD 7)).map (fun c => (c.1 - b) / 64)

/-- Free entries of the call room's range (ING.FREE). -/
def Dev.freeFlows (d : Dev) : Nat :=
  let lo := d.rfld (ingReg 0x1C) 19 0
  let hi := d.rfld (ingReg 0x20) 19 0
  if hi < lo then 0 else hi + 1 - lo - (d.validFlows.filter (fun f => decide (lo ≤ f ∧ f ≤ hi))).length - (if lo = 0 then 1 else 0)

/-- The lowest number from `n` on that a rising list lacks. -/
def lowestFree : List Nat → Nat → Nat
  | [], n => n
  | x :: xs, n => if x < n then lowestFree xs n else if x = n then lowestFree xs (n + 1) else n

/-! ### Bindings (R413) -/

/-- Bind a stream: the status CODE of R413. A malformed key is found first. (DESIGN CHOICE, log 60.) -/
def Dev.bindStream (d : Dev) (key : W64) (graph : BitVec 12) (ctx : BitVec 22) : Nat × Dev :=
  let flow := fld key 19 0
  let hen := key.getLsbD 20
  let g := fld key 24 21
  let slot := fld key 32 25
  if fld key 63 33 ≠ 0 ∨ (hen && ((d.region g).hurdles.find? (fun c => c.1 == slot)).isNone) then (0xA04, d)
  else if flow = 0 ∨ !(d.ftWord flow 0).getLsbD 31 then (0xA01, d)
  else
    match d.ing.streams.find? (fun c => c.2.flow == flow) with
    | some (_, x) => (if x.graph = graph ∧ x.ctx = ctx then 0 else 0xA02, d)
    | none =>
      let k := lowestFree (d.ing.streams.map (·.1)) 0
      if 65536 ≤ k then (0xA03, d.setBit ingStatus 4 true)
      else
        let st : Stream := { flow := flow, graph := graph, ctx := ctx, ent := d.ftEntry flow, hur := if hen then some (g, slot) else none }
        let d := d.modIng (fun i => { i with streams := mput i.streams k st })
        let d := if hen then d.modRegion g (fun r => { r with hurdles := mmod {} r.hurdles slot (fun h => { h with streams := h.streams ++ [flow] }) }) else d
        (0, d)

/-- A BIND request reaches ingest (R123, R413). -/
def Dev.bindRequest (d : Dev) : Dev :=
  match d.takeTok ingNode (fun _ => true) with
  | none => d
  | some (q, t, d) =>
    match d.blockTag ingNode t (infieldIs t.tag 0 2 0) with
    | (none, d) => d.ioAnswer q.src none
    | (some t, d) =>
      let (c, d) := d.bindStream t.pay t.tag.graph t.tag.ctx
      d.ioAnswer q.src (some ((status c originBlock (fld t.pay 19 0)).toNat, 6, c != 0))

/-- End a binding (R417, R418); responses to its ring writes that are still to come are dropped. -/
def Dev.unbind (d : Dev) (k : Nat) : Dev :=
  let x := d.str k
  let d := match x.hur with
    | some (g, slot) => d.modRegion g (fun r => { r with hurdles := mmod {} r.hurdles slot (fun h => { h with streams := h.streams.filter (· != x.flow) }) })
    | none => d
  d.modIng (fun i => { i with streams := mdel i.streams k, late := i.late ++ x.writes.map (·.1) })

/-! ### Tokens of a stream (R414 to R417) -/

def strMark (k : Nat) : Nat := 2 ^ 26 + 64 + k
def Stream.cfg (x : Stream) : W32 := x.ent.getD 3 0
def Stream.b (x : Stream) : Nat := entB x.ent
def Stream.s (x : Stream) : Nat := entS x.ent
def Stream.dsts (x : Stream) : List Nat := List.range (fld x.cfg 13 12)

/-- Epoch of block `j` (R416). -/
def Stream.epochOf (x : Stream) (j : Nat) : BitVec 8 :=
  let w := x.ent.getD 8 0
  BitVec.ofNat 8 ((if fld w 31 16 = 0 then 0 else j / fld w 31 16) + fld w 15 8)

/-- Epoch of the next sample. -/
def Stream.epoch (x : Stream) : BitVec 8 := x.epochOf (x.next.getD 0 / x.b)

/-- Send one token to destination `i` of a stream, journalled for a member of a group. -/
def Dev.strSend (d : Dev) (k i : Nat) (e : BitVec 8) (pay : W64) (ty : Byte) : Dev :=
  let x := d.str k
  let tag : Tag := { dev := d.devNo, graph := x.graph, ctx := x.ctx, flow := BitVec.ofNat 20 x.flow, prio := BitVec.ofNat 4 (fld x.cfg 11 8), epoch := e }
  let t : Token := { tag := Tag.seal (Tag.to tag (DstF.ofBits ((x.ent.getD (5 + i) 0).extractLsb' 0 29))), pay := pay, ty := ty }
  d.blockSend ingNode t (strMark k)

def Dev.strStat (d : Dev) (k code detail : Nat) (e : BitVec 8) : Dev :=
  (d.str k).dsts.foldl (fun d i => d.strSend k i e (status code originBlock detail) (tyByte 6 false false false)) d

/-- Room for a token to each destination: a stream queues up to 8 (R416). -/
def Dev.strRoom (d : Dev) (k : Nat) : Bool :=
  decide (d.marked ⟨ingNode, .hub⟩ (strMark k) + (d.str k).dsts.length ≤ 8)

def Dev.strGap (d : Dev) (k : Nat) : Dev :=
  let x := d.str k
  if x.gap = 0 then d else (d.modStr k (fun x => { x with gap := 0 })).strStat k stSAMPLE_GAP (min x.gap (2 ^ 32 - 1)) x.epoch

def Dev.strEmit (d : Dev) (k n : Nat) (e : BitVec 8) (pay : W64) (ty : Byte) : Dev :=
  if (d.str k).full || !d.strRoom k then d.modStr k (fun x => { x with full := true, gap := x.gap + n })
  else (d.str k).dsts.foldl (fun d i => (d.strSend k i e pay ty).modStr k (fun x => { x with sent := mmod 0 x.sent (2 * e.toNat + i) (· + 1) })) (d.strGap k)

def Dev.strResume (d : Dev) (k : Nat) : Dev :=
  if (d.str k).full && d.strRoom k then (d.modStr k (fun x => { x with full := false })).strGap k else d

/-- The gap is announced ahead of what is sent next, unless the queue is full (R374, R414). -/
def Dev.strGapNow (d : Dev) (k : Nat) : Dev := if (d.str k).full then d else d.strGap k

/-- The EPOCH_CLOSE of an epoch to each destination, with the value tokens sent there. -/
def Dev.strClose (d : Dev) (k : Nat) (e : BitVec 8) : Dev :=
  let d := d.strGapNow k
  let d := (d.str k).dsts.foldl (fun d i =>
    d.strSend k i e (status stEPOCH_CLOSE originBlock (mget 0 (d.str k).sent (2 * e.toNat + i) % 65536)) (tyByte 6 false false false)) d
  d.modStr k (fun x => { x with sent := mclear x.sent (fun n => n / 2 == e.toNat) })

/-- The horizon of the hurdle of the stream's key; before any is received, the hurdle's own. (DEDUCED, log 50.) -/
def Dev.strHolds (d : Dev) (k : Nat) (e : BitVec 8) : Bool :=
  let x := d.str k
  match x.hur with
  | none => false
  | some (g, slot) =>
    match x.hz with
    | some h => newer e h
    | none => (match (d.region g).hurdles.find? (fun c => c.1 == slot) with
      | some (_, h) => newer e (h.e + BitVec.ofNat 8 h.ahead)
      | none => false)

/-- A block of epoch `e`, counted from index 0, is announced: with CLOSE the epochs left before it are closed in order, at most 256 of them, and after a restart at an
earlier index the one left (R375, R416). (DESIGN CHOICE, log 60.) -/
def Dev.strEpochs (d : Dev) (k e : Nat) : Dev :=
  let x := d.str k
  let w := x.ent.getD 8 0
  if fld w 31 16 = 0 ∨ !w.getLsbD 0 then d
  else
    let close := fun (d : Dev) (n : Nat) => d.strClose k (BitVec.ofNat 8 (n + fld w 15 8))
    let d := match x.ep with
      | none => d
      | some c => if e < c then close d c else (List.range (min (e - c) 256)).foldl (fun d i => close d (c + i)) d
    d.modStr k (fun x => { x with ep := some e })

/-- What a completed block does (R416): the pulse, the block or frame token, the close of its epoch; a block with a refused write, or that the ring overwrote while
it was held, is a gap (R375, R418). (DESIGN CHOICE, log 60.) -/
def Dev.strBlockEnd (d : Dev) (k : Nat) (b : AfeBlk) : Dev :=
  let len := fld ((d.str k).ent.getD 8 0) 31 16
  let d := d.strEpochs k (b.j / len)
  let x := d.str k
  let d :=
    if b.bad || b.gone then d.modStr k (fun x => { x with gap := x.gap + x.b })
    else
      let d := if x.cfg.getLsbD 6 then { d with pulses := d.pulses ++ [(1, fld x.cfg 5 0, 0)] } else d
      if !x.cfg.getLsbD 7 then d
      else if !x.cfg.getLsbD 15 then d.strEmit k x.b b.e (BitVec.ofNat 64 (b.j * x.b)) (tyByte 1 false false false)
      else
        let w4 := x.ent.getD 4 0
        let off := fld w4 15 0 + b.j * x.b % x.s
        let pay := fld w4 31 24 * 2 ^ 56 + 2 * 2 ^ 54 + off * 2 ^ 38 + (x.b - 1) * 2 ^ 22 + (if x.cfg.getLsbD 14 then 4 else 0) * 2 ^ 18 + b.j % 2 ^ 17
        d.strEmit k x.b b.e (BitVec.ofNat 64 pay) (tyByte 5 false false false)
  if len ≠ 0 ∧ (b.j + 1) % len = 0 then d.strEpochs k (b.j / len + 1) else d

/-- Announce what the oldest blocks have ready and the horizon permits. -/
def Dev.strFlush (d : Dev) (k : Nat) : Nat → Dev
  | 0 => d
  | fuel + 1 =>
    match (d.str k).blks with
    | [] => d
    | b :: bs =>
      if d.strHolds k b.e || !b.fin then d
      else ((d.modStr k (fun x => { x with blks := bs })).strBlockEnd k b).strFlush k fuel

/-- Held blocks beyond the ring's blocks less one are overwritten (R375, R416). -/
def Dev.strTrim (d : Dev) (k : Nat) : Dev :=
  d.modStr k (fun x => { x with blks := overwritten ((x.blks.filter (fun b => b.fin && !b.gone)).length - (x.s / x.b - 1)) x.blks })

/-- A stream that goes has announced its blocks: the close, SOURCE_RETIRE to each destination, and the end of the binding (R417). -/
def Dev.strEnd (d : Dev) (k : Nat) : Dev :=
  let x := d.str k
  if !x.going || !x.blks.isEmpty then d
  else
    let d := if (x.ent.getD 8 0).getLsbD 0 then d.strClose k x.epoch else d
    ((d.strGapNow k).strStat k stSOURCE_RETIRE 0 x.epoch).unbind k

def Dev.strPush (d : Dev) (k : Nat) : Dev := ((d.strFlush k ((d.str k).blks.length + 1)).strTrim k).strEnd k

/-! ### Samples (R414, R415) -/

/-- Write samples from index `n` on to the ring, in pieces that stay in a block; `fuel` bounds the pieces. -/
def Dev.strWrite (d : Dev) (k : Nat) : Nat → Nat → List Nat → Dev
  | 0, _, _ => d
  | _, _, [] => d
  | fuel + 1, n, ws =>
    let x := d.str k
    let pos := n % x.s
    let m := if pos % 64 = 0 ∧ 64 ≤ ws.length ∧ 64 ≤ x.b then 64 else if pos % 8 = 0 ∧ 8 ≤ ws.length then 8 else 1
    let now := ws.take m
    let j := n / x.b
    let w4 := x.ent.getD 4 0
    let a := if x.cfg.getLsbD 15 then bankAddr (fld w4 31 24) 2 (4 * (fld w4 15 0 + pos))
      else d.pair (ingReg 0x14) / 0x400000000 * 0x400000000 + k * 0x40000 + 4 * pos
    let tag := d.ing.wtag % 4096
    let data := now.flatMap (leBytes 4)
    let last := (n + m) % x.b == 0
    let (bs, no) := blkAdd x.blks j d.ing.wtag (x.epochOf j) [] last
    let d := (d.modIng (fun i => { i with wtag := i.wtag + 1 })).modStr k (fun (x : Stream) => { x with
      next := some (n + m), writes := x.writes ++ [(tag, no, last)], blks := bs })
    let r : MemReq := { op := 1, size := if m = 64 then 6 else if m = 8 then 4 else 2, addr := BitVec.ofNat 48 a, req := { die := 4, unit := 1 }
                        rtag := BitVec.ofNat 12 tag, operand := BitVec.ofNat 64 (now.headD 0), data := if m = 1 then [] else data }
    (d.access ingNode 10000 0 0 r).strWrite k fuel (n + m) (ws.drop m)

/-- (DESIGN CHOICE, log 60.) -/
def Dev.strPut (d : Dev) (k n : Nat) (ws : List Nat) : Dev := d.strWrite k (ws.length + 1) n ws

/-- The fill value (R414). -/
def Stream.fill (x : Stream) : Nat := if x.cfg.getLsbD 14 then 0x80000000 else 0x7FC00000

/-- Write fill up to index `n`. -/
def Dev.strFill (d : Dev) (k n : Nat) : Dev :=
  let x := d.str k
  match x.next with
  | none => d
  | some a => d.strPut k a (List.replicate (n - a) x.fill)

/-- Complete a block already begun with fill. -/
def Dev.strFillBlock (d : Dev) (k : Nat) : Dev :=
  let x := d.str k
  match x.next with
  | none => d
  | some a => d.strFill k (cdiv a x.b * x.b)

def strElemSize (fmt : Nat) : Nat := match fmt with | 0 => 2 | 1 => 3 | _ => 4

/-- An element as the 32 bits written, rounded once (R415). -/
def elemBits (fmt : Nat) (int32 : Bool) (scale : W32) (v : Nat) : Nat :=
  if fmt = 3 then (fMul f32 0 true v scale.toNat).1
  else
    let w := 8 * strElemSize fmt
    let c : Int := if v < 2 ^ (w - 1) then v else (v : Int) - 2 ^ w
    if int32 then (c % 2 ^ 32).toNat else scaleBits c 1 1 scale

/-- The samples of a packet as written. -/
def Stream.samples (x : Stream) (p : StrPkt) : List Nat :=
  let z := strElemSize p.fmt
  (List.range p.nsamp).map (fun i => elemBits p.fmt (x.cfg.getLsbD 14) (x.ent.getD 7 0) (be p.body (i * z) z))

/-- The stream goes (R417): its begun block is filled; the rest follows when its blocks are announced. (DESIGN CHOICE, log 60.) -/
def Dev.strGo (d : Dev) (k : Nat) : Dev :=
  if (d.ing.streams.find? (fun c => c.1 == k)).isNone || (d.str k).going then d
  else ((d.strFillBlock k).modStr k (fun x => { x with going := true })).strPush k

/-- A packet of a bound stream whose format agrees: the first row of R414's table that applies. -/
def Dev.strPacket (d : Dev) (k : Nat) (p : StrPkt) : Dev :=
  let x := d.str k
  let ws := x.samples p
  let n := p.index
  let go := fun (d : Dev) => if p.gone then d.strGo k else d.strPush k
  match x.next with
  | none => go (d.strPut k n ws)
  | some a =>
    if p.resync then go ((d.strFillBlock k).strPut k n ws)
    else if n = a then go (d.strPut k n ws)
    else if a + x.s ≤ n then go (((d.strFillBlock k).modStr k (fun x => { x with gap := x.gap + (n - a) })).strPut k n ws)
    else if a < n then go (((d.strFill k n).modStr k (fun x => { x with gap := x.gap + (n - a) })).strPut k n ws)
    else if n + p.nsamp ≤ a then d.setBit ingStatus 1 true
    else go (d.strPut k a (ws.drop (a - n)))

/-- STREAM_DATA (R414). (DESIGN CHOICE, log 60.) -/
def Dev.streamData (d : Dev) : Dev :=
  match d.ing.data with
  | [] => d
  | p :: ps =>
    let d := d.modIng (fun i => { i with data := ps })
    match d.boundSlot (fun x => !x.going && x.source == p.source && x.id == p.stream) with
    | none => d.setBit ingStatus 2 true
    | some k =>
      let x := d.str k
      if p.fmt ≠ fld x.cfg 31 28 ∨ p.rate ≠ fld x.cfg 27 24 ∨ p.nsamp = 0 ∨ p.len ≠ p.nsamp * strElemSize p.fmt then d.badPkt
      else (if p.sstat % 8 ≠ 0 then d.raiseFree 650 x.flow else d).strPacket k p

/-- One ring write response of a stream. -/
def Dev.strWritten (d : Dev) (k : Nat) : Option (Bool × Dev) :=
  let ws := (d.str k).writes
  match d.takeResp ingNode (fun r => ws.any (fun w => w.1 == r.rtag.toNat)) with
  | none => none
  | some (r, d) =>
    match ws.find? (fun w => w.1 == r.rtag.toNat) with
    | none => none
    | some w =>
      some (w.2.2, d.modStr k (fun x => { x with writes := removeFirst (· == w) x.writes, blks := blkDone x.blks w.2.1 (r.status == 0) w.2.2 }))

/-- The responses to writes whose binding has ended are dropped; `fuel` bounds them. -/
def Dev.strDrop (d : Dev) : Nat → Dev
  | 0 => d
  | fuel + 1 =>
    match d.takeResp ingNode (fun r => d.ing.late.contains r.rtag.toNat) with
    | none => d
    | some (r, d) => (d.modIng (fun i => { i with late := removeFirst (· == r.rtag.toNat) i.late })).strDrop fuel

/-- STREAM_BLOCK_COMPLETE (R416): responses are taken until one completes a block. -/
def Dev.strComplete (d : Dev) (k : Nat) : Nat → Dev
  | 0 => d
  | fuel + 1 =>
    match d.strWritten k with
    | none => d
    | some (last, d) => if last then d.strPush k else d.strComplete k fuel

/-- A hurdle's horizon reaches the streams bound to it (R230, R416). -/
def Dev.ingHorizon (d : Dev) (g slot : Nat) (h : BitVec 8) : Dev :=
  (d.ing.streams.filter (fun c => c.2.hur == some (g, slot))).foldl (fun d c => (d.modStr c.1 (fun x => { x with hz := some h })).strPush c.1) d

/-! ### The call room (R401, R406, R407, R409, R412) -/

/-- A header of R403 for a call-room message from the device, with its body. -/
def crMessage (kind seq index : Nat) (body : List Byte) : List Byte :=
  [BitVec.ofNat 8 (16 + kind), 0] ++ beBytes 2 body.length ++ beBytes 8 Config.deviceEui.toNat ++ beBytes 2 0 ++ beBytes 2 seq ++ beBytes 8 index ++
    List.replicate 8 0 ++ body

/-- Send a frame on a port (subport 0) or a segment. -/
def Dev.crOut (d : Dev) (target prio mark : Nat) (bs : List Byte) : Dev :=
  if target < 2 then d.ethSend target 0 prio mark bs
  else if 8 ≤ target ∧ d.segOn (target - 8) then { d with wire := d.wire ++ [{ port := target, bytes := d.oneStep (bs ++ List.replicate (60 - bs.length) 0) }] }
  else d

/-- Send a call-room message; addresses that the spec does not give are free values. (DESIGN CHOICE, log 61.) -/
def Dev.crSend (d : Dev) (target : Nat) (dst : Option Nat) (m : List Byte) : Dev :=
  let (v, d) := d.free
  let (w, d) := d.free
  let src := if target < 2 then d.macOf target 0 else w.toNat % 2 ^ 48
  d.crOut target 0 0 (beBytes 6 (dst.getD (v.toNat % 2 ^ 48)) ++ beBytes 6 src ++ beBytes 2 (d.rfld (ingReg 4) 15 0) ++ m)

/-- The device's next packet number. -/
def Dev.crSeq (d : Dev) : Nat × Dev := (d.ing.seq % 65536, d.modIng (fun i => { i with seq := i.seq + 1 }))

/-- ROLLCALL on every segment and port. (DESIGN CHOICE, log 61.) -/
def Dev.rollcall (d : Dev) : Dev :=
  ([0, 1] ++ (List.range 8).map (8 + ·)).foldl (fun d t =>
    let (q, d) := d.crSeq
    let id := if t < 8 then 0 else d.rfld (segReg (t - 8) 0) 5 0 + 1
    d.crSend t (some (2 ^ 48 - 1)) (crMessage 5 q d.time.toNat [BitVec.ofNat 8 id, 0, 0, 0])) d

/-- Budget of a stream on a segment in bit/s as a fraction (R401), for raw untagged frames. -/
def budget (fmt rate nsamp : Nat) : Nat × Nat := (204800 * 8 * (max 64 (50 + nsamp * strElemSize fmt) + 20), 2 ^ rate * nsamp)

/-- A sum of fractions is within `k` kb/s. -/
def budgetOk (xs : List (Nat × Nat)) (k : Nat) : Bool :=
  let s := xs.foldl (fun (a : Nat × Nat) x => (a.1 * x.2 + x.1 * a.2, a.2 * x.2)) (0, 1)
  decide (s.1 ≤ k * 1000 * s.2)

/-- End a node's admission (R407, R417): its bound streams go, its PLCA ID is freed, its entries wait for their release. -/
def Dev.retireNode (d : Dev) (src : W64) : Dev :=
  match d.ing.nodes.find? (fun n => n.source == src) with
  | none => d
  | some n =>
    let d := d.modIng (fun i => { i with nodes := removeFirst (· == n) i.nodes, rel := i.rel ++ n.streams.map (·.flow) })
    let d := if n.plca = 0 then d else d.setBit (segReg (n.origin - 8) 0xC) (n.plca - 1) false
    n.streams.foldl (fun d x => match d.boundSlot (fun y => y.flow == x.flow) with | some k => d.strGo k | none => d) d

/-- Send RETIRE to a node. -/
def Dev.sendRetire (d : Dev) (target reason : Nat) : Dev :=
  let (q, d) := d.crSeq
  d.crSend target none (crMessage 4 q 0 [BitVec.ofNat 8 reason])

/-- Admit one stream of a node: its RESULT, and the admission (R407, R412). `tmpl` is the entry firmware chose, empty where its policy refuses. -/
def Dev.admitStream (d : Dev) (src : W64) (origin : Nat) (got : List CrStream) (id fmt rate nsamp : Nat) (tmpl : List W32) : Nat × Option CrStream × Dev :=
  let o := if origin < 2 then origin * 2 ^ 29 else 2 * 2 ^ 29 + (origin - 8) * 2 ^ 26
  let ws : List W32 := (List.range 16).map (fun i =>
    match i with
    | 0 => BitVec.ofNat 32 (2 ^ 31 + o + id)
    | 1 => src.extractLsb' 32 32
    | 2 => src.extractLsb' 0 32
    | 3 => putFld (putFld (tmpl.getD 3 0) 31 28 fmt) 27 24 rate
    | i => tmpl.getD i 0)
  let (n, m) := budget fmt rate nsamp
  let sum := (d.ing.nodes.filter (fun x => x.origin == origin)).flatMap (·.streams) ++ got
  if tmpl.isEmpty ∨ id = 0 ∨ 3 < fmt ∨ rate < 2 ∨ 9 < rate ∨ nsamp = 0 ∨ !entOk ws then (1, none, d)
  else if 8 ≤ origin ∧ !budgetOk ((n, m) :: sum.map (fun x => (x.num, x.den))) (d.rfld (segReg (origin - 8) 4) 13 0) then (3, none, d)
  else
    let valid := d.validFlows
    match valid.find? (fun f => (d.ftWord f 1 ++ d.ftWord f 2 : W64) == src && fld (d.ftWord f 0) 15 0 == id) with
    | some f => (0, some { id := id, flow := f, num := n, den := m }, d.modIng (fun i => { i with rel := i.rel.filter (· != f) }))
    | none =>
      let f := lowestFree (valid.filter (fun f => d.rfld (ingReg 0x1C) 19 0 ≤ f)) (max 1 (d.rfld (ingReg 0x1C) 19 0))
      if d.rfld (ingReg 0x20) 19 0 < f then (2, none, d.raiseFree 649 0)
      else (0, some { id := id, flow := f, num := n, den := m }, d.ftStore f ws)

/-- Take the oldest packet of a kind from the call-room queue. -/
def Dev.takeCr (d : Dev) (kind : Nat) : Option (CrPkt × Dev) :=
  let isIt := fun (c : CrPkt) => be c.bytes 0 1 % 16 == kind
  match d.ing.cr.find? isIt with
  | none => none
  | some c => some (c, d.modIng (fun i => { i with cr := removeFirst isIt i.cr }))

/-- An ANNOUNCE is answered (R407): `pol` 0 leaves it to the tests below, 1 refuses by policy, 2 finds a duplicate identity; `hb` is the interval given and
`ents` the entries that firmware chose for the streams. The node's RESULT is 0 when a stream is admitted, else the first stream's. (DESIGN CHOICE, log 61.) -/
def Dev.announce (d : Dev) (pol hb : Nat) (ents : List (List W32)) : Dev :=
  match d.takeCr 1 with
  | none => d
  | some (c, d) =>
    let src : W64 := BitVec.ofNat 64 (be c.bytes 4 8)
    let b := c.bytes.drop 32
    let ns := be b 0 1
    if ns = 0 ∨ 16 < ns ∨ b.length < 4 + 8 * ns then d
    else
      let d := d.retireNode src
      let plca : Option Nat := if c.origin < 8 then some 0
        else (List.range (d.rfld (segReg (c.origin - 8) 0) 5 0)).find? (fun i => !d.rbit (segReg (c.origin - 8) 0xC) i) |>.map (· + 1)
      let early := if pol = 1 then 1 else if pol = 2 then 5 else if plca.isNone then 4 else 0
      let (rs, got, d) := (List.range ns).foldl (fun (acc : List (Nat × Nat) × List CrStream × Dev) i =>
        let (rs, got, d) := acc
        let id := be b (4 + 8 * i) 2
        if early ≠ 0 then (rs ++ [(id, 1)], got, d)
        else
          let (r, x, d) := d.admitStream src c.origin got id (be b (6 + 8 * i) 1) (be b (7 + 8 * i) 1) (be b (8 + 8 * i) 2) (ents.getD i [])
          (rs ++ [(id, r)], got ++ x.toList, d)) ([], [], d)
      let res := if early ≠ 0 then early else if got.isEmpty then ((rs.head?.map (·.2)).getD 1) else 0
      let id := if res = 0 then plca.getD 0 else 0
      let d := if res ≠ 0 then d
        else
          let d := d.modIng (fun i => { i with nodes := i.nodes ++ [{ source := src, origin := c.origin, plca := id, streams := got }] })
          if id = 0 then d else d.setBit (segReg (c.origin - 8) 0xC) (id - 1) true
      let body := [BitVec.ofNat 8 id, BitVec.ofNat 8 res] ++ beBytes 2 hb ++ rs.flatMap (fun r => beBytes 2 r.1 ++ [BitVec.ofNat 8 r.2, 0])
      d.crSend c.origin none (crMessage 2 (be c.bytes 14 2) d.time.toNat body)

def Dev.retireRow (d : Dev) : Dev := match d.takeCr 4 with | none => d | some (c, d) => d.retireNode (BitVec.ofNat 64 (be c.bytes 4 8))

def Dev.heartbeatLost (d : Dev) (src : W64) : Dev :=
  match d.ing.nodes.find? (fun n => n.source == src) with
  | none => d
  | some n => (d.sendRetire n.origin 2).retireNode src

/-- Two nodes transmit in one PLCA ID (R407). -/
def Dev.plcaCollision (d : Dev) (s id : Nat) : Dev :=
  if !d.segOn s then d
  else
    let d := (d.setBit (segReg s 8) 2 true).raiseFree (520 + s) 0
    let d := (d.sendRetire (8 + s) 4).sendRetire (8 + s) 4
    (d.ing.nodes.filter (fun n => n.origin == 8 + s && n.plca == id)).foldl (fun d n => d.retireNode n.source) d

/-- The call room releases the entry of a retired node's stream (R417). -/
def Dev.flowRelease (d : Dev) (f : Nat) : Dev :=
  if !d.ing.rel.contains f || d.flowBound f then d
  else (d.modIng (fun i => { i with rel := i.rel.filter (· != f) })).ftStore f ((d.ftWord f 0 &&& 0x7FFFFFFF#32) :: (d.ftEntry f).drop 1)

/-- A read of ING.CR_DATA (R409): the next four bytes of the head packet, which leaves with its last word. -/
def Dev.crRead (d : Dev) : W32 × Dev :=
  match d.ing.cr with
  | [] => (0, d)
  | c :: cs =>
    let v := BitVec.ofNat 32 (beNat ((((c.bytes.drop c.pos).take 4) ++ [0, 0, 0, 0]).take 4))
    (v, d.modIng (fun i => { i with cr := if c.bytes.length ≤ c.pos + 4 then cs else { c with pos := c.pos + 4 } :: cs }))

def Dev.dropPkt (d : Dev) (v : W32) : Dev := if v.getLsbD 0 then d.modIng (fun i => { i with cr := i.cr.drop 1 }) else d

/-- The frame of TX_CTRL waits at a port (ING.TX_CTRL.BUSY). -/
def Dev.crBusy (d : Dev) : Bool := [0, 1].any (fun p => (d.ethPort p).txq.any (fun f => f.mark == 2))

/-- A write of ING.TX_CTRL (R420). -/
def Dev.crTxCtrl (d : Dev) (v : W32) : Dev :=
  if d.crBusy then d
  else
    let d := d.setReg (ingReg 0x44) (v &&& 0xF7FF#32)
    if !v.getLsbD 31 then d
    else
      let bs := d.ing.txbuf.take (fld v 10 0)
      (d.modIng (fun i => { i with txbuf := [] })).crOut (fld v 15 12) (pcpOf bs) 2 bs

/-! ### Commands -/

def execFrameClassify (f : FrameFrom) (s : State) : Host.Outcome State Fault Refusal := .next { s with dev := s.dev.frameClassify f }
def execCrDataRead (s : State) : Host.Outcome State Fault Refusal := .next { s with dev := s.dev.crRead.2 }
def execDropPkt (v : W32) (s : State) : Host.Outcome State Fault Refusal :=
  .next { s with dev := s.dev.writes (ingReg 0x3C) (s.dev.dropPkt v) }
def execRollcall (s : State) : Host.Outcome State Fault Refusal :=
  .next { s with dev := s.dev.rollcall }
def execAnnounce (pol : Fin 3) (hb : W16) (ents : List (List W32)) (s : State) : Host.Outcome State Fault Refusal :=
  .next { s with dev := s.dev.announce pol hb.toNat ents }
def execNodeHeartbeatLost (src : W64) (s : State) : Host.Outcome State Fault Refusal := .next { s with dev := s.dev.heartbeatLost src }
def execRetire (s : State) : Host.Outcome State Fault Refusal := .next { s with dev := s.dev.retireRow }
def execPlcaCollision (k : Fin 8) (id : BitVec 6) (s : State) : Host.Outcome State Fault Refusal := .next { s with dev := s.dev.plcaCollision k id.toNat }
def execCrTxSend (v : W32) (s : State) : Host.Outcome State Fault Refusal :=
  .next { s with dev := s.dev.writes (ingReg 0x44) (s.dev.crTxCtrl v) }
def execFtWrite (s : State) : Host.Outcome State Fault Refusal :=
  .next { s with dev := s.dev.writes (ingReg 0xA0) s.dev.ftWrite }
def execFtRead (s : State) : Host.Outcome State Fault Refusal :=
  .next { s with dev := s.dev.writes (ingReg 0xA0) s.dev.ftRead }
def execBindRequest (s : State) : Host.Outcome State Fault Refusal :=
  .next { s with dev := s.dev.bindRequest }
def execStreamData (s : State) : Host.Outcome State Fault Refusal := .next { s with dev := s.dev.streamData }
def execStreamBlockComplete (k : BitVec 16) (s : State) : Host.Outcome State Fault Refusal :=
  let d := s.dev.strDrop s.dev.ing.late.length
  .next { s with dev := d.strComplete k.toNat ((d.str k.toNat).writes.length + 1) }
def execStreamCreditResume (k : BitVec 16) (s : State) : Host.Outcome State Fault Refusal := .next { s with dev := s.dev.strResume k.toNat }
def execStreamGoneTimeout (k : BitVec 16) (s : State) : Host.Outcome State Fault Refusal := .next { s with dev := s.dev.strGo k.toNat }
def execFlowEntryRelease (fl : BitVec 20) (s : State) : Host.Outcome State Fault Refusal := .next { s with dev := s.dev.flowRelease fl.toNat }

end Sys2Proof.Machine
end

