-- ==== Sys2Proof/Machine/Health.lean ====
section
/-!
DEFINITION. Events, the journal, replay, output commit and the health state (18_events_health.md), and the horizons that reach the origins of
epochs (R230).
-/
namespace Sys2Proof.Machine

def healthNode : Node := .hubUnit 10
def eventNode : Node := .hubUnit 9

/-! ### Events (R526 to R530) -/

/-- The oldest EVENT request at the event block (R123, R124): the source of its NODE is raised with the operand. The cause code of these sources
is not given. -/
def Dev.eventRequest (d : Dev) : Dev :=
  match d.takeTok eventNode (fun _ => true) with
  | none => d
  | some (q, t, d) =>
    match d.blockTag eventNode t (infieldIs t.tag 0 3 0) with
    | (none, d) => d.ioAnswer q.src none
    | (some t, d) =>
      let n := t.tag.node.toNat
      if n < 704 ∨ 1024 ≤ n then (d.blockError eventNode t stBAD_NODE n).ioAnswer q.src none
      else
        let (v, d) := d.free
        (d.raiseWith n (causeWord (v.toNat % 256) 0) (some (t.pay, t.ty))).ioSignal q.src

/-- EVENT_RAISE (R527): a source below 704 is raised with a CAUSE word; for one above, the oldest EVENT operation's request is carried out. (DEDUCED, log 62.) -/
def Dev.eventRaise (d : Dev) (src cause : Nat) : Dev := if src < 704 then d.raiseWith src cause none else d.eventRequest

/-- The oldest queued event token leaves once its region has a credit (R529): its source is no longer pending, and a token that waited for room
takes a place. (DEDUCED, log 62.) -/
def Dev.eventSend (d : Dev) : Dev :=
  match d.evtQ with
  | [] => d
  | (src, t) :: q =>
    if d.hubCredit t then
      let d := { d with evtQ := q ++ d.evtWait.take 1, evtWait := d.evtWait.drop 1 }
      (d.setEvtPending src false).blockSend eventNode t
    else d

/-! ### The journal (R533 to R535) -/

/-- Tokens that wait for room in the ring have their records written (R535). (DESIGN CHOICE, log 63.) -/
def Dev.journalRetry (d : Dev) : Dev :=
  let ws := d.jrnWait
  ws.foldl (fun (d : Dev) w =>
    if w.written then { d with jrnWait := d.jrnWait ++ [w] }
    else if d.jrnUsed < d.jrnCap then
      let d := match w.root with | some r => d.journalWrite r w.tok | none => d
      { d with jrnWait := d.jrnWait ++ [{ w with written := true }] }
    else { d with jrnWait := d.jrnWait ++ [w] }) { d with jrnWait := [] }

/-- The write response of the `n`-th waiting record: its token may be sent, the tokens of one sender in their order. (DESIGN CHOICE, log 63.) -/
def Dev.journalDone (d : Dev) (n : Nat) : Dev :=
  match d.jrnWait[n]? with
  | none => d.journalRetry
  | some w =>
    if w.written then ({ d with jrnWait := d.jrnWait.set n { w with done := true } }.jrnFlush w.src).journalRetry else d.journalRetry

/-- Age of a context in units of its graph (R532). -/
def Dev.ctxAge (d : Dev) (g i graph : Nat) : Nat :=
  let unit := if d.rbit (banked (hltReg 0x2C) graph) 16 then 16000000 else 1000000
  match (d.region g).pool.root.find? (fun x => x.1 == i) with
  | some x => (d.time.toNat / unit % 256 + 256 - x.2.2) % 256
  | none => 0

/-- Group members of a pool that are older than LIFE (R534). -/
def Dev.expired (d : Dev) (g : Nat) : List Nat :=
  let p := (d.region g).pool
  (p.root.map (·.1)).filter (fun i =>
    let v := mget 0 p.desc i
    let life := d.rfld (banked (hltReg 0x2C) (cdGraph v)) 7 0
    cdLive v && !cdFault v && life != 0 && decide (life < d.ctxAge g i (cdGraph v)))

/-- CTX_EXPIRED for each, and its context faulted (R534). (DEDUCED, log 64.) -/
def Dev.lifeCheck (d : Dev) (g : Nat) : Dev :=
  (d.expired g).foldl (fun d i =>
    let c : BitVec 22 := BitVec.ofNat 22 (g * 2 ^ 18 + i)
    let v := d.ctxDesc c
    let tag : Tag := { graph := BitVec.ofNat 12 (cdGraph v), ctx := c, prio := BitVec.ofNat 4 (cdPrio v) }
    (d.sendToken (.regionUnit g 2) (d.errToken g tag (status stCTX_EXPIRED originBlock c.toNat) false)).setFault c) d

/-! ### Degraded operation (R544) -/

/-- HLT.CTRL.ACK: STATE returns to 0 when no cause holds. -/
def Dev.healthAck (d : Dev) (v : W32) : Dev :=
  if v.getLsbD 0 && d.healthCause.1 == 0 && d.rfld (hltReg 0) 1 0 != 0 then (d.setReg (hltReg 0) 0).raiseFree 651 0 else d

/-! ### Replay (R536) -/

/-- The group to replay next: held no longer by the stall watch, its root's home region open, its graph running, the oldest root first. (DEDUCED, log 65.) -/
def Dev.replayNext (d : Dev) : Option Group :=
  let ok := fun (x : Group) => x.hold && !x.stw && d.regionOpen (x.root.toNat / 2 ^ 18) && d.running x.graph
  (d.groups.filter ok).foldl (fun b x =>
    match b with
    | none => some x
    | some y => if x.recs.headD 0 < y.recs.headD 0 then some x else b) none

/-- A closed region cannot reopen (R541): its blocks stay in reset for want of a valid clock (R478), or all its mapped tiles are isolated and none is in reserve. (DESIGN CHOICE, log 67.) -/
def Dev.cannotReopen (d : Dev) (g : Nat) : Bool :=
  !d.regionOpen g && (d.rst.noclk.contains (272 + g) || ((d.map g).all (d.isoTiles g).contains && !(d.reserveWord g).getLsbD 5))

/-- A held group whose root's home region cannot reopen. -/
def Dev.stranded (d : Dev) (x : Group) : Bool := x.hold && d.cannotReopen (x.root.toNat / 2 ^ 18)

/-- Groups whose home region cannot reopen are lost (R541). -/
def Dev.loseStranded (d : Dev) : Dev :=
  (d.groups.filter d.stranded).foldl (fun (d : Dev) x => ({ d with groups := removeFirst (· == x) d.groups } : Dev).loseGroup x) d

/-- A journalled token as it is re-injected. (DEDUCED, log 64.) -/
def replayTok (t : Token) (c : BitVec 22) : Token := { t with tag := Tag.seal { t.tag with ctx := c }, ty := t.ty ||| 0x40#8 }

/-- Steps 3 to 5 of R536: the new context is replaying (R83), and its home pool sends an owner reset (R326). `e` is the outcome of reading the journal records: an uncorrectable one loses the group (R544). (DEDUCED, log 27. DEDUCED, log 65.) -/
def Dev.replayStart (d : Dev) (e : Ecc) : Dev :=
  let d := d.loseStranded
  if d.hbmLost then d.healthUpdate
  else
    match d.replayNext with
    | none => d.healthUpdate
    | some x =>
      let gone : Dev := { d with groups := removeFirst (· == x) d.groups }
      match e with
      | .ue _ => (gone.loseGroup x).healthState 2 4
      | _ =>
        let g := x.root.toNat / 2 ^ 18
        if !d.mayTake g x.prio x.graph false then d
        else
          match d.takeCtx g x.prio x.graph (some none) with
          | none => d
          | some (c, d) =>
            let mine := d.jrn.filter (fun r => x.recs.contains r.n)
            let js := d.jrn.map (fun (r : JRec) => if x.recs.contains r.n then { r with root := c, kept := false } else r)
            let gs := d.groups.map (fun (y : Group) => if y == x then { y with root := c, hold := false } else y)
            let d : Dev := { d with jrn := js, groups := gs }
            let d := (d.setCtxDesc c (putFld (putFld (d.ctxDesc c) 31 0 (x.recs.getLastD 0 % d.jrnCap)) 63 61 3)).ownerReset (poolNode g) c
            let d := mine.foldl (fun (d : Dev) r => d.sendToken healthNode (replayTok r.tok c)) d
            d.count32 (hltReg 0x24)

/-! ### Output commit (R537 to R540) -/

/-- A COMMIT request (R537): held as pending while the block has room. (DESIGN CHOICE, log 66.) -/
def Dev.commitRequest (d : Dev) : Dev :=
  if 65536 ≤ d.pend.length then d
  else
    match d.takeTok healthNode (fun _ => true) with
    | none => d
    | some (q, t, d) =>
      match d.blockTag healthNode t (infieldIs t.tag 0 4 0) with
      | (none, d) => d.ioAnswer q.src none
      | (some t, d) =>
        let n := t.tag.node.toNat
        let c := t.tag.ctx
        let root := (d.rootOf c).getD c
        let v := d.ctxDesc c
        if 4096 ≤ n then (d.blockError healthNode t stBAD_NODE n).ioAnswer q.src none
        else if 64 ≤ (d.pend.filter (fun p => p.ctx == c && !p.lost)).length then
          let (w, d) := d.free
          (d.blockError healthNode t stCOMMIT_LIMIT (w.toNat % 2 ^ 37)).ioAnswer q.src none
        else if !cdLive (d.ctxDesc root) ∨ cdFault (d.ctxDesc root) then d.ioSignal q.src
        else
          let gn := t.tag.graph.toNat
          let x := d.graph gn
          let d := if cdCommit v = 0 then d.setCtxDesc c (putFld v 54 52 1) else d
          let d := if x.used.contains n then d else d.setGraph gn { x with used := x.used ++ [n] }
          let p : Pend := { ch := n, val := t.pay, ty := t.ty, graph := gn, ctx := c, root := root
                            copyB := x.dup && x.regsB.contains (c.toNat / 2 ^ 18) }
          { d with pend := d.pend ++ [p] }.ioSignal q.src

def outReg (o ch : Nat) : Nat := banked (hltReg o) ch

/-- What becomes of a held output at its release (R539, R540, R544): none where nothing is written, else the FLAGS of its record. A channel that is
not enabled takes nothing. (DESIGN CHOICE, log 67.) -/
def Dev.outFlags (d : Dev) (p : Pend) : Option Nat :=
  let x := d.graph p.graph
  if !d.rbit (outReg 0x34 p.ch) 31 then none
  else if p.lost || d.graphLost p.graph then some 1
  else if !x.dup then some 0
  else if x.aliveA then (if p.copyB then none else some 0)
  else if p.copyB then some 2 else none

/-- Records a channel's ring holds (R539). -/
def Dev.outSlots (d : Dev) (ch : Nat) : Nat := 128 * 2 ^ min 12 (d.rfld (outReg 0x34 ch) 3 0)

/-- The ring of a channel has room for `n` more records. (DESIGN CHOICE, log 66.) -/
def Dev.outRoom (d : Dev) (ch n : Nat) : Bool :=
  d.rbit (outReg 0x34 ch) 30 || decide ((d.reg (outReg 0x44 ch) - d.reg (outReg 0x48 ch)).toNat + n ≤ d.outSlots ch)

/-- Write one released output: a record in its ring, or a token (R539). -/
def Dev.outWrite (d : Dev) (p : Pend) (flags : Nat) : Dev :=
  let ty := p.ty &&& 0xBF#8
  if d.rbit (outReg 0x34 p.ch) 30 then
    let (w, d) := d.free
    let dst := DstF.ofBits (BitVec.ofNat 29 (d.rfld (outReg 0x40 p.ch) 28 0))
    let tag : Tag := { dev := d.devNo, graph := BitVec.ofNat 12 p.graph, ctx := p.ctx, iter := BitVec.ofNat 8 (fld w 7 0), flow := BitVec.ofNat 20 (fld w 27 8)
                       epoch := BitVec.ofNat 8 (fld w 35 28), prio := BitVec.ofNat 4 (fld w 39 36) }
    d.sendToken healthNode { tag := Tag.seal (Tag.to tag dst), pay := p.val, ty := ty }
  else
    let seq := d.reg (outReg 0x44 p.ch)
    let bs := leBytes 4 seq.toNat ++ leBytes 2 p.ch ++ [ty, BitVec.ofNat 8 flags] ++ leBytes 8 d.time.toNat ++ leBytes 8 p.val.toNat ++
      leBytes 2 p.graph ++ leBytes 2 0 ++ leBytes 4 p.ctx.toNat
    (d.write (d.pair (outReg 0x38 p.ch) + seq.toNat % d.outSlots p.ch * 32) bs).setReg (outReg 0x44 p.ch) (seq + 1)

/-- The COMMITTED record of a root's journal (R538): the spec gives its kind no number and its token fields no value. (DEDUCED, log 28.) -/
def Dev.committed (d : Dev) (root : BitVec 22) : Dev :=
  let a := d.pair (hltReg 0xC) + d.jrnNext % d.jrnCap * 64
  (d.journalWrite root {}).freeBytes a 26

/-- OUTPUT_RELEASE (R538): all of a group's outputs, or none while a ring has no room for them. (DESIGN CHOICE, log 66.) -/
def Dev.outputRelease (d : Dev) (root : BitVec 22) : Dev :=
  let live := cdCommit (d.ctxDesc root) == 2 && cdLive (d.ctxDesc root)
  let mine := d.pend.filter (fun p => p.root == root && (p.lost || live))
  if mine.isEmpty || d.hbmLost then d
  else
    let outs := mine.filterMap (fun p => (d.outFlags p).map (fun f => (p, f)))
    let full := outs.find? (fun x => !d.outRoom x.1.ch (outs.filter (fun y => y.1.ch == x.1.ch)).length)
    match full with
    | some x =>
      if d.outHeld.contains root.toNat then d else { d with outHeld := d.outHeld ++ [root.toNat] }.raiseFree 334 x.1.ch
    | none =>
      if live && decide (d.jrnCap ≤ d.jrnUsed) then d
      else
        let d : Dev := { d with pend := d.pend.filter (fun p => !mine.contains p), outHeld := d.outHeld.filter (· != root.toNat) }
        let d := outs.foldl (fun (d : Dev) x => d.outWrite x.1 x.2) d
        if live then
          let d := d.committed root
          let d := d.setCtxDesc root (putFld (d.ctxDesc root) 54 52 3)
          ((d.reclaim root).returnCtx root).journalRetry
        else d

/-! ### Horizons at their origins (R230) -/

/-- The gateway of region `g` receives a horizon: its hurdles that feed the named one, or the hurdle that an import entry names, keep it. -/
def Dev.gwHorizon (d : Dev) (g : Nat) : Dev :=
  match d.takeMgmt (hrdNode g) isHorizonMsg with
  | some (.horizon r s e, d) =>
    let h := d.hurdle r.toNat s.toNat
    d.modRegion g (fun x => { x with hurdles := x.hurdles.map (fun c =>
      if c.2.graph == h.graph && c.2.copyB == h.copyB && h.ups.contains c.2.entry then
        (c.1, { c.2 with horizon := mput c.2.horizon (256 * r.toNat + s.toNat) e })
      else c) })
  | some (.importHz s i e, d) =>
    if ((d.region g).hurdles.any (fun c => c.1 == s.toNat)) then
      let h := d.hurdle g s.toNat
      d.setHurdle g s.toNat { h with horizon := mput h.horizon (65536 + i.toNat) e }
    else d
  | _ => d

/-- HORIZON_RECEIVE (R230) at a region's gateway (0 to 15), ingest (16), the measurement die (17) or the relay link (18), whose input holds it while a
transmit ring is full (R439). -/
def Dev.horizonReceive (d : Dev) (o : Nat) : Dev :=
  if o < 16 then d.gwHorizon o
  else
    let n := if o = 16 then ingNode else if o = 17 then measNode else rlyNode
    match d.takeMgmt n isHorizon with
    | some (.horizon r s e, d') =>
      if o = 16 then d'.ingHorizon r.toNat s.toNat e
      else if o = 17 then d'.measHorizon r.toNat s.toNat e
      else if d.exportRoom r s then d'.exportHz r s e else d
    | _ => d

/-! ### Commands -/

/-- EVENT_RAISE (R527). -/
def execEventRaise (src : BitVec 10) (cause : BitVec 27) (s : State) : Host.Outcome State Fault Refusal :=
  .next { s with dev := s.dev.eventRaise src.toNat cause.toNat }
/-- EVENT_TOKEN_SEND (R529). -/
def execEventTokenSend (s : State) : Host.Outcome State Fault Refusal := .next { s with dev := s.dev.eventSend }
/-- JOURNAL_WRITE_RESPONSE (R533). -/
def execJournalWriteResponse (n : Nat) (s : State) : Host.Outcome State Fault Refusal := .next { s with dev := s.dev.journalDone n }
/-- CONTEXT_LIFE_CHECK (R534). -/
def execContextLifeCheck (g : Fin 16) (s : State) : Host.Outcome State Fault Refusal := .next { s with dev := s.dev.lifeCheck g }
/-- REPLAY_START (R536). -/
def execReplayStart (e : Ecc) (s : State) : Host.Outcome State Fault Refusal := .next { s with dev := s.dev.replayStart e }
/-- COMMIT_REQUEST (R537). -/
def execCommitRequest (s : State) : Host.Outcome State Fault Refusal := .next { s with dev := s.dev.commitRequest }
/-- OUTPUT_RELEASE (R538). -/
def execOutputRelease (root : BitVec 22) (s : State) : Host.Outcome State Fault Refusal := .next { s with dev := s.dev.outputRelease root }
/-- HLT_ACK (R544). -/
def execHltAck (v : W32) (s : State) : Host.Outcome State Fault Refusal := .next { s with dev := s.dev.healthAck v }
/-- HORIZON_RECEIVE (R230). -/
def execHorizonReceive (o : Fin 19) (s : State) : Host.Outcome State Fault Refusal := .next { s with dev := s.dev.horizonReceive o }

end Sys2Proof.Machine
end

