-- ==== Sys2Proof/Machine/Reset.lean ====
section
/-!
DEFINITION. Resets, release, clocks, power domains, regions opening and closing, and the backup domain (16_reset_clocks_power.md).
-/
namespace Sys2Proof.Machine

/-! ### The backup domain (R492, R493, R495) -/

/-- Record a reset (R493): the count, the next history entry, RST.CAUSE. Reach is 1 warm, 2 cold, 3 Steward restart. -/
def Dev.recordReset (d : Dev) (code reach detail : Nat) : Dev :=
  let n := d.rfld (bakReg 0xC) 3 0
  let d := d.count32 (bakReg 4)
  let d := (d.setReg (bakReg (0x44 + 8 * n)) (BitVec.ofNat 32 (code * 2 ^ 24 + reach * 2 ^ 22 + detail % 2 ^ 22))).setReg (bakReg (0x40 + 8 * n)) (d.reg (bakReg 0x10))
  d.setFld (bakReg 0xC) 3 0 ((n + 1) % 16)

def Dev.setCause (d : Dev) (code reach : Nat) : Dev := d.setReg (rstReg 0) (BitVec.ofNat 32 (reach * 256 + code))

/-- VBAK below 2.5 V (R492). -/
def Dev.vbakLow (d : Dev) : Dev := if d.rbit (bakReg 0) 1 then d else (d.setBit (bakReg 0) 1 true).raiseFree 642 0
/-- VBAK below 2.2 V: every backup field returns to 0 and LOST is set. -/
def Dev.vbakLost (d : Dev) : Dev :=
  let b := d.reg (bakReg 0) &&& 2#32
  (d.resetRegs (fun a => decide (bakBase ≤ a ∧ a < bakBase + 0x1000))).setReg (bakReg 0) (b ||| 1#32)
def Dev.vbakReturn (d : Dev) : Dev := d.setBit (bakReg 0) 1 false
/-- The real-time clock counts one second. -/
def Dev.rtcSecond (d : Dev) : Dev :=
  let n := (d.reg (bakReg 0x10)).toNat + d.rfld (bakReg 0x14) 15 0 * 2 ^ 32 + 1
  ((d.setReg (bakReg 0x10) (BitVec.ofNat 32 n)).setFld (bakReg 0x14) 15 0 (n / 2 ^ 32 % 65536)).setReg (bakReg 0x18) 0

/-! ### Assertion (R470, R471, R476, R477) -/

/-- The keys of a table that hold registers at kept addresses. -/
def keepRegs (p : Nat → Bool) (m : SMap W32) : SMap W32 := m.filter (fun c => p (c.1 % 2 ^ 48))

def inBlock (lo hi a : Nat) : Bool := decide (lo ≤ a ∧ a < hi)

/-- Registers of the backup domain. (DEDUCED, log 68.) -/
def bakRegs (a : Nat) : Bool := inBlock bakBase (bakBase + 0x1000) a

/-- Registers that a warm reset keeps (R470, R486, R494, R507, R511, R530): the backup domain, the HBM controllers, the domains' states, clock
validity, the straps, the boot window's length, the protection set-up, and the events' configuration and pending bits. (DEDUCED, log 68.) -/
def warmRegs (a : Nat) : Bool :=
  bakRegs a || inBlock (hbmReg 0 0) (hbmReg 0 0x200000) a || inBlock (pwrReg 0x100) (pwrReg 0x1C0) a || a == rstReg 0x24 || a == bootReg 0 ||
  a == bootReg 0xC || inBlock (secReg 0) (secReg 8) a || inBlock (secReg 0x14) (secReg 0x28) a || inBlock (evtReg 0) (evtReg 0x14) a ||
  inBlock (evtReg 0x100) (evtReg 0x180) a

/-- A cold reset is asserted: everything takes its reset state but the backup domain, the flash and the boot ROM. The history entries of a power-on
or brown-out wait for the release (R493). (DEDUCED, log 68.) -/
def Dev.coldReset (d : Dev) (code detail : Nat) : Dev :=
  let late := code == 1 || code == 3
  let e : Dev := { Dev.init with
    fresh := d.fresh
    regs := keepRegs bakRegs d.regs
    loHeld := keepRegs bakRegs d.loHeld
    hiCap := keepRegs bakRegs d.hiCap
    mem := d.mem.filter (fun c => decide (romBase ≤ c.1 ∧ c.1 < sramBase))
    flash := d.flash
    wire := d.wire
    rst := { hot := d.rst.hot, hist := if late then d.rst.hist ++ [(code, 2, detail)] else d.rst.hist } }
  let e := e.setCause code 2
  if late then e else e.recordReset code 2 detail

/-- The groups that a warm reset interrupts (R541): each one with journal records and no COMMITTED record waits for its replay. (DEDUCED, log 68.) -/
def Dev.warmGroups (d : Dev) : List Group :=
  let live := d.jrn.filter (fun r => !r.done && !r.kept)
  (live.map (·.root)).eraseDups.map (fun c =>
    let v := d.ctxDesc c
    let old := (d.groups.find? (fun x => x.root == c && !x.hold)).map (·.faults)
    { root := c, graph := cdGraph v, prio := cdPrio v, faults := old.getD 0, hold := true, recs := (live.filter (fun r => r.root == c)).map (·.n) })

/-- HBM completes the requests whose data has arrived whole (R317). -/
def Dev.hbmDrain (d : Dev) (k : Nat) : Dev :=
  (d.inbox (hbmNode k) 1).foldl (fun (d : Dev) p =>
    match p.body with
    | .req r => { d with mem := (d.hbmServe k r .ok).1.mem }
    | _ => d) d

/-- A reset that a release absorbs: a fuse and trim load under way starts from its beginning (R476, R479). (DEDUCED, log 70.) -/
def Dev.absorbed (d : Dev) : Dev := if d.rst.phase = 3 then { d with rst := { d.rst with phase := 2 } } else d

/-- A warm reset is asserted (R470, R485): absorbed by a cold release under way (R476). HBM and its controllers, the domains' states, device time, the marshalling
queues, the protection set-up and the events' configuration stay; every region is closed. (DEDUCED, log 68.) -/
def Dev.warmReset (d : Dev) (code detail : Nat) : Dev :=
  if d.rst.phase ≠ 0 ∧ d.rst.cold then d.absorbed
  else
    let kept := fun (a : Nat) => warmRegs a && !inBlock (secReg 0) (secReg 0x1000) a
    let d := (d.hbmDrain 0).hbmDrain 1
    let en := d.rbit (rstReg 0x14) 31
    let e : Dev := { Dev.init with
      fresh := d.fresh, time := d.time, frac := d.frac
      regs := keepRegs warmRegs d.regs
      loHeld := keepRegs kept d.loHeld
      hiCap := keepRegs kept d.hiCap
      mem := d.mem.filter (fun c => decide (c.1 < hbmSize ∨ romBase ≤ c.1))
      regions := (List.range 16).map (fun g => (g, { lck := { recov := true } }))
      net := { marsh := d.net.marsh }
      islands := d.islands.filter (fun i => i == 303 || i == 304)
      graphs := (d.graphs.map (fun (c : Nat × Graph) => (c.1, ({ used := c.2.used, lost := c.2.lost } : Graph)))).filter (fun c => c.2 != {})
      evtQ := d.evtQ, evtWait := d.evtWait
      jrn := d.jrn.map (fun (r : JRec) => if r.done then r else { r with kept := true })
      jrnNext := d.jrnNext, jrnLow := d.jrnLow
      groups := d.groups.filter (·.hold) ++ d.warmGroups
      hbm := d.hbm, wire := d.wire, domQ := d.domQ, flash := d.flash
      sec := { keys := d.sec.keys.filter (fun c => c.1 < 64) }
      rst := { phase := 2, cold := false } }
    let e := e.setBit (rstReg 0x14) 31 en
    (e.setCause code 1).recordReset code 1 detail

/-- Close every FCP session and drop what the command interpreter holds; its registers return to reset. -/
def Dev.fcpReset (d : Dev) : Dev := { (d.resetRegs (inBlock (cmdReg 0) (cmdReg 0x1000))) with fcp := { acts := d.fcp.acts } }

/-- A Steward restart is asserted (R470, R475, R476, R520): the pair and the command interpreter enter reset, mailbox tokens are lost and their
credits return, BOOT_LOCK clears, and the Steward's leases are released (R326). (DEDUCED, log 69.) -/
def Dev.stewReset (d : Dev) (code detail : Nat) : Dev :=
  if d.rst.phase ≠ 0 then d.absorbed
  else
    let d := (d.setCause code 3).recordReset code 3 detail
    let d := d.stew.mbox.foldl (fun d _ => d.mboxPop) d
    let d := { d with stew := { hold := true }, boot := { d.boot with staged := none, entry := none }, rst := { d.rst with half := false } }.fcpReset
    (d.setBit (bootReg 4) 0 false).ownerReset (.hubUnit 0) stewOwner

/-- STEWARD_RESTART: after 10 µs the pair and the interpreter are released, and the Steward fetches PC 0 (R485). -/
def Dev.stewRestart (d : Dev) : Dev := if d.stew.hold && d.rst.phase == 0 then { d with stew := { on := true } } else d

/-- A double trap (R298) or a lockstep mismatch that the last command caused restarts the Steward. -/
def Dev.stewFatal (d : Dev) : Dev :=
  match d.stew.fatal with
  | some c => { d with stew := { d.stew with fatal := none } }.stewReset 10 c
  | none => d

/-! ### Release (R477 to R485) -/

/-- The power domain of an island; none for the always-on logic. Tiles 0 to 271, region blocks 272 to 287, die fabrics 288 to 291, hub fabric 292,
measurement die 293, always-on 300, ports 301 and 302, HBM 303 and 304, security engine 305, segments 306. -/
def islandDom (i : Nat) : Option Nat :=
  if i < 272 then some (2 * (i / 17))
  else if i < 288 then some (2 * (i - 272))
  else if i < 292 then some (32 + (i - 288))
  else if i = 292 then some 36
  else if i = 293 then some 43
  else if 301 ≤ i ∧ i ≤ 306 then some (i - 301 + 37)
  else none

/-- The bit of RST.CVALID for an island's clock. -/
def islandClk (i : Nat) : Nat :=
  if i < 272 then i / 68
  else if i < 288 then (i - 272) / 4
  else if i < 292 then i - 288
  else if i = 292 then 4
  else if i = 293 then 11
  else if i = 300 then 12
  else if i ≤ 302 then i - 301 + 7
  else if i ≤ 304 then i - 303 + 5
  else i - 305 + 9

/-- The island exists, and its domain is on. -/
def Dev.islandPowered (d : Dev) (i : Nat) : Bool := match islandDom i with | some k => d.domOn k | none => i == 300

/-- A reference is qualified (R483): the system PLL starts to lock, or the Ethernet reference is valid. A thermal trip holds the reset (R474). -/
def Dev.refQualified (d : Dev) (eth : Bool) : Dev :=
  if eth then d.setBit (rstReg 0x24) 13 true
  else if d.rst.phase = 1 ∧ !d.rst.hot then { d with rst := { d.rst with phase := 2 } } else d

/-- The fuse and trim load starts (R479, R484, R485). -/
def Dev.fuseStart (d : Dev) : Dev :=
  if d.rst.phase = 2 then { d.setFld (rstReg 4) 1 0 0 with rst := { d.rst with phase := 3 } } else d

/-- A region takes a map in place of `old`: RGN.MAP and MAPS, the mesh tables, and the banks of a tile that it leaves out off, of one that it takes on
(R34, R312, R313); other tiles' banks keep their state. (DESIGN CHOICE, log 106.) -/
def Dev.loadMap (d : Dev) (g : Nat) (old m : List Nat) : Dev :=
  let word := fun (i : Nat) => BitVec.ofNat 32 ((List.range 4).foldl (fun n k => n + m.getD (4 * i + k) 0 % 32 * 256 ^ k) 0)
  let d := (List.range 4).foldl (fun (d : Dev) i => (d.setReg (rgnReg g (0x10 + 4 * i)) (word i)).setReg (rgnReg g (0x20 + 4 * i)) (word i)) d
  let h := meshHalfOf m (d.isoTiles g)
  let d := d.setDom g { d.dom g with mesh0 := h, mesh1 := h }
  (List.range 17).foldl (fun (d : Dev) t =>
    let k := tileKey g t
    if m.contains t = old.contains t then d
    else if m.contains t then (d.modTile k (fun x => { x with banks := [] })).setReg (spmReg g t 0) 0xAA
    else (d.modTile k (fun x => { x with banks := offTile.banks })).setReg (spmReg g t 0) 0) d

/-- The fuse values of a region (R34, R36). -/
def Dev.loadRegion (d : Dev) (f : Fuses) (bad : Bool) (g : Nat) (old : List Nat) : Dev :=
  let m := if bad then List.replicate 16 0 else mget (List.range 16) f.map g
  let h := (List.range 17).foldl (fun n t => if bad || (mget [] f.unhealthy g).contains t then n else n + 2 ^ t) 0
  ((d.loadMap g old m).setReg (rgnReg g 0x34) (BitVec.ofNat 32 h)).setBit (rgnReg g 0x30) 3 (!bad && f.factory.contains g)

/-- The shadows take the fuses' values, or 0 after three failed loads (R479). (DEDUCED, log 70.) -/
def Dev.loadShadows (d : Dev) (f : Fuses) (bad : Bool) : Dev :=
  let d := (List.range 16).foldl (fun d g => d.loadRegion f bad g (d.map g)) d
  let d := d.setReg (secReg 0xA0) (BitVec.ofNat 32 (if bad then 0 else f.secver))
  d.setFld (secReg 4) 3 2 (if bad then 0 else f.debug)

/-- The load ends (R479): a good CRC releases, a bad one starts the load again, and the third bad one releases with shadows of 0. -/
def Dev.fuseDone (d : Dev) (f : Fuses) (ok : Bool) : Dev :=
  if d.rst.phase ≠ 3 then d
  else if ok then { (d.loadShadows f false).setFld (rstReg 4) 1 0 1 with rst := { d.rst with phase := 4 } }
  else if d.rst.fails + 1 < 3 then { d with rst := { d.rst with fails := d.rst.fails + 1 } }
  else { (d.loadShadows f true).setFld (rstReg 4) 1 0 2 with rst := { d.rst with phase := 4 } }

/-- The always-on island is released: after a cold reset the straps are sampled (R481, R483); the history entries that waited are written, and the
Steward fetches PC 0. (DEDUCED, log 70.) -/
def Dev.releaseAlwaysOn (d : Dev) (straps : Nat) : Dev :=
  let cm := straps / 4 % 4
  let d := if d.rst.cold then d.setReg (bootReg 0) (BitVec.ofNat 32 (straps % 16 + if cm = 3 then 16 else 0)) else d
  let d := d.rst.hist.foldl (fun (d : Dev) h => d.recordReset h.1 h.2.1 h.2.2) d
  let d : Dev := { d with islands := d.islands ++ [300], rst := { d.rst with phase := 0, hist := [] }, stew := { on := true } }
  if d.rst.cold ∧ cm = 3 then d.raiseFree 646 0 else d

/-- A tile's FUs start the rebuild of R79 after a warm reset. -/
def Dev.warmRebuild (d : Dev) (k : Nat) : Dev := (List.range 8).foldl (fun (d : Dev) f => d.modFu (k * 8 + f) (fun u => { u with rebuild := true })) d

/-- An island whose clock is valid leaves reset (R477, R484, R485); a tile's stored frequency is then applied (R27). (DEDUCED, log 70.) -/
def Dev.islandRelease (d : Dev) (i straps : Nat) : Dev :=
  if !(d.rst.phase == 0 || d.rst.phase == 4) || d.islands.contains i || d.rst.noclk.contains i || !d.islandPowered i then d
  else
    let d := d.setBit (rstReg 0x24) (islandClk i) true
    if i = 300 then d.releaseAlwaysOn straps
    else
      let d := { d with islands := d.islands ++ [i] }
      if i < 272 then (if d.rst.cold then d else d.warmRebuild i).clkApply i else d

/-- An island's clock was not valid in time (R478): it stays in reset. Without the always-on clock no event can be raised. -/
def Dev.clockTimeout (d : Dev) (i : Nat) : Dev :=
  if !(d.rst.phase == 0 || d.rst.phase == 4) || d.islands.contains i || d.rst.noclk.contains i || !d.islandPowered i then d
  else
    let d := { (d.setBit (rstReg 4) 2 true).setBit (rstReg 0x24) (islandClk i) false with rst := { d.rst with noclk := d.rst.noclk ++ [i] } }
    if i = 300 then d else d.raiseFree 640 0

/-! ### The sources (R471, R474, R475) -/

/-- A die stays above the trip temperature: a cold reset that is held until every sensor is cool (R474). -/
def Dev.thermalTrip (d : Dev) (die : Nat) : Dev := let e := d.coldReset 4 die; { e with rst := { e.rst with hot := true } }
def Dev.thermalClear (d : Dev) : Dev := { d with rst := { d.rst with hot := false } }

/-- The register that shows a die's hottest sensor takes the measured value. -/
def Dev.setTemp (d : Dev) (die : Nat) (t : W16) : Dev := if die < 4 then d.setFld (diefReg die 8) 15 0 t.toNat else d
/-- RST.THERM.WARN in 1/64 °C. -/
def Dev.warnAt (d : Dev) : Int := ((d.reg (rstReg 0x1C)).extractLsb' 0 8).toInt * 64

/-- (DEDUCED, log 71.) -/
def Dev.thermalWarn (d : Dev) (die : Nat) (t : W16) : Dev :=
  let d := d.setTemp die t
  if d.rst.warned || !decide (d.warnAt < t.toInt) then d else { d with rst := { d.rst with warned := true } }.raiseFree 641 0
def Dev.thermalRearm (d : Dev) (die : Nat) (t : W16) : Dev :=
  let d := d.setTemp die t
  if decide (t.toInt ≤ d.warnAt - 320) then { d with rst := { d.rst with warned := false } } else d

/-- Debug is locked (R509). -/
def Dev.debugLocked (d : Dev) : Bool := d.rfld (secReg 4) 3 2 == 2 || (d.rfld (secReg 4) 3 2 == 1 && d.rbit (secReg 4) 0)
def Dev.jtagReset (d : Dev) (cold : Bool) : Dev := if d.debugLocked then d else if cold then d.coldReset 8 0 else d.warmReset 9 0

def Dev.wdogKick (d : Dev) (v : W32) : Dev := if fld v 15 0 = 0x4B1C then { d with rst := { d.rst with half := false } } else d
def Dev.wdogHalf (d : Dev) : Dev :=
  if d.rbit (rstReg 0x14) 31 && !d.rst.half then { d with rst := { d.rst with half := true } }.raiseFree 644 0 else d
def Dev.wdogExpiry (d : Dev) : Dev := if d.rbit (rstReg 0x14) 31 then d.warmReset 5 0 else d

/-- A write of RST.SWRST asks for `kind` with its key. -/
def swrstAsks (v : W32) (kind : Nat) : Bool := fld v 31 16 == 0x5A17 && fld v 1 0 == kind

/-! ### Block resets (R472, R473) -/

/-- Contexts of this device whose tokens the relay block holds on their way in. -/
def Dev.relayCtxs (d : Dev) : List (BitVec 22) :=
  ((d.rly.side.flatMap (·.2) ++ d.rly.peers.flatMap (fun c => c.2.rx.map (·.1))).filter (fun t => t.tag.dev == d.devNo)).map (fun t => t.tag.ctx)

/-- Block reset of a hub block: its packets, its state and its registers (R26). What firmware keeps of the call room, the quiesce rules, and the protection
set-up of the security engine (R507) outlast it. (DEDUCED, log 69.) -/
def Dev.hubReset (d : Dev) (u : Nat) : Dev :=
  let d := d.discardAll (fun c => c == 6656 + u)
  match u with
  | 1 =>
    let d := { d.resetRegs (inBlock (ingReg 0) (ingReg 0x1000)) with
      ing := { quiesce := d.ing.quiesce, nodes := d.ing.nodes, rel := d.ing.rel, seq := d.ing.seq, segN := d.ing.segN } }
    (List.range 16).foldl (fun (d : Dev) g => d.modRegion g (fun r => { r with hurdles := r.hurdles.map (fun h => (h.1, { h.2 with streams := [] })) })) d
  | 2 =>
    let d := d.recover d.relayCtxs
    { d.resetRegs (inBlock (rlyReg 0) (rlyReg 0x1000)) with rly := {} }
  | 3 => d.fcpReset
  | 4 =>
    { d.resetRegs (fun a => inBlock (secReg 8) (secReg 0x1000) a && !inBlock (secReg 0x14) (secReg 0x28) a && a != secReg 0xA0) with
      loHeld := mclear d.loHeld (fun k => inBlock (secReg 0) (secReg 0x1000) (k % 2 ^ 48))
      hiCap := mclear d.hiCap (fun k => inBlock (secReg 0) (secReg 0x1000) (k % 2 ^ 48))
      sec := { d.sec with keys := d.sec.keys.filter (fun c => c.1 < 64) } }
  | 5 => (d.resetRegs (inBlock (segReg 0 0) (segReg 0 0x1000))).modIng (fun i => { i with segN := [] })
  | 12 | 13 =>
    let p := u - 12
    { (d.portDown p).resetRegs (inBlock (ethReg p 0) (ethReg p 0x1000)) with eth := mdel d.eth p }
  | _ => d

/-- RST.HUB_SRST (R472); during a reset the bits stay 0 (R476). -/
def Dev.hubSrst (d : Dev) (v : W32) : Dev :=
  if d.resetting then d
  else [1, 2, 3, 4, 5, 12, 13].foldl (fun (d : Dev) u =>
    if v.getLsbD u then (if d.rbit (rstReg 0xC) u then d else (d.hubReset u).setBit (rstReg 0xC) u true) else d.setBit (rstReg 0xC) u false) d

/-- Contexts homed elsewhere for which the blocks of a region hold a token, a request or a waiting acquire. -/
def Dev.regionCtxs (d : Dev) (g : Nat) : List (BitVec 22) :=
  let r := d.region g
  (r.pacer.map (·.ctx) ++ r.hurdles.flatMap (fun h => h.2.held.map (fun x => x.tok.tag.ctx)) ++ r.hrdIn.map (fun x => x.tok.tag.ctx) ++
    r.pool.wait.map (·.ctx) ++ (r.lck.wait.filter (fun w => Dest.isTileUnit w.req.req)).map (fun w => w.req.ctx)).filter (fun c => c.toNat / 2 ^ 18 != g)

/-- The groups whose roots are homed in a region are faulted whatever their COMMIT state, and outputs of contexts homed there are dropped (R26, R536). (DEDUCED, log 69.) -/
def Dev.regionGroups (d : Dev) (g : Nat) : Dev :=
  let home := fun (c : BitVec 22) => c.toNat / 2 ^ 18 == g
  let d := (d.warmGroups.filter (fun x => home x.root)).foldl (fun (d : Dev) x =>
    ({ d with groups := d.groups.filter (fun y => y.hold || y.root != x.root) } : Dev).faultGroup x.root (x.faults + 1) none) d
  { d with pend := d.pend.filter (fun p => p.lost || !home p.root) }

/-- The blocks and tiles of a region lose their packets, state and registers (R26, R473): groups whose roots are homed there are replayed, other contexts are recovered,
the route epoch returns to its reset value (R357), and responses to the DMA engine that are still under way will be discarded (R341). (DEDUCED, log 69.) -/
def Dev.regionLost (d : Dev) (f : Fuses) (g : Nat) : Dev :=
  let old := d.map g
  let away := d.regionCtxs g
  let d := (d.regionGroups g).discardAll (fun c => c == 272 + g || inBlock (6144 + g * 16) (6160 + g * 16) c)
  let d := ((List.range 17).foldl (fun (d : Dev) t => d.resetTile (tileKey g t)) d).recover away
  let d := d.clearStations (fun c => c == Node.code (poolNode g))
  let dma := ((d.region g).dma.map (fun c => (c.1, DmaCh.afterReset c.2))).filter (fun c => c.2 != {})
  let d := ((d.setRegion g { lck := { recov := true }, dma := dma }).setDom g {}).resetRegs (inBlock (ctxReg g 0) (ctxReg g 0x70000))
  d.loadRegion f (d.rbit (rstReg 4) 1) g old

/-- The stored frequencies of a region's tiles are applied once they are out of reset (R27). -/
def Dev.regionClocks (d : Dev) (g : Nat) : Dev := (List.range 17).foldl (fun (d : Dev) t => d.clkApply (tileKey g t)) d

/-- RST.RGN_SRST (R473): refused for an open region; during a reset the bits stay 0 (R476). -/
def Dev.rgnSrst (d : Dev) (f : Fuses) (v : W32) : Dev :=
  if d.resetting then d
  else (List.range 16).foldl (fun (d : Dev) g =>
    if v.getLsbD g then
      (if d.regionOpen g then d.setBit (rstReg 4) 3 true
       else if d.rbit (rstReg 0x10) g then d else (d.regionLost f g).setBit (rstReg 0x10) g true)
    else if d.rbit (rstReg 0x10) g then (d.setBit (rstReg 0x10) g false).regionClocks g else d) d

/-! ### Power domains (R486 to R488, R497) -/

def domReg (k : Nat) : Nat := pwrReg (0x100 + 4 * k)
def Dev.domState (d : Dev) (k : Nat) : Nat := d.rfld (domReg k) 3 2

/-- The condition of a request (R487). -/
def Dev.domMay (d : Dev) (k : Nat) (on : Bool) : Bool :=
  let off := fun (j : Nat) => d.domState j == 0
  if on then
    if k < 32 then d.domOn (32 + k / 8) && (k % 2 == 1 || d.domOn (k + 1))
    else if 44 ≤ k then d.domOn 43
    else true
  else if k < 32 then (if k % 2 = 0 then !d.regionOpen (k / 2) && !d.rbit (pwrReg 4) (16 + k / 2) else off (k - 1))
  else if k < 36 then (List.range 8).all (fun i => off (8 * (k - 32) + i))
  else if k = 36 then false
  else if k = 39 ∨ k = 40 then (List.range 32).all off
  else if k = 41 then d.fcp.sess.all (fun s => s.2.st == 0) && !d.rbit (ethReg 0 0x60) 0 && !d.rbit (ethReg 1 0x60) 0
  else if k = 43 then [44, 45, 46, 47].all off
  else true

/-- The first request in line whose domain is not yet in the asked state starts. -/
def Dev.domNext (d : Dev) : Nat → Dev
  | 0 => d
  | n + 1 =>
    match d.domQ with
    | [] => d
    | (k, on) :: q =>
      if d.domState k = (if on then 2 else 0) then ({ d with domQ := q } : Dev).domNext n
      else d.setFld (domReg k) 3 2 (if on then 1 else 3)

/-- PWR.DOM_k (R486, R487, R497): ERR is cleared by writing 1; a request that is refused changes nothing else. (DEDUCED, log 71.) -/
def Dev.domWrite (d : Dev) (k : Nat) (v : W32) : Dev :=
  let on := v.getLsbD 0
  let d := if v.getLsbD 1 then d.setBit (domReg k) 1 false else d
  let busy := d.domQ.any (fun x => x.1 == k)
  if !busy && on == d.domOn k then d
  else if !d.domMay k on then (d.setBit (domReg k) 1 true).raiseFree (592 + k) 0
  else
    let d := d.setBit (domReg k) 0 on
    match d.domQ with
    | [] => ({ d with domQ := [(k, on)] } : Dev).domNext 1
    | h :: t => { d with domQ := h :: (if t.any (fun x => x.1 == k) then t.map (fun x => if x.1 == k then (k, on) else x) else t ++ [(k, on)]) }

/-- A region's memory is off: every bank is off and its contents are lost (R312). (DEDUCED, log 105.) -/
def Dev.banksOff (d : Dev) (g : Nat) : Dev :=
  (List.range 17).foldl (fun (d : Dev) t => d.modTile (tileKey g t) (fun x => { x with banks := offTile.banks }))
    ((List.range 16).foldl (fun (d : Dev) c => d.clearCluster (g * 16 + c)) d)

/-- A region's memory is on again: each bank is cleared and takes the state that SPM.PWR asks for (R312). (DEDUCED, log 105.) -/
def Dev.banksOn (d : Dev) (g : Nat) : Dev :=
  (List.range 17).foldl (fun (d : Dev) t =>
    let w := d.reg (spmReg g t 0)
    d.modTile (tileKey g t) (fun x => { x with banks := ((List.range 4).map (fun b => (b, ({ state := fld w (2 * b + 1) (2 * b) } : Bank)))).filter (fun c => c.2 != {}) })) d

/-- What a domain does once it is on (R488). -/
def Dev.domUp (d : Dev) (k : Nat) : Dev :=
  let isl := (List.range 307).filter (fun i => islandDom i == some k)
  let d := { d with islands := d.islands ++ isl.filter (fun i => !d.islands.contains i) }
  let d := isl.foldl (fun (d : Dev) i => d.setBit (rstReg 0x24) (islandClk i) true) d
  if k < 32 then (if k % 2 = 0 then d.regionClocks (k / 2) else d.banksOn (k / 2)) else if 44 ≤ k then d.measGroupOn (k - 44) else d

/-- The tiles of a region lose their clocks with their power. -/
def Dev.tilesOff (d : Dev) (g : Nat) : Dev :=
  (List.range 17).foldl (fun (d : Dev) t =>
    (d.modTile (tileKey g t) (fun x => { x with pll := none })).resetRegs (inBlock (tileAddr g t 0) (tileAddr g t 0x1000))) d

/-- What is lost once a domain is off (R312, R488). (DEDUCED, log 69.) -/
def Dev.domDown (d : Dev) (f : Fuses) (k : Nat) : Dev :=
  let d := { d with islands := d.islands.filter (fun i => islandDom i != some k) }
  if k < 32 then (if k % 2 = 0 then (d.regionLost f (k / 2)).tilesOff (k / 2) else d.banksOff (k / 2))
  else if k < 36 then
    let a := k - 32
    ((d.discardAll (fun c => c == 288 + a)).resetRegs (inBlock (diefReg a 0) (diefReg a 0x200000))).setDom (16 + a) {}
  else if k = 37 ∨ k = 38 then d.hubReset (k - 25)
  else if k = 39 ∨ k = 40 then
    let s := k - 39
    (({ d.discardAll (fun c => c == Node.code (hbmNode s)) with hbm := mdel d.hbm s } : Dev).clearMem (stackBase s) (stackBase (s + 1))).resetRegs
      (inBlock (hbmReg s 0) (hbmReg s 0x1000))
  else if k = 41 ∨ k = 42 then d.hubReset (k - 37)
  else if k = 43 then d.measReset
  else if 44 ≤ k then d.measGroupOff (k - 44)
  else d

/-- The switch of a domain completes (R487, R488), and the next request in line starts. (DESIGN CHOICE, log 13.) -/
def Dev.domDone (d : Dev) (f : Fuses) (k : Nat) : Dev :=
  match d.domQ with
  | [] => d
  | (j, on) :: q =>
    if j ≠ k then d
    else
      let d := { d.setFld (domReg k) 3 2 (if on then 2 else 0) with domQ := q }
      let d := if on then d.domUp k else d.domDown f k
      d.domNext (q.length + 1)

/-- The measurement reference settles (R487). -/
def Dev.refOk (d : Dev) : Dev := if d.domOn 43 then d.setBit (afeCtlReg 4) 2 true else d

/-! ### Opening and closing regions (R489 to R491) -/

def Dev.closing (d : Dev) (g : Nat) : Bool := d.rbit (pwrReg 4) (16 + g)

/-- PWR.OPEN (R489, R490): a close of a region that is not parked is refused. (DEDUCED, log 69.) -/
def Dev.openWrite (d : Dev) (v : W32) : Dev :=
  (List.range 16).foldl (fun (d : Dev) g =>
    if v.getLsbD g then d.setBit (pwrReg 0) g true
    else if !d.regionOpen g || d.closing g then d.setBit (pwrReg 0) g false
    else if !d.parked g then d.setBit (pwrReg 8) 0 true
    else (d.setBit (pwrReg 0) g false).setBit (pwrReg 4) (16 + g) true) d

/-- A requested region opens once its conditions hold (R489); the contexts asked for there are given (R121). -/
def Dev.openRegion (d : Dev) (g : Nat) : Dev :=
  if d.rbit (pwrReg 0) g && !d.regionOpen g && !d.closing g && d.domOn (2 * g) && d.domOn (2 * g + 1) &&
      (regionFus g).all (fun k => !(d.fu k).rebuild) then (d.setBit (pwrReg 4) g true).serveWaiters g
  else d

/-- Every L1 request of the region's units is answered (R490 step 3). -/
def Dev.requestsDone (d : Dev) (g : Nat) : Bool :=
  (regionFus g).all (fun k =>
    let u := d.fu k
    u.out.all (fun o => o.kind == .io || o.kind == .flags) && u.spill.all (fun e => !e.issued) && u.fills.isEmpty && u.dels.isEmpty) &&
  (List.range 17).all (fun t =>
    let r := (d.tile (tileKey g t)).runner
    r.wait.isNone && r.stores.isEmpty && r.gone.isEmpty) &&
  (d.region g).dma.all (fun c => c.2.bursts.isEmpty && !c.2.busy && c.2.gone.isEmpty)

/-- The 17 sources hold all the credits of their partitions for the region (R490 step 2). -/
def Dev.creditsHome (d : Dev) (g : Nat) : Bool := (List.range 18).all (fun k => mget 0 d.net.e2e (k * 64 + g) == 0)

def Dev.closeDone (d : Dev) (g : Nat) : Dev :=
  if d.closing g && d.creditsHome g && d.requestsDone g then ((d.setBit (pwrReg 4) g false).setBit (pwrReg 4) (16 + g) false).raiseFree (592 + 2 * g) 0 else d

def Dev.drainTimeout (d : Dev) (g : Nat) : Dev := if d.closing g then (d.setBit (pwrReg 8) 1 true).raiseFree (592 + 2 * g) 0 else d

/-- HBM.TEMP takes the stack's temperature; above 85 °C the stack is refreshed at twice the rate (R571). (DEDUCED, log 71.) -/
def Dev.refreshRate (d : Dev) (k : Nat) (t : W16) : Dev :=
  (d.setFld (hbmReg k 0x24) 15 0 t.toNat).modHbm k (fun x => { x with fast := decide (5440 ≤ t.toInt) })

/-! ### Commands -/

def execPowerOn (s : State) : Host.Outcome State Fault Refusal := .next { s with dev := s.dev.coldReset 1 0 }
def execRstNAssert (s : State) : Host.Outcome State Fault Refusal := .next { s with dev := s.dev.coldReset 2 0 }
def execBrownOut (rail : Fin 13) (s : State) : Host.Outcome State Fault Refusal := .next { s with dev := s.dev.coldReset 3 rail }
def execThermalTrip (die : Fin 6) (s : State) : Host.Outcome State Fault Refusal := .next { s with dev := s.dev.thermalTrip die }
def execThermalTripClear (s : State) : Host.Outcome State Fault Refusal := .next { s with dev := s.dev.thermalClear }
def execThermalWarn (die : Fin 6) (t : W16) (s : State) : Host.Outcome State Fault Refusal := .next { s with dev := s.dev.thermalWarn die t }
def execThermalWarnRearm (die : Fin 6) (t : W16) (s : State) : Host.Outcome State Fault Refusal := .next { s with dev := s.dev.thermalRearm die t }
def execJtagReset (cold : Bool) (s : State) : Host.Outcome State Fault Refusal := .next { s with dev := s.dev.jtagReset cold }
def execWdogKick (v : W32) (s : State) : Host.Outcome State Fault Refusal := .next { s with dev := s.dev.wdogKick v }
def execWdogHalfExpiry (s : State) : Host.Outcome State Fault Refusal := .next { s with dev := s.dev.wdogHalf }
def execWdogExpiry (s : State) : Host.Outcome State Fault Refusal := .next { s with dev := s.dev.wdogExpiry }
def execSwrstWarm (v : W32) (s : State) : Host.Outcome State Fault Refusal := .next { s with dev := if swrstAsks v 1 then s.dev.warmReset 7 0 else s.dev }
def execSwrstCold (v : W32) (s : State) : Host.Outcome State Fault Refusal := .next { s with dev := if swrstAsks v 2 then s.dev.coldReset 6 0 else s.dev }
def execSwrstSteward (v : W32) (s : State) : Host.Outcome State Fault Refusal := .next { s with dev := if swrstAsks v 3 then s.dev.stewReset 12 0 else s.dev }
def execHubSrstWrite (v : W32) (s : State) : Host.Outcome State Fault Refusal := .next { s with dev := s.dev.hubSrst v }
def execRgnSrstWrite (v : W32) (s : State) : Host.Outcome State Fault Refusal := .next { s with dev := s.dev.rgnSrst s.fuses v }
def execReferenceQualified (eth : Bool) (s : State) : Host.Outcome State Fault Refusal := .next { s with dev := s.dev.refQualified eth }
def execFuseLoadStart (s : State) : Host.Outcome State Fault Refusal := .next { s with dev := s.dev.fuseStart }
def execFuseLoadDone (ok : Bool) (s : State) : Host.Outcome State Fault Refusal := .next { s with dev := s.dev.fuseDone s.fuses ok }
def execIslandRelease (i : Fin 307) (straps : BitVec 4) (s : State) : Host.Outcome State Fault Refusal :=
  .next { s with dev := s.dev.islandRelease i straps.toNat }
def execClockValidTimeout (i : Fin 307) (s : State) : Host.Outcome State Fault Refusal := .next { s with dev := s.dev.clockTimeout i }
def execStewardRestart (s : State) : Host.Outcome State Fault Refusal := .next { s with dev := s.dev.stewRestart }
def execPwrDomWrite (k : Fin 48) (v : W32) (s : State) : Host.Outcome State Fault Refusal := .next { s with dev := s.dev.domWrite k v }
def execDomainSwitchDone (k : Fin 48) (s : State) : Host.Outcome State Fault Refusal := .next { s with dev := s.dev.domDone s.fuses k }
def execPwrOpenWrite (v : W32) (s : State) : Host.Outcome State Fault Refusal := .next { s with dev := s.dev.openWrite v }
def execRegionOpen (g : Fin 16) (s : State) : Host.Outcome State Fault Refusal := .next { s with dev := s.dev.openRegion g }
def execRegionCloseDone (g : Fin 16) (s : State) : Host.Outcome State Fault Refusal := .next { s with dev := s.dev.closeDone g }
def execDrainTimeout (g : Fin 16) (s : State) : Host.Outcome State Fault Refusal := .next { s with dev := s.dev.drainTimeout g }
def execVbakLow (s : State) : Host.Outcome State Fault Refusal := .next { s with dev := s.dev.vbakLow }
def execVbakLost (s : State) : Host.Outcome State Fault Refusal := .next { s with dev := s.dev.vbakLost }
def execVbakReturn (s : State) : Host.Outcome State Fault Refusal := .next { s with dev := s.dev.vbakReturn }
def execRtcSecond (s : State) : Host.Outcome State Fault Refusal := .next { s with dev := s.dev.rtcSecond }
def execHbmRefreshRate (k : Fin 2) (t : W16) (s : State) : Host.Outcome State Fault Refusal := .next { s with dev := s.dev.refreshRate k t }
def execRefOk (s : State) : Host.Outcome State Fault Refusal := .next { s with dev := s.dev.refOk }

end Sys2Proof.Machine
end

