-- ==== Sys2Proof/Machine/Boot.lean ====
section
/-!
DEFINITION. The octal flash, firmware images, the boot ROM's decisions and handover, warm-up mode, the boot window, key slots and the measurement
log (17_boot_trust_change.md).
-/
namespace Sys2Proof.Machine

/-! ### The flash (R498, R499) -/

/-- A flash byte; erased flash reads 0xFF (notes/assumptions/7.md). (PRESUMED, log 7.) -/
def Dev.flashByte (d : Dev) (a : Nat) : Byte := mget 0xFF d.flash a

def readFlash (m : SMap Byte) : Nat → Nat → List Byte
  | _, 0 => []
  | a, n + 1 => mget 0xFF m a :: readFlash m (a + 1) n

/-- (PRESUMED, log 7.) -/
def writeFlash (m : SMap Byte) : Nat → List Byte → SMap Byte
  | _, [] => m
  | a, b :: bs => writeFlash (mset 0xFF m a b) (a + 1) bs

/-- CRC-32 of IEEE 802.3. -/
def crc32Step (c : BitVec 32) (b : Bool) : BitVec 32 :=
  let x := c >>> 1
  if c.getLsbD 0 != b then x ^^^ 0xEDB88320#32 else x
def crc32Byte (c : BitVec 32) (b : Byte) : BitVec 32 := (List.range 8).foldl (fun c i => crc32Step c (b.getLsbD i)) c
def crc32 (bs : List Byte) : BitVec 32 := ~~~(bs.foldl crc32Byte 0xFFFFFFFF#32)

def recordAddr (k : Nat) : Nat := 0x2010000 + k * 0x1000

/-- A commit record (R499): the copy that holds it, RSEQ, the active slot, TRIAL, IMGHASH. -/
structure BootRec where
  copy  : Nat := 0
  seq   : Nat := 0
  slot  : Nat := 0
  trial : Bool := false
  hash  : List Byte := []
  deriving DecidableEq, Repr, Inhabited

/-- The record of a copy, where it is valid. -/
def Dev.recordOf (d : Dev) (k : Nat) : Option BootRec :=
  let bs := readFlash d.flash (recordAddr k) 64
  if be bs 0 4 = 0x444E4352 ∧ be bs 60 4 = (crc32 (bs.take 60)).toNat then
    some { copy := k, seq := be bs 4 4, slot := be bs 8 1 % 2, trial := be bs 9 1 % 2 == 1, hash := (bs.drop 12).take 48 }
  else none

/-- The current record: the valid copy with the higher RSEQ. -/
def Dev.currentRec (d : Dev) : Option BootRec :=
  match d.recordOf 0, d.recordOf 1 with
  | some a, some b => if a.seq < b.seq then some b else some a
  | some a, none => some a
  | none, b => b

/-- The active slot, A without a valid record. -/
def Dev.activeSlot (d : Dev) : Nat := match d.currentRec with | some r => r.slot | none => 0

/-- Write a commit record: the copy that does not hold the current one, RSEQ one higher. (DEDUCED, log 72.) -/
def Dev.writeRec (d : Dev) (slot : Nat) (trial : Bool) (hash : List Byte) : Dev :=
  let (k, n) := match d.currentRec with | some r => (1 - r.copy, r.seq + 1) | none => (0, 1)
  let bs := beBytes 4 0x444E4352 ++ beBytes 4 n ++ [BitVec.ofNat 8 slot, if trial then 1 else 0, 0, 0] ++ hash
  let bs := bs ++ beBytes 4 (crc32 bs).toNat
  let a := recordAddr k
  { d with flash := writeFlash (mclear d.flash (inBlock a (a + 0x1000))) a bs }

/-! ### Images (R500 to R502) -/

/-- Bytes of a public key, and of a signature, by parameter set (3 is SLH-DSA-SHA2-128f). -/
def pkLen (pset : Nat) : Nat := match pset with | 1 => 48 | 2 => 64 | _ => 32
def sigLen (pset : Nat) : Nat := match pset with | 0 => 7856 | 1 => 16224 | 2 => 29792 | _ => 17088

def zeros (bs : List Byte) : Bool := bs.all (· == 0)
def sub (bs : List Byte) (o n : Nat) : List Byte := (bs.drop o).take n

/-- The code's length, the signed part's, and the image's own length. -/
def imgCode (h : List Byte) : Nat := be h 16 4
def imgSigned (h : List Byte) : Nat := 528 + 80 * be h 27 1
def imgLen (h : List Byte) : Nat := imgSigned h + sigLen (be h 25 1) + imgCode h

/-- A protection window's entry is in order. -/
def winOk (h : List Byte) (i : Nat) : Bool :=
  let w := sub h (144 + 24 * i) 24
  if i < be h 30 1 then
    be w 0 8 % 4096 == 0 && (be w 8 8 + 1) % 4096 == 0 && decide (be w 0 8 ≤ be w 8 8) && decide (be w 16 4 < 512) && be w 20 4 == 0
  else zeros w

/-- A key entry is in order (R501). -/
def keyOk (e : List Byte) : Bool :=
  decide (be e 0 1 < 64) && decide (be e 1 1 < 4) && decide (be e 2 1 < 8) && zeros (sub e 3 13) && zeros (sub e (16 + pkLen (be e 1 1)) (64 - pkLen (be e 1 1)))

/-- Every field of the signed part is in its range. -/
def fieldsOk (h signed : List Byte) : Bool :=
  let code := imgCode h
  let entry := be h 20 4
  let pset := be h 25 1
  decide (be h 6 2 < 4) && decide (be h 12 4 ≤ 64) && code % 4 == 0 && decide (4 ≤ code ∧ code ≤ 6291456) &&
  decide (0x400000 ≤ entry ∧ entry < 0x400000 + code / 4) && decide (be h 24 1 < 4) && decide (pset < 3) && decide (be h 26 1 < 16) &&
  decide (be h 27 1 ≤ 64) && decide (be h 28 2 ≤ 3600) && decide (be h 30 1 ≤ 16) && be h 31 1 == 0 &&
  zeros (sub h (32 + pkLen pset) (64 - pkLen pset)) && (List.range 16).all (winOk h) &&
  (List.range (be h 27 1)).all (fun i => keyOk (sub signed (528 + 80 * i) 80))

/-- Check an image (R502) that `rd` reads by offset and length: the code of the first check that fails, 0 if it passes. `named` is the length
named, and `upTo` the last check to make. -/
def imageCheck (f : Fuses) (min : Nat) (rd : Nat → Nat → List Byte) (named : Option Nat) (upTo : Nat) : Nat :=
  let h := rd 0 528
  if be h 0 4 ≠ 0x444E4657 ∨ be h 4 2 ≠ 1 then 1
  else
    let signed := rd 0 (imgSigned h)
    let pset := be h 25 1
    let root := be h 24 1
    if !fieldsOk h signed then 2
    else if f.revoked.contains root ∨ beBytes 48 (Config.sha384 (sub h 32 64 ++ [BitVec.ofNat 8 pset])).toNat ≠ mget [] f.roots root then 3
    else if !Config.slhVerify pset (sub h 32 (pkLen pset)) signed (rd (imgSigned h) (sigLen pset)) then 4
    else if upTo < 5 then 0
    else if beBytes 48 (Config.sha384 (rd (imgSigned h + sigLen pset) (imgCode h))).toNat ≠ sub h 96 48 then 5
    else if be h 12 4 < min then 6
    else match named with
      | some n => if n ≠ imgLen h then 8 else 0
      | none => 0

def slotBase (s : Nat) : Nat := s * 0x1000000
def Dev.slotRead (d : Dev) (s o n : Nat) : List Byte := readFlash d.flash (slotBase s + o) n
def Dev.hbmImg (d : Dev) : Nat := d.pair (bootReg 0x18) / 0x4000000 * 0x4000000
def Dev.hbmRead (d : Dev) (o n : Nat) : List Byte := d.read (d.hbmImg + o) n
def Dev.secMin (d : Dev) : Nat := d.rfld (secReg 0xA0) 6 0

/-- SHA-384 of the signed part of an image. -/
def signedHash (rd : Nat → Nat → List Byte) : List Byte := beBytes 48 (Config.sha384 (rd 0 (imgSigned (rd 0 528)))).toNat

/-! ### Key slots and the log (R510, R515, R525) -/

def Dev.keySlot (d : Dev) (k : Nat) : KeySlot := mget {} d.sec.keys k
def Dev.setKey (d : Dev) (k : Nat) (x : KeySlot) : Dev := { d with sec := { d.sec with keys := mset {} d.sec.keys k x } }
def Dev.locked (d : Dev) : Bool := d.rbit (secReg 0) 0

/-- The selected slot may be written: a host slot only until the set-up is locked. -/
def Dev.keyMay (d : Dev) (k : Nat) (act : Dev → Dev) : Dev := if k < 64 ∧ d.locked then d.setBit (secReg 0xF4) 1 true else act d

/-- SEC.KEY_CTRL.WRITE stores the slot that KEY_SEL names. (DEDUCED, log 74.) -/
def Dev.keyWrite (d : Dev) (v : W32) : Dev :=
  let k := d.rfld (secReg 0x40) 7 0
  if !v.getLsbD 0 then d
  else d.keyMay k (fun d =>
    let ws := (List.range 16).map (fun i => d.reg (banked (secReg (0x50 + 4 * i)) k))
    let info := d.reg (banked (secReg 0x44) k)
    d.setKey k (if k < 64 then { typ := 1, roles := fld info 10 8, pset := fld info 7 4, data := ws } else { typ := 2, data := ws.take 8 }))

def Dev.keyClear (d : Dev) (v : W32) : Dev :=
  let k := d.rfld (secReg 0x40) 7 0
  if !v.getLsbD 1 then d else d.keyMay k (fun d => d.setKey k {})

/-- Append an entry to the measurement log (R515). -/
def Dev.measure (d : Dev) (ty index : Nat) (digest : List Byte) : Dev :=
  if 1024 ≤ d.sec.log.length then d.setBit (secReg 0xF4) 3 true
  else { d with sec := { d.sec with log := d.sec.log ++ [(ty, index, digest)] } }

/-- SEC.MEAS_CTRL. -/
def Dev.measAppend (d : Dev) (v : W32) : Dev :=
  d.measure (fld v 31 24) (fld v 23 0) ((List.range 12).flatMap (fun i => beBytes 4 (d.reg (secReg (0xC0 + 4 * i))).toNat))

/-- An entry whose digest the spec does not determine: free bytes. (DESIGN CHOICE, log 73.) -/
def Dev.measureFree (d : Dev) (ty : Nat) : Dev :=
  let bs := (List.range 48).map (fun i => (Config.freeValue (d.fresh + i)).extractLsb' 0 8)
  let ix := fld (Config.freeValue (d.fresh + 48)) 23 0
  ({ d with fresh := d.fresh + 49 } : Dev).measure ty ix bs

/-! ### The ROM (R503 to R507, R511, R513) -/

/-- A window of the set-up as the registers hold it: base, limit, permissions. -/
def Dev.winOf (d : Dev) (i : Nat) : Nat × Nat × Nat :=
  ((d.reg (banked (secReg 0x14) i)).toNat + (d.reg (banked (secReg 0x18) i)).toNat * 2 ^ 32,
   (d.reg (banked (secReg 0x1C) i)).toNat + (d.reg (banked (secReg 0x20) i)).toNat * 2 ^ 32, d.rfld (banked (secReg 0x24) i) 8 0)

def Dev.setWin (d : Dev) (i base limit perm : Nat) : Dev :=
  ((((d.setReg (banked (secReg 0x14) i) (BitVec.ofNat 32 base)).setReg (banked (secReg 0x18) i) (BitVec.ofNat 32 (base / 2 ^ 32))).setReg
    (banked (secReg 0x1C) i) (BitVec.ofNat 32 limit)).setReg (banked (secReg 0x20) i) (BitVec.ofNat 32 (limit / 2 ^ 32))).setReg (banked (secReg 0x24) i)
    (BitVec.ofNat 32 perm)

/-- The key slots that an image's entries name. -/
def imageKeys (h signed : List Byte) : List (Nat × KeySlot) :=
  (List.range (be h 27 1)).map (fun i =>
    let e := sub signed (528 + 80 * i) 80
    (be e 0 1, { typ := 1, roles := be e 2 1, pset := be e 1 1, data := (List.range 16).map (fun j => BitVec.ofNat 32 (be e (16 + 4 * j) 4)) }))

def Dev.installKeys (d : Dev) (ks : List (Nat × KeySlot)) : Dev := ks.foldl (fun d x => d.setKey x.1 x.2) d

/-- The windows, debug lock and host keys of an image are those in force. -/
def Dev.setupSame (d : Dev) (h signed : List Byte) : Bool :=
  let want := ({ d with sec := { d.sec with keys := [] } } : Dev).installKeys (imageKeys h signed)
  (List.range 16).all (fun i => d.winOf i == (be h (144 + 24 * i) 8, be h (152 + 24 * i) 8, be h (160 + 24 * i) 4)) &&
  d.rbit (secReg 4) 0 == decide (be h 6 2 / 2 % 2 = 1) && (List.range 64).all (fun k => d.keySlot k == want.keySlot k)

/-- Step 6 of R506 for an image whose parts `rd` reads: the set-up, the RWB fields, the log, the false-start count; the code is in Steward SRAM. -/
def Dev.handover (d : Dev) (rd : Nat → Nat → List Byte) (slot : Nat) : Dev :=
  let h := rd 0 528
  let signed := rd 0 (imgSigned h)
  let d := d.write sramBase (rd (imgSigned h + sigLen (be h 25 1)) (imgCode h))
  let d :=
    if d.locked then (if d.setupSame h signed then d else (d.setBit (bootReg 8) 6 true).raiseFree 648 0)
    else
      let d := (List.range 16).foldl (fun (d : Dev) i => d.setWin i (be h (144 + 24 * i) 8) (be h (152 + 24 * i) 8) (be h (160 + 24 * i) 4)) d
      let d := d.setBit (secReg 4) 0 (decide (be h 6 2 / 2 % 2 = 1))
      ({ d with sec := { d.sec with keys := d.sec.keys.filter (fun c => 64 ≤ c.1) } } : Dev).installKeys (imageKeys h signed)
  let d := (d.setBit (rstReg 0x14) 31 (be h 6 2 % 2 == 1)).setFld (bootReg 0xC) 11 0 (if be h 28 2 = 0 then 30 else be h 28 2)
  let d := if be h 26 1 = 0 then d else d.setFld (bakReg 0x20) 3 0 (be h 26 1)
  let d := (((d.measureFree 1).measureFree 2).measure 3 slot (signedHash rd)).measureFree 4
  let d := d.setFld (bakReg 8) 3 0 (min 15 (d.rfld (bakReg 8) 3 0 + 1))
  { d with sec := { d.sec with secver := be h 12 4 }, boot := { d.boot with entry := some (be h 20 4) } }

/-- Ask for the domains of warm-up mode (R513) in an order that meets R487. (DESIGN CHOICE, log 73.) -/
def Dev.warmupPower (d : Dev) : Dev :=
  let offs := (List.range 16).map (2 * ·) ++ (List.range 16).map (2 * · + 1) ++ [32, 33, 34, 35, 38, 40, 42, 44, 45, 46, 47, 43]
  let asks := offs.map (fun k => (k, false)) ++ [(37, true), (39, true), (41, true)]
  let asks := asks.filter (fun x => d.domState x.1 != (if x.2 then 2 else 0))
  let d := asks.foldl (fun (d : Dev) x => d.setBit (domReg x.1) 0 x.2) d
  let idle := d.domQ.isEmpty
  let d := { d with domQ := d.domQ ++ asks }
  if idle then d.domNext (asks.length + 1) else d

/-- The ROM enters warm-up mode (R513). -/
def Dev.warmup (d : Dev) (f : Fuses) (cause : Nat) : Dev :=
  let rd := d.slotRead d.activeSlot
  let h := rd 0 528
  let keys := if d.locked ∨ imageCheck (d.shadows f) d.secMin rd none 4 ≠ 0 then [] else imageKeys h (rd 0 (imgSigned h))
  let d := d.installKeys keys
  let (w, d) := d.free
  let d := d.setKey 0 { typ := 1, roles := 5, pset := w.toNat % 4, data := (List.range 16).map (fun i => BitVec.ofNat 32 (be (d.shadows f).recovery (4 * i) 4)) }
  let d := (d.setBit (rstReg 0x14) 31 false).setBit (bootReg 8) 1 false
  let d := ((d.setFld (bootReg 8) 15 8 cause).setBit (bootReg 8) 7 true).ethMode 0 ((d.reg (ethReg 0 0) &&& ~~~7#32) ||| 4#32)
  d.warmupPower

/-- The identity key and the factory certificate (R516, R517). -/
def idSeed (f : Fuses) : List Byte := Config.hkdf (BitVec.ofNat 8 68 :: [78, 57, 54, 52, 48, 45, 73, 68]) f.seed
  [83, 76, 72, 45, 68, 83, 65, 45, 83, 72, 65, 50, 45, 49, 50, 56, 102] 48
def Dev.identity (d : Dev) (f : Fuses) : Dev :=
  if d.rbit (rstReg 4) 1 then (d.setBit (secReg 0xF4) 0 false).setBit (secReg 0xF4) 2 false
  else
    let cert := readFlash d.flash 0x2000000 64
    let ok := be cert 0 4 == 0x444E4354 && sub cert 16 32 == Config.slhPublic (idSeed f) &&
      beBytes 48 (Config.sha384 (readFlash d.flash 0x2000000 29856)).toNat == f.cert
    (d.setBit (secReg 0xF4) 0 true).setBit (secReg 0xF4) 2 ok

/-- An attempt to boot slot `s` from flash: its R502 code is kept in BOOT.SLOTERR. -/
def Dev.trySlot (d : Dev) (f : Fuses) (s : Nat) : Nat × Dev :=
  let c := imageCheck (d.shadows f) d.secMin (d.slotRead s) none 6
  (c, d.setFld (bootReg 0x10) (4 * s + 3) (4 * s) c)

/-- The status of a boot from slot `s`: FWACT, TRIAL, FALLBACK, REVERTED. (DEDUCED, log 72.) -/
def Dev.bootStatus (d : Dev) (s : Nat) (fallback reverted : Bool) : Dev :=
  let trial := match d.currentRec with | some r => r.trial && r.slot == s | none => false
  d.setReg (bootReg 8) (BitVec.ofNat 32 (s + (if trial then 8 else 0) + (if fallback then 16 else 0) + (if reverted then 32 else 0)))

/-- Boot the active slot, then the other (R503 to R505). (DEDUCED, log 72.) -/
def Dev.bootFlash (d : Dev) (f : Fuses) (reverted : Bool) : Dev :=
  let s := d.activeSlot
  match d.trySlot f s with
  | (0, d) => (d.bootStatus s false reverted).handover (d.slotRead s) s
  | (_, d) =>
    match d.trySlot f (1 - s) with
    | (0, d) => ((d.bootStatus (1 - s) true reverted).raiseFree 647 0).handover (d.slotRead (1 - s)) (1 - s)
    | (_, d) => (d.setReg (bootReg 8) 0).warmup f 3

/-- The false-start limit (R505). -/
def Dev.fsLimit (d : Dev) : Nat := let n := d.rfld (bakReg 0x20) 3 0; if n = 0 then 3 else n

/-- The ROM's decisions from PC 0 to the handover or warm-up mode (R503 to R506). (DEDUCED, log 72. DESIGN CHOICE, log 75.) -/
def Dev.bootRom (d : Dev) (f : Fuses) : Dev :=
  if !d.stew.on || d.stew.core.pc != 0 || d.rbit (bootReg 4) 0 || d.boot.entry.isSome || d.rbit (bootReg 8) 7 then d
  else
    let d := d.identity f
    let src := d.rfld (bootReg 0) 1 0
    let reach := d.rfld (rstReg 0) 9 8
    if d.rbit (rstReg 4) 1 then d.warmup f 4
    else if d.fsLimit ≤ d.rfld (bakReg 8) 3 0 then d.warmup f 1
    else
      match d.currentRec with
      | some r =>
        if r.trial ∧ d.rfld (bakReg 8) 3 0 ≠ 0 then (d.writeRec (1 - r.slot) false (signedHash (d.slotRead (1 - r.slot)))).bootFlash f true
        else if src = 3 then d.warmup f 2
        else if src = 1 then d.warmup f 5
        else if (reach = 3 ∨ (reach = 1 ∧ src = 2)) ∧ signedHash d.hbmRead = r.hash ∧ imageCheck (d.shadows f) d.secMin d.hbmRead none 6 = 0 then
          (d.bootStatus r.slot false false).handover d.hbmRead r.slot
        else d.bootFlash f false
      | none => if src = 3 then d.warmup f 2 else if src = 1 then d.warmup f 5 else d.bootFlash f false

/-- BOOT.CTRL.BOOT_LOCK (R506, R507): boot code ends, the set-up is locked and the boot window starts. -/
def Dev.bootLock (d : Dev) : Dev := (((d.setBit (bootReg 4) 0 true).setBit (secReg 0) 0 true).setBit (bootReg 8) 1 true).setBit (bootReg 8) 2 false

/-- The handover: the lock is written, and the Steward jumps to ENTRY. (DESIGN CHOICE, log 75.) -/
def Dev.bootLockRow (d : Dev) (v : W32) : Dev :=
  if !v.getLsbD 0 || d.rbit (bootReg 4) 0 then d
  else
    let d := d.bootLock
    match d.boot.entry with
    | some e => { d.modStew (fun s => { s with core := { s.core with pc := e } }) with boot := { d.boot with entry := none } }
    | none => d

/-- BOOT.CTRL.BOOT_OK (R512). -/
def Dev.bootOk (d : Dev) (v : W32) : Dev :=
  if v.getLsbD 1 && d.rbit (bootReg 8) 1 then ((d.setBit (bootReg 8) 1 false).setBit (bootReg 8) 2 true).setFld (bakReg 8) 3 0 0 else d

def Dev.bootWindowEnd (d : Dev) : Dev := if d.rbit (bootReg 8) 1 then d.coldReset 13 0 else d

/-! ### Flash operations (R518, R524) -/

/-- Program and erase are refused for the active slot, outside warm-up mode, and for the certificate area. (DEDUCED, log 74.) -/
def Dev.flashRefuses (d : Dev) (op a n : Nat) : Bool :=
  let hits := fun (lo hi : Nat) => decide (a < hi ∧ lo < a + n)
  decide (0x4000000 < a + n) || (op == 2 && (a % 65536 != 0 || n % 65536 != 0)) ||
  ((op == 1 || op == 2) && (hits 0x2000000 0x2010000 ||
    (!d.rbit (bootReg 8) 7 && hits (slotBase d.activeSlot) (slotBase d.activeSlot + 0x1000000))))

/-- A buffer lies in HBM or Steward SRAM. -/
def bufOk (a n : Nat) : Bool := decide (a + n ≤ hbmSize) || decide (sramBase ≤ a ∧ a + n ≤ sramBase + 0x800000)

/-- BOOT.FL_CTRL.GO with operation `op`. (DEDUCED, log 74.) -/
def Dev.flashGo (d : Dev) (op : Nat) (v : W32) : Dev :=
  let d := d.setFld (flashReg 0x10) 1 0 (fld v 1 0)
  if fld v 1 0 ≠ op ∨ !v.getLsbD 31 ∨ d.rbit (flashReg 0x14) 0 then d
  else
    let a := d.rfld (flashReg 0) 25 0
    let n := d.rfld (flashReg 4) 23 0
    let b := d.pair (flashReg 8)
    if d.flashRefuses op a n || (op != 2 && !bufOk b n) then d.setBit (flashReg 0x14) 1 true
    else { d.setBit (flashReg 0x14) 0 true with boot := { d.boot with flash := some (op, a, n, b) } }

/-- The operation under way completes, or fails. Programming clears bits only. (DEDUCED, log 74.) -/
def Dev.flashDone (d : Dev) (ok : Bool) : Dev :=
  match d.boot.flash with
  | none => d
  | some (op, a, n, b) =>
    let d := { d.setBit (flashReg 0x14) 0 false with boot := { d.boot with flash := none } }
    if !ok then d.setBit (flashReg 0x14) 1 true
    else if op = 0 then d.write b (readFlash d.flash a n)
    else if op = 1 then { d with flash := writeFlash d.flash a ((List.zip (readFlash d.flash a n) (d.read b n)).map (fun x => x.1 &&& x.2)) }
    else if op = 2 then { d with flash := mclear d.flash (inBlock a (a + n)) }
    else if readFlash d.flash a n = d.read b n then d else d.setBit (flashReg 0x14) 2 true

/-- SEC.SECVER_BURN: MIN rises, within the running image's SECVER and after BOOT_OK. -/
def Dev.secverBurn (d : Dev) (v : W32) : Dev :=
  let n := fld v 6 0
  if !d.rbit (bootReg 8) 2 ∨ d.sec.secver < n ∨ n ≤ d.secMin then d else d.setFld (secReg 0xA0) 6 0 n

/-- The state with a device whose SECVER.MIN may have risen: the fuses hold what was burnt. -/
def State.put (s : State) (d : Dev) : State :=
  { s with dev := d, fuses := if d.secMin = s.dev.secMin then s.fuses else { s.fuses with secver := max s.fuses.secver d.secMin } }

/-! ### Commands -/

def execBootRomEntry (s : State) : Host.Outcome State Fault Refusal := .next { s with dev := s.dev.bootRom s.fuses }
def execBootLock (v : W32) (s : State) : Host.Outcome State Fault Refusal := .next { s with dev := s.dev.bootLockRow v }
def execBootOk (v : W32) (s : State) : Host.Outcome State Fault Refusal := .next { s with dev := s.dev.bootOk v }
def execBootWindowExpiry (s : State) : Host.Outcome State Fault Refusal := .next { s with dev := s.dev.bootWindowEnd }
def execFlashRead (v : W32) (s : State) : Host.Outcome State Fault Refusal := .next { s with dev := s.dev.flashGo 0 v }
def execFlashProgram (v : W32) (s : State) : Host.Outcome State Fault Refusal := .next { s with dev := s.dev.flashGo 1 v }
def execFlashErase (v : W32) (s : State) : Host.Outcome State Fault Refusal := .next { s with dev := s.dev.flashGo 2 v }
def execFlashCompare (v : W32) (s : State) : Host.Outcome State Fault Refusal := .next { s with dev := s.dev.flashGo 3 v }
def execFlashOpDone (ok : Bool) (s : State) : Host.Outcome State Fault Refusal := .next { s with dev := s.dev.flashDone ok }
def execKeyWrite (v : W32) (s : State) : Host.Outcome State Fault Refusal :=
  .next { s with dev := s.dev.writes (secReg 0x90) (s.dev.keyWrite v) }
def execKeyClear (v : W32) (s : State) : Host.Outcome State Fault Refusal :=
  .next { s with dev := s.dev.writes (secReg 0x90) (s.dev.keyClear v) }
def execSecverBurn (v : W32) (s : State) : Host.Outcome State Fault Refusal :=
  .next (s.put (s.dev.writes (secReg 0xA4) (s.dev.secverBurn v)))
def execMeasAppend (v : W32) (s : State) : Host.Outcome State Fault Refusal :=
  .next { s with dev := s.dev.writes (secReg 0xB0) (s.dev.measAppend v) }

end Sys2Proof.Machine
end

