-- ==== Sys2Proof/Machine/Bus.lean ====
section
/-!
DEFINITION. The configuration bus (R6 to R14): reads and writes of every register by address, with the fields that hardware computes, the
registers that a SEL register banks, 64-bit pairs, and the writes that start an action.
-/
namespace Sys2Proof.Machine

/-! ### Registers, pairs and banks -/

/-- The register at an address. ISO registers are in the die fabrics only; PARK, the marshalling buffer and block isolation in the hub only. -/
def regAt (a : Nat) : Option RegLoc :=
  match regLoc a with
  | some l => if l.blk = .noc ∧ 0x24 ≤ l.off ∧ ((l.inst = 4 ∧ l.off < 0x40) ∨ (l.inst ≠ 4 ∧ 0x40 ≤ l.off)) then none else some l
  | none => none

/-- Offsets of the _LO halves of a block's pairs (R9). (DESIGN CHOICE, log 76.) -/
def pairOffs : Blk → List Nat
  | .ctx => [0x24, 0x100]
  | .gw => [0]
  | .rc => [0x14]
  | .hbm => [0xC]
  | .lck => [0x18]
  | .dmaCh => [0xC, 0x20, 0x28, 0x4C]
  | .noc => [0x44]
  | .afe => [4, 0x50]
  | .tch => [0x20, 0x28]
  | .seg => [0x10]
  | .ing => [0xC, 0x14]
  | .eth => [0x10, 0x18, 0x20, 0x28, 0x30, 0x3C, 0x50, 0x58, 0x6C, 0x74]
  | .ptp => [0, 8, 0x1C]
  | .rly => [0x18, 0x20, 0x34]
  | .cmd => [0x14]
  | .bak => 0x10 :: (List.range 16).map (fun k => 0x40 + 8 * k)
  | .boot => [0x18]
  | .flash => [8]
  | .sec => [0x14, 0x1C]
  | .hlt => [0xC, 0x38]
  | _ => []

def RegLoc.isLo (l : RegLoc) : Bool := (pairOffs l.blk).contains l.off
def RegLoc.isHi (l : RegLoc) : Bool := decide (4 ≤ l.off) && (pairOffs l.blk).contains (l.off - 4)

/-- The base of a register's block. -/
def RegLoc.base (l : RegLoc) (a : Nat) : Nat := a - l.off

/-- The entry that a SEL register selects for a banked register; none for another register. -/
def Dev.bankSel (d : Dev) (l : RegLoc) (a : Nat) : Option Nat :=
  let b := l.base a
  let within := fun (lo hi : Nat) => decide (lo ≤ l.off ∧ l.off ≤ hi)
  match l.blk with
  | .evt => if l.off = 4 ∨ l.off = 0x14 ∨ l.off = 0x18 then some (d.rfld b 9 0) else none
  | .sec => if within 0x14 0x24 then some (d.rfld (b + 0x10) 3 0) else if within 0x44 0x8C then some (d.rfld (b + 0x40) 7 0) else none
  | .eth => if within 0x68 0x78 then some (d.rfld (b + 0x64) 9 0) else none
  | .rly =>
    if within 0x30 0x40 then some (d.rfld (b + 0x2C) 7 0) else if l.off = 0x48 then some (d.rfld (b + 0x44) 13 0)
    else if l.off = 0x74 ∨ l.off = 0x78 then some (d.rfld (b + 0x70) 5 0) else none
  | .hlt => if l.off = 0x2C then some (d.rfld (b + 0x28) 11 0) else if within 0x34 0x48 then some (d.rfld (b + 0x30) 11 0) else none
  | .gw => if l.off = 0x2C ∨ l.off = 0x34 then some (d.rfld (b + 0x1C) 7 0) else none
  | _ => none

/-- Where the value of a register is kept. -/
def Dev.regKey (d : Dev) (l : RegLoc) (a : Nat) : Nat :=
  match d.bankSel l a with | some k => banked a k | none => a

/-! ### Reading -/

/-- Half `hi` of a 64-bit value. -/
def halfOf (v : Nat) (hi : Bool) : W32 := BitVec.ofNat 32 (if hi then v / 2 ^ 32 else v)

/-- Registers of tile blocks: `k` is the tile. -/
def Dev.liveTile (d : Dev) (f : Fuses) (l : RegLoc) (v : W32) : W32 :=
  match l.blk with
  | .clu =>
    if l.off = 0 then putFld v 20 16 ((d.logicalOf (l.inst / 17) (l.inst % 17)).getD 31)
    else if l.off = 8 then putFld v 20 16 (d.fmax f) else v
  | .fu =>
    let u := d.fu l.inst
    if l.off = 0 then BitVec.ofNat 32 u.slice.length
    else if l.off = 8 then putFld v 6 0 (u.slice.filter (fun c => decide (1984 ≤ c.1))).length
    else if l.off = 0x18 then putFld (putFld v 7 7 (if u.rebuild then 1 else 0)) 6 6 (if u.oflFull then 1 else 0) else v
  | .node =>
    if l.off = 0x10 then BitVec.ofNat 32 (d.maskOf l.inst (d.rfld (nodeReg (l.inst / 17) (l.inst % 17) 0xC) 14 0))
    else if l.off = 0x14 then BitVec.ofNat 32 ((d.tile l.inst).masks.filter (fun c => c.2 / 16 % 2 == 1)).length else v
  | .se => if l.off = 4 then putFld v 0 0 (if (d.tile l.inst).stride.run.isSome then 1 else 0) else v
  | .rc => if l.off = 0xC then putFld v 0 0 (if (d.tile l.inst).runner.item.isNone then 1 else 0) else v
  | .spm =>
    if l.off = 4 then
      (List.range 4).foldl (fun w b => let x := d.bank l.inst b; putFld (putFld w (2 * b + 1) (2 * b) x.state) (8 + b) (8 + b) (if x.target.isSome then 1 else 0)) 0
    else v
  | _ => v

/-- Registers of region blocks. -/
def Dev.liveRegion (d : Dev) (l : RegLoc) (v : W32) : W32 :=
  let g := l.inst
  match l.blk with
  | .ctx =>
    let p := (d.region g).pool
    let c := BitVec.ofNat 22 (g * 2 ^ 18 + d.rfld (ctxReg g 0x20) 17 0)
    if l.off = 0 then BitVec.ofNat 32 (Pool.freeCount p)
    else if l.off = 0x10 then putFld v 2 2 (if p.sweeps.isEmpty then 0 else 1)
    else if l.off = 0x14 then BitVec.ofNat 32 (min 65535 p.wait.length)
    else if l.off = 0x24 then halfOf (d.ctxDesc c).toNat false
    else if l.off = 0x28 then halfOf (d.ctxDesc c).toNat true
    else if l.off = 0x11C then putFld v 1 1 (if (regionFus g).any (fun k => (d.fu k).oflFull) then 1 else 0) else v
  | .pac =>
    let n := (d.region g).pacer.length
    if l.off = 4 then BitVec.ofNat 32 n else if l.off = 0x10 then putFld v 0 0 (if 65536 ≤ n then 1 else 0) else v
  | .gw =>
    let slot := d.hrdSel g
    let h := d.hurdle g slot
    if l.off = 0xC then BitVec.ofNat 32 (d.holdUsed g)
    else if l.off = 0x18 then BitVec.ofNat 32 ((d.region g).hurdles.filter (fun c => c.2.nsrc != 0)).length
    else if l.off = 0x20 then (if h.nsrc = 0 then 0 else BitVec.ofNat 32 (h.graph.toNat * 65536 + h.nsrc))
    else if l.off = 0x24 then h.e.zeroExtend 32
    else if l.off = 0x28 then BitVec.ofNat 32 h.pendBits
    else if l.off = 0x34 then putFld v 0 0 (if h.nsrc != 0 && d.hrdStopped g slot then 1 else 0) else v
  | .stw =>
    if l.off = 0x10 then putFld (putFld v 2 2 (if d.heldWork g then 1 else 0)) 1 0 (if d.regionOpen g && d.rbit (stwReg g 0) 0 then (d.region g).stw.stage else 0) else v
  | .lck =>
    let u := d.lck g
    if l.off = 8 then BitVec.ofNat 32 u.leases.length
    else if l.off = 0x10 then BitVec.ofNat 32 u.wait.length
    else if l.off = 0x20 then putFld (putFld v 7 7 (if u.recov then 1 else 0)) 6 6 (if 4096 ≤ u.leases.length then 1 else 0) else v
  | .dma =>
    if l.off = 0 then BitVec.ofNat 32 ((List.range 32).foldl (fun n c => if (d.dmaCh g c).busy then n + 2 ^ c else n) 0) else v
  | .rgn =>
    if l.off = 0x30 then putFld v 1 1 (if (d.dom g).flip then 1 else 0) else if l.off = 0x38 then d.reserveWord g else v
  | _ => v

/-- A DMA channel's registers (R343). -/
def Dev.liveDma (d : Dev) (l : RegLoc) (v : W32) : W32 :=
  let x := d.dmaCh (l.inst / 32) (l.inst % 32)
  if l.off = 4 then putFld (putFld v 0 0 (if x.busy then 1 else 0)) 15 8 x.pend
  else if l.off = 8 then BitVec.ofNat 32 ((x.total - x.issued) / 32) else v

/-- The head packet of the call room (R409). -/
def Dev.crStat (d : Dev) : W32 :=
  BitVec.ofNat 32 (min 1024 d.ing.cr.length + (match d.ing.cr with | [] => 0 | c :: _ => 2 ^ 31 + c.origin % 16 * 2 ^ 27 + c.bytes.length % 2048 * 2 ^ 16))

/-- Sessions in a state. -/
def Dev.sessCount (d : Dev) (st : Nat) : Nat := (d.fcp.sess.filter (fun c => c.2.st == st)).length

/-- Registers of the hub and measurement dies. -/
def Dev.liveHub (d : Dev) (l : RegLoc) (a : Nat) (v : W32) : W32 :=
  let b := l.base a
  match l.blk with
  | .noc => if l.off = 0x20 then (let x := d.dom (16 + l.inst); putFld (putFld v 3 3 (if x.epoch then 1 else 0)) 1 1 (if x.flip then 1 else 0)) else v
  | .trip => if 0x200 ≤ l.off then d.tripCause l.idx else v
  | .seg => if l.off = 8 then putFld v 0 0 (if d.segOn l.inst then 1 else 0) else v
  | .ing =>
    if l.off = 0x24 then BitVec.ofNat 32 d.freeFlows
    else if l.off = 0x28 then BitVec.ofNat 32 d.ing.streams.length
    else if l.off = 0x30 then putFld v 5 5 (if d.freeFlows = 0 then 1 else 0)
    else if l.off = 0x34 then d.crStat
    else if l.off = 0x38 then d.crRead.1
    else if l.off = 0x44 then putFld v 30 30 (if d.crBusy then 1 else 0) else v
  | .eth =>
    let x := d.ethPort l.inst
    if l.off = 0x44 then putFld v 30 30 (if x.busy then 1 else 0)
    else if l.off = 0x50 then halfOf (mget 0 x.cnt (d.rfld (b + 0x4C) 5 0)) false
    else if l.off = 0x54 then halfOf (mget 0 x.cnt (d.rfld (b + 0x4C) 5 0)) true
    else if l.off = 8 then v &&& ~~~(BitVec.ofNat 32 (2 ^ (8 + fld v 2 0)))
    else if l.off = 0x14 ∨ l.off = 0x1C ∨ l.off = 0x24 ∨ l.off = 0x2C then v &&& 0xFFFF else v
  | .ptp => if l.off = 0 then halfOf d.time.toNat false else if l.off = 4 then halfOf d.time.toNat true else v
  | .rly =>
    if l.off = 0x3C then (let x := d.peer (d.rfld (b + 0x2C) 7 0); BitVec.ofNat 32 (x.st * 2 ^ 30 + x.dev.toNat))
    else if l.off = 0x38 then v &&& 0xFFFF
    else if l.off = 0x48 then putFld v 30 30 (if d.rly.moves.any (fun m => m.1 == d.rfld (b + 0x44) 13 0) then 1 else 0)
    else if l.off = 0x7C then putFld v 0 0 (if d.rly.peers.any (fun c => decide (d.ringRecs ≤ c.2.ring.length)) then 1 else 0) else v
  | .cmd =>
    let x := mget {} d.fcp.sess (d.rfld (b + 0x28) 5 0 + 1)
    if l.off = 0x20 then BitVec.ofNat 32 (d.sessCount 2 + d.sessCount 1 * 65536)
    else if l.off = 0x2C then BitVec.ofNat 32 ((if x.run.isSome then 3 else x.st) * 2 ^ 30 + x.roles % 8 * 2 ^ 27 + x.slot % 256 * 65536 + x.ev % 256)
    else if l.off = 0x30 then x.last
    else if l.off = 0x34 then BitVec.ofNat 32 (d.ing.quiesce.filter (·.isSome)).length else v
  | .sec =>
    let k := d.rfld (b + 0x40) 7 0
    let x := d.keySlot k
    if l.off = 0x14 ∨ l.off = 0x1C then (if l.off = 0x14 then v &&& 0xFFFFF000 else v ||| 0xFFF)
    else if l.off = 0x44 then BitVec.ofNat 32 (x.typ + (if k < 64 then x.roles % 8 * 256 + x.pset % 16 * 16 else 0))
    else if 0x50 ≤ l.off ∧ l.off ≤ 0x8C then (if k < 64 then x.data.getD l.idx 0 else 0)
    else if l.off = 0xF0 then BitVec.ofNat 32 d.sec.log.length else v
  | .hlt => if l.off = 0x18 then BitVec.ofNat 32 d.jrnUsed else if l.off = 0x4C then BitVec.ofNat 32 d.pend.length else v
  | _ => v

/-- What a register reads as now (R11 to R13): the stored bits that can be read, and the fields that hardware computes. (DESIGN CHOICE, log 78.) -/
def Dev.regValue (d : Dev) (f : Fuses) (l : RegLoc) (a : Nat) : W32 :=
  let v := d.reg (d.regKey l a) &&& l.spec.rd
  match l.blk with
  | .clu | .fu | .node | .se | .rc | .spm => d.liveTile f l v
  | .ctx | .pac | .gw | .stw | .lck | .dma | .rgn => d.liveRegion l v
  | .dmaCh => d.liveDma l v
  | _ => d.liveHub l a v

/-- A read of a configuration address (R9, R11): a _LO half captures its _HI half, and a _HI half gives what the last read of its _LO half
captured. -/
def Dev.regRead (d : Dev) (f : Fuses) (a : Nat) : W32 × Dev :=
  match regAt a with
  | none => (0, d)
  | some l =>
    let v := d.regValue f l a
    if l.isLo then
      match regAt (a + 4) with
      | some h => (v, { d with hiCap := mput d.hiCap a (d.regValue f h (a + 4)) })
      | none => (v, d)
    else if l.isHi then (((d.hiCap.find? (fun c => c.1 == a - 4)).map (·.2)).getD v, d)
    else if l.blk = .ing ∧ l.off = 0x38 then d.crRead
    else (v, d)

/-! ### Writing -/

/-- A write by the access codes alone (R13); a _LO half is held and its _HI half makes both take effect (R9, R10). -/
def Dev.plainWrite (d : Dev) (l : RegLoc) (a : Nat) (v : W32) : Dev :=
  let boot := if l.blk = .sec then !d.locked else !d.rbit (bootReg 4) 0
  let key := d.regKey l a
  if l.isLo then (if l.spec.rw ||| l.spec.rwb ||| l.spec.wo = 0 then d else d.holdLo a v)
  else if l.isHi then
    let held := (d.loHeld.find? (fun c => c.1 == a - 4)).map (·.2)
    let d : Dev := { d with loHeld := mdel d.loHeld (a - 4) }
    let put := fun (d : Dev) (s : RegSpec) (x : W32) (k : Nat) => d.setReg k (accessWrite { s with rw := s.rw ||| s.wo } boot (d.reg k) x)
    match held, regAt (a - 4) with
    | some x, some lo => put (put d lo.spec x (key - 4)) l.spec v key
    | _, _ => put d l.spec v key
  else d.setReg key (accessWrite { l.spec with rw := l.spec.rw ||| l.spec.wo } boot (d.reg key) v)

/-- Writes to the blocks of a tile. -/
def Dev.writeTile (d : Dev) (f : Fuses) (l : RegLoc) (a : Nat) (v : W32) : Dev :=
  let k := l.inst
  match l.blk, l.off with
  | .clu, 4 => d.clkWrite k (d.fmax f) v
  | .clu, 0xC => d.cluSrst k v
  | .fu, 0x14 => (d.esHwmClr k v).rebuildStart k v
  | .fu, 0x1C => d.saltWrite k v
  | .node, 0x10 => d.maskData k v
  | .se, 0 => d.seSrst k v
  | .rc, 0x1C => d.rcSrst k v
  | .rc, 0 => d.rcConfig k 0 v
  | .rc, 4 => d.rcConfig k 4 v
  | .rc, 8 => d.rcConfig k 8 v
  | .spm, 0 => d.spmPwr k v
  | _, _ => d.plainWrite l a v

/-- Writes to the blocks of a region. -/
def Dev.writeRegion (d : Dev) (l : RegLoc) (a : Nat) (v : W32) : Dev :=
  let g := l.inst
  match l.blk, l.off with
  | .ctx, 0xC => d.ctxLowClr g v
  | .ctx, 0x100 => d.oflConfig g 0 v
  | .ctx, 0x104 => d.oflConfig g 4 v
  | .ctx, 0x108 => d.oflConfig g 8 v
  | .ctx, 0x118 => d.oflHwmClr g v
  | .pac, 0xC => d.pacHwmClr g v
  | .gw, 0 => d.holdConfig g 0 v
  | .gw, 4 => d.holdConfig g 4 v
  | .gw, 8 => d.holdConfig g 8 v
  | .gw, 0x14 => d.holdHwmClr g v
  | .gw, 0x2C => d.hrdStopSet g (d.hrdSel g) v
  | .gw, 0x30 => d.hrdForce g v
  | .stw, 4 => d.stwWindow g v
  | .lck, 0x14 => d.lckHwmClr g v
  | .lck, 0x1C => d.lockForce g v
  | .dma, 0xC => d.dmaSrst g (v.getLsbD 0)
  | .rgn, 0x30 => (d.plainWrite l a v).mapCommit g v
  | _, _ => d.plainWrite l a v

/-- A write of CH_CTRL (R338, R339, R341): while SRST is written 1 the channel is in reset; else its fields are set, then SHADOW_VALID, EN and
ABORT act. (DESIGN CHOICE, log 78.) -/
def Dev.chCtrlWrite (d : Dev) (g c : Nat) (v : W32) : Dev :=
  if v.getLsbD 2 then d.dmaChSrst g c true
  else
    let d := if d.rbit (chCtrl g c) 2 then d.dmaChSrst g c false else d
    let d := d.setReg (chCtrl g c) ((d.reg (chCtrl g c) &&& 0xD) ||| (v &&& 0x3F7310))
    let d := (d.dmaEn g c (v.getLsbD 0)).dmaShadow g c (v.getLsbD 3)
    if v.getLsbD 1 then d.dmaAbort g c else d

def Dev.writeDma (d : Dev) (l : RegLoc) (a : Nat) (v : W32) : Dev :=
  let g := l.inst / 32
  let c := l.inst % 32
  if l.off = 0 then d.chCtrlWrite g c v
  else if d.rbit (chCtrl g c) 2 then d
  else if 0x20 ≤ l.off then d.dmaShadowReg g c l.off v
  else d.plainWrite l a v

/-- A session of the relay link is up or syncing (R442). -/
def Dev.relayBusy (d : Dev) : Bool := d.rly.peers.any (fun c => c.2.st != 0)

/-- A field of a register is kept as it is. -/
def Dev.keepFld (d : Dev) (a hi lo : Nat) (v : W32) : W32 := putFld v hi lo (d.rfld a hi lo)

/-- Writes to the fabrics and the measurement die. -/
def Dev.writeMeas (d : Dev) (l : RegLoc) (a : Nat) (v : W32) : Dev :=
  match l.blk, l.off with
  | .dief, 0xC => d.diefSrst l.inst v
  | .noc, 0x20 => (d.plainWrite l a v).nocCommit l.inst v
  | .noc, 0x24 => d.isoSet l.inst v
  | .noc, 0x28 => d.isoLift (4 * l.inst) v
  | .noc, 0x2C => d.isoLift (4 * l.inst + 1) v
  | .noc, 0x30 => d.isoLift (4 * l.inst + 2) v
  | .noc, 0x34 => d.isoLift (4 * l.inst + 3) v
  | .noc, 0x40 => d.parkWrite v
  | .noc, 0x44 => if d.rfld (nocReg 4 0x40) 15 0 = 0 then d.plainWrite l a (v &&& 0xF0000000) else d
  | .noc, 0x48 => if d.rfld (nocReg 4 0x40) 15 0 = 0 then d.plainWrite l a v else { d with loHeld := mdel d.loHeld (a - 4) }
  | .noc, 0x50 => d.blkIsoSet v
  | .noc, 0x54 => d.blkIsoClear v
  | .afe, o => d.chWrite l.inst o l.spec.rw l.spec.w1c v
  | .afeCtl, 0 => d.calStart v
  | .aout, 0 => d.aoutCtrl l.inst v
  | .aout, 0xC => d.bindingWrite (32 + l.inst) false v
  | .aout, 0x10 => d.bindingWrite (32 + l.inst) true v
  | .trip, 0 => d.tripArm v
  | .trip, 4 => (d.plainWrite l a v).tripUpdate
  | .trip, 8 => (d.plainWrite l a v).tripUpdate
  | .trip, 0xC => d.tripReset v
  | .trip, 0x24 => (d.plainWrite l a v).tripUpdate
  | .trip, o => if 0x100 ≤ o ∧ o < 0x200 then d.bindingWrite l.idx (o % 8 == 4) v else d.plainWrite l a v
  | _, _ => d.plainWrite l a v

/-- Writes to Ethernet, time, relay, segments, ingest and the command interpreter. -/
def Dev.writeLink (d : Dev) (l : RegLoc) (a : Nat) (v : W32) : Dev :=
  match l.blk, l.off with
  | .eth, 0 => d.ethMode l.inst v
  | .eth, 8 => (d.plainWrite l a (v &&& ~~~(BitVec.ofNat 32 (2 ^ (8 + fld v 2 0))))).ethKick l.inst
  | .eth, 0xC => if 64 ≤ fld v 13 0 ∧ fld v 13 0 ≤ 9216 then d.plainWrite l a v else d
  | .eth, 0x44 => d.ethTxCtrl l.inst v
  | .eth, 0x60 => (d.plainWrite l a v).ethKick l.inst
  | .eth, 0x68 => (d.msecSaWrite l.inst (d.rfld (l.base a + 0x64) 9 0) v).ethKick l.inst
  | .eth, 0x70 => (d.plainWrite l a v).ethKick l.inst
  | .ptp, 0xC => d.ptpStep v
  | .ptp, 0x10 => d.setReg a (BitVec.ofInt 32 (max (-2147484) (min 2147484 v.toInt)))
  | .rly, 0 => if d.relayBusy then d else d.plainWrite l a v
  | .rly, 4 => if d.relayBusy then d else d.plainWrite l a v
  | .rly, 0x28 => if d.relayBusy then d else d.plainWrite l a v
  | .rly, 0x48 => d.routeWrite v
  | .seg, 0 => d.plainWrite l a (if 1 ≤ fld v 5 0 ∧ fld v 5 0 ≤ 32 then v else d.keepFld a 5 0 v)
  | .ing, 0xC => if d.ing.streams.isEmpty then d.plainWrite l a v else d
  | .ing, 0x10 => if d.ing.streams.isEmpty then d.plainWrite l a v else { d with loHeld := mdel d.loHeld (a - 4) }
  | .ing, 0x14 => if d.ing.streams.isEmpty then d.plainWrite l a v else d
  | .ing, 0x18 => if d.ing.streams.isEmpty then d.plainWrite l a v else { d with loHeld := mdel d.loHeld (a - 4) }
  | .ing, 0x3C => d.dropPkt v
  | .ing, 0x40 => d.modIng (fun i => { i with txbuf := i.txbuf ++ beBytes 4 v.toNat })
  | .ing, 0x44 => d.crTxCtrl v
  | .ing, 0xA0 =>
    let d := d.plainWrite l a (v &&& 4)
    let d := if v.getLsbD 1 then d.ftWrite else d
    if v.getLsbD 0 then d.ftRead else d
  | .cmd, 0xC => if 256 ≤ fld v 13 0 ∧ fld v 13 0 ≤ 8192 then d.plainWrite l a v else d
  | .cmd, 0x14 => if d.sessCount 2 = 0 then d.plainWrite l a v else d
  | .cmd, 0x18 => if d.sessCount 2 = 0 then d.plainWrite l a v else { d with loHeld := mdel d.loHeld (a - 4) }
  | .cmd, 0x1C => if d.sessCount 2 = 0 ∧ fld v 2 0 ≤ 4 then d.plainWrite l a v else d
  | _, _ => d.plainWrite l a v

/-- A write of RST.SWRST (R471, R476). (DEDUCED, log 70.) -/
def Dev.swrst (d : Dev) (v : W32) : Dev :=
  if swrstAsks v 1 then d.warmReset 7 0 else if swrstAsks v 2 then d.coldReset 6 0 else if swrstAsks v 3 then d.stewReset 12 0 else d

/-- Writes to reset, power, boot, security, events and health. -/
def Dev.writeSys (d : Dev) (f : Fuses) (l : RegLoc) (a : Nat) (v : W32) : Dev :=
  match l.blk, l.off with
  | .rst, 8 => d.swrst v
  | .rst, 0xC => d.hubSrst v
  | .rst, 0x10 => d.rgnSrst f v
  | .rst, 0x14 => d.plainWrite l a (if 10 ≤ fld v 19 0 ∧ fld v 19 0 ≤ 600000 then v else d.keepFld a 19 0 v)
  | .rst, 0x18 => d.wdogKick v
  | .pwr, 0 => d.openWrite v
  | .pwr, o => if 0x100 ≤ o then d.domWrite l.idx v else d.plainWrite l a v
  | .boot, 4 => (d.bootLockRow v).bootOk v
  | .boot, 0xC => if 1 ≤ fld v 11 0 ∧ fld v 11 0 ≤ 3600 then d.plainWrite l a v else d
  | .flash, 0x10 => d.flashGo (fld v 1 0) v
  | .sec, 0x90 => (d.keyWrite v).keyClear v
  | .sec, 0xA4 => d.secverBurn v
  | .sec, 0xB0 => d.measAppend v
  | .sec, o =>
    if 0x44 ≤ o ∧ o ≤ 0x8C then
      -- host slots follow the lock; the AES slots are written at any time
      let k := d.rfld (l.base a + 0x40) 7 0
      if k < 64 ∧ d.locked then d else d.setReg (d.regKey l a) (v &&& l.spec.rwb)
    else d.plainWrite l a v
  | .hlt, 4 => d.healthAck v
  | _, _ => d.plainWrite l a v

/-- A write of a configuration register. (DESIGN CHOICE, log 78.) -/
def Dev.regWrite (d : Dev) (f : Fuses) (a : Nat) (v : W32) : Dev :=
  match regAt a with
  | none => d
  | some l =>
    if d.heldInReset l a then d
    else
      match l.blk with
      | .clu | .fu | .node | .sch | .se | .rc | .spm => d.writeTile f l a v
      | .ctx | .pac | .gw | .stw | .lck | .dma | .rgn => d.writeRegion l a v
      | .dmaCh => d.writeDma l a v
      | .dief | .noc | .afe | .afeCtl | .tch | .aout | .trip => d.writeMeas l a v
      | .eth | .ptp | .rly | .seg | .segRoll | .ing | .cmd => d.writeLink l a v
      | _ => d.writeSys f l a v

/-- A write from outside, which may burn a fuse (SEC.SECVER_BURN). -/
def busWrite (s : State) (a : Nat) (v : W32) : State := s.put (s.dev.regWrite s.fuses a v)

def busRead (s : State) (a : Nat) : W32 × State := let (v, d) := s.dev.regRead s.fuses a; (v, { s with dev := d })

/-! ### Commands -/

/-- REGISTER_WRITE (R13). -/
def execRegisterWrite (a : BitVec 48) (v : W32) (s : State) : Host.Outcome State Fault Refusal := .next (busWrite s a.toNat v)

/-- PAIR_HI_WRITE (R10). -/
def execPairHiWrite (a : BitVec 48) (v : W32) (s : State) : Host.Outcome State Fault Refusal := .next (busWrite s a.toNat v)

/-- PAIR_LO_READ (R9): a read of a _LO half. -/
def execPairLoRead (a : BitVec 48) (s : State) : Host.Outcome State Fault Refusal := .next (busRead s a.toNat).2

end Sys2Proof.Machine
end

