-- ==== Sys2Proof/Machine/Control.lean ====
section
/-!
DEFINITION. The control logic of the blocks that consume L4 packets as they arrive (R202, R205): what a context pool, an FU and a gateway do with the
management messages that no row of their own consumes, and the arrival of a flit with it.
-/
namespace Sys2Proof.Machine

/-- Messages that a context pool acts on as they arrive (R88, R119, R121). -/
def isPoolMsg : Mgmt → Bool
  | .sweepAck _ _ | .ctxReq _ _ _ _ _ | .ctxFree _ _ _ | .flagAsk _ _ _ _ => true
  | _ => false

/-- A context pool acts on a message: the faults and flag updates that reached it before it are done first. (DESIGN CHOICE, log 15.) -/
def Dev.poolMessage (d : Dev) (g : Nat) : Mgmt → Dev
  | .sweepAck c n => d.sweepAcked c n
  | .ctxReq fu rtag c graph prio => (d.settlePool g).ctxAlloc g { fu := fu, rtag := rtag, ctx := c, graph := graph.toNat, prio := prio.toNat }
  | .ctxFree _ e replay => (d.settlePool g).ctxFree e replay
  | .flagAsk fu rtag c clear =>
    let (v, d) := (d.settlePool g).flagsOf c clear
    d.sendMgmt (poolNode g) (fuDest fu) (.flagAns rtag v)
  | _ => d

/-- Messages that an FU acts on as they arrive (R119, R121, R237). -/
def isFuMsg : Mgmt → Bool
  | .ctxGive _ _ | .flagAns _ _ | .forceSpill _ => true
  | _ => false

/-- An FU acts on a message: the answers of context pools, and the stall watch's command. (DESIGN CHOICE, log 15.) -/
def Dev.fuMessage (d : Dev) (k : Nat) : Mgmt → Dev
  | .ctxGive rtag c => d.ctxGiven k rtag c
  | .flagAns rtag f => d.flagAnswer k rtag f
  | .forceSpill n => (d.modFu k (fun u => { u with force := n })).forceSpills k 8
  | _ => d

/-- NOC.PARK reaches a gateway (R361). -/
def isPark : Mgmt → Bool
  | .park _ => true
  | _ => false

/-- The block at a link's end acts on the management message that it has received (R205). -/
def Dev.serveL4 (d : Dev) : Node → Dev
  | .regionUnit g 2 => match d.takeMgmt (poolNode g) isPoolMsg with | some (m, d) => d.poolMessage g m | none => d
  | .regionUnit g 4 => match d.takeMgmt (.regionUnit g 4) isPark with | some (.park v, d) => d.parkTaken g v | _ => d
  | .tileUnit g t f => match d.takeMgmt (.tileUnit g t f) isFuMsg with | some (m, d) => d.fuMessage (fuKey g t f) m | none => d
  | _ => d

/-- FLIT_RECEIVE (R346): a flit arrives, and the block that takes it acts on a management message. -/
def execFlitReceive (l : LinkId) (err : BitVec 256) (s : State) : Host.Outcome State Fault Refusal :=
  .next { s with dev := if s.dev.linkOpen l then (s.dev.flitReceive l err).serveL4 l.dst else s.dev }

end Sys2Proof.Machine
end

