-- ==== Sys2Proof/Machine/Runner.lean ====
section
/-!
DEFINITION. Memory accesses, calls and returns of the cores (R279 to R287, R294, R295), responses (R209), the run limit (R175), and the commands
of 08_runner_isa.md. Core n is the Runner core of tile n, and core 272 the Steward.
-/
namespace Sys2Proof.Machine

/-! ### Which accesses a core may make (R118, R280, R295, R309) -/

/-- Backup-domain registers and configuration registers. -/
def isConfig (a : Nat) : Bool := decide (configBase ≤ a ∧ a < lockBase) || decide (bakBase ≤ a ∧ a < bakBase + 0x1000000)

/-- An access of `w` bytes reaches a register. -/
def touchesReg (a w : Nat) : Bool := (regAt (a / 4 * 4)).isSome || (w == 8 && (regAt (a + 4)).isSome)

/-- Addresses that hold something Runner code may not reach (R280, R574): an access there is ACCESS, not ADDR_RANGE. (DEDUCED, log 39.) -/
def isForbidden (a : Nat) : Bool :=
  decide (configBase ≤ a ∧ a < lockBase) || decide (romBase ≤ a ∧ a < romBase + 0x40000) || decide (sramBase ≤ a ∧ a < sramBase + 0x800000) ||
  (isConfig a && (regAt a).isSome) || decide (0x4003000000 ≤ a ∧ a < 0x4003010000)

def isNode (a : Nat) : Bool := decide (nodeBase ≤ a ∧ a < nodeEnd)
def isSpm (a : Nat) : Bool := decide (spmBase ≤ a ∧ a < spmEnd)

/-- Cause of a status of R118. -/
def causeOf (st : Nat) : Nat := if st = stMISALIGNED then 7 else if st = stADDR_RANGE then 8 else 9

/-- Graph of the firing a core runs. -/
def Dev.rcGraph (d : Dev) (n : Nat) : Nat :=
  match (d.core n).item with | some it => (Firing.lead it.fir).tag.graph.toNat | none => 0

/-- The tests on an access of `w` bytes at `a`; `op` is 0 read, 1 write, 2 AADD, 3 SWAP. (DEDUCED, log 23. DEDUCED, log 39. DEDUCED, log 40.) -/
def Dev.rcTest (d : Dev) (n a w op : Nat) : Option Nat :=
  let inLock := decide (lockBase ≤ a ∧ a < lockEnd)
  let x := lockWord a
  if a % w ≠ 0 then some 7
  else if n = stewCore then
    if 2 ^ 48 ≤ a then some 8
    else if inLock then (if op = 0 ∧ w = 8 then (if x < hbmSize ∨ isSpm x then none else some 8) else some 8)
    else if isConfig a ∧ w ≠ 4 ∧ touchesReg a w then some 9
    else if 2 ≤ op then (if a < hbmSize ∨ isSpm a then none else some 8)
    else none
  else if isNode a then
    (if 2 ≤ op then some 8 else if d.permits a (d.graphBits (d.rcGraph n) (op == 0) (op == 1)) then none else some 9)
  else if isForbidden a then some 9
  else (d.accessError (d.rcGraph n) a w (op != 1) (op != 0) (op == 0 && w == 8)).map causeOf

/-! ### Accesses that act at once -/

/-- What an access did: the device after it, the value read, the cause of its failure (0 none) with the STATUS of R209, and whether the core still
waits. -/
structure Acc where
  d     : Dev
  v     : Nat := 0
  cause : Nat := 0
  st    : Nat := 0
  stall : Bool := false

/-- A 32-bit word of node memory written with the bytes of a narrower or wider access (R103). (DESIGN CHOICE, log 38.) -/
def Dev.nodeStore (d : Dev) (a w v : Nat) : Dev :=
  let c := (a - nodeBase) / 0x80000
  let o := (a - nodeBase) % 0x80000
  let put := fun (d : Dev) (o v : Nat) => d.nodeWrite c (o / 16) (o / 4 % 4) (BitVec.ofNat 32 v)
  if w = 8 then put (put d o (v % 2 ^ 32)) (o + 4) (v / 2 ^ 32)
  else if w = 4 then put d o v
  else
    let old := ((((d.tile (d.tileOfCluster c)).held.find? (fun x => x.1 == o / 4)).map (·.2)).getD (BitVec.ofNat 32 (d.readLe (a / 4 * 4) 4)))
    put d (o / 4 * 4) (putFld old (8 * (o % 4 + w) - 1) (8 * (o % 4)) v).toNat

/-- An access to an HBM stack: it waits until the stack accepts requests. (DESIGN CHOICE, log 20.) -/
def Dev.hbmSync (d : Dev) (r : MemReq) (x : Ecc) : Acc :=
  let k := if r.addr.toNat < 0x600000000 then 0 else 1
  if !d.rbit (hbmReg k 0) 0 || (d.hbmOf k).copying.contains (Config.hbmRow r.addr.toNat) then { d := d, stall := true }
  else
    let y := d.hbmServe k r x
    { d := y.1, v := y.2.result.toNat, cause := if y.2.status = 1 then 10 else if y.2.status = 0 then 0 else 9, st := y.2.status.toNat }

/-- The bank cannot serve the access in this cycle (R305, R311): it turns on, the sub-bank is in a write cycle, or, for another than the bank's owner, requests compete there. (DESIGN CHOICE, log 20.) -/
def Dev.bankWaits (d : Dev) (tl a : Nat) (owner : Bool) : Bool :=
  let k := d.bank tl (bankOf a)
  k.target == some 2 || k.second.any (fun c => c.1 == subOf a) || (!owner && !(d.competing tl (bankOf a) (subOf a)).isEmpty)

/-- An access to a scratchpad bank: an isolated tile, a closed region asked from outside and a bank that is not on refuse it (R310, R358, R491). `owner` says that it is the core's own
bank B (R304). (DESIGN CHOICE, log 20.) -/
def Dev.spmSync (d : Dev) (from_ : Option Nat) (owner : Bool) (r : MemReq) (x : Ecc) : Acc :=
  let a := r.addr.toNat
  let tl := d.tileOfCluster (spmCluster a)
  let g := tl / 17
  let b := a / 0x40000 % 4
  let k := d.bank tl b
  if (d.isoTiles g).contains (tl % 17) then { d := d, cause := 9, st := 5 }
  else if from_ != some g && !d.rbit (pwrReg 4) g then { d := d, cause := 9, st := 3 }
  else if k.state ≠ 2 ∧ k.target ≠ some 2 ∨ k.target.any (· != 2) then { d := d.setBit (spmR tl 0xC) 1 true, cause := 9, st := 3 }
  else if d.bankWaits tl a owner then { d := d, stall := true }
  else if (match x with | .ue _ => readsOld r | _ => false) then { d := d.spmUe tl (a % 0x100000), cause := 10, st := 1 }
  else
    let d := if x = .ce && readsOld r then d.addSat16 (spmR tl 8) 1 else d
    let y := d.memAccess r
    { d := if r.op = 0 then y.1 else y.1.noteWrite a, v := y.2.result.toNat }

/-- The core's own bank B holds the address. (DESIGN CHOICE, log 33.) -/
def Dev.ownBankB (d : Dev) (n a : Nat) : Bool :=
  let b := bankAddr (d.rcCluster n) 1 0
  n != stewCore && decide (b ≤ a ∧ a < b + 0x40000)

/-- The boot ROM and the Steward's SRAM (R574). -/
def isLocal (a : Nat) : Bool := decide (romBase ≤ a ∧ a < romBase + 0x40000) || decide (sramBase ≤ a ∧ a < sramBase + 0x800000)

/-- An access of core `n` that acts at once; a write of a configuration register is not among them. (DESIGN CHOICE, log 20. DEDUCED, log 40.) -/
def Dev.memSync (d : Dev) (f : Fuses) (n a w op v : Nat) (x : Ecc) : Acc :=
  let r : MemReq := { op := BitVec.ofNat 4 op, size := sizeCode w, addr := BitVec.ofNat 48 a, operand := BitVec.ofNat 64 v }
  let ue := isUe x
  if a < hbmSize then d.hbmSync r x
  else if isSpm a then d.spmSync (if n = stewCore then none else some (n / 17)) (d.ownBankB n a) r x
  else if isNode a then
    if op = 1 then { d := d.nodeStore a w v }
    else if ue then
      let k := d.tileOfCluster ((a - nodeBase) / 0x80000)
      { d := ((d.setBit (nodeReg (k / 17) (k % 17) 4) 0 true).setReg (nodeReg (k / 17) (k % 17) 8) (BitVec.ofNat 32 ((a - nodeBase) % 0x80000 / 16))).raiseTile k 3 0
        cause := 10
        st := 1 }
    else { d := d, v := d.readLe a w }
  else if isConfig a then let (y, d) := d.regRead f a; { d := d, v := y.toNat }
  else if op = 0 then
    if 0x4003000000 ≤ a ∧ a < 0x4003010000 then let (y, d) := d.free; { d := d, v := y.toNat % 2 ^ (8 * w) }
    else if !isLocal a then { d := d }
    else if ue then { d := d, cause := 10, st := 1 }
    else { d := d, v := d.readLe a w }
  else { d := if sramBase ≤ a ∧ a < sramBase + 0x800000 then d.writeLe a w v else d }

/-- The access acts at once: to node memory, to a Runner core's own bank B, and of the Steward to registers, ROM and SRAM. (DESIGN CHOICE, log 33.) -/
def Dev.acts (d : Dev) (n a : Nat) : Bool := isNode a || d.ownBankB n a || (n == stewCore && !(decide (a < hbmSize) || isSpm a))

/-! ### Accesses through the network (R206, R282) -/

/-- The block address of a core. -/
def coreDest (n : Nat) : Dest :=
  if n = stewCore then { die := 4 }
  else { die := BitVec.ofNat 3 (n / 68), rgn := BitVec.ofNat 2 (n / 17 % 4), tile := BitVec.ofNat 5 (n % 17), unit := 8 }

/-- Owner, graph and effective priority of a core's requests. -/
def Dev.coreReq (d : Dev) (n op w a v : Nat) : MemReq :=
  let r := d.core n
  let base : MemReq :=
    { op := BitVec.ofNat 4 op, size := sizeCode w, addr := BitVec.ofNat 48 a, req := coreDest n, rtag := BitVec.ofNat 12 r.nextTag, operand := BitVec.ofNat 64 v }
  match r.item with
  | some it => { base with prio := BitVec.ofNat 4 (if 4 ≤ op then d.eprio n it.fir else (Firing.prio it.fir).toNat), ctx := Firing.ctx it.fir
                           graph := (Firing.lead it.fir).tag.graph }
  | none => { base with ctx := stewOwner }

/-- The core's next tag. -/
def Dev.nextRtag (d : Dev) (n : Nat) : Dev := d.modCore n (fun r => { r with nextTag := (r.nextTag + 1) % 4096 })

/-- Class of a Runner core at a bank of its own cluster (R304). -/
def rcClass (a : Nat) : Nat := if a / 0x40000 % 4 = 1 then 0 else 2

/-- Send an access and wait for its response, or in the case of a store go on. -/
def Dev.rcSend (d : Dev) (n : Nat) (i : RcIns) (a w op v : Nat) (sext : Bool) : Dev :=
  let q := d.coreReq n op w a v
  let tag := q.rtag.toNat
  let d := (d.access (rcNode n) n (rcClass a) 8 q).nextRtag n
  if op = 1 then d.rcNext n (fun r => { r with stores := r.stores ++ [(tag, a)] })
  else d.modCore n (fun r => { r with wait := some { rtag := tag, rd := i.rd, bytes := w, sext := sext, kind := if op = 0 then .load else .atomic, addr := a } })

/-- Ask a lock unit (R280, R322, R324): an acquire with the unit's default timeout, or a release. -/
def Dev.rcLock (d : Dev) (n : Nat) (i : RcIns) (x op v : Nat) : Dev :=
  let q := d.coreReq n op 8 x v
  let d := (d.request (rcNode n) (lockDest x) false q).nextRtag n
  d.modCore n (fun r => { r with wait := some { rtag := q.rtag.toNat, rd := i.rd, bytes := 8, kind := if op = 4 then .acquire else .release, addr := x } })

/-! ### Loads, stores and atomics (R279, R281) -/

/-- A value of `w` bytes in a register. (DESIGN CHOICE, log 38.) -/
def extend (w v : Nat) (sext : Bool) : W64 :=
  let u := v % 2 ^ (8 * w)
  if sext && decide (2 ^ (8 * w - 1) ≤ u) then BitVec.ofInt 64 ((u : Int) - 2 ^ (8 * w)) else BitVec.ofNat 64 u

/-- A load (`op` 0), store (1), AADD (2) or SWAP (3) of `w` bytes; the width of an atomic is in its fn field. (DESIGN CHOICE, log 38. DEDUCED, log 40.) -/
def Dev.rcMem (d : Dev) (f : Fuses) (n : Nat) (e x : Ecc) (k : RcKind) (op w : Nat) (sext : Bool) : Dev :=
  d.rcStep n e k (fun d i r =>
    let w := if 2 ≤ op then (if i.fn.testBit 0 then 4 else 8) else w
    let a := (if 2 ≤ op then r.get i.ra else r.get i.ra + simm i).toNat
    let v := if op = 1 then (r.get i.rd).toNat else (r.get i.rb).toNat
    match d.rcTest n a w op with
    | some c => d.rcFault n c a
    | none =>
      if lockBase ≤ a ∧ a < lockEnd then d.rcLock n i (lockWord a) 4 0
      else if !d.acts n a then d.rcSend n i a w op v sext
      else if isConfig a && op == 1 then (d.rcNext n id).regWrite f a (BitVec.ofNat 32 v)
      else
        let y := d.memSync f n a w op v x
        if y.stall then d
        else if y.cause ≠ 0 then y.d.rcFault n y.cause a
        else y.d.rcNext n (fun r => if op = 1 then r else r.set i.rd (extend w y.v sext)))

/-- LOCKREL (R280). -/
def Dev.rcLockRel (d : Dev) (n : Nat) (e : Ecc) : Dev :=
  d.rcStep n e .lockrel (fun d i r =>
    let a := (r.get i.ra).toNat
    if a % 8 ≠ 0 then d.rcFault n 7 a
    else if !(decide (a < hbmSize) || isSpm a) then d.rcFault n 8 a
    else d.rcLock n i a 5 (r.get i.rb).toNat)

/-! ### Calls and returns (R284 to R287) -/

/-- Numbers j of the registers g(20 + j) that a mask names. -/
def maskRegs (m : Nat) : List Nat := (List.range 8).filter (m.testBit ·)

/-- Write the words of a frame, or the cause and address of the first that fails. (DESIGN CHOICE, log 33.) -/
def Dev.frameWrite (d : Dev) (f : Fuses) (n : Nat) : List (Nat × Nat) → Except (Nat × Nat) Acc
  | [] => .ok { d := d }
  | (a, v) :: ws =>
    match d.rcTest n a 8 1 with
    | some c => .error (c, a)
    | none =>
      let y := d.memSync f n a 8 1 v .ok
      if y.stall then .ok y else if y.cause ≠ 0 then .error (y.cause, a) else y.d.frameWrite f n ws

/-- Read the words at a list of addresses. (DESIGN CHOICE, log 33.) -/
def Dev.frameRead (d : Dev) (f : Fuses) (n : Nat) (x : Ecc) : List Nat → Except (Nat × Nat) (List Nat × Bool × Dev)
  | [] => .ok ([], false, d)
  | a :: as =>
    match d.rcTest n a 8 0 with
    | some c => .error (c, a)
    | none =>
      if lockBase ≤ a ∧ a < lockEnd then .error (8, a)
      else
        let y := d.memSync f n a 8 0 0 x
        if y.stall then .ok ([], true, d)
        else if y.cause ≠ 0 then .error (y.cause, a)
        else
          match y.d.frameRead f n .ok as with
          | .ok (vs, st, d') => .ok (y.v :: vs, st, d')
          | .error c => .error c

/-- CALL and CALLR: the frame is pushed whole. (DESIGN CHOICE, log 34.) -/
def Dev.rcCall (d : Dev) (f : Fuses) (n : Nat) (e : Ecc) (k : RcKind) : Dev :=
  d.rcStep n e k (fun d i r =>
    let js := maskRegs i.mask
    let size := 8 * (js.length + 1)
    let sp := r.get 30
    let target : Int := if k = .callr then (r.get i.ra).toNat else r.pc + 1 + i.off
    let limit := if n = stewCore then d.stew.stklim.toNat else bankAddr (d.rcCluster n) 1 (8 * r.limit)
    let nsp := (sp - BitVec.ofNat 64 size)
    let header := (if d.stackMode n then 0xC0 else 0xC1) * 2 ^ 40 + i.mask * 2 ^ 32 + (r.pc + 1) % 2 ^ 32
    if (n ≠ stewCore ∨ limit ≠ 0) ∧ sp.toNat < limit + size then d.rcFault n 4 0
    else if !(decide (0 ≤ target) && pcValid n target.toNat) then d.rcFault n 3 0
    else
      let words := (nsp.toNat, header) :: (List.range js.length).map (fun q => (nsp.toNat + 8 * (1 + q), (r.get (20 + js.getD q 0)).toNat))
      match d.frameWrite f n words with
      | .error (c, a) => d.rcFault n c a
      | .ok y => if y.stall then d else y.d.rcJump n target (fun r => r.set 30 nsp))

/-- RET. -/
def Dev.rcRet (d : Dev) (f : Fuses) (n : Nat) (e x : Ecc) : Dev :=
  d.rcStep n e .ret (fun d _ r =>
    let sp := (r.get 30).toNat
    match d.frameRead f n x [sp] with
    | .error (c, a) => d.rcFault n c a
    | .ok (_, true, _) => d
    | .ok (hs, false, d') =>
      let h := hs.getD 0 0
      let mask := h / 2 ^ 32 % 256
      let js := maskRegs mask
      let bad := h / 2 ^ 48 != 0 || h / 2 ^ 40 % 256 != (if d.stackMode n then 0xC0 else 0xC1) || (d.stackMode n && mask != 0) || !pcValid n (h % 2 ^ 32)
      if bad then d.rcFault n 5 0
      else
        match d'.frameRead f n x ((List.range js.length).map (fun q => sp + 8 * (1 + q))) with
        | .error (c, a) => d.rcFault n c a
        | .ok (_, true, _) => d
        | .ok (vs, false, d') =>
          d'.rcJump n (h % 2 ^ 32 : Nat) (fun r =>
            ((List.zip js vs).foldl (fun (r : Runner) p => r.set (20 + p.1) (BitVec.ofNat 64 p.2)) r).set 30 (BitVec.ofNat 64 (sp + 8 * (js.length + 1)))))

/-! ### Responses (R209, R282, R301) -/

/-- Cause of a response that is not OK. (DESIGN CHOICE, log 37.) -/
def respCause (st : Nat) : Nat := if st = 1 then 10 else if st = 2 then 8 else 9

/-- A grant that crossed its acquire's withdrawal ends as for a holder that is reset (R301, R326). (DEDUCED, log 36.) -/
def Dev.withdrawnGrant (d : Dev) (a : Nat) (r : MemResp) : Dev :=
  match (d.lck (lockHome a)).leaseOn a with
  | some l => if r.result ≠ 0 ∧ l.owner = r.result.extractLsb' 39 22 ∧ l.seq = r.result.extractLsb' 32 7 then d.leaseEnd (lockHome a) a true false else d
  | none => d

/-- A core withdraws the acquire it waits for (R301, R327): the waiter leaves its home, or the grant that is on its way is released as it comes. (DEDUCED, log 36.) -/
def Dev.withdrawAcquire (d : Dev) (n : Nat) : Dev :=
  match (d.core n).wait with
  | none => d
  | some w =>
    if w.kind ≠ OutKind.acquire then d
    else
      let mine := fun (x : LockWait) => x.req.req == coreDest n && x.req.rtag.toNat == w.rtag
      let h := lockHome w.addr
      let d := d.modCore n (fun r => { r with wait := none })
      if (d.lck h).wait.any mine then (d.modLck h (fun u => { u with wait := u.wait.filter (fun x => !mine x) })).lockBoosts h
      else d.modCore n (fun r => { r with gone := r.gone ++ [(w.rtag, w.addr)] })

/-- The response to the access a core waits for: its value goes to the target register, or it fails. -/
def Dev.waitDone (d : Dev) (n : Nat) (w : CoreWait) (r : MemResp) : Dev :=
  let st := r.status.toNat
  if st = 0 ∨ (w.kind = .acquire ∧ st = 4) then
    d.rcNext n (fun x => if w.kind = .release then { x with wait := none } else { x.set w.rd (extend w.bytes r.result.toNat w.sext) with wait := none })
  else (d.modCore n (fun x => { x with wait := none })).rcFault n (respCause st) w.addr

/-- The response to a store: a failure ends the firing, and an acquire it waits for is withdrawn. -/
def Dev.storeDone (d : Dev) (n : Nat) (s : Nat × Nat) (st : Nat) : Dev :=
  let d := d.modCore n (fun x => { x with stores := removeFirst (· == s) x.stores })
  if st = 0 then d else (d.withdrawAcquire n).rcFault n (respCause st) s.2

/-- A response to a stopped firing (R292, R294): after the last one its service ends. -/
def Dev.endingDone (d : Dev) (n tag : Nat) : Dev :=
  let d := d.modCore n (fun x => { x with wait := x.wait.filter (fun w => w.rtag != tag), stores := x.stores.filter (fun s => s.1 != tag) })
  match (d.core n).item with
  | some it => d.rcReturn n it
  | none => d

/-- The next response at a core. (DESIGN CHOICE, log 37.) -/
def Dev.rcResponse (d : Dev) (n : Nat) : Dev :=
  match d.takeResp (rcNode n) (fun _ => true) with
  | none => d
  | some (r, d) =>
    let c := d.core n
    let tag := r.rtag.toNat
    match c.gone.find? (fun s => s.1 == tag) with
    | some g => (d.modCore n (fun x => { x with gone := removeFirst (· == g) x.gone })).withdrawnGrant g.2 r
    | none =>
      if c.ending then d.endingDone n tag
      else
        match c.wait.filter (fun w => w.rtag == tag), c.stores.find? (fun s => s.1 == tag) with
        | some w, _ => d.waitDone n w r
        | none, some s => d.storeDone n s r.status.toNat
        | none, none => d

/-- A code firing reaches its limit (R175): a pending acquire is withdrawn (R301). (DEDUCED, log 36.) -/
def Dev.runLimit (d : Dev) (n : Nat) : Dev :=
  let g := n / 17
  let t := n % 17
  let r := (d.tile n).runner
  if r.item.isNone || r.ending || d.rfld (schReg g t 4) 31 0 == 0 then d
  else ((d.withdrawAcquire n).setBit (schReg g t 8) 1 true).firingFault n 11 0

/-- The checker core disagrees (R299): an event, and a restart of the pair. -/
def Dev.lockstep (d : Dev) : Dev := if d.stew.on then (d.raiseFree 645 0).stewReset 11 0 else d

/-! ### Commands -/

/-- The state after a core's instruction: a double trap restarts the Steward (R298), and SECVER_BURN may have burnt a fuse. -/
def coreDone (s : State) (d : Dev) : Host.Outcome State Fault Refusal := .next (s.put d.stewFatal)

/-- rd = ra op imm16 (R277). -/
def immExec (n : Nat) (e : Ecc) (k : RcKind) (op : RcIns → W64 → W64) (s : State) : Host.Outcome State Fault Refusal :=
  coreDone s (s.dev.rcWrite n e k (fun i r => op i (r.get i.ra)))

def execRcIntOp (n : Fin 273) (e : Ecc) (s : State) : Host.Outcome State Fault Refusal := coreDone s (s.dev.rcInt n e)
def execRcFpOp (n : Fin 273) (e : Ecc) (s : State) : Host.Outcome State Fault Refusal := coreDone s (s.dev.rcFp n e)
def execAddi (n : Fin 273) (e : Ecc) (s : State) : Host.Outcome State Fault Refusal := immExec n e .addi (fun i a => a + simm i) s
def execAndi (n : Fin 273) (e : Ecc) (s : State) : Host.Outcome State Fault Refusal := immExec n e .andi (fun i a => a &&& zimm i) s
def execOri (n : Fin 273) (e : Ecc) (s : State) : Host.Outcome State Fault Refusal := immExec n e .ori (fun i a => a ||| zimm i) s
def execXori (n : Fin 273) (e : Ecc) (s : State) : Host.Outcome State Fault Refusal := immExec n e .xori (fun i a => a ^^^ zimm i) s
def execSlti (n : Fin 273) (e : Ecc) (s : State) : Host.Outcome State Fault Refusal :=
  immExec n e .slti (fun i a => if a.toInt < (simm i).toInt then 1 else 0) s
def execSltiu (n : Fin 273) (e : Ecc) (s : State) : Host.Outcome State Fault Refusal :=
  immExec n e .sltiu (fun i a => if a.toNat < (simm i).toNat then 1 else 0) s
/-- Shifts as R147 gives for TYPE 0 (int64). -/
def shiftAmt (i : RcIns) : Nat := i.imm.toNat % 128
def execShli (n : Fin 273) (e : Ecc) (s : State) : Host.Outcome State Fault Refusal := immExec n e .shli (fun i a => a <<< shiftAmt i) s
def execShri (n : Fin 273) (e : Ecc) (s : State) : Host.Outcome State Fault Refusal := immExec n e .shri (fun i a => a >>> shiftAmt i) s
def execSrai (n : Fin 273) (e : Ecc) (s : State) : Host.Outcome State Fault Refusal := immExec n e .srai (fun i a => a.sshiftRight (shiftAmt i)) s
def execShori (n : Fin 273) (e : Ecc) (s : State) : Host.Outcome State Fault Refusal := immExec n e .shori (fun i a => (a <<< 16) ||| zimm i) s

/-- A load, store or atomic (R279, R281). -/
def memExec (n : Nat) (e x : Ecc) (k : RcKind) (op w : Nat) (sext : Bool) (s : State) : Host.Outcome State Fault Refusal :=
  coreDone s (s.dev.rcMem s.fuses n e x k op w sext)

def execRcLd (n : Fin 273) (e x : Ecc) (s : State) : Host.Outcome State Fault Refusal := memExec n e x .ld 0 8 false s
def execLw (n : Fin 273) (e x : Ecc) (s : State) : Host.Outcome State Fault Refusal := memExec n e x .lw 0 4 true s
def execLwu (n : Fin 273) (e x : Ecc) (s : State) : Host.Outcome State Fault Refusal := memExec n e x .lwu 0 4 false s
def execLh (n : Fin 273) (e x : Ecc) (s : State) : Host.Outcome State Fault Refusal := memExec n e x .lh 0 2 true s
def execLhu (n : Fin 273) (e x : Ecc) (s : State) : Host.Outcome State Fault Refusal := memExec n e x .lhu 0 2 false s
def execLb (n : Fin 273) (e x : Ecc) (s : State) : Host.Outcome State Fault Refusal := memExec n e x .lb 0 1 true s
def execLbu (n : Fin 273) (e x : Ecc) (s : State) : Host.Outcome State Fault Refusal := memExec n e x .lbu 0 1 false s
def execSd (n : Fin 273) (e : Ecc) (s : State) : Host.Outcome State Fault Refusal := memExec n e .ok .sd 1 8 false s
def execSw (n : Fin 273) (e : Ecc) (s : State) : Host.Outcome State Fault Refusal := memExec n e .ok .sw 1 4 false s
def execSh (n : Fin 273) (e x : Ecc) (s : State) : Host.Outcome State Fault Refusal := memExec n e x .sh 1 2 false s
def execSb (n : Fin 273) (e x : Ecc) (s : State) : Host.Outcome State Fault Refusal := memExec n e x .sb 1 1 false s
def execRcAadd (n : Fin 273) (e x : Ecc) (s : State) : Host.Outcome State Fault Refusal := memExec n e x .aadd 2 8 false s
def execRcSwap (n : Fin 273) (e x : Ecc) (s : State) : Host.Outcome State Fault Refusal := memExec n e x .swap 3 8 false s
def execRcLockrel (n : Fin 273) (e : Ecc) (s : State) : Host.Outcome State Fault Refusal := coreDone s (s.dev.rcLockRel n e)
def execEmit (n : Fin 273) (e : Ecc) (s : State) : Host.Outcome State Fault Refusal := coreDone s (s.dev.rcEmit n e)
def execBz (n : Fin 273) (e : Ecc) (s : State) : Host.Outcome State Fault Refusal := coreDone s (s.dev.rcBranch n e .bz (fun a => a == 0))
def execBnz (n : Fin 273) (e : Ecc) (s : State) : Host.Outcome State Fault Refusal := coreDone s (s.dev.rcBranch n e .bnz (fun a => a != 0))
def execJ (n : Fin 273) (e : Ecc) (s : State) : Host.Outcome State Fault Refusal := coreDone s (s.dev.rcBranch n e .j (fun _ => true))
def execJr (n : Fin 273) (e : Ecc) (s : State) : Host.Outcome State Fault Refusal :=
  coreDone s (s.dev.rcStep n e .jr (fun d i r => d.rcJump n (r.get i.ra).toNat id))
def execRcCall (n : Fin 273) (e : Ecc) (s : State) : Host.Outcome State Fault Refusal := coreDone s (s.dev.rcCall s.fuses n e .call)
def execCallr (n : Fin 273) (e : Ecc) (s : State) : Host.Outcome State Fault Refusal := coreDone s (s.dev.rcCall s.fuses n e .callr)
def execRcRet (n : Fin 273) (e x : Ecc) (s : State) : Host.Outcome State Fault Refusal := coreDone s (s.dev.rcRet s.fuses n e x)
def execMfs (n : Fin 273) (e : Ecc) (s : State) : Host.Outcome State Fault Refusal := coreDone s (s.dev.rcMfs n e)
def execMts (n : Fin 273) (e : Ecc) (s : State) : Host.Outcome State Fault Refusal := coreDone s (s.dev.rcMts n e)
def execFence (n : Fin 273) (e : Ecc) (s : State) : Host.Outcome State Fault Refusal := coreDone s (s.dev.rcFence n e)
def execWaitw (n : Fin 273) (e : Ecc) (s : State) : Host.Outcome State Fault Refusal := coreDone s (s.dev.rcWaitw n e)
def execMfc (n : Fin 273) (e : Ecc) (s : State) : Host.Outcome State Fault Refusal := coreDone s (s.dev.rcMfc n e)
def execMtc (n : Fin 273) (e : Ecc) (s : State) : Host.Outcome State Fault Refusal := coreDone s (s.dev.rcMtc n e)
def execMbPop (n : Fin 273) (e : Ecc) (s : State) : Host.Outcome State Fault Refusal := coreDone s (s.dev.rcMbPop n e)
def execEret (n : Fin 273) (e : Ecc) (s : State) : Host.Outcome State Fault Refusal := coreDone s (s.dev.rcEret n e)
def execWfi (n : Fin 273) (e : Ecc) (s : State) : Host.Outcome State Fault Refusal := coreDone s (s.dev.rcWfi n e)
def execEvack (n : Fin 273) (e : Ecc) (s : State) : Host.Outcome State Fault Refusal := coreDone s (s.dev.rcEvack n e)
def execTsend (n : Fin 273) (e : Ecc) (s : State) : Host.Outcome State Fault Refusal := coreDone s (s.dev.rcTsend n e)

/-- MEMORY_RESPONSE (R209): unit 0 to 7 of a tile is an FU, 8 its Runner core; block 272 is the Steward. -/
def execMemoryResponse (n : Fin 273) (u : Fin 9) (s : State) : Host.Outcome State Fault Refusal :=
  if n.val = stewCore ∨ u.val = 8 then coreDone s (s.dev.rcResponse n) else .next { s with dev := s.dev.fuResponse (n * 8 + u) }

def execRunnerTakeItem (g : Fin 16) (t : Fin 17) (s : State) : Host.Outcome State Fault Refusal := .next { s with dev := s.dev.runnerTake (tileKey g t) }
def execRunLimit (g : Fin 16) (t : Fin 17) (s : State) : Host.Outcome State Fault Refusal := .next { s with dev := s.dev.runLimit (tileKey g t) }
def execStewardInterrupt (s : State) : Host.Outcome State Fault Refusal := .next { s with dev := s.dev.stewInterrupt }
def execMailboxReceive (s : State) : Host.Outcome State Fault Refusal := .next { s with dev := s.dev.mailboxReceive }
def execLockstepMismatch (s : State) : Host.Outcome State Fault Refusal := .next { s with dev := s.dev.lockstep }
def execRcSrstWrite (g : Fin 16) (t : Fin 17) (v : W32) (s : State) : Host.Outcome State Fault Refusal :=
  .next { s with dev := s.dev.writes (rcReg g t 0x1C) (s.dev.rcSrst (tileKey g t) v) }
def execRcConfigWrite (g : Fin 16) (t : Fin 17) (o : Fin 3) (v : W32) (s : State) : Host.Outcome State Fault Refusal :=
  .next { s with dev := s.dev.writes (rcReg g t (4 * o)) (s.dev.rcConfig (tileKey g t) (4 * o) v) }

end Sys2Proof.Machine
end

