-- ==== Sys2Proof/Machine/Loader.lean ====
section
/-!
DEFINITION. The .ngx graph image and its loader (03_nodes_operations.md, R134 to R139; 06_progress_hurdles.md, R232, R233): reading an image,
the refusals in the order of their reasons, and the load.
-/
namespace Sys2Proof.Machine

/-! ### Reading an image (R134, R135, R232) -/

/-- The little-endian number of `n` bytes at offset `o`. -/
def le (bs : List Byte) (o n : Nat) : Nat := leNat (sub bs o n)

/-- An entry of the section table. -/
structure Sect where
  kind  : Nat
  clu   : Nat
  off   : Nat
  size  : Nat
  param : Nat

def imgSects (bs : List Byte) : List Sect :=
  (List.range (le bs 0xA 2)).map (fun i =>
    let o := 0x60 + 16 * i
    { kind := le bs o 2, clu := le bs (o + 2) 2, off := le bs (o + 4) 4, size := le bs (o + 8) 4, param := le bs (o + 12) 4 })

/-- A node of an image: its virtual global cluster, slot and descriptor. -/
structure INode where
  clu  : Nat
  slot : Nat
  desc : BitVec 128

/-- (DESIGN CHOICE, log 79.) -/
def imgNodes (bs : List Byte) : List INode :=
  ((imgSects bs).filter (fun s => s.kind == 1)).flatMap (fun s =>
    (List.range (s.size / 16)).map (fun i => { clu := s.clu, slot := s.param + i, desc := BitVec.ofNat 128 (le bs (s.off + 16 * i) 16) }))

def INode.opc (n : INode) : Nat := dOpc n.desc
def INode.imm (n : INode) : Nat := (dImm n.desc).toNat
/-- Ports of a node: those of its opcode that no immediate replaces. -/
def INode.ports (n : INode) : List Nat := if n.opc = 0x27F then [] else (opPorts n.opc).filter (fun p => some p != immPort n.desc)
def INode.key (n : INode) : Nat := n.clu * 32768 + n.slot

/-- The virtual region and cluster, and the node, that a destination names. -/
def DstF.clu' (x : DstF) : Nat := (x.die.toNat * 4 + x.rgn.toNat) * 16 + x.clu.toNat
def DstF.key (x : DstF) : Nat := x.clu' * 32768 + x.slot.toNat

def nodeAt (ns : List INode) (key : Nat) : Option INode := ns.find? (fun n => n.key == key)

/-- An entry of the hurdle table. -/
structure IHurdle where
  nsrc   : Nat
  ahead  : Nat
  maxper : Nat
  init   : Nat
  flags  : Nat
  waitus : Nat
  clean  : Bool
  srcs   : List Nat

/-- The entries of a hurdle table; none where its bytes do not hold whole entries. -/
def hurdlesOf : Nat → List Byte → Option (List IHurdle)
  | _, [] => some []
  | 0, _ => none
  | fuel + 1, bs =>
    let n := le bs 0 1
    if bs.length < 16 + 4 * n then none
    else
      let h : IHurdle := { nsrc := n, ahead := le bs 1 1, maxper := le bs 2 2, init := le bs 4 1, flags := le bs 5 1, waitus := le bs 8 4
                           clean := le bs 6 2 == 0 && le bs 12 4 == 0, srcs := (List.range n).map (fun i => le bs (16 + 4 * i) 4) }
      (hurdlesOf fuel (bs.drop (16 + 4 * n))).map (h :: ·)

def imgHurdles (bs : List Byte) : Option (List IHurdle) :=
  match (imgSects bs).filter (fun s => s.kind == 3) with
  | [] => some []
  | [s] => hurdlesOf (s.size + 1) (sub bs s.off s.size)
  | _ => none

def imgProt (bs : List Byte) : Bool := le bs 6 2 % 2 == 1
def imgDup (bs : List Byte) : Bool := le bs 6 2 / 2 % 2 == 1
def imgErr (bs : List Byte) : DstF := DstF.ofBits (BitVec.ofNat 29 (le bs 0x10 4))
def imgEntry (bs : List Byte) : DstF := DstF.ofBits (BitVec.ofNat 29 (le bs 0x14 4))

/-! ### Edges -/

/-- The FANEXT slots of a FANOUT node (R116): those of its cluster, none beyond slot 32,767. -/
def INode.exts (ns : List INode) (n : INode) : List INode :=
  if n.opc = 0x203 then ((List.range (n.imm % 4)).filter (fun i => decide (n.slot + 1 + i < 32768))).filterMap (fun i => nodeAt ns (n.key + 1 + i)) else []

/-- Where the return of a CALL goes (R119). -/
def INode.rets (n : INode) : List DstF := if n.opc = 0x303 then [DstF.ofBits (BitVec.ofNat 29 n.imm)] else []

/-- The destinations in the device that a node's descriptor holds: those of RELAYSEND are another device's, and a CALL holds its return's (R119, R136). -/
def INode.dsts (n : INode) : List DstF := (if n.opc = 0x310 then [] else dstsOf n.desc) ++ n.rets

/-- Outputs of a node in the device with the number of the destination field: a FANOUT sends to those of its slots too, and a CALL's return comes back as output 2. -/
def INode.outs (ns : List INode) (n : INode) : List (Nat × DstF) :=
  let own := if n.opc = 0x310 then [] else (dstsOf n.desc).zipIdx.map (fun p => (p.2, p.1))
  own ++ (n.exts ns).flatMap (fun x => (dstsOf x.desc).map (fun y => (0, y))) ++ n.rets.map (fun y => (2, y))

/-- The outputs that stay in the node's own context: not those of CTXALLOC DST0, PASS and CALL. (DEDUCED, log 80.) -/
def INode.stays (ns : List INode) (n : INode) : List (Nat × DstF) :=
  (n.outs ns).filter (fun o => if n.opc = 0x300 then o.1 == 1 else if n.opc = 0x303 then o.1 == 2 else n.opc != 0x302)

/-- Nodes that send to a node in their own context: the sender, its output, the port. -/
def sources (ns : List INode) (key : Nat) : List (INode × Nat × Nat) :=
  ns.flatMap (fun m => if m.opc = 0x27F then [] else ((m.stays ns).filter (fun o => o.2.key == key)).map (fun o => (m, o.1, o.2.port.toNat)))

/-- Nodes reached from some by `next`, in at most `fuel` rounds. -/
def reach (next : Nat → List Nat) : Nat → List Nat → List Nat
  | 0, ks => ks
  | fuel + 1, ks =>
    let new := ((ks.flatMap next).filter (fun k => !ks.contains k)).eraseDups
    if new.isEmpty then ks else reach next fuel (ks ++ new)

/-- Keys of the nodes that the outputs of a node name. -/
def outKeys (ns : List INode) (key : Nat) : List Nat :=
  match nodeAt ns key with | some n => (n.outs ns).map (fun o => o.2.key) | none => []

/-- The nodes that a node's tokens reach in its own context, with those a loop node sends to by its parameter. (DEDUCED, log 80.) -/
def ctxKeys (ns : List INode) (key : Nat) : List Nat :=
  match nodeAt ns key with
  | none => []
  | some n => (n.stays ns).map (fun o => o.2.key) ++ (if n.opc = 0x210 ∨ n.opc = 0x211 then [n.clu * 32768 + n.imm / 128 % 32768] else [])

/-- Every destination in the device that an image names. -/
def imgDsts (bs : List Byte) (ns : List INode) : List DstF := ns.flatMap INode.dsts ++ [imgErr bs, imgEntry bs]

/-- The FU by which the image's destinations name a node; 0 where none does. (DESIGN CHOICE, log 79.) -/
def fuOf (bs : List Byte) (ns : List INode) (key : Nat) : Nat :=
  ((imgDsts bs ns).find? (fun x => x.key == key)).elim 0 (fun x => x.fu.toNat)

/-! ### Loops (R129 to R132) -/

def isLoop (o : Nat) : Bool := decide (0x210 ≤ o ∧ o ≤ 0x213)

/-- The LOOPNEXT, LOOPRET and LOOPEXIT nodes of a LOOPENT. -/
def loopOf (ns : List INode) (ent : INode) : Option (INode × INode × INode) :=
  match nodeAt ns (dDst1 ent.desc).key, nodeAt ns (ent.clu * 32768 + ent.imm / 128 % 32768) with
  | some nx, some rt =>
    (match nodeAt ns (nx.clu * 32768 + nx.imm / 128 % 32768) with
     | some ex => if nx.opc = 0x211 ∧ rt.opc = 0x212 ∧ ex.opc = 0x213 then some (nx, rt, ex) else none
     | none => none)
  | _, _ => none

/-- What takes the signal of output 1 of a loop node, directly or through FANOUT nodes. -/
def loopHits (ns : List INode) (n : INode) : List DstF :=
  let fan := fun (k : Nat) => match nodeAt ns k with | some x => if x.opc = 0x203 then outKeys ns k else [] | none => []
  let ones := ((n.outs ns).filter (fun o => o.1 == 1)).map (·.2)
  let ks := reach fan ns.length (ones.map DstF.key)
  let fans := ks.filter (fun k => ((nodeAt ns k).map INode.opc) == some 0x203)
  ones ++ fans.flatMap (fun k => match nodeAt ns k with | some x => (x.outs ns).map (·.2) | none => [])

/-- GATE nodes whose port 2 takes the signal of output 1 of a loop node. -/
def loopGates (ns : List INode) (n : INode) : List INode :=
  let hit := loopHits ns n
  ns.filter (fun g => g.opc == 0x202 && hit.any (fun x => x.key == g.key && x.port == 2))

/-- The signal of output 1 of a loop node goes to GATE nodes only (R129), through FANOUT nodes where there are several. (DEDUCED, log 80.) -/
def gatesOnly (ns : List INode) (n : INode) : Bool :=
  (loopHits ns n).all (fun x => match nodeAt ns x.key with | some m => m.opc == 0x203 || (m.opc == 0x202 && x.port == 2) | none => false)

/-- The nodes of a loop's body: those reached in its context from LOOPNEXT DST0 before the loop's own nodes and the GATE nodes of its final values; a CALL's return is
one of them, the body it calls is not (R132). (DEDUCED, log 80.) -/
def loopBody (ns : List INode) (ent nx rt ex : INode) : List Nat :=
  let stop := [ent.key, nx.key, rt.key, ex.key] ++ (loopGates ns ex).map INode.key
  reach (fun k => (ctxKeys ns k).filter (fun j => !stop.contains j)) ns.length ([(dDst0 nx.desc).key].filter (fun j => !stop.contains j))

/-- A loop has the form of R129, and R132 holds for it. -/
def loopOk (bs : List Byte) (ns : List INode) (ent : INode) : Bool :=
  match loopOf ns ent with
  | none => false
  | some (nx, rt, ex) =>
    let k := ent.imm % 128
    let keys := [ent.key, nx.key, rt.key, ex.key]
    let fu := fuOf bs ns nx.key
    let named := (imgDsts bs ns).filter (fun x => keys.contains x.key)
    nx.imm % 128 == k && rt.imm % 128 == k && ex.imm % 128 == k && rt.imm / 128 == 0 && ex.imm / 128 == 0 &&
    (dDst1 ent.desc).port == 2 && (dDst0 rt.desc).key == nx.key && (dDst0 rt.desc).port == 2 && (dDst0 ent.desc).key == (dDst0 nx.desc).key &&
    keys.all (fun x => x / 32768 == ent.clu) && named.all (fun x => x.fu.toNat == fu) &&
    gatesOnly ns nx && gatesOnly ns ex && (loopGates ns nx).all (fun g => dItop g.desc == 1) &&
    (loopBody ns ent nx rt ex).all (fun j => ((nodeAt ns j).map INode.opc) != some 0x210)

/-- Every loop node belongs to one loop. (DEDUCED, log 80.) -/
def loopsOk (bs : List Byte) (ns : List INode) : Bool :=
  let ents := ns.filter (fun n => n.opc == 0x210)
  let ls := ents.filterMap (loopOf ns)
  let once := fun (o : Nat) (f : INode × INode × INode → INode) =>
    (ns.filter (fun n => n.opc == o)).all (fun n => (ls.filter (fun l => (f l).key == n.key)).length == 1)
  ents.all (loopOk bs ns) && once 0x211 (·.1) && once 0x212 (·.2.1) && once 0x213 (·.2.2)

/-- A cycle passes through no LOOPNEXT port 1 and no GATE of R132: the permits and chains of a loop's own nodes are left out. (DEDUCED, log 80.) -/
def hasCycle (ns : List INode) : Bool :=
  let gates := (ns.filter (fun n => n.opc == 0x211)).flatMap (loopGates ns)
  let cut := fun (m : INode) (o : Nat × DstF) =>
    (m.opc == 0x210 && o.1 == 1) || m.opc == 0x212 || (o.2.port == 1 && ((nodeAt ns o.2.key).map INode.opc) == some 0x211) ||
    gates.any (fun g => g.key == o.2.key)
  let edges := ns.flatMap (fun m => if m.opc = 0x27F then [] else ((m.outs ns).filter (fun o => !cut m o)).map (fun o => (m.key, o.2.key)))
  let rest := iter (fun ks => (ks.filter (fun k => edges.any (fun e => e.2 == k && ks.contains e.1)))) ns.length (ns.map INode.key)
  !rest.isEmpty

/-! ### SWITCH branches and bodies (reasons 15 and 16) -/

/-- The nodes of a SWITCH's branch: those reached in its context from one output before a MERGE or a loop node. -/
def branch (ns : List INode) (s : INode) (o : Nat) : List Nat :=
  let ok := fun (k : Nat) => match nodeAt ns k with | some n => n.opc != 0x201 && !isLoop n.opc | none => false
  reach (fun k => (ctxKeys ns k).filter ok) ns.length (((s.outs ns).filter (fun x => x.1 == o)).map (fun x => x.2.key) |>.filter ok)

/-- A node takes operands that one SWITCH does not produce together (reason 15). -/
def mixes (ns : List INode) (s n : INode) : Bool :=
  let b0 := branch ns s 0
  let b1 := branch ns s 1
  let side := fun (e : INode × Nat × Nat) =>
    if e.1.key = s.key then some e.2.1
    else match b0.contains e.1.key, b1.contains e.1.key with
      | true, false => some 0
      | false, true => some 1
      | _, _ => none
  let ss := (sources ns n.key).map side
  (ss.contains (some 0) || ss.contains (some 1)) && decide (1 < ss.eraseDups.length)

/-- (DEDUCED, log 80.) -/
def switchBad (ns : List INode) : Bool :=
  let free := ((ns.filter (fun n => n.opc == 0x211 || n.opc == 0x213)).flatMap (loopGates ns)).map INode.key
  (ns.filter (fun s => s.opc == 0x200)).any (fun s =>
    ns.any (fun n => decide (2 ≤ n.ports.length) && !isLoop n.opc && !free.contains n.key && mixes ns s n))

/-- Nodes that hand a payload on as it is: a context number that they take is what they send. -/
def handsOn (n : INode) : Bool := decide (0x200 ≤ n.opc ∧ n.opc ≤ 0x213)

/-- The PASS and CALL nodes whose port 1 takes the context number of a CTXALLOC's DST1, directly or through nodes that hand it on. -/
def entersCtx (ns : List INode) (a : INode) : List INode :=
  let via := fun (k : Nat) => match nodeAt ns k with | some m => if handsOn m then (m.stays ns).map (fun o => o.2.key) else [] | none => []
  let ones := (a.stays ns).map (·.2)
  let ks := reach via ns.length (ones.map DstF.key)
  let hit := ones ++ ks.flatMap (fun k => match nodeAt ns k with | some m => if handsOn m then (m.stays ns).map (·.2) else [] | none => [])
  ns.filter (fun m => (m.opc == 0x302 || m.opc == 0x303) && hit.any (fun x => x.key == m.key && x.port == 1))

/-- The nodes of the body whose context a CTXALLOC takes: those that its DST0 and the PASS and CALL nodes into that context lead to. (DEDUCED, log 80.) -/
def ctxBody (ns : List INode) (a : INode) : List Nat :=
  reach (ctxKeys ns) ns.length ((dDst0 a.desc).key :: (entersCtx ns a).flatMap (fun m => (dstsOf m.desc).map DstF.key)).eraseDups

/-- The body of each CTXALLOC has one CTXFREE, and every node of it whose outputs stay in the context leads there (reason 16). (DEDUCED, log 80.) -/
def bodyBad (ns : List INode) : Bool :=
  (ns.filter (fun n => n.opc == 0x300)).any (fun a =>
    let body := ctxBody ns a
    let has := fun (o : Nat) (k : Nat) => ((nodeAt ns k).map INode.opc) == some o
    let frees := body.filter (has 0x301)
    frees.length != 1 ||
    body.any (fun k => !has 0x302 k && !has 0x304 k && !has 0x310 k && !(reach (ctxKeys ns) ns.length [k]).any (fun j => frees.contains j)))

/-! ### Placement (R136) -/

/-- The two copies of an image: the region assignments that apply. -/
def copiesOf (bs : List Byte) (vmap dmap : List Nat) : List (List Nat) := if imgDup bs then [vmap, dmap] else [vmap]

/-- Virtual regions that the image uses. -/
def usedV (bs : List Byte) : List Nat :=
  (List.range 16).filter (fun v => le bs 0x18 2 / 2 ^ v % 2 == 1 || (imgSects bs).any (fun s => s.clu != 0xFFFF && s.clu / 16 == v))

/-- The global cluster of a virtual one. -/
def place (m : List Nat) (clu : Nat) : Nat := m.getD (clu / 16) 0 * 16 + clu % 16

/-- A destination rewritten to the assigned region. -/
def moveDst (m : List Nat) (x : BitVec 29) : BitVec 29 :=
  let v := fld x 28 24
  putFld x 28 24 (m.getD v 0)

/-- A descriptor as it is written: the regions of its destinations and of a CALL's return are rewritten; those of RELAYSEND are not. -/
def moveDesc (m : List Nat) (w : BitVec 128) : BitVec 128 :=
  let n := w.toNat
  let mv := fun (lo : Nat) (w : BitVec 128) => putFld w (lo + 28) lo (moveDst m (BitVec.ofNat 29 (n / 2 ^ lo))).toNat
  let o := dOpc w
  let w := if o = 0x310 ∨ dNdst w = 0 then w else mv 42 w
  let w := if dNdst w = 2 then mv 13 w else w
  if o = 0x303 then mv 71 w else w

/-- Regions that the CTXALLOC nodes of a copy name (R138). -/
def allocRegions (m : List Nat) (ns : List INode) : List Nat :=
  ((ns.filter (fun n => n.opc == 0x300)).map (fun n => if n.imm % 32 = 31 then m.getD (n.clu / 16) 0 else n.imm % 32)).eraseDups

/-- The k of the loop that contains a node, 1 outside loops. -/
def loopTurns (ns : List INode) (n : INode) : Nat :=
  ((ns.filter (fun e => e.opc == 0x210)).findSome? (fun e =>
    match loopOf ns e with
    | some (nx, rt, ex) => if ([nx.key, rt.key, ex.key] ++ loopBody ns e nx rt ex).contains n.key then some (e.imm % 128 + 1) else none
    | none => none)).getD 1

/-- The PRIO 15 operands that a copy adds at each FU (R138): P counts the regions that the CTXALLOC nodes of all `copies` name. (DEDUCED, log 80.) -/
def budgetOf (bs : List Byte) (ns : List INode) (copies : List (List Nat)) (m : List Nat) : List (Nat × Nat) :=
  if !imgProt bs then []
  else
    let p := ((copies.flatMap (fun m => allocRegions m ns)).eraseDups).length
    (ns.filter (fun n => decide (2 ≤ n.ports.length))).map (fun n =>
      (place m n.clu * 8 + fuOf bs ns n.key, le bs 0x1C 2 * p * (n.ports.length - 1) * loopTurns ns n))

def sumAt (xs : List (Nat × Nat)) (k : Nat) : Nat := xs.foldl (fun a x => if x.1 = k then a + x.2 else a) 0

/-- Bank ranges that a copy claims, by bank and bytes. -/
def banksOf (bs : List Byte) (m : List Nat) : List (Nat × Nat × Nat) :=
  ((imgSects bs).filter (fun s => s.kind == 2)).map (fun s =>
    (place m s.clu * 4 + s.param / 65536 % 4, s.param % 65536 * 4, s.param % 65536 * 4 + s.size))

def rangesMeet (a b : Nat × Nat × Nat) : Bool := a.1 == b.1 && decide (a.2.1 < b.2.2 ∧ b.2.1 < a.2.2)

/-- No two elements of a list meet. -/
def apart (p : α → α → Bool) : List α → Bool
  | [] => true
  | x :: xs => xs.all (fun y => !p x y) && apart p xs

/-! ### Refusals (R137, R233) -/

/-- Bytes, bounds and alignment (reason 3). (DESIGN CHOICE, log 79.) -/
def boundsBad (bs : List Byte) (length : Nat) : Bool :=
  let ss := imgSects bs
  let tab := 0x60 + 16 * ss.length
  length < 0x60 || le bs 0xC 4 != length || ss.isEmpty || decide (4096 < ss.length) || decide (length < tab) ||
  ss.any (fun s => s.off % 16 != 0 || decide (s.off < tab ∨ length < s.off + s.size) || (s.kind == 1 && s.size % 16 != 0) ||
    ((s.kind == 1 || s.kind == 2) && decide (256 ≤ s.clu))) ||
  !apart (fun a b => decide (a.off < b.off + b.size ∧ b.off < a.off + a.size)) ss

/-- A region assignment is missing, closed or repeated, or the sets overlap (reason 6). -/
def Dev.assignBad (d : Dev) (bs : List Byte) (vmap dmap : List Nat) : Bool :=
  let gs := (copiesOf bs vmap dmap).flatMap (fun m => (usedV bs).map (fun v => m.getD v 255))
  gs.any (fun g => decide (16 ≤ g) || !d.regionOpen g) || !decide gs.Nodup

def Dev.slotsBad (d : Dev) (bs : List Byte) (ns : List INode) (vmap dmap : List Nat) : Bool :=
  let used := d.graphs.flatMap (fun c => c.2.slots)
  ns.any (fun n => decide (32768 ≤ n.slot) || (copiesOf bs vmap dmap).any (fun m => used.contains (place m n.clu, n.slot))) || !decide (ns.map INode.key).Nodup

/-- Reserved fields and encodings (reason 9). -/
def reservedBad (bs : List Byte) (ns : List INode) : Bool :=
  le bs 6 2 / 4 != 0 || le bs 0x1B 1 != 0 || le bs 0x1E 2 != 0 || le bs 0x50 16 != 0 || decide (2 ^ 29 ≤ le bs 0x10 4) || decide (2 ^ 29 ≤ le bs 0x14 4) ||
  (imgSects bs).any (fun s => s.kind == 3 && s.param != 0) ||
  ns.any (fun n => fld n.desc 105 103 != 0 || fld n.desc 8 0 != 0 || decide (4 < dRm n.desc) || dImmp n.desc == 3 || dNdst n.desc == 3 || dItop n.desc == 3)

/-- IMMP and IMM32 (reason 11). (DESIGN CHOICE, log 79.) -/
def INode.immBad (ns : List INode) (n : INode) : Bool :=
  let o := n.opc
  if o = 0x27F then dImmp n.desc != 0 || n.imm != 0
  else if dImmp n.desc = 0 then
    !((opParam o n.imm).getD true) || (0x380 ≤ o && o ≤ 0x392 && !(strideParam o n.imm && (strideHasZ o n.imm || decide (n.imm < 65536)))) ||
    (o == 0x203 && ((n.exts ns).length != n.imm % 4 || (n.exts ns).any (fun x => x.opc != 0x27F)))
  else
    dType n.desc == 9 || (opParam o n.imm).isSome || !(opPorts o).contains ((immPort n.desc).getD 3) ||
    ((dType n.desc == 6 || dType n.desc == 8) && decide (65536 ≤ n.imm))

/-- A destination names a port of a placed node (reason 12). (DESIGN CHOICE, log 79.) -/
def dstOk (ns : List INode) (x : DstF) : Bool :=
  decide (x.die.toNat < 4) && (match nodeAt ns x.key with | some m => m.ports.contains x.port.toNat | none => false)

def INode.dstBad (ns : List INode) (n : INode) : Bool :=
  let k := dNdst n.desc
  !(if n.opc = 0x27F then k == 1 || k == 2 else (opNdst n.opc).contains k) ||
  (k == 0 && fld n.desc 70 42 != 0) || (k != 2 && fld n.desc 41 13 != 0) ||
  (n.opc == 0x310 && decide (4 ≤ (dDst0 n.desc).die.toNat)) || n.dsts.any (fun x => !dstOk ns x)

/-- The entries of the hurdle table against the nodes (reason 21). -/
def hurdleBad (ns : List INode) (hs : Option (List IHurdle)) : Bool :=
  match hs with
  | none => true
  | some hs =>
    let hn := ns.filter (fun n => n.opc == 0x340)
    let one := fun (e : Nat) (h : IHurdle) =>
      let mine := hn.filter (fun n => n.imm % 4096 == e)
      let slots := h.srcs.map (· % 32768)
      h.nsrc == 0 || decide (32 < h.nsrc) || h.ahead == 0 || decide (127 < h.ahead) || h.maxper == 0 || decide (2 ≤ h.flags) || !h.clean ||
      h.srcs.any (fun w => w / 32768 % 2 != 0 || decide (2 ^ 28 ≤ w)) ||
      slots.any (fun s => !mine.any (fun n => n.slot == s)) || !decide slots.Nodup ||
      h.srcs.any (fun w => w / 65536 % 4096 != 0xFFF && decide (hs.length ≤ w / 65536 % 4096)) ||
      (h.flags % 2 == 1 && mine.any (fun n => (n.outs ns).any (fun o => ((nodeAt ns o.2.key).map INode.opc) != some 0x340)))
    hs.zipIdx.any (fun p => one p.2 p.1) || hn.any (fun n => decide (hs.length ≤ n.imm % 4096))

/-- The HURDLE nodes of an entry. -/
def hurdleNodes (ns : List INode) (e : Nat) : List INode := ns.filter (fun n => n.opc == 0x340 && n.imm % 4096 == e)

/-- The HURDLE nodes of one entry lie on more than one FU (reason 22). (DESIGN CHOICE, log 79.) -/
def hurdleSpread (bs : List Byte) (ns : List INode) (hs : List IHurdle) : Bool :=
  (List.range hs.length).any (fun e =>
    let keys := (hurdleNodes ns e).map INode.key
    let fus := ((imgDsts bs ns).filter (fun x => keys.contains x.key)).map (fun x => (x.clu', x.fu.toNat))
    decide (1 < (keys.map (· / 32768)).eraseDups.length) || decide (1 < fus.eraseDups.length))

/-- The global region of an entry in a copy. -/
def hurdleRegion (ns : List INode) (m : List Nat) (e : Nat) : Nat := (((hurdleNodes ns e).head?).map (fun n => place m n.clu / 16)).getD 0

/-- The hold area's capacity in entries (R242). -/
def Dev.holdCap (d : Dev) (g : Nat) : Nat := 4096 * 2 ^ min 6 (d.rfld (gwReg g 8) 2 0)

/-- The lowest free graph ID from `n` on. (DEDUCED, log 81.) -/
def Dev.freeGraph (d : Dev) : Nat → Nat → Option Nat
  | 0, _ => none
  | fuel + 1, n => if (d.graph n).st = 0 then some n else d.freeGraph fuel (n + 1)

/-- The ID an image gets (R134). -/
def Dev.imgId (d : Dev) (bs : List Byte) : Option Nat :=
  let n := le bs 8 2
  if n = 0 then d.freeGraph 4095 1 else if 4095 < n ∨ (d.graph n).st ≠ 0 then none else some n

/-- The reason for which an image is refused, 0 where it is accepted: the first check that fails. (DESIGN CHOICE, log 79.) -/
def Dev.loadReason (d : Dev) (bs : List Byte) (length : Nat) (vmap dmap : List Nat) : Nat :=
  if le bs 0 4 ≠ 0x4958474E ∨ le bs 4 2 ≠ 0x100 then 1
  else if beBytes 48 (Config.sha384 (patch bs 0x20 (List.replicate 48 0))).toNat ≠ sub bs 0x20 48 then 2
  else if boundsBad bs length then 3
  else if (d.imgId bs).isNone then 4
  else if (imgSects bs).any (fun s => s.kind == 0 || decide (4 < s.kind)) then 5
  else if d.assignBad bs vmap dmap then 6
  else
    let ns := imgNodes bs
    let ms := copiesOf bs vmap dmap
    if d.slotsBad bs ns vmap dmap then 7
    else if ns.any (fun n => !(opDefined n.opc || n.opc == 0x27F)) then 8
    else if reservedBad bs ns then 9
    else if ns.any (fun n => !(opTypes n.opc).contains (dType n.desc)) then 10
    else if ns.any (INode.immBad ns) then 11
    else if ns.any (INode.dstBad ns) || !dstOk ns (imgEntry bs) then 12
    else if ns.any (fun n => (opKeepsIter n.opc || n.opc == 0x27F) && dItop n.desc != 0) then 13
    else if !loopsOk bs ns || hasCycle ns then 14
    else if switchBad ns then 15
    else if bodyBad ns then 16
    else if !((nodeAt ns (imgErr bs).key).map INode.ports == some [0] && (imgErr bs).port == 0 && decide ((imgErr bs).die.toNat < 4)) then 17
    else if (15 ≤ le bs 0x1A 1 && !imgProt bs) || 15 < le bs 0x1A 1 || (imgProt bs && le bs 0x1C 2 == 0) || (!imgProt bs && le bs 0x1C 2 != 0) ||
        (imgProt bs && decide (16 ≤ (d.graphs.filter (fun c => c.2.prot && c.2.st != 0)).length)) then 18
    else
      let add := ms.flatMap (budgetOf bs ns ms)
      let all := add ++ d.graphs.flatMap (fun c => c.2.budget)
      if add.any (fun x => decide (64 < sumAt all x.1)) then 19
      else
        let rs := ms.flatMap (banksOf bs)
        if (imgSects bs).any (fun s => s.kind == 2 && decide (2 ^ 18 ≤ s.param ∨ 2 ^ 18 < s.param % 65536 * 4 + s.size)) || !apart rangesMeet rs ||
            rs.any (fun r => d.graphs.any (fun c => c.2.banks.any (rangesMeet r))) then 20
        else if hurdleBad ns (imgHurdles bs) then 21
        else
          let hs := (imgHurdles bs).getD []
          if hurdleSpread bs ns hs then 22
          else
            let at_ := fun (g : Nat) => ms.flatMap (fun m => (hs.zipIdx.filter (fun p => hurdleRegion ns m p.2 == g)).map (·.1))
            let have_ := fun (g : Nat) => (d.region g).hurdles.filter (fun c => c.2.nsrc != 0)
            if (List.range 16).any (fun g => decide (256 < (have_ g).length + (at_ g).length)) then 23
            else if (List.range 16).any (fun g => !(at_ g).isEmpty && decide (d.holdCap g <
                (have_ g).foldl (fun a c => a + c.2.nsrc * c.2.maxper * (c.2.ahead + 1)) 0 +
                (at_ g).foldl (fun a h => a + h.nsrc * h.maxper * (h.ahead + 1)) 0)) then 24
            else 0

/-! ### The load (R136, R139) -/

/-- A bank takes writes while it is on. (DEDUCED, log 81.) -/
def Dev.bankOn (d : Dev) (c b : Nat) : Bool := let k := d.bank (d.tileOfCluster c) b; k.state == 2 && k.target.isNone

/-- Write bytes that a load places: in a bank, or in node memory where they take effect as a whole descriptor. -/
def Dev.placeBytes (d : Dev) (a : Nat) (bs : List Byte) : Dev :=
  if isSpm a then (if d.bankOn (spmCluster a) (a / 0x40000 % 4) then d.write a bs else d)
  else
    let o := (a - nodeBase) % 0x80000 / 16
    (d.write a bs).modTile (d.tileOfCluster ((a - nodeBase) / 0x80000)) (fun t => { t with held := mclear t.held (fun x => x / 4 == o) })

/-- Write a mask entry as the loader does, through NODE.MASK_ADDR and NODE.MASK_DATA (R104): MASK_ADDR then names the last entry written. (DEDUCED, log 81.) -/
def Dev.placeMask (d : Dev) (c slot v : Nat) : Dev :=
  let k := d.tileOfCluster c
  (d.setReg (nodeReg (k / 17) (k % 17) 0xC) (BitVec.ofNat 32 slot)).modTile k (fun t => { t with masks := mset 0 t.masks slot v })

/-- What a copy's load writes, in order: BANKINIT data, then descriptors. -/
def copyBytes (bs : List Byte) (ns : List INode) (m : List Nat) : List (Nat × List Byte) :=
  ((imgSects bs).filter (fun s => s.kind == 2)).map (fun s =>
    (bankAddr (place m s.clu) (s.param / 65536 % 4) (s.param % 65536 * 4), sub bs s.off s.size)) ++
  ns.map (fun n => (slotAddr (place m n.clu) n.slot, leBytes 16 (moveDesc m n.desc).toNat))

/-- The mask entries of a copy: cluster, slot, entry (R104). -/
def copyMasks (ns : List INode) (m : List Nat) : List (Nat × Nat × Nat) :=
  ns.map (fun n => (place m n.clu, n.slot, 16 + n.ports.foldl (fun a p => a + 2 ^ p) 0))

/-- Give an entry of a copy the lowest free hurdle slot of its region: the device, the region and the slot. -/
def Dev.placeHurdle (d : Dev) (bs : List Byte) (ns : List INode) (m : List Nat) (id : Nat) (copyB : Bool) (e : Nat) (h : IHurdle) : Dev × Nat × Nat :=
  let g := hurdleRegion ns m e
  let slot := lowestFree ((d.region g).hurdles.map (·.1)) 0
  let k := ((hurdleNodes ns e).head?).elim 0 (fun n => place m n.clu * 8 + fuOf bs ns n.key)
  let x : Hurdle := { graph := BitVec.ofNat 12 id, copyB := copyB, entry := e, nsrc := h.nsrc, ahead := h.ahead, maxper := h.maxper
                      e := BitVec.ofNat 8 h.init, closeout := h.flags % 2 == 1, waitus := h.waitus, fu := k
                      slots := h.srcs.map (fun w => BitVec.ofNat 15 w)
                      ups := (h.srcs.map (fun w => w / 65536 % 4096)).filter (· != 0xFFF) }
  let d := ((d.modRegion g (fun r => { r with hurdles := mput r.hurdles slot x })).setReg (hrdStop g slot) 0).setReg (hrdStatus g slot) 0
  (d.modMeas (fun y => { y with hz := mdel y.hz (256 * g + slot) }), g, slot)

/-- Each hurdle that an entry of the graph names as upstream is held at that entry's first horizon (R230). -/
def Dev.firstHorizons (d : Dev) (hs : List (Nat × Nat)) : Dev :=
  hs.foldl (fun (d : Dev) p =>
    let h := d.hurdle p.1 p.2
    hs.foldl (fun (d : Dev) q =>
      let u := d.hurdle q.1 q.2
      if u.copyB == h.copyB && h.ups.contains u.entry then
        d.setHurdle q.1 q.2 { u with horizon := mput u.horizon (256 * p.1 + p.2) (h.e + BitVec.ofNat 8 h.ahead) }
      else d) d) d

/-- Load an accepted image as graph `id`. (DEDUCED, log 81.) -/
def Dev.loadGraph (d : Dev) (bs : List Byte) (id : Nat) (vmap dmap : List Nat) : Dev :=
  let ns := imgNodes bs
  let ms := copiesOf bs vmap dmap
  let copy := ms.flatMap (copyBytes bs ns)
  let masks := ms.flatMap (copyMasks ns)
  let regs := fun (m : List Nat) => (usedV bs).map (fun v => m.getD v 0)
  let hs := (imgHurdles bs).getD []
  let d := copy.foldl (fun (d : Dev) x => d.placeBytes x.1 x.2) d
  let d := masks.foldl (fun (d : Dev) x => d.placeMask x.1 x.2.1 x.2.2) d
  let put := fun (a : Dev × List (Nat × Nat)) (x : (List Nat × Bool) × (IHurdle × Nat)) =>
    let (d, g, s) := a.1.placeHurdle bs ns x.1.1 id x.1.2 x.2.2 x.2.1
    (d, a.2 ++ [(g, s)])
  let (d, slots) := ((ms.zip [false, true]).flatMap (fun c => hs.zipIdx.map (fun h => (c, h)))).foldl put (d, [])
  let d := d.firstHorizons slots
  let old := d.graph id
  let dst := fun (o : Nat) (m : List Nat) => moveDst m (BitVec.ofNat 29 (le bs o 4))
  let dup := imgDup bs
  let x : Graph := { old with
    st := 1, prot := imgProt bs, dup := dup
    errA := dst 0x10 vmap, errB := if dup then dst 0x10 dmap else 0
    entryA := dst 0x14 vmap, entryB := if dup then dst 0x14 dmap else 0
    maxprio := le bs 0x1A 1, actmax := le bs 0x1C 2
    regsA := regs vmap, regsB := if dup then regs dmap else []
    slots := masks.map (fun x => (x.1, x.2.1)), banks := ms.flatMap (banksOf bs), budget := ms.flatMap (budgetOf bs ns ms)
    hurdles := slots, copy := copy, masks := masks
    aliveA := true, aliveB := true }
  (d.setGraph id x).measure 5 id (sub bs 0x20 48)

end Sys2Proof.Machine
end

