-- ==== Sys2Proof/Machine/Fcp.lean ====
section
/-!
DEFINITION. The Ferwen command protocol's transport and sessions (15_command_protocol.md, R448 to R459): frames of replies, protection, the
tests on a packet, reassembly, acceptance, and the timers.
-/
namespace Sys2Proof.Machine

/-! ### Sessions -/

def cmdNode : Node := .hubUnit 3
def Dev.modFcp (d : Dev) (f : Fcp → Fcp) : Dev := { d with fcp := f d.fcp }
def Dev.sess (d : Dev) (s : Nat) : FcpSess := mget {} d.fcp.sess s
def Dev.modSess (d : Dev) (s : Nat) (f : FcpSess → FcpSess) : Dev := d.modFcp (fun x => { x with sess := mmod {} x.sess s f })

/-- Raise a session's event with a code of CMD.SESS_INFO.LASTEV (R468, R469). -/
def Dev.sessEvent (d : Dev) (s code : Nat) : Dev :=
  if s = 0 then d else (d.modSess s (fun x => { x with ev := code })).raise (527 + s) code code

/-- Free a session: a command that runs runs to its end (R457). -/
def Dev.freeSess (d : Dev) (s : Nat) : Dev := d.modSess s (fun x => { run := x.run, ev := x.ev })

/-- Statuses of a reply (R460). -/
def fOK : Nat := 0
def fPENDING : Nat := 1
def fUNKNOWN_OPCODE : Nat := 2
def fBAD_PARAM : Nat := 3
def fAUTH_REQUIRED : Nat := 4
def fDENIED : Nat := 5
def fBUSY : Nat := 6
def fNO_SESSION : Nat := 7
def fAUTH_FAILED : Nat := 8
def fSEQ_EXHAUSTED : Nat := 9
def fWARMUP : Nat := 10
def fIN_USE : Nat := 11
def fLOAD_REFUSED : Nat := 16
def fNO_GRAPH : Nat := 17
def fGRAPH_STATE : Nat := 18
def fSWAP_PENDING : Nat := 19
def fADDR_FAULT : Nat := 20
def fTOKEN_REFUSED : Nat := 21
def fSTREAM : Nat := 22
def fIMAGE_BAD : Nat := 23
def fTOO_LATE : Nat := 24
def fHW_FAULT : Nat := 25

/-- ASCII of the strings that the handshake names. -/
def strH2d : List Byte := [70, 67, 80, 49, 32, 104, 50, 100]
def strD2h : List Byte := [70, 67, 80, 49, 32, 100, 50, 104]
def strOpen : List Byte := [70, 67, 80, 49, 45, 79, 80, 69, 78]
def strHost : List Byte := [70, 67, 80, 49, 45, 72, 79, 83, 84]

/-- Exactly `n` bytes. -/
def fit (n : Nat) (bs : List Byte) : List Byte := (bs ++ List.replicate (n - bs.length) 0).take n

/-- The request and reply keys of a session (R452). -/
def FcpSess.h2d (x : FcpSess) : List Byte := Config.hkdf x.t1 x.key strH2d 32
def FcpSess.d2h (x : FcpSess) : List Byte := Config.hkdf x.t1 x.key strD2h 32

/-- The nonce of a packet (R453). -/
def fcpNonce (kind : Nat) (seq : W32) (fofs : Nat) : List Byte := [BitVec.ofNat 8 kind, 0, 0, 0] ++ beBytes 4 seq.toNat ++ beBytes 4 fofs

/-! ### Replies (R448 to R451, R459) -/

/-- The header before a UDP payload, turned round: addresses and ports swapped, lengths and checksums for `m`. What the spec does not give
(traffic class, identification, hop limit, flow label, the DF flag) is free. (DESIGN CHOICE, log 83.) -/
def udpBack (pre : List Byte) (m : List Byte) (v : W64) : List Byte :=
  let o := etherOff pre + 2
  let u := pre.length - 8
  let ports := sub pre (u + 2) 2 ++ sub pre u 2
  let len := 8 + m.length
  let udp := fun (c : List Byte) => ports ++ beBytes 2 len ++ c ++ m
  let sum := fun (addrs : List Byte) => 65535 - fold16 (sum16 (addrs ++ beBytes 2 17 ++ beBytes 2 len ++ udp [0, 0]))
  let ck := fun (addrs : List Byte) => beBytes 2 (let c := sum addrs; if c = 0 then 65535 else c)
  if etherType pre = 0x0800 then
    let addrs := sub pre (o + 16) 4 ++ sub pre (o + 12) 4
    let head := fun (c : List Byte) => [0x45#8, v.extractLsb' 0 8] ++ beBytes 2 (20 + len) ++ beBytes 2 (v.extractLsb' 8 16).toNat ++
      beBytes 2 (if v.getLsbD 32 then 0x4000 else 0) ++ [v.extractLsb' 24 8, 17] ++ c ++ addrs
    head (beBytes 2 (65535 - fold16 (sum16 (head [0, 0])))) ++ udp (ck addrs)
  else
    let addrs := sub pre (o + 24) 16 ++ sub pre (o + 8) 16
    beBytes 4 (6 * 2 ^ 28 + (v.extractLsb' 0 28).toNat) ++ beBytes 2 len ++ [17, v.extractLsb' 28 8] ++ addrs ++ udp (ck addrs)

/-- Send an FCP packet back over the route of a request: the same form, port, subport and priority. The device sends none on a segment (R400). (DESIGN CHOICE, log 60.) -/
def Dev.fcpSend (d : Dev) (r : FcpRoute) (m : List Byte) : Dev :=
  if 8 ≤ r.port then d else
  let l2 := sub r.pre 6 6 ++ beBytes 6 (d.macOf r.port r.sub) ++ sub r.pre 12 (etherOff r.pre - 10)
  if r.pre.length ≤ etherOff r.pre + 2 then d.ethSend r.port r.sub r.prio 0 (l2 ++ m)
  else
    let (v, d) := d.free
    d.ethSend r.port r.sub r.prio 0 (l2 ++ udpBack r.pre m v)

/-- The header of a reply (R449). -/
def fcpHeader (s : Nat) (c : FcpCmd) (st plen fofs total : Nat) : List Byte :=
  [0x46, 0x45, 0x52, 0x57, 1, if s = 0 then 1 else 3] ++ beBytes 2 s ++ beBytes 4 c.seq.toNat ++ beBytes 2 c.op ++ beBytes 2 st ++ beBytes 4 plen ++
    beBytes 4 c.rtag.toNat ++ beBytes 4 fofs ++ beBytes 4 total

/-- Send the fragments of a reply; KIND is 1 final or 2 PENDING. -/
def Dev.fcpPieces (d : Dev) (s : Nat) (c : FcpCmd) (st kind : Nat) (par : List Byte) : Nat → Nat → Dev
  | 0, _ => d
  | fuel + 1, o =>
    let p := (par.drop o).take (d.rfld (cmdReg 0xC) 13 0)
    let h := fcpHeader s c st p.length o par.length
    let body := if s = 0 then p else Config.gcmSeal (d.sess s).d2h (fcpNonce kind c.seq o) h p
    let d := d.fcpSend c.route (h ++ body)
    let o' := o + max 1 p.length
    if par.length ≤ o' then d else d.fcpPieces s c st kind par fuel o'

/-- Send a reply's parameters, unless its session is gone. -/
def Dev.fcpSendReply (d : Dev) (s : Nat) (c : FcpCmd) (st kind : Nat) (par : List Byte) : Dev :=
  if s ≠ 0 ∧ (d.sess s).st = 0 then d else d.fcpPieces s c st kind par (par.length + 1) 0

/-- A reply without a stored copy: a refusal before a command is accepted, or PENDING. -/
def Dev.fcpAnswer (d : Dev) (s : Nat) (c : FcpCmd) (st detail : Nat) : Dev := d.fcpSendReply s c st (if st = fPENDING then 2 else 1) (beBytes 8 detail)

/-- The final reply of the session's running command (R457): it is kept, and a command that was answered PENDING raises the session's event. -/
def Dev.fcpFinal (d : Dev) (s : Nat) (c : FcpCmd) (st detail : Nat) (par : List Byte) : Dev :=
  let bs := beBytes 8 detail ++ par
  let d := d.fcpSendReply s c st 1 bs
  let d := d.modSess s (fun x => { x with run := none, reply := if s = 0 ∨ x.st = 0 then none else some ({ c with par := [] }, st, bs) })
  if c.long ∧ (d.sess s).st ≠ 0 then d.sessEvent s 5 else d

/-! ### Opcodes (R461) -/

/-- Name, role needed (bit 0 OBSERVE, 1 OPERATE, 2 MAINTAIN; 0 none), allowed on session 0, allowed in warm-up mode. -/
def opcodeInfo (o : Nat) : Option (Nat × Bool × Bool) :=
  if o = 0x01 ∨ o = 0x02 ∨ o = 0x10 then some (0, true, true)
  else if o = 0x11 ∨ o = 0x12 then some (0, false, true)
  else if o = 0x20 ∨ o = 0x71 ∨ o = 0x74 then some (1, false, true)
  else if o = 0x36 then some (1, false, false)
  else if o = 0x21 ∨ o = 0x60 ∨ o = 0x61 ∨ o = 0x70 then some (4, false, true)
  else if o = 0x72 ∨ o = 0x73 then some (4, false, false)
  else if o = 0x30 then some (2, false, true)
  else if (0x31 ≤ o ∧ o ≤ 0x35) ∨ o = 0x40 ∨ (0x50 ≤ o ∧ o ≤ 0x53) then some (2, false, false)
  else none

def Dev.inWarmup (d : Dev) : Bool := d.rbit (bootReg 8) 7

/-- The staging area of a session (R461). -/
def Dev.stageSize (d : Dev) : Nat := 8388608 * 2 ^ min 4 (d.rfld (cmdReg 0x1C) 2 0)
def Dev.stageBase (d : Dev) (s : Nat) : Nat := d.pair (cmdReg 0x14) / (64 * d.stageSize) * (64 * d.stageSize) + (s - 1) * d.stageSize
def Dev.staged (d : Dev) (s o n : Nat) : List Byte := d.read (d.stageBase s + o) n

/-- The role a command needs: GRAPH_LOAD of a protection image needs MAINTAIN. -/
def Dev.roleFor (d : Dev) (s o role : Nat) : Nat := if o = 0x31 ∧ imgProt (d.staged s 0 96) then 4 else role

/-- The tests on the opcode of an accepted request (R456): the status and DETAIL of the first that fails. (DESIGN CHOICE, log 82.) -/
def Dev.opcodeTest (d : Dev) (s : Nat) (o : Nat) : Option (Nat × Nat) :=
  let x := d.sess s
  match opcodeInfo o with
  | none => some (fUNKNOWN_OPCODE, 0)
  | some (role, zero, warm) =>
    if !zero && !(s != 0 && (x.st == 2 || o == 0x11)) then some (fAUTH_REQUIRED, 0)
    else if d.inWarmup && !warm then some (fWARMUP, 0)
    else
      let need := d.roleFor s o role
      if need ≠ 0 ∧ x.roles &&& need = 0 then some (fDENIED, need) else none

/-! ### Receiving a packet (R456) -/

/-- CMD.STATUS bits. -/
def Dev.cmdBit (d : Dev) (b : Nat) : Dev := d.setBit (cmdReg 0x24) b true

/-- A request whose last SEQ was accepted (R456): its opcode is tested, and the command waits for its row. -/
def Dev.fcpAccept (d : Dev) (s : Nat) (c : FcpCmd) : Dev :=
  let close := decide (c.op = 0x12) && (d.sess s).run.isSome
  let d := d.modSess s (fun x => { x with last := c.seq, reply := none })
  match d.opcodeTest s c.op with
  | some (st, detail) =>
    if close then d.fcpAnswer s c st detail
    else (d.modSess s (fun x => { x with run := some c })).fcpFinal s c st detail []
  | none => d.modSess s (fun x => if close then { x with close := some c } else { x with run := some c })

/-- A whole request (R455, R456). (DESIGN CHOICE, log 82.) -/
def Dev.fcpRequest (d : Dev) (s : Nat) (c : FcpCmd) : Dev :=
  let x := d.sess s
  if s = 0 then (if x.run.isSome then d.fcpAnswer 0 c fBUSY 0 else d.fcpAccept 0 c)
  else if c.seq = x.last then
    (if x.run.isSome || x.close.isSome then d.fcpAnswer s c fPENDING 0
     else match x.reply with
       | some (r, st, par) => d.fcpSendReply s { r with route := c.route } st 1 par
       | none => d)
  else if x.last.toNat = 2 ^ 32 - 1 then d.fcpAnswer s c fSEQ_EXHAUSTED 0
  else if c.seq.toNat < x.last.toNat then d
  else if x.run.isSome && c.op != 0x12 then d.fcpAnswer s c fBUSY 0
  else d.fcpAccept s c

/-- The parts of a request cover it (R450). -/
def FcpPart.whole (p : FcpPart) : Bool := (p.parts.map (fun x => x.2.length)).foldl (· + ·) 0 == p.total
def FcpPart.bytes (p : FcpPart) : List Byte :=
  p.parts.foldl (fun bs x => patch bs x.1 x.2) (List.replicate p.total 0)

/-- Fragments are held until the request is whole (R450): one request for each session, and four on session 0. A fragment that overlaps one already
held, or that belongs to a request there is no room for, is discarded. (DESIGN CHOICE, log 82.) -/
def Dev.fcpFragment (d : Dev) (s fofs total : Nat) (c : FcpCmd) : Dev :=
  let n := c.par.length
  if n = total then d.fcpRequest s c
  else if n = 0 then d
  else
    let isIt := fun (p : FcpPart) => p.sess == s && p.seq == c.seq && p.op == c.op && p.rtag == c.rtag && p.total == total && (s != 0 || p.route == c.route)
    match d.fcp.parts.find? isIt with
    | some p =>
      if p.parts.any (fun x => decide (fofs < x.1 + x.2.length ∧ x.1 < fofs + n)) then d
      else
        let p := { p with parts := p.parts ++ [(fofs, c.par)] }
        if p.whole then (d.modFcp (fun f => { f with parts := removeFirst isIt f.parts })).fcpRequest s { c with par := p.bytes }
        else d.modFcp (fun f => { f with parts := replaceFirst isIt (fun _ => p) f.parts })
    | none =>
      if (if s = 0 then 4 else 1) ≤ (d.fcp.parts.filter (fun p => p.sess == s)).length then d
      else d.modFcp (fun f => { f with parts := f.parts ++ [{ route := c.route, sess := s, seq := c.seq, op := c.op, rtag := c.rtag, total := total, parts := [(fofs, c.par)] }] })

/-- The oldest FCP packet is tested (R456). -/
def Dev.fcpPacket (d : Dev) : Dev :=
  match d.fcp.rx with
  | [] => d
  | p :: ps =>
    let d := d.modFcp (fun f => { f with rx := ps })
    let b := p.bytes
    let flags := be b 5 1
    let prot := decide (flags / 2 % 2 = 1)
    let s := be b 6 2
    let seq : W32 := BitVec.ofNat 32 (be b 8 4)
    let plen := be b 16 4
    let fofs := be b 24 4
    let total := be b 28 4
    if !d.fcpServed then d
    else if b.length < 32 ∨ be b 0 4 ≠ 0x46455257 ∨ be b 4 1 ≠ 1 ∨ flags % 2 ≠ 0 ∨ 4 ≤ flags ∨ 8192 < plen ∨ total < fofs + plen ∨ 65536 < total ∨
        b.length < 32 + plen + (if prot then 16 else 0) then d.cmdBit 0
    else if prot != decide (s ≠ 0) then d.cmdBit 0
    else if s ≠ 0 ∧ (64 < s ∨ (d.sess s).st = 0) then d.cmdBit 1
    else
      let c : FcpCmd := { seq := seq, op := be b 12 2, rtag := BitVec.ofNat 32 (be b 20 4), route := p.route }
      if s = 0 then d.fcpFragment s fofs total { c with par := sub b 32 plen }
      else
        match Config.gcmOpen (d.sess s).h2d (fcpNonce 0 seq fofs) (b.take 32) (sub b 32 (plen + 16)) with
        | none => (d.cmdBit 2).sessEvent s 4
        | some m => d.fcpFragment s fofs total { c with par := fit plen m }

/-- 100 ms after its first fragment a partial request is discarded (R450): the `n`th one held. -/
def Dev.fcpReassembly (d : Dev) (n : Nat) : Dev := d.modFcp (fun f => { f with parts := f.parts.eraseIdx n })

/-- 10 ms after its acceptance a running command is answered PENDING (R457). -/
def Dev.fcpPending (d : Dev) (s : Nat) : Dev :=
  match (d.sess s).run with
  | some c => if c.long then d else (d.modSess s (fun x => { x with run := some { c with long := true } })).fcpAnswer s c fPENDING 0
  | none => d

/-- A half-open session is freed (R455). -/
def Dev.halfOpenEnd (d : Dev) (s : Nat) : Dev := if (d.sess s).st = 1 then d.freeSess s else d

/-- No accepted request for CMD.IDLE.S seconds (R455): the session closes. (DESIGN CHOICE, log 82.) -/
def Dev.idleEnd (d : Dev) (s : Nat) : Dev :=
  if (d.sess s).st = 2 ∧ d.rfld (cmdReg 0x10) 15 0 ≠ 0 then (d.freeSess s).sessEvent s 3 else d

/-! ### Running a command -/

/-- The command of opcode `o` that a session runs, at the stage of its execution. -/
def Dev.fcpRun (d : Dev) (s o : Nat) : Option FcpCmd :=
  if !d.fcpServed then none
  else match (d.sess s).run with
    | some c => if c.op = o ∧ c.stage = 0 then some c else none
    | none => none

/-- The command goes on: its later stages complete it. -/
def Dev.fcpStage (d : Dev) (s : Nat) (c : FcpCmd) (stage : Nat) (aux : List Nat) : Dev :=
  d.modSess s (fun x => { x with run := some { c with stage := stage, aux := aux, long := (x.run.map (·.long)).getD c.long } })

/-- The offset at which the fixed fields of `sizes` fall short in `n` bytes. (DESIGN CHOICE, log 84.) -/
def shortAt : List Nat → Nat → Nat → Nat
  | [], o, _ => o
  | z :: zs, o, n => if n < o + z then o else shortAt zs (o + z) n

/-- A final reply whose DETAIL the spec does not give: a free value. (DESIGN CHOICE, log 83.) -/
def Dev.fcpFinalFree (d : Dev) (s : Nat) (c : FcpCmd) (st : Nat) : Dev := let (v, d) := d.free; d.fcpFinal s c st v.toNat []

/-- `n` free bytes. (DESIGN CHOICE, log 2.) -/
def Dev.freeStr (d : Dev) (n : Nat) : List Byte × Dev :=
  ((List.range n).map (fun i => (Config.freeValue (d.fresh + i)).extractLsb' 0 8), { d with fresh := d.fresh + n })

/-- A reserved field of `n` bytes at offset `o` (R456): bad where it is not zero. -/
def rsvd (par : List Byte) (o n : Nat) : Nat × Bool := (o, be par o n != 0)

/-- The offset of the first bad field (R456, R460) of parameters that have the fixed fields of `sizes`: one of `bad` (offset, whether it is bad), the
field that is cut short, or else what `tail` says of the bytes that follow; none where they are in order. (DESIGN CHOICE, log 84.) -/
def badField (par : List Byte) (sizes : List Nat) (bad : List (Nat × Bool)) (tail : Nat → Option Nat) : Option Nat :=
  let len := sizes.foldl (· + ·) 0
  let whole := shortAt sizes 0 par.length
  match bad.find? (fun x => x.2 && decide (x.1 < whole)) with
  | some x => some x.1
  | none => if par.length < len then some whole else tail (par.length - len)

/-- Nothing follows the fixed fields. -/
def exact (len : Nat) (more : Nat) : Option Nat := if more = 0 then none else some len

/-- Run a command whose parameters have fixed fields only: BAD_PARAM, or `act`. (DESIGN CHOICE, log 84.) -/
def Dev.fcpFixed (d : Dev) (s o : Nat) (sizes : List Nat) (bad : List Byte → List (Nat × Bool)) (act : Dev → FcpCmd → Dev) : Dev :=
  match d.fcpRun s o with
  | none => d
  | some c =>
    match badField c.par sizes (bad c.par) (exact (sizes.foldl (· + ·) 0)) with
    | some k => d.fcpFinal s c fBAD_PARAM k []
    | none => act d c

/-! ### Commands -/

/-- FCP_PACKET_RECEIVE (R456). -/
def execFcpPacketReceive (s : State) : Host.Outcome State Fault Refusal := .next { s with dev := s.dev.fcpPacket }
/-- FCP_REASSEMBLY_TIMEOUT (R450). -/
def execFcpReassemblyTimeout (n : Nat) (s : State) : Host.Outcome State Fault Refusal := .next { s with dev := s.dev.fcpReassembly n }
/-- FCP_PENDING_TIMER (R457). -/
def execFcpPendingTimer (k : Fin 65) (s : State) : Host.Outcome State Fault Refusal := .next { s with dev := s.dev.fcpPending k }
/-- SESSION_HALF_OPEN_TIMEOUT (R455). -/
def execSessionHalfOpenTimeout (k : Fin 65) (s : State) : Host.Outcome State Fault Refusal := .next { s with dev := s.dev.halfOpenEnd k }
/-- SESSION_IDLE_TIMEOUT (R455). -/
def execSessionIdleTimeout (k : Fin 65) (s : State) : Host.Outcome State Fault Refusal := .next { s with dev := s.dev.idleEnd k }

end Sys2Proof.Machine
end

