-- ==== Sys2Proof/Machine/FcpHost.lean ====
section
/-!
DEFINITION. FCP's commands outside graphs (15_command_protocol.md, R452, R461, R467; 17_boot_trust_change.md, R514 to R521; 18_events_health.md, R545):
PING and GET_INFO, the handshake, registers, images, streams and quiesce, firmware, resets, attestation, power, repair and health.
-/
namespace Sys2Proof.Machine

/-! ### PING, GET_INFO and the warm-up announcement (R461, R514) -/

def Dev.fcpPing (d : Dev) (s : Nat) : Dev :=
  match d.fcpRun s 0x01 with
  | none => d
  | some c => if 1024 < c.par.length then d.fcpFinal s c fBAD_PARAM 1024 [] else d.fcpFinal s c fOK 0 c.par

def Dev.fuseBad (d : Dev) : Bool := d.rbit (rstReg 4) 1

/-- The fields of a GET_INFO reply before the certificate's length: without an identity key (R513) IDKEY is free. (DESIGN CHOICE, log 83.) -/
def Dev.infoBytes (d : Dev) (f : Fuses) : List Byte × Dev :=
  let (none_, d') := d.freeStr 32
  let key := if d.fuseBad then none_ else fit 32 (Config.slhPublic (idSeed f))
  (beBytes 2 d.devNo.toNat ++ beBytes 4 (d.reg (rlyReg 4)).toNat ++ [if f.varE then 1 else 0, Config.revision] ++
    beBytes 1 (d.rfld (bootReg 8) 0 0) ++ beBytes 1 (d.rfld (bootReg 8) 7 7) ++ beBytes 1 (d.rfld (rstReg 0) 7 0) ++ beBytes 1 (d.rfld (bootReg 8) 15 8) ++
    d.slotRead 0 8 4 ++ d.slotRead 1 8 4 ++ beBytes 8 d.time.toNat ++ key, if d.fuseBad then d' else d)

/-- The certificate while it is valid (R517). -/
def Dev.certBytes (d : Dev) : List Byte := if d.rbit (secReg 0xF4) 2 then readFlash d.flash 0x2000000 29856 else []

def Dev.fcpInfo (d : Dev) (f : Fuses) (s : Nat) : Dev :=
  d.fcpFixed s 0x02 [] (fun _ => []) (fun d c =>
    let (bs, d) := d.infoBytes f
    d.fcpFinal s c fOK 0 (bs ++ beBytes 4 d.certBytes.length ++ d.certBytes))

/-- The announcement of warm-up mode, broadcast at port A's subport 0. (DESIGN CHOICE, log 90.) -/
def Dev.warmupAnnounce (d : Dev) (f : Fuses) : Dev :=
  if !d.inWarmup || d.rfld (bootReg 0x14) 15 0 == 0 || !d.subUp 0 0 then d
  else
    let (bs, d) := d.infoBytes f
    let h := fcpHeader 0 { op := 2, rtag := 0xFFFFFFFF } fOK 72 0 72
    d.ethSend 0 0 0 0 (List.replicate 6 0xFF ++ beBytes 6 (d.macOf 0 0) ++ beBytes 2 (d.rfld (cmdReg 4) 15 0) ++ h ++ List.replicate 8 0 ++ bs ++ beBytes 4 0)

/-! ### The handshake (R452, R455) -/

/-- The free session that the next handshake takes: the lowest that runs nothing. (DESIGN CHOICE, log 85.) -/
def Dev.freeSession (d : Dev) : Option Nat :=
  ((List.range 64).map (· + 1)).find? (fun k => let x := d.sess k; x.st == 0 && x.run.isNone)

/-- (DESIGN CHOICE, log 85.) -/
def Dev.sessionOpen (d : Dev) (f : Fuses) (s : Nat) : Dev :=
  d.fcpFixed s 0x10 [1, 3, 32, 1184] (fun p => [rsvd p 1 3]) (fun d c =>
    let slot := be c.par 0 1
    let x := d.keySlot slot
    if d.fuseBad then d.fcpFinalFree s c fHW_FAULT
    else if 64 ≤ d.sessCount 1 + d.sessCount 2 then d.fcpFinal s c fNO_SESSION 0 []
    else if 4 ≤ d.sessCount 1 then d.fcpFinal s c fBUSY 0 []
    else if 64 ≤ slot ∨ x.typ ≠ 1 ∨ x.roles = 0 then d.fcpFinal s c fAUTH_FAILED 0 []
    else
      match d.freeSession with
      | none => d.fcpFinal s c fNO_SESSION 0 []
      | some k =>
        let (nd, d) := d.freeStr 32
        let (v, d) := d.free
        let (ct, key) := Config.kemEncaps (sub c.par 36 1184) v.toNat
        let ct := fit 1088 ct
        let t1 := beBytes 48 (Config.sha384 (strOpen ++ c.par.take 1 ++ sub c.par 4 1216 ++ beBytes 2 k ++ nd ++ ct)).toNat
        let d := d.modSess k (fun x => { st := 1, slot := slot, t1 := t1, key := fit 32 key, ev := x.ev })
        d.fcpFinal s c fOK 0 (beBytes 2 k ++ [0, 0] ++ nd ++ ct ++ beBytes 4 17088 ++ fit 17088 (Config.slhSign (idSeed f) t1)))

/-- The bytes of a key slot's public key. -/
def KeySlot.pk (x : KeySlot) : List Byte := (x.data.flatMap (fun w => beBytes 4 w.toNat)).take (pkLen x.pset)

/-- (DESIGN CHOICE, log 85.) -/
def Dev.sessionAuth (d : Dev) (s : Nat) : Dev :=
  match d.fcpRun s 0x11 with
  | none => d
  | some c =>
    match badField c.par [4] [] (fun n => if n = be c.par 0 4 then none else if n < be c.par 0 4 then some 4 else some (4 + be c.par 0 4)) with
    | some k => d.fcpFinal s c fBAD_PARAM k []
    | none =>
      let x := d.sess s
      let key := d.keySlot x.slot
      let msg := beBytes 48 (Config.sha384 (x.t1 ++ strHost)).toNat
      if be c.par 0 4 = sigLen key.pset ∧ Config.slhVerify key.pset (KeySlot.pk key) msg (c.par.drop 4) then
        ((d.modSess s (fun x => { x with st := 2, roles := key.roles })).fcpFinal s c fOK 0 []).sessEvent s 1
      else (((d.fcpFinal s c fAUTH_FAILED 0 []).freeSess s).cmdBit 3).sessEvent s 7

/-- SESSION_CLOSE, alone or beside a command that runs (R457). (DESIGN CHOICE, log 85.) -/
def Dev.sessionClose (d : Dev) (s : Nat) : Dev :=
  if !d.fcpServed then d
  else
    match (d.sess s).close with
    | some c =>
      if !c.par.isEmpty then (d.fcpAnswer s c fBAD_PARAM 0).modSess s (fun x => { x with close := none })
      else ((d.fcpAnswer s c fOK 0).freeSess s).sessEvent s 2
    | none => d.fcpFixed s 0x12 [] (fun _ => []) (fun d c => ((d.fcpFinal s c fOK 0 []).freeSess s).sessEvent s 2)

/-! ### REG_READ and REG_WRITE (R461, R13, R508) -/

/-- The command of opcode `o` that a session runs, at whatever item it stands. -/
def Dev.fcpAny (d : Dev) (s o : Nat) : Option FcpCmd :=
  if !d.fcpServed then none else ((d.sess s).run).filter (fun c => c.op == o)

/-- The length that `n` items need; the count is in order. -/
def badItems (par : List Byte) (size : Nat) : Option Nat :=
  let n := be par 0 2
  badField par [2, 2] [(0, n == 0 || decide (256 < n)), rsvd par 2 2]
    (fun m => if m = n * size then none else if m < n * size then some (4 + m / size * size) else some (4 + n * size))

/-- FCP may not reach the address: it is not aligned, in the lock window, or in a window closed to FCP. (DESIGN CHOICE, log 86.) -/
def Dev.fcpBarred (d : Dev) (a : Nat) (wr : Bool) : Bool :=
  a % 4 != 0 || decide (lockBase ≤ a ∧ a < lockEnd) || !d.permits a [if wr then 7 else 6]

/-- Addresses that FCP never writes: the security engine, boot and flash, the fuse shadows, the boot ROM and the registers of the backup domain (R508); other addresses
of their windows hold nothing, and a write there is ignored (R11). (DESIGN CHOICE, log 86.) -/
def fcpNoWrite (a : Nat) : Bool :=
  inBlock (secReg 0) (secReg 0x100000) a || inBlock (bootReg 0) (bootReg 0x100000) a || inBlock (flashReg 0) (flashReg 0x100000) a ||
  inBlock 0x4003000000 0x4003010000 a || inBlock romBase (romBase + 0x40000) a ||
  (isConfig a && !inBlock configBase lockBase a && (regAt a).isSome)

/-- The items of a REG_READ from item `i` on, `vs` read before. (DESIGN CHOICE, log 86.) -/
def Dev.regReadFrom (d : Dev) (f : Fuses) (s : Nat) (c : FcpCmd) (x : Ecc) : Nat → Nat → List Nat → Dev
  | 0, _, vs => d.fcpFinal s c fOK 0 (vs.flatMap (fun v => beBytes 4 v))
  | n + 1, i, vs =>
    let a := be c.par (4 + 8 * i) 8
    if d.fcpBarred a false then d.fcpFinal s c fADDR_FAULT i []
    else if 2 ^ 48 ≤ a then d.fcpFinal s c fADDR_FAULT (i + 2 * 65536) []
    else
      let y := d.memSync f stewCore a 4 0 0 x
      if y.stall then y.d.fcpStage s c i vs
      else if y.st ≠ 0 then y.d.fcpFinal s c fADDR_FAULT (i + y.st * 65536) []
      else y.d.regReadFrom f s c x n (i + 1) (vs ++ [y.v])

def Dev.fcpRegRead (d : Dev) (f : Fuses) (s : Nat) (x : Ecc) : Dev :=
  match d.fcpAny s 0x20 with
  | none => d
  | some c =>
    match badItems c.par 8 with
    | some k => d.fcpFinal s c fBAD_PARAM k []
    | none => d.regReadFrom f s c x (be c.par 0 2 - c.stage) c.stage c.aux

/-- The items of a REG_WRITE from item `i` on. A write may reset the interpreter, which ends the command without a reply. (DESIGN CHOICE, log 86.) -/
def Dev.regWriteFrom (d : Dev) (f : Fuses) (s : Nat) (c : FcpCmd) (x : Ecc) : Nat → Nat → Dev
  | 0, _ => d.fcpFinal s c fOK 0 []
  | n + 1, i =>
    let a := be c.par (4 + 12 * i) 8
    let v := be c.par (12 + 12 * i) 4
    if d.fcpBarred a true || fcpNoWrite a then d.fcpFinal s c fADDR_FAULT i []
    else if 2 ^ 48 ≤ a then d.fcpFinal s c fADDR_FAULT (i + 2 * 65536) []
    else
      let y : Acc := if isConfig a then { d := d.regWrite f a (BitVec.ofNat 32 v) } else d.memSync f stewCore a 4 1 v x
      if y.stall then y.d.fcpStage s c i []
      else if y.st ≠ 0 then y.d.fcpFinal s c fADDR_FAULT (i + y.st * 65536) []
      else if (y.d.fcpAny s 0x21).isNone then y.d
      else y.d.regWriteFrom f s c x n (i + 1)

def Dev.fcpRegWrite (d : Dev) (f : Fuses) (s : Nat) (x : Ecc) : Dev :=
  match d.fcpAny s 0x21 with
  | none => d
  | some c =>
    match badItems c.par 12 with
    | some k => d.fcpFinal s c fBAD_PARAM k []
    | none => d.regWriteFrom f s c x (be c.par 0 2 - c.stage) c.stage

/-! ### The staging area (R461) -/

/-- The HBM stacks that hold `n` bytes from `a` on accept accesses. -/
def Dev.hbmReady (d : Dev) (a n : Nat) : Bool :=
  decide (a + n ≤ hbmSize) && (decide (0x600000000 ≤ a) || d.rbit (hbmReg 0 0) 0) && (decide (a + n ≤ 0x600000000) || d.rbit (hbmReg 1 0) 0)

/-- (DESIGN CHOICE, log 87.) -/
def Dev.imageWrite (d : Dev) (s : Nat) : Dev :=
  match d.fcpRun s 0x30 with
  | none => d
  | some c =>
    let o := be c.par 0 4
    let n := c.par.length - 4
    match badField c.par [4] [(0, decide (d.stageSize < o + n))] (fun _ => none) with
    | some k => d.fcpFinal s c fBAD_PARAM k []
    | none => if !d.hbmReady (d.stageBase s + o) n then d.fcpFinalFree s c fHW_FAULT else (d.write (d.stageBase s + o) (c.par.drop 4)).fcpFinal s c fOK 0 []

/-! ### Streams and quiesce (R467) -/

def Dev.fcpBind (d : Dev) (s : Nat) : Dev :=
  d.fcpFixed s 0x50 [8, 2, 2, 4] (fun p => [(8, decide (4095 < be p 8 2)), rsvd p 10 2, (12, decide (2 ^ 22 ≤ be p 12 4))]) (fun d c =>
    let (code, d) := d.bindStream (BitVec.ofNat 64 (be c.par 0 8)) (BitVec.ofNat 12 (be c.par 8 2)) (BitVec.ofNat 22 (be c.par 12 4))
    if code = 0 then d.fcpFinal s c fOK 0 [] else d.fcpFinal s c fSTREAM code [])

def Dev.fcpUnbind (d : Dev) (s : Nat) : Dev :=
  d.fcpFixed s 0x51 [4, 1, 3] (fun p => [(0, decide (2 ^ 20 ≤ be p 0 4)), (4, decide (1 < be p 4 1)), rsvd p 5 3]) (fun d c =>
    match d.ing.streams.find? (fun x => x.2.flow == be c.par 0 4) with
    | some (k, _) => (if be c.par 4 1 = 1 then d.strGo k else d.unbind k).fcpFinal s c fOK 0 []
    | none => d.fcpFinal s c fOK 0 [])

/-- A VALUE is out of its kind's range: flows, segments, port × 4 + subport, relay peers. -/
def quietBad (p : List Byte) : Bool :=
  let v := be p 8 8
  match be p 0 1 with | 0 => false | 1 => decide (2 ^ 20 ≤ v) | 2 => decide (8 ≤ v) | 3 => decide (8 ≤ v) | _ => decide (256 ≤ v)

def quietParams (p : List Byte) : List (Nat × Bool) := [(0, decide (4 < be p 0 1)), rsvd p 1 7, (8, quietBad p)]

def Dev.fcpQuiesce (d : Dev) (s : Nat) : Dev :=
  d.fcpFixed s 0x52 [1, 7, 8] quietParams (fun d c =>
    let rule := some (be c.par 0 1, BitVec.ofNat 64 (be c.par 8 8))
    let q := d.ing.quiesce
    let done := fun (d : Dev) (i : Nat) => d.fcpFinal s c fOK 0 (beBytes 1 i)
    match q.findIdx? (· == rule) with
    | some i => done d i
    | none =>
      match q.findIdx? (·.isNone) with
      | some i => done (d.modIng (fun g => { g with quiesce := q.set i rule })) i
      | none => if 64 ≤ q.length then d.fcpFinalFree s c fIN_USE else done (d.modIng (fun g => { g with quiesce := q ++ [rule] })) q.length)

def Dev.fcpResume (d : Dev) (s : Nat) : Dev :=
  d.fcpFixed s 0x53 [1, 7, 8] quietParams (fun d c =>
    let rule := some (be c.par 0 1, BitVec.ofNat 64 (be c.par 8 8))
    (d.modIng (fun g => { g with quiesce := g.quiesce.map (fun r => if r == rule then none else r) })).fcpFinal s c fOK 0 [])

/-! ### Firmware (R518, R519) -/

/-- (DESIGN CHOICE, log 87.) -/
def Dev.fwStage (d : Dev) (f : Fuses) (s : Nat) : Dev :=
  d.fcpFixed s 0x60 [4] (fun p => [(0, decide (d.stageSize < be p 0 4))]) (fun d c =>
    let n := be c.par 0 4
    match imageCheck (d.shadows f) d.secMin (d.staged s) (some n) 6 with
    | 0 => d.fcpStage s c 1 [n]
    | code => d.fcpFinal s c fIMAGE_BAD code [])

/-- The slot is erased, programmed and compared, or that failed and its bytes are free. (DESIGN CHOICE, log 87.) -/
def Dev.fwStaged (d : Dev) (s : Nat) (c : FcpCmd) (ok : Bool) : Dev :=
  let n := c.aux.getD 0 0
  let slot := 1 - d.activeSlot
  let a := slotBase slot
  let bs := d.staged s 0 n
  let d := { d with flash := mclear d.flash (inBlock a (a + cdiv n 65536 * 65536)) }
  if ok then
    let d := { d with flash := writeFlash d.flash a bs, boot := { d.boot with staged := some (slot, signedHash (d.staged s)) } }
    (d.write d.hbmImg bs).fcpFinal s c fOK 0 (beBytes 1 slot)
  else
    let (bs, d) := d.freeStr n
    ({ d with flash := writeFlash d.flash a bs } : Dev).fcpFinal s c fIMAGE_BAD 7 []

/-- The false-start count is cleared by the commands that leave warm-up mode (R513). -/
def Dev.leaveWarmup (d : Dev) : Dev := if d.inWarmup then d.setFld (bakReg 8) 3 0 0 else d

/-- What acts after the reply (R461): resets 0, 1 and 7, and the end of a block reset. -/
def Dev.fcpLater (d : Dev) (kind k : Nat) : Dev := d.modFcp (fun x => { x with acts := x.acts ++ [(kind, k)] })

def Dev.fwCommit (d : Dev) (s : Nat) : Dev :=
  d.fcpFixed s 0x61 [1, 3] (fun p => [(0, decide (1 < be p 0 1)), rsvd p 1 3]) (fun d c =>
    match d.boot.staged with
    | none => d.fcpFinal s c fIMAGE_BAD 9 []
    | some (slot, hash) =>
      let d := (d.leaveWarmup.writeRec slot true hash).fcpFinal s c fOK 0 []
      if be c.par 0 1 = 1 then d.fcpLater 7 0 else d)

/-! ### RESET (R461, R470 to R473) -/

/-- Set or release a block reset bit: a tile, its Runner, its Stride engine, a region's DMA engine, a die fabric. -/
def Dev.blockReset (d : Dev) (kind k : Nat) (on : Bool) : Dev :=
  let v : W32 := if on then 1 else 0
  if kind = 2 then d.cluSrst k v else if kind = 3 then d.rcSrst k v else if kind = 4 then d.seSrst k v
  else if kind = 5 then d.dmaSrst k on else if kind = 6 then d.diefSrst k v else d

/-- The bad fields of RESET: a block's place, and 0 where a field is unused. -/
def resetParams (p : List Byte) : List (Nat × Bool) :=
  let k := be p 0 1
  let die := decide (2 ≤ k ∧ k ≤ 6)
  let rgn := decide (2 ≤ k ∧ k ≤ 5)
  let tile := decide (2 ≤ k ∧ k ≤ 4)
  [(0, decide (7 < k)), (1, decide ((if die then 3 else 0) < be p 1 1)), (2, decide ((if rgn then 3 else 0) < be p 2 1)),
   (3, decide ((if tile then 16 else 0) < be p 3 1))]

/-- (DESIGN CHOICE, log 88.) -/
def Dev.fcpResetCmd (d : Dev) (s : Nat) : Dev :=
  d.fcpFixed s 0x70 [1, 1, 1, 1] resetParams (fun d c =>
    let k := be c.par 0 1
    let g := 4 * be c.par 1 1 + be c.par 2 1
    let n := if k = 6 then be c.par 1 1 else if k = 5 then g else tileKey g (be c.par 3 1)
    if k ≤ 1 ∨ k = 7 then ((if k ≤ 1 then d.leaveWarmup else d).fcpFinal s c fOK 0 []).fcpLater k 0
    else ((d.blockReset k n true).fcpFinal s c fOK 0 []).fcpLater k n)

/-- The `i`th act of those that replies announced. (DESIGN CHOICE, log 88.) -/
def Dev.fcpResetAct (d : Dev) (i : Nat) : Dev :=
  match d.fcp.acts[i]? with
  | none => d
  | some (kind, k) =>
    let d := d.modFcp (fun x => { x with acts := x.acts.eraseIdx i })
    if kind = 0 then d.coldReset 6 0 else if kind = 1 then d.warmReset 7 0 else if kind = 7 then d.stewReset 12 0 else d.blockReset kind k false

/-! ### ATTEST (R515) -/

/-- The measurement log as bytes. -/
def Dev.logBytes (d : Dev) : List Byte := d.sec.log.flatMap (fun e => beBytes 1 e.1 ++ [0, 0, 0] ++ beBytes 4 e.2.1 ++ fit 48 e.2.2)

def Dev.attest (d : Dev) (f : Fuses) (s : Nat) : Dev :=
  d.fcpFixed s 0x71 [32] (fun _ => []) (fun d c =>
    let log := d.logBytes
    if d.fuseBad then d.fcpFinalFree s c fHW_FAULT
    else d.fcpFinal s c fOK 0 (beBytes 4 log.length ++ log ++
      fit 17088 (Config.slhSign (idSeed f) (beBytes 48 (Config.sha384 (c.par ++ log)).toNat))))

/-! ### POWER (R461, R487) -/

/-- A state as POWER gives it: 0 off, 1 on, 2 changing. -/
def Dev.powerState (d : Dev) (k : Nat) : List Byte := beBytes 1 (match d.domState k with | 0 => 0 | 2 => 1 | _ => 2)

/-- Switching off that IN_USE refuses: the interpreter's own domains, the session's port, a region that is not closed. (DESIGN CHOICE, log 88.) -/
def Dev.powerHeld (d : Dev) (c : FcpCmd) (k : Nat) : Bool :=
  k == 36 || k == 39 || k == 40 || (decide (c.route.port ≤ 1) && k == 37 + c.route.port) || (decide (k < 32) && (d.regionOpen (k / 2) || d.closing (k / 2)))

/-- The domain reached what was asked, or the request is withdrawn: the reply goes out. (DESIGN CHOICE, log 88.) -/
def Dev.powerWait (d : Dev) (s : Nat) (c : FcpCmd) : Dev :=
  let k := be c.par 0 1
  if d.domQ.any (fun x => x.1 == k) then d.fcpStage s c 1 [] else d.fcpFinal s c fOK 0 (d.powerState k)

def Dev.fcpPower (d : Dev) (s : Nat) : Dev :=
  d.fcpFixed s 0x72 [1, 1, 2] (fun p => [(0, decide (47 < be p 0 1)), (1, decide (2 < be p 1 1)), rsvd p 2 2]) (fun d c =>
    let k := be c.par 0 1
    let act := be c.par 1 1
    if act = 2 then d.fcpFinal s c fOK 0 (d.powerState k)
    else if act = 0 ∧ d.powerHeld c k then d.fcpFinalFree s c fIN_USE
    else
      let d := d.domWrite k (BitVec.ofNat 32 (2 + act))
      if d.rbit (domReg k) 1 then d.fcpFinalFree s c fHW_FAULT else d.powerWait s c)

/-! ### REPAIR (R521) -/

/-- Set one region's PWR.OPEN bit. -/
def Dev.openSet (d : Dev) (g : Nat) (on : Bool) : Dev := d.openWrite (putFld (d.reg (pwrReg 0)) g g (if on then 1 else 0))
def Dev.parkSet (d : Dev) (g : Nat) (on : Bool) : Dev := d.parkWrite (putFld (d.reg (nocReg 4 0x40)) g g (if on then 1 else 0))

def Dev.fcpRepair (d : Dev) (s : Nat) : Dev :=
  d.fcpFixed s 0x73 [1, 1, 1, 1] (fun p => [(0, decide (15 < be p 0 1)), (1, decide (15 < be p 1 1)), (2, decide (16 < be p 2 1)), rsvd p 3 1]) (fun d c =>
    let g := be c.par 0 1
    if (d.map g).contains (be c.par 2 1) ∨ !d.regionOpen g then d.fcpFinalFree s c fIN_USE
    else ((d.parkSet g true).openSet g false).fcpStage s c 1 [])

/-- The shadow map becomes the active one with cluster `k` on tile `t`. -/
def Dev.shadowRepair (d : Dev) (g k t : Nat) : Dev :=
  (List.range 16).foldl (fun (d : Dev) c =>
    d.setFld (rgnReg g (0x20 + 4 * (c / 4))) (8 * (c % 4) + 4) (8 * (c % 4)) (if c = k then t else d.tileOf g c)) d

/-- Rewrite what the loaded graphs' images put on cluster `k` (R521 step 5). -/
def Dev.rewriteCluster (d : Dev) (k : Nat) : Dev :=
  let at_ := fun (a : Nat) => if isSpm a then spmCluster a == k else (a - nodeBase) / 0x80000 == k
  let gs := (d.graphs.filter (fun x => x.2.st != 0)).map (·.2)
  let d := (gs.flatMap (·.copy)).foldl (fun (d : Dev) x => if at_ x.1 then d.placeBytes x.1 x.2 else d) d
  (gs.flatMap (·.masks)).foldl (fun (d : Dev) x => if x.1 = k then d.placeMask x.1 x.2.1 x.2.2 else d) d

/-- The next step of a REPAIR: closed, committed, reopened; stage 4 is the reopening after a refused commit. (DESIGN CHOICE, log 88.) -/
def Dev.repairStep (d : Dev) (f : Fuses) (s : Nat) (c : FcpCmd) : Dev :=
  let g := be c.par 0 1
  let k := be c.par 1 1
  let t := be c.par 2 1
  if c.stage = 1 then
    (if d.regionOpen g || d.closing g then d
     else
       let old := d.reg (cluReg g (d.tileOf g k) 4)
       let d := (d.shadowRepair g k t).mapCommit g 5
       if d.rbit (mapCtrl g) 2 then (d.openSet g true).fcpStage s c 4 []
       else (d.clkWrite (tileKey g t) (d.fmax f) old).fcpStage s c 2 [])
  else if c.stage = 2 then (if d.rbit (mapCtrl g) 1 then d else ((d.rewriteCluster (16 * g + k)).openSet g true).fcpStage s c 3 [])
  else if !d.regionOpen g then d
  else
    let d := d.parkSet g false
    if c.stage = 3 then d.fcpFinal s c fOK 0 [] else d.fcpFinalFree s c fHW_FAULT

/-! ### HEALTH_QUERY (R545) -/

/-- The regions for which `p` holds, as a bitmap. -/
def regionBits (p : Nat → Bool) : Nat := (List.range 16).foldl (fun n g => if p g then n + 2 ^ g else n) 0

/-- Groups of a graph whose root is not free. -/
def Dev.graphRoots (d : Dev) (n : Nat) : Nat :=
  (List.range 16).foldl (fun a g =>
    let p := (d.region g).pool
    a + (p.root.filter (fun x => x.2.1.toNat == g * 2 ^ 18 + x.1 && cdState (mget 0 p.desc x.1) != 0 && cdGraph (mget 0 p.desc x.1) == n)).length) 0

/-- (DESIGN CHOICE, log 90.) -/
def Dev.healthBytes (d : Dev) (f : Fuses) (scope i : Nat) : List Byte :=
  let r := fun (a : Nat) => beBytes 4 (d.reg a).toNat
  if scope = 0 then
    beBytes 1 (d.rfld (hltReg 0) 1 0) ++ beBytes 1 (d.rfld (hltReg 0) 15 8) ++ [0, 0] ++ r (hltReg 0x20) ++ r (hltReg 0x24) ++ beBytes 4 d.jrnUsed ++
      beBytes 2 (regionBits d.regionOpen) ++ beBytes 2 (regionBits (fun g => (d.reserveWord g).getLsbD 5)) ++
      beBytes 2 ((List.range 16).foldl (fun n g => n + (d.isoTiles g).length) 0) ++ beBytes 2 d.pend.length
  else if scope = 1 then
    (List.range 4).flatMap (fun k => r (rgnReg i (0x10 + 4 * k))) ++ r (rgnReg i 0x34) ++ r (nocReg (i / 4) (0x28 + 4 * (i % 4))) ++ r (ctxReg i 0x10C) ++
      beBytes 4 (Pool.freeCount (d.region i).pool) ++ beBytes 4 (d.regRead f (stwReg i 0x10)).1.toNat
  else
    let x := d.graph i
    let cfg := d.reg (banked (hltReg 0x2C) i)
    beBytes 1 x.st ++ beBytes 1 (fld cfg 31 31) ++ beBytes 1 (fld cfg 7 0) ++
      beBytes 1 ((if x.aliveA then 1 else 0) + (if x.dup && x.aliveB then 2 else 0)) ++ beBytes 4 (d.graphRoots i) ++ beBytes 4 x.lost

def Dev.healthQuery (d : Dev) (f : Fuses) (s : Nat) : Dev :=
  d.fcpFixed s 0x74 [1, 2, 1] (fun p => [(0, decide (2 < be p 0 1)), (1, be p 0 1 == 1 && decide (15 < be p 1 2)), rsvd p 3 1]) (fun d c =>
    let i := be c.par 1 2
    if be c.par 0 1 = 2 ∧ (d.graph i).st = 0 then d.fcpFinal s c fNO_GRAPH i [] else d.fcpFinal s c fOK 0 (d.healthBytes f (be c.par 0 1) i))

/-! ### Commands -/

def execPing (k : Fin 65) (s : State) : Host.Outcome State Fault Refusal := .next { s with dev := s.dev.fcpPing k }
def execGetInfo (k : Fin 65) (s : State) : Host.Outcome State Fault Refusal := .next { s with dev := s.dev.fcpInfo s.fuses k }
def execWarmupAnnounce (s : State) : Host.Outcome State Fault Refusal := .next { s with dev := s.dev.warmupAnnounce s.fuses }
def execSessionOpen (k : Fin 65) (s : State) : Host.Outcome State Fault Refusal := .next { s with dev := s.dev.sessionOpen s.fuses k }
def execSessionAuth (k : Fin 65) (s : State) : Host.Outcome State Fault Refusal := .next { s with dev := s.dev.sessionAuth k }
def execSessionClose (k : Fin 65) (s : State) : Host.Outcome State Fault Refusal := .next { s with dev := s.dev.sessionClose k }
def execRegRead (k : Fin 65) (e : Ecc) (s : State) : Host.Outcome State Fault Refusal := .next { s with dev := s.dev.fcpRegRead s.fuses k e }
def execRegWrite (k : Fin 65) (e : Ecc) (s : State) : Host.Outcome State Fault Refusal := .next (s.put (s.dev.fcpRegWrite s.fuses k e))
def execImageWrite (k : Fin 65) (s : State) : Host.Outcome State Fault Refusal := .next { s with dev := s.dev.imageWrite k }
def execStreamBind (k : Fin 65) (s : State) : Host.Outcome State Fault Refusal := .next { s with dev := s.dev.fcpBind k }
def execStreamUnbind (k : Fin 65) (s : State) : Host.Outcome State Fault Refusal := .next { s with dev := s.dev.fcpUnbind k }
def execQuiesce (k : Fin 65) (s : State) : Host.Outcome State Fault Refusal := .next { s with dev := s.dev.fcpQuiesce k }
def execResume (k : Fin 65) (s : State) : Host.Outcome State Fault Refusal := .next { s with dev := s.dev.fcpResume k }
def execFwStage (k : Fin 65) (s : State) : Host.Outcome State Fault Refusal := .next { s with dev := s.dev.fwStage s.fuses k }
def execFwCommit (k : Fin 65) (s : State) : Host.Outcome State Fault Refusal := .next { s with dev := s.dev.fwCommit k }
def execReset (k : Fin 65) (s : State) : Host.Outcome State Fault Refusal := .next { s with dev := s.dev.fcpResetCmd k }
def execFcpResetAct (n : Nat) (s : State) : Host.Outcome State Fault Refusal := .next { s with dev := s.dev.fcpResetAct n }
def execAttest (k : Fin 65) (s : State) : Host.Outcome State Fault Refusal := .next { s with dev := s.dev.attest s.fuses k }
def execPower (k : Fin 65) (s : State) : Host.Outcome State Fault Refusal := .next { s with dev := s.dev.fcpPower k }
def execRepair (k : Fin 65) (s : State) : Host.Outcome State Fault Refusal := .next { s with dev := s.dev.fcpRepair k }
def execHealthQuery (k : Fin 65) (s : State) : Host.Outcome State Fault Refusal := .next { s with dev := s.dev.healthQuery s.fuses k }

end Sys2Proof.Machine
end

