-- ==== Sys2Proof/Machine/FcpGraph.lean ====
section
/-!
DEFINITION. FCP's graph commands (15_command_protocol.md, R461 to R466): load, start, stop, swap, unload, query, injected tokens; and the completion of
commands that take long (R457).
-/
namespace Sys2Proof.Machine

/-! ### Graphs and the hurdles that feed them (R462) -/

/-- The ID names a graph (R460). -/
def Dev.graphThere (d : Dev) (n : Nat) : Bool := n != 0 && decide (n ≤ 4095) && (d.graph n).st != 0

def Dev.setSt (d : Dev) (n st : Nat) : Dev := d.setGraph n { d.graph n with st := st }

/-- All hurdles: region, slot, hurdle. -/
def Dev.allHurdles (d : Dev) : List (Nat × Nat × Hurdle) :=
  (List.range 16).flatMap (fun g => ((d.region g).hurdles.filter (fun c => c.2.nsrc != 0)).map (fun c => (g, c.1, c.2)))

/-- A redirecting hurdle feeds the destinations of this hurdle's entry, which itself never receives a token (R464). -/
def Dev.isTarget (d : Dev) (h : Hurdle) : Bool := d.allHurdles.any (fun x => x.2.2.redirect == some (h.graph.toNat, h.entry))

/-- The hurdles whose releases go to a graph. -/
def Dev.feeders (d : Dev) (n : Nat) : List (Nat × Nat) :=
  (d.allHurdles.filter (fun x => x.2.2.feeds.1 == n && (x.2.2.redirect.isSome || !d.isTarget x.2.2))).map (fun x => (x.1, x.2.1))

/-- A swap to graph `n` is armed. -/
def Dev.armedNew (d : Dev) (n : Nat) : Bool := d.allHurdles.any (fun x => (x.2.2.armed.map (·.new)) == some n)

/-- Run a command on the graph that its parameter at offset 0 names. -/
def Dev.onGraph (d : Dev) (s : Nat) (c : FcpCmd) (act : Nat → Dev) : Dev :=
  let n := be c.par 0 2
  if d.graphThere n then act n else d.fcpFinal s c fNO_GRAPH n []

/-! ### GRAPH_LOAD and GRAPH_QUERY (R137, R461, R462) -/

def byteNats (bs : List Byte) : List Nat := bs.map (·.toNat)

def Dev.graphLoad (d : Dev) (s : Nat) : Dev :=
  d.fcpFixed s 0x31 [4, 16, 16] (fun p => [(0, decide (d.stageSize < be p 0 4))]) (fun d c =>
    let n := be c.par 0 4
    let bs := d.staged s 0 n
    let vmap := byteNats (sub c.par 4 16)
    let dmap := byteNats (sub c.par 20 16)
    match d.loadReason bs n vmap dmap, d.imgId bs with
    | 0, some id =>
      let d := d.loadGraph bs id vmap dmap
      d.fcpFinal s c fOK 0 (beBytes 2 id ++ [0, 0] ++ beBytes 4 (d.graph id).slots.length)
    | reason, _ => d.fcpFinal s c fLOAD_REFUSED reason [])

def Dev.graphQuery (d : Dev) (s : Nat) : Dev :=
  d.fcpFixed s 0x36 [2, 2] (fun p => [rsvd p 2 2]) (fun d c => d.onGraph s c (fun n =>
    let x := d.graph n
    let hs := d.allHurdles.filter (fun y => y.2.2.graph.toNat == n)
    let swap := if hs.any (fun y => y.2.2.armed.isSome) then 1 else if hs.any (fun y => y.2.2.redirect.isSome) then 2 else 0
    let target := ((hs.filterMap (fun y => y.2.2.redirect)).head?.map (·.1)).getD 0
    d.fcpFinal s c fOK 0 (beBytes 1 x.st ++ beBytes 1 swap ++ beBytes 2 (regionBits x.regsA.contains) ++ beBytes 2 (regionBits x.regsB.contains) ++ beBytes 2 target)))

/-! ### Start tokens (R463, R464) -/

/-- A context in the region of a copy's ENTRY, as CTXALLOC of a resident context takes one, and the signal-only token to it. FLOW is not given: a
free value. (DESIGN CHOICE, log 89.) -/
def Dev.startTok (d : Dev) (n : Nat) (copyB : Bool) (epoch : BitVec 8) : Option (BitVec 22 × Dev) :=
  let x := d.graph n
  let dst := DstF.ofBits (if copyB then x.entryB else x.entryA)
  let g := regionOf dst.die.toNat dst.rgn.toNat
  if !d.mayTake g x.maxprio n (x.maxprio != 15) then none
  else
    match d.takeCtx g x.maxprio n none with
    | none => none
    | some (c, d) =>
      let (v, d) := d.free
      let tag : Tag := { dev := d.devNo, graph := BitVec.ofNat 12 n, ctx := c, epoch := epoch, prio := BitVec.ofNat 4 x.maxprio, flow := v.extractLsb' 0 20 }
      some (c, d.blockSend cmdNode { tag := Tag.seal (Tag.to tag dst), pay := 0, ty := tyByte 7 false false false })

/-- Start tokens to every copy, all at once; the context is copy A's. -/
def Dev.startAll (d : Dev) (n : Nat) (epoch : BitVec 8) : Option (BitVec 22 × Dev) :=
  match d.startTok n false epoch with
  | none => none
  | some (c, d) => if (d.graph n).dup then (d.startTok n true epoch).map (fun x => (c, x.2)) else some (c, d)

/-- The start token of a GRAPH_START; without a free context the command waits. -/
def Dev.startWait (d : Dev) (s : Nat) (c : FcpCmd) : Dev :=
  match d.startAll (be c.par 0 2) (BitVec.ofNat 8 (be c.par 2 1)) with
  | some (x, d) => d.fcpFinal s c fOK 0 (beBytes 4 x.toNat)
  | none => d.fcpStage s c 1 []

/-- (DESIGN CHOICE, log 89.) -/
def Dev.graphStart (d : Dev) (s : Nat) : Dev :=
  d.fcpFixed s 0x32 [2, 1, 1] (fun p => [(3, decide (1 < be p 3 1))]) (fun d c => d.onGraph s c (fun n =>
    let st := (d.graph n).st
    if st ≠ 1 ∧ st ≠ 4 then d.fcpFinal s c fGRAPH_STATE st []
    else
      let d := if st = 4 then (d.feeders n).foldl (fun (d : Dev) x => d.hrdStopSet x.1 x.2 0) d else d
      let d := d.setSt n 2
      if be c.par 3 1 = 1 then d.startWait s c else d.fcpFinal s c fOK 0 (beBytes 4 0)))

/-! ### GRAPH_STOP (R463, R466) -/

/-- A halt: every context of the graph in use is faulted and swept; swaps that replace the graph are cancelled. (DESIGN CHOICE, log 89.) -/
def Dev.haltGraph (d : Dev) (n : Nat) : Dev :=
  let cs := (List.range 16).flatMap (fun g =>
    ((d.region g).pool.desc.filter (fun c => cdLive c.2 && cdGraph c.2 == n)).map (fun c => BitVec.ofNat 22 (g * 2 ^ 18 + c.1)))
  let d := cs.foldl (fun (d : Dev) c =>
    let v := d.ctxDesc c
    if cdLive v then ((d.setCtxDesc c (v ||| BitVec.ofNat 64 (2 ^ 55))).noteFault c none).startSweep c else d) d
  (d.allHurdles.filter (fun x => x.2.2.armed.isSome && x.2.2.feeds.1 == n)).foldl (fun (d : Dev) x =>
    (d.setHurdle x.1 x.2.1 { d.hurdle x.1 x.2.1 with armed := none }).hrdStopSet x.1 x.2.1 (d.reg (hrdStop x.1 x.2.1) &&& 0xFF#32)) d

/-- A sweep of a context of the graph is not yet acknowledged. -/
def Dev.sweepsLeft (d : Dev) (n : Nat) : Bool :=
  (List.range 16).any (fun g => (d.region g).pool.desc.any (fun c => cdState c.2 == 2 && cdGraph c.2 == n))

/-- The stop is complete when every hurdle reads STOPPED, or every sweep is acknowledged. -/
def Dev.stopWait (d : Dev) (s : Nat) (c : FcpCmd) : Dev :=
  let n := be c.par 0 2
  let done := if be c.par 2 1 = 1 then !d.sweepsLeft n else (d.feeders n).all (fun x => d.hrdStopped x.1 x.2)
  if done then (if (d.graph n).st = 3 then d.setSt n 4 else d).fcpFinal s c fOK 0 [] else d.fcpStage s c 1 []

/-- (DESIGN CHOICE, log 89.) -/
def Dev.graphStop (d : Dev) (s : Nat) : Dev :=
  d.fcpFixed s 0x33 [2, 1, 1] (fun p => [(2, decide (1 < be p 2 1))]) (fun d c => d.onGraph s c (fun n =>
    let st := (d.graph n).st
    let halt := be c.par 2 1 == 1
    if !(st == 2 || (halt && st == 3)) then d.fcpFinal s c fGRAPH_STATE st []
    else
      let d := d.setSt n 3
      let d := if halt then d.haltGraph n
        else (d.feeders n).foldl (fun (d : Dev) x => d.hrdStopSet x.1 x.2 (BitVec.ofNat 32 (256 + be c.par 3 1))) d
      d.stopWait s c))

/-! ### Swaps (R464, R466) -/

/-- The hurdles of a graph's table entry, one for each copy. -/
def Dev.entryHurdles (d : Dev) (n e : Nat) : List (Nat × Nat × Hurdle) :=
  d.allHurdles.filter (fun x => x.2.2.graph.toNat == n && x.2.2.entry == e)

/-- (DESIGN CHOICE, log 89.) -/
def Dev.graphSwap (d : Dev) (s : Nat) : Dev :=
  d.fcpFixed s 0x34 [2, 2, 2, 2, 1, 1, 2] (fun p => [(9, decide (1 < be p 9 1)), rsvd p 10 2]) (fun d c => d.onGraph s c (fun old =>
    let new := be c.par 2 2
    let hn := be c.par 6 2
    let es : BitVec 8 := BitVec.ofNat 8 (be c.par 8 1)
    let hos := d.entryHurdles old (be c.par 4 2)
    let e := (hos.head?.map (fun x => x.2.2.e)).getD 0
    if !d.graphThere new then d.fcpFinal s c fNO_GRAPH new []
    else if (d.graph new).st ≠ 1 then d.fcpFinal s c fGRAPH_STATE (d.graph new).st []
    else if hos.isEmpty then d.fcpFinal s c fGRAPH_STATE (d.graph old).st []
    else if hos.any (fun x => (d.entryOf new hn x.2.2.copyB).map (·.nsrc) != some x.2.2.nsrc) then d.fcpFinal s c fBAD_PARAM 6 []
    else if hos.any (fun x => x.2.2.armed.isSome || d.rbit (hrdStop x.1 x.2.1) 8) then d.fcpFinal s c fSWAP_PENDING 0 []
    else if hos.any (fun x => decide (128 ≤ (es - x.2.2.e).toNat)) then d.fcpFinal s c fTOO_LATE e.toNat []
    else
      let a : Armed := { new := new, hn := hn, es := es, sess := s, token := be c.par 9 1 == 1 }
      (hos.foldl (fun (d : Dev) x =>
        (d.setHurdle x.1 x.2.1 { d.hurdle x.1 x.2.1 with armed := some a }).hrdStopSet x.1 x.2.1 (256#32 + es.zeroExtend 32)) d).fcpFinal s c fOK 0 []))

/-- The start token that NEW still is to receive. Its EPOCH is not given: a free value. -/
def Dev.swapToken (d : Dev) (g slot : Nat) : Dev :=
  let h := d.hurdle g slot
  if !h.due then d
  else
    let n := h.feeds.1
    if h.copyB && !(d.graph n).dup then d.setHurdle g slot { h with due := false }
    else
      let (v, d') := d.free
      match d'.startTok n h.copyB (v.extractLsb' 0 8) with
      | some (_, d) => d.setHurdle g slot { h with due := false }
      | none => d

/-- A hurdle with an armed swap that reads STOPPED enters redirect. -/
def Dev.swapRedirect (d : Dev) (g slot : Nat) : Dev :=
  let h := d.hurdle g slot
  match h.armed with
  | none => d.swapToken g slot
  | some a =>
    if !d.hrdStopped g slot then d
    else
      let h := { h with armed := none, redirect := some (a.new, a.hn), old := some (h.feeds.1, h.feeds.2, a.es), due := a.token }
      let d := (d.setHurdle g slot h).hrdStopSet g slot (d.reg (hrdStop g slot) &&& 0xFF#32)
      let d := if (d.graph a.new).st = 1 then d.setSt a.new 2 else d
      (d.swapToken g slot).sessEvent a.sess 6

/-! ### GRAPH_UNLOAD (R463, R464, R139) -/

/-- Slots of a hurdle's nodes: cluster and slot. -/
def Hurdle.nodes (h : Hurdle) : List (Nat × Nat) := h.slots.map (fun w => (h.fu / 8, w.toNat))

/-- The logical cluster whose FU a hurdle's nodes run on, and their slots, are cleared: mask entries first, then descriptors. -/
def Dev.clearNodes (d : Dev) (ns : List (Nat × Nat)) : Dev :=
  let d := ns.foldl (fun (d : Dev) x => d.placeMask x.1 x.2 0) d
  ns.foldl (fun (d : Dev) x => d.placeBytes (slotAddr x.1 x.2) (List.replicate 16 0)) d

def Dev.dropHurdle (d : Dev) (g slot : Nat) : Dev := d.modRegion g (fun r => { r with hurdles := mdel r.hurdles slot })

/-- A graph's record once it is free: what its groups have lost and used stays. -/
def Dev.freeGraphRec (d : Dev) (n : Nat) : Dev := d.setGraph n { used := (d.graph n).used, lost := (d.graph n).lost }

/-- The graph keeps only `hs`, as an anchor, or nothing. (DESIGN CHOICE, log 89.) -/
def Dev.keepOnly (d : Dev) (n : Nat) (hs : List (Nat × Nat × Hurdle)) : Dev :=
  let x := d.graph n
  let keep := hs.flatMap (fun y => y.2.2.nodes)
  let gone := x.hurdles.filter (fun p => !hs.any (fun y => y.1 == p.1 && y.2.1 == p.2))
  let d := gone.foldl (fun (d : Dev) p => d.dropHurdle p.1 p.2) d
  let lost := gone.map (fun p => 256 * p.1 + p.2)
  let d := hs.foldl (fun (d : Dev) y => d.setHurdle y.1 y.2.1 { d.hurdle y.1 y.2.1 with horizon := mclear (d.hurdle y.1 y.2.1).horizon lost.contains }) d
  let d := d.clearNodes (x.slots.filter (fun p => !keep.contains p))
  if hs.isEmpty then d.freeGraphRec n
  else
    let at_ := fun (a : Nat) => keep.any (fun p => slotAddr p.1 p.2 == a)
    d.setGraph n { x with
      st := 5, slots := keep, banks := [], budget := [], hurdles := hs.map (fun y => (y.1, y.2.1))
      copy := x.copy.filter (fun p => at_ p.1), masks := x.masks.filter (fun p => keep.contains (p.1, p.2.1)) }

/-- The hurdles that fed an unloaded target: an anchor is freed, another feeds its own graph again. (DESIGN CHOICE, log 89.) -/
def Dev.freeAnchors (d : Dev) (n : Nat) : Dev :=
  (d.allHurdles.filter (fun x => (x.2.2.redirect.map (·.1)) == some n)).foldl (fun (d : Dev) x =>
    let m := x.2.2.graph.toNat
    if (d.graph m).st = 5 then
      let left := d.allHurdles.filter (fun y => y.2.2.graph.toNat == m && !(y.1 == x.1 && y.2.1 == x.2.1))
      d.keepOnly m left
    else d.setHurdle x.1 x.2.1 { d.hurdle x.1 x.2.1 with redirect := none, due := false }) d

/-- End the bindings of a graph's streams, silently (R418). -/
def Dev.endBindings (d : Dev) (n : Nat) : Dev :=
  (d.ing.streams.filter (fun x => x.2.graph.toNat == n)).foldl (fun (d : Dev) x => d.unbind x.1) d

def Dev.graphUnload (d : Dev) (s : Nat) : Dev :=
  d.fcpFixed s 0x35 [2, 2] (fun p => [rsvd p 2 2]) (fun d c => d.onGraph s c (fun n =>
    let st := (d.graph n).st
    if (st ≠ 1 ∧ st ≠ 4) ∨ d.armedNew n then d.fcpFinal s c fGRAPH_STATE st []
    else
      let d := (d.endBindings n).freeAnchors n
      (d.keepOnly n (d.allHurdles.filter (fun x => x.2.2.graph.toNat == n && x.2.2.redirect.isSome))).fcpFinal s c fOK 0 []))

/-! ### TOKEN_INJECT (R465) -/

/-- The token of a record. -/
def recToken (p : List Byte) (i : Nat) : Token :=
  let o := 4 + 32 * i
  { tag := Tag.seal (Tag.ofBits (BitVec.ofNat 128 (be p o 16))), pay := BitVec.ofNat 64 (be p (o + 16) 8), ty := BitVec.ofNat 8 (be p (o + 24) 1) }

/-- Why a record is refused, 0 where it is not. (DESIGN CHOICE, log 90.) -/
def Dev.recBad (d : Dev) (roles : Nat) (t : Token) : Nat :=
  if t.tag.cls ≠ 0 then 1 else if t.tag.graph = 0 then 2 else if !d.running t.tag.graph.toNat then 3
  else if t.tag.prio = 15 ∧ !roles.testBit 2 then 4 else if 5 ≤ t.tag.die.toNat then 5 else 0

/-- Send the records from the `i`th on: the reply that is due, status and DETAIL. (DESIGN CHOICE, log 90.) -/
def Dev.injectFrom (d : Dev) (roles : Nat) (p : List Byte) : Nat → Nat → Dev × Nat × Nat
  | 0, _ => (d, fOK, 0)
  | n + 1, i =>
    let t := recToken p i
    let k := d.recBad roles t
    if k ≠ 0 then (d, fTOKEN_REFUSED, i + k * 65536) else (d.blockSend cmdNode t).injectFrom roles p n (i + 1)

/-- A token of the interpreter waits to be sent. -/
def Dev.cmdWaits (d : Dev) : Bool :=
  (d.link ⟨cmdNode, .hub⟩).q.any (fun x => match x.pkt.body with | .token _ => true | _ => false) || d.jrnWait.any (fun w => w.src == cmdNode)

/-- The reply follows the acceptance of the last record. -/
def Dev.injectWait (d : Dev) (s : Nat) (c : FcpCmd) : Dev :=
  if d.cmdWaits then d.fcpStage s c 1 c.aux else d.fcpFinal s c (c.aux.getD 0 0) (c.aux.getD 1 0) []

/-- The bad fields of the records: RKIND and the reserved bytes. -/
def recFields (p : List Byte) : List (Nat × Bool) :=
  (List.range (be p 0 2)).flatMap (fun i => let o := 4 + 32 * i; [(o + 25, be p (o + 25) 1 != 0), (o + 26, be p (o + 26) 6 != 0)])

def Dev.tokenInject (d : Dev) (s : Nat) : Dev :=
  match d.fcpRun s 0x40 with
  | none => d
  | some c =>
    let bad := match badItems c.par 32 with
      | some k => some k
      | none => ((recFields c.par).find? (·.2)).map (·.1)
    match bad with
    | some k => d.fcpFinal s c fBAD_PARAM k []
    | none =>
      let (d, st, detail) := d.injectFrom (d.sess s).roles c.par (be c.par 0 2) 0
      d.injectWait s { c with aux := [st, detail] }

/-! ### Completion (R457) -/

/-- A command that is under way goes on, and completes where its condition holds. `ok` says how the flash fared. -/
def Dev.fcpComplete (d : Dev) (f : Fuses) (s : Nat) (ok : Bool) : Dev :=
  match if d.fcpServed then (d.sess s).run else none with
  | none => d
  | some c =>
    if c.stage = 0 then d
    else if c.op = 0x32 then d.startWait s c
    else if c.op = 0x33 then d.stopWait s c
    else if c.op = 0x40 then d.injectWait s c
    else if c.op = 0x60 then d.fwStaged s c ok
    else if c.op = 0x72 then d.powerWait s c
    else if c.op = 0x73 then d.repairStep f s c
    else d

/-! ### Commands -/

def execGraphLoad (k : Fin 65) (s : State) : Host.Outcome State Fault Refusal := .next { s with dev := s.dev.graphLoad k }
def execGraphStart (k : Fin 65) (s : State) : Host.Outcome State Fault Refusal := .next { s with dev := s.dev.graphStart k }
def execGraphStop (k : Fin 65) (s : State) : Host.Outcome State Fault Refusal := .next { s with dev := s.dev.graphStop k }
def execGraphSwap (k : Fin 65) (s : State) : Host.Outcome State Fault Refusal := .next { s with dev := s.dev.graphSwap k }
def execSwapRedirect (g : Fin 16) (slot : BitVec 8) (s : State) : Host.Outcome State Fault Refusal := .next { s with dev := s.dev.swapRedirect g slot.toNat }
def execGraphUnload (k : Fin 65) (s : State) : Host.Outcome State Fault Refusal := .next { s with dev := s.dev.graphUnload k }
def execGraphQuery (k : Fin 65) (s : State) : Host.Outcome State Fault Refusal := .next { s with dev := s.dev.graphQuery k }
def execTokenInject (k : Fin 65) (s : State) : Host.Outcome State Fault Refusal := .next { s with dev := s.dev.tokenInject k }
def execFcpCommandComplete (k : Fin 65) (ok : Bool) (s : State) : Host.Outcome State Fault Refusal := .next { s with dev := s.dev.fcpComplete s.fuses k ok }

end Sys2Proof.Machine
end

