-- ==== Sys2Proof/Machine/FuArith.lean ====
section
/-!
DEFINITION. The integer and floating-point operations as commands (R113, R114): each computes the firing at its FU's
node fetch stage whose opcode it is.
-/
namespace Sys2Proof.Machine

/-- MOV. -/
def execMov (g : Fin 16) (t : Fin 17) (f : Fin 8) (s : State) : Host.Outcome State Fault Refusal :=
  .next { s with dev := s.dev.compute (fuKey g t f) 0x000 }
/-- ADD. -/
def execAdd (g : Fin 16) (t : Fin 17) (f : Fin 8) (s : State) : Host.Outcome State Fault Refusal :=
  .next { s with dev := s.dev.compute (fuKey g t f) 0x001 }
/-- SUB. -/
def execSub (g : Fin 16) (t : Fin 17) (f : Fin 8) (s : State) : Host.Outcome State Fault Refusal :=
  .next { s with dev := s.dev.compute (fuKey g t f) 0x002 }
/-- NEG. -/
def execNeg (g : Fin 16) (t : Fin 17) (f : Fin 8) (s : State) : Host.Outcome State Fault Refusal :=
  .next { s with dev := s.dev.compute (fuKey g t f) 0x003 }
/-- ABS. -/
def execAbs (g : Fin 16) (t : Fin 17) (f : Fin 8) (s : State) : Host.Outcome State Fault Refusal :=
  .next { s with dev := s.dev.compute (fuKey g t f) 0x004 }
/-- MIN. -/
def execMin (g : Fin 16) (t : Fin 17) (f : Fin 8) (s : State) : Host.Outcome State Fault Refusal :=
  .next { s with dev := s.dev.compute (fuKey g t f) 0x005 }
/-- MAX. -/
def execMax (g : Fin 16) (t : Fin 17) (f : Fin 8) (s : State) : Host.Outcome State Fault Refusal :=
  .next { s with dev := s.dev.compute (fuKey g t f) 0x006 }
/-- MUL. -/
def execMul (g : Fin 16) (t : Fin 17) (f : Fin 8) (s : State) : Host.Outcome State Fault Refusal :=
  .next { s with dev := s.dev.compute (fuKey g t f) 0x008 }
/-- MULHI. -/
def execMulhi (g : Fin 16) (t : Fin 17) (f : Fin 8) (s : State) : Host.Outcome State Fault Refusal :=
  .next { s with dev := s.dev.compute (fuKey g t f) 0x009 }
/-- DIV. -/
def execDiv (g : Fin 16) (t : Fin 17) (f : Fin 8) (s : State) : Host.Outcome State Fault Refusal :=
  .next { s with dev := s.dev.compute (fuKey g t f) 0x00A }
/-- REM. -/
def execRem (g : Fin 16) (t : Fin 17) (f : Fin 8) (s : State) : Host.Outcome State Fault Refusal :=
  .next { s with dev := s.dev.compute (fuKey g t f) 0x00B }
/-- AND. -/
def execAnd (g : Fin 16) (t : Fin 17) (f : Fin 8) (s : State) : Host.Outcome State Fault Refusal :=
  .next { s with dev := s.dev.compute (fuKey g t f) 0x010 }
/-- OR. -/
def execOr (g : Fin 16) (t : Fin 17) (f : Fin 8) (s : State) : Host.Outcome State Fault Refusal :=
  .next { s with dev := s.dev.compute (fuKey g t f) 0x011 }
/-- XOR. -/
def execXor (g : Fin 16) (t : Fin 17) (f : Fin 8) (s : State) : Host.Outcome State Fault Refusal :=
  .next { s with dev := s.dev.compute (fuKey g t f) 0x012 }
/-- NOT. -/
def execNot (g : Fin 16) (t : Fin 17) (f : Fin 8) (s : State) : Host.Outcome State Fault Refusal :=
  .next { s with dev := s.dev.compute (fuKey g t f) 0x013 }
/-- ANDN. -/
def execAndn (g : Fin 16) (t : Fin 17) (f : Fin 8) (s : State) : Host.Outcome State Fault Refusal :=
  .next { s with dev := s.dev.compute (fuKey g t f) 0x014 }
/-- SHL. -/
def execShl (g : Fin 16) (t : Fin 17) (f : Fin 8) (s : State) : Host.Outcome State Fault Refusal :=
  .next { s with dev := s.dev.compute (fuKey g t f) 0x018 }
/-- SHR. -/
def execShr (g : Fin 16) (t : Fin 17) (f : Fin 8) (s : State) : Host.Outcome State Fault Refusal :=
  .next { s with dev := s.dev.compute (fuKey g t f) 0x019 }
/-- SRA. -/
def execSra (g : Fin 16) (t : Fin 17) (f : Fin 8) (s : State) : Host.Outcome State Fault Refusal :=
  .next { s with dev := s.dev.compute (fuKey g t f) 0x01A }
/-- CLZ. -/
def execClz (g : Fin 16) (t : Fin 17) (f : Fin 8) (s : State) : Host.Outcome State Fault Refusal :=
  .next { s with dev := s.dev.compute (fuKey g t f) 0x01C }
/-- CTZ. -/
def execCtz (g : Fin 16) (t : Fin 17) (f : Fin 8) (s : State) : Host.Outcome State Fault Refusal :=
  .next { s with dev := s.dev.compute (fuKey g t f) 0x01D }
/-- POPC. -/
def execPopc (g : Fin 16) (t : Fin 17) (f : Fin 8) (s : State) : Host.Outcome State Fault Refusal :=
  .next { s with dev := s.dev.compute (fuKey g t f) 0x01E }
/-- EQ. -/
def execEq (g : Fin 16) (t : Fin 17) (f : Fin 8) (s : State) : Host.Outcome State Fault Refusal :=
  .next { s with dev := s.dev.compute (fuKey g t f) 0x020 }
/-- NE. -/
def execNe (g : Fin 16) (t : Fin 17) (f : Fin 8) (s : State) : Host.Outcome State Fault Refusal :=
  .next { s with dev := s.dev.compute (fuKey g t f) 0x021 }
/-- LT. -/
def execLt (g : Fin 16) (t : Fin 17) (f : Fin 8) (s : State) : Host.Outcome State Fault Refusal :=
  .next { s with dev := s.dev.compute (fuKey g t f) 0x022 }
/-- LE. -/
def execLe (g : Fin 16) (t : Fin 17) (f : Fin 8) (s : State) : Host.Outcome State Fault Refusal :=
  .next { s with dev := s.dev.compute (fuKey g t f) 0x023 }
/-- GT. -/
def execGt (g : Fin 16) (t : Fin 17) (f : Fin 8) (s : State) : Host.Outcome State Fault Refusal :=
  .next { s with dev := s.dev.compute (fuKey g t f) 0x024 }
/-- GE. -/
def execGe (g : Fin 16) (t : Fin 17) (f : Fin 8) (s : State) : Host.Outcome State Fault Refusal :=
  .next { s with dev := s.dev.compute (fuKey g t f) 0x025 }
/-- FADD. -/
def execFadd (g : Fin 16) (t : Fin 17) (f : Fin 8) (s : State) : Host.Outcome State Fault Refusal :=
  .next { s with dev := s.dev.compute (fuKey g t f) 0x100 }
/-- FSUB. -/
def execFsub (g : Fin 16) (t : Fin 17) (f : Fin 8) (s : State) : Host.Outcome State Fault Refusal :=
  .next { s with dev := s.dev.compute (fuKey g t f) 0x101 }
/-- FMUL. -/
def execFmul (g : Fin 16) (t : Fin 17) (f : Fin 8) (s : State) : Host.Outcome State Fault Refusal :=
  .next { s with dev := s.dev.compute (fuKey g t f) 0x102 }
/-- FDIV. -/
def execFdiv (g : Fin 16) (t : Fin 17) (f : Fin 8) (s : State) : Host.Outcome State Fault Refusal :=
  .next { s with dev := s.dev.compute (fuKey g t f) 0x103 }
/-- FSQRT. -/
def execFsqrt (g : Fin 16) (t : Fin 17) (f : Fin 8) (s : State) : Host.Outcome State Fault Refusal :=
  .next { s with dev := s.dev.compute (fuKey g t f) 0x104 }
/-- FMA. -/
def execFma (g : Fin 16) (t : Fin 17) (f : Fin 8) (s : State) : Host.Outcome State Fault Refusal :=
  .next { s with dev := s.dev.compute (fuKey g t f) 0x105 }
/-- FNEG. -/
def execFneg (g : Fin 16) (t : Fin 17) (f : Fin 8) (s : State) : Host.Outcome State Fault Refusal :=
  .next { s with dev := s.dev.compute (fuKey g t f) 0x106 }
/-- FABS. -/
def execFabs (g : Fin 16) (t : Fin 17) (f : Fin 8) (s : State) : Host.Outcome State Fault Refusal :=
  .next { s with dev := s.dev.compute (fuKey g t f) 0x107 }
/-- FMIN. -/
def execFmin (g : Fin 16) (t : Fin 17) (f : Fin 8) (s : State) : Host.Outcome State Fault Refusal :=
  .next { s with dev := s.dev.compute (fuKey g t f) 0x108 }
/-- FMAX. -/
def execFmax (g : Fin 16) (t : Fin 17) (f : Fin 8) (s : State) : Host.Outcome State Fault Refusal :=
  .next { s with dev := s.dev.compute (fuKey g t f) 0x109 }
/-- FEQ. -/
def execFeq (g : Fin 16) (t : Fin 17) (f : Fin 8) (s : State) : Host.Outcome State Fault Refusal :=
  .next { s with dev := s.dev.compute (fuKey g t f) 0x110 }
/-- FLT. -/
def execFlt (g : Fin 16) (t : Fin 17) (f : Fin 8) (s : State) : Host.Outcome State Fault Refusal :=
  .next { s with dev := s.dev.compute (fuKey g t f) 0x111 }
/-- FLE. -/
def execFle (g : Fin 16) (t : Fin 17) (f : Fin 8) (s : State) : Host.Outcome State Fault Refusal :=
  .next { s with dev := s.dev.compute (fuKey g t f) 0x112 }
/-- FUNORD. -/
def execFunord (g : Fin 16) (t : Fin 17) (f : Fin 8) (s : State) : Host.Outcome State Fault Refusal :=
  .next { s with dev := s.dev.compute (fuKey g t f) 0x113 }
/-- FCVT. -/
def execFcvt (g : Fin 16) (t : Fin 17) (f : Fin 8) (s : State) : Host.Outcome State Fault Refusal :=
  .next { s with dev := s.dev.compute (fuKey g t f) 0x118 }
/-- FTOI. -/
def execFtoi (g : Fin 16) (t : Fin 17) (f : Fin 8) (s : State) : Host.Outcome State Fault Refusal :=
  .next { s with dev := s.dev.compute (fuKey g t f) 0x119 }
/-- ITOF. -/
def execItof (g : Fin 16) (t : Fin 17) (f : Fin 8) (s : State) : Host.Outcome State Fault Refusal :=
  .next { s with dev := s.dev.compute (fuKey g t f) 0x11A }
/-- FROUND. -/
def execFround (g : Fin 16) (t : Fin 17) (f : Fin 8) (s : State) : Host.Outcome State Fault Refusal :=
  .next { s with dev := s.dev.compute (fuKey g t f) 0x11B }
/-- FCLASS. -/
def execFclass (g : Fin 16) (t : Fin 17) (f : Fin 8) (s : State) : Host.Outcome State Fault Refusal :=
  .next { s with dev := s.dev.compute (fuKey g t f) 0x11C }

end Sys2Proof.Machine
end

