-- ==== Sys2Proof/Machine/Dispatch.lean ====
section
/-!
DEFINITION. One arm per command: each calls the meaning of its command once.
-/
namespace Sys2Proof.Machine

/-- The command's effect on everything but the queue. -/
def exec (i : Instr) (s : State) : Host.Outcome State Fault Refusal :=
  match i with
  | .registerWrite x1 x2 => Sys2Proof.Machine.execRegisterWrite x1 x2 s
  | .pairLoRead x1 => Sys2Proof.Machine.execPairLoRead x1 s
  | .pairHiWrite x1 x2 => Sys2Proof.Machine.execPairHiWrite x1 x2 s
  | .clkFreqWrite x1 x2 x3 => Sys2Proof.Machine.execClkFreqWrite x1 x2 x3 s
  | .pllRelockDone x1 x2 => Sys2Proof.Machine.execPllRelockDone x1 x2 s
  | .pllLockTimeout x1 x2 => Sys2Proof.Machine.execPllLockTimeout x1 x2 s
  | .cluSrstWrite x1 x2 x3 => Sys2Proof.Machine.execCluSrstWrite x1 x2 x3 s
  | .mapCommit x1 x2 => Sys2Proof.Machine.execMapCommit x1 x2 s
  | .tileUnhealthy x1 x2 => Sys2Proof.Machine.execTileUnhealthy x1 x2 s
  | .routeEpochFlipDone x1 => Sys2Proof.Machine.execRouteEpochFlipDone x1 s
  | .flitReceive x1 x2 => Sys2Proof.Machine.execFlitReceive x1 x2 s
  | .ageIncrement x1 x2 => Sys2Proof.Machine.execAgeIncrement x1 x2 s
  | .linkDown x1 => Sys2Proof.Machine.execLinkDown x1 s
  | .linkUp x1 => Sys2Proof.Machine.execLinkUp x1 s
  | .diefSrstWrite x1 x2 => Sys2Proof.Machine.execDiefSrstWrite x1 x2 s
  | .creditReturn x1 => Sys2Proof.Machine.execCreditReturn x1 s
  | .tokenTagCheck x1 x2 x3 => Sys2Proof.Machine.execTokenTagCheck x1 x2 x3 s
  | .tagCheckRetry x1 x2 x3 => Sys2Proof.Machine.execTagCheckRetry x1 x2 x3 s
  | .spillWriteIssue x1 x2 x3 => Sys2Proof.Machine.execSpillWriteIssue x1 x2 x3 s
  | .spillWriteResponse x1 x2 x3 => Sys2Proof.Machine.execSpillWriteResponse x1 x2 x3 s
  | .fillResponse x1 x2 x3 => Sys2Proof.Machine.execFillResponse x1 x2 x3 s
  | .overflowDeleteDone x1 x2 x3 => Sys2Proof.Machine.execOverflowDeleteDone x1 x2 x3 s
  | .esScrub x1 x2 x3 x4 => Sys2Proof.Machine.execEsScrub x1 x2 x3 x4 s
  | .rebuild x1 x2 x3 x4 => Sys2Proof.Machine.execRebuild x1 x2 x3 x4 s
  | .rebuildDone x1 x2 x3 => Sys2Proof.Machine.execRebuildDone x1 x2 x3 s
  | .overflowRebuildDone x1 x2 x3 => Sys2Proof.Machine.execOverflowRebuildDone x1 x2 x3 s
  | .esHwmClr x1 x2 x3 x4 => Sys2Proof.Machine.execEsHwmClr x1 x2 x3 x4 s
  | .hashSaltWrite x1 x2 x3 x4 => Sys2Proof.Machine.execHashSaltWrite x1 x2 x3 x4 s
  | .oflConfigWrite x1 x2 x3 => Sys2Proof.Machine.execOflConfigWrite x1 x2 x3 s
  | .oflHwmClr x1 x2 => Sys2Proof.Machine.execOflHwmClr x1 x2 s
  | .ctxLowClr x1 x2 => Sys2Proof.Machine.execCtxLowClr x1 x2 s
  | .ctxStarveTimeout x1 => Sys2Proof.Machine.execCtxStarveTimeout x1 s
  | .faultMessage x1 => Sys2Proof.Machine.execFaultMessage x1 s
  | .flagUpdate x1 => Sys2Proof.Machine.execFlagUpdate x1 s
  | .sweepReceive x1 x2 x3 x4 => Sys2Proof.Machine.execSweepReceive x1 x2 x3 x4 s
  | .sweepOverflowDone x1 x2 x3 => Sys2Proof.Machine.execSweepOverflowDone x1 x2 x3 s
  | .sweepAckComplete x1 x2 => Sys2Proof.Machine.execSweepAckComplete x1 x2 s
  | .sweepGuardExpiry x1 x2 => Sys2Proof.Machine.execSweepGuardExpiry x1 x2 s
  | .tombstoneLapse x1 x2 x3 => Sys2Proof.Machine.execTombstoneLapse x1 x2 x3 s
  | .nodeSlotWrite x1 x2 x3 x4 => Sys2Proof.Machine.execNodeSlotWrite x1 x2 x3 x4 s
  | .maskDataWrite x1 x2 x3 => Sys2Proof.Machine.execMaskDataWrite x1 x2 x3 s
  | .undefinedOpcode x1 x2 x3 => Sys2Proof.Machine.execUndefinedOpcode x1 x2 x3 s
  | .mov x1 x2 x3 => Sys2Proof.Machine.execMov x1 x2 x3 s
  | .add x1 x2 x3 => Sys2Proof.Machine.execAdd x1 x2 x3 s
  | .sub x1 x2 x3 => Sys2Proof.Machine.execSub x1 x2 x3 s
  | .neg x1 x2 x3 => Sys2Proof.Machine.execNeg x1 x2 x3 s
  | .abs x1 x2 x3 => Sys2Proof.Machine.execAbs x1 x2 x3 s
  | .min x1 x2 x3 => Sys2Proof.Machine.execMin x1 x2 x3 s
  | .max x1 x2 x3 => Sys2Proof.Machine.execMax x1 x2 x3 s
  | .mul x1 x2 x3 => Sys2Proof.Machine.execMul x1 x2 x3 s
  | .mulhi x1 x2 x3 => Sys2Proof.Machine.execMulhi x1 x2 x3 s
  | .div x1 x2 x3 => Sys2Proof.Machine.execDiv x1 x2 x3 s
  | .rem x1 x2 x3 => Sys2Proof.Machine.execRem x1 x2 x3 s
  | .and x1 x2 x3 => Sys2Proof.Machine.execAnd x1 x2 x3 s
  | .or x1 x2 x3 => Sys2Proof.Machine.execOr x1 x2 x3 s
  | .xor x1 x2 x3 => Sys2Proof.Machine.execXor x1 x2 x3 s
  | .not x1 x2 x3 => Sys2Proof.Machine.execNot x1 x2 x3 s
  | .andn x1 x2 x3 => Sys2Proof.Machine.execAndn x1 x2 x3 s
  | .shl x1 x2 x3 => Sys2Proof.Machine.execShl x1 x2 x3 s
  | .shr x1 x2 x3 => Sys2Proof.Machine.execShr x1 x2 x3 s
  | .sra x1 x2 x3 => Sys2Proof.Machine.execSra x1 x2 x3 s
  | .clz x1 x2 x3 => Sys2Proof.Machine.execClz x1 x2 x3 s
  | .ctz x1 x2 x3 => Sys2Proof.Machine.execCtz x1 x2 x3 s
  | .popc x1 x2 x3 => Sys2Proof.Machine.execPopc x1 x2 x3 s
  | .eq x1 x2 x3 => Sys2Proof.Machine.execEq x1 x2 x3 s
  | .ne x1 x2 x3 => Sys2Proof.Machine.execNe x1 x2 x3 s
  | .lt x1 x2 x3 => Sys2Proof.Machine.execLt x1 x2 x3 s
  | .le x1 x2 x3 => Sys2Proof.Machine.execLe x1 x2 x3 s
  | .gt x1 x2 x3 => Sys2Proof.Machine.execGt x1 x2 x3 s
  | .ge x1 x2 x3 => Sys2Proof.Machine.execGe x1 x2 x3 s
  | .fadd x1 x2 x3 => Sys2Proof.Machine.execFadd x1 x2 x3 s
  | .fsub x1 x2 x3 => Sys2Proof.Machine.execFsub x1 x2 x3 s
  | .fmul x1 x2 x3 => Sys2Proof.Machine.execFmul x1 x2 x3 s
  | .fdiv x1 x2 x3 => Sys2Proof.Machine.execFdiv x1 x2 x3 s
  | .fsqrt x1 x2 x3 => Sys2Proof.Machine.execFsqrt x1 x2 x3 s
  | .fma x1 x2 x3 => Sys2Proof.Machine.execFma x1 x2 x3 s
  | .fneg x1 x2 x3 => Sys2Proof.Machine.execFneg x1 x2 x3 s
  | .fabs x1 x2 x3 => Sys2Proof.Machine.execFabs x1 x2 x3 s
  | .fmin x1 x2 x3 => Sys2Proof.Machine.execFmin x1 x2 x3 s
  | .fmax x1 x2 x3 => Sys2Proof.Machine.execFmax x1 x2 x3 s
  | .feq x1 x2 x3 => Sys2Proof.Machine.execFeq x1 x2 x3 s
  | .flt x1 x2 x3 => Sys2Proof.Machine.execFlt x1 x2 x3 s
  | .fle x1 x2 x3 => Sys2Proof.Machine.execFle x1 x2 x3 s
  | .funord x1 x2 x3 => Sys2Proof.Machine.execFunord x1 x2 x3 s
  | .fcvt x1 x2 x3 => Sys2Proof.Machine.execFcvt x1 x2 x3 s
  | .ftoi x1 x2 x3 => Sys2Proof.Machine.execFtoi x1 x2 x3 s
  | .itof x1 x2 x3 => Sys2Proof.Machine.execItof x1 x2 x3 s
  | .fround x1 x2 x3 => Sys2Proof.Machine.execFround x1 x2 x3 s
  | .fclass x1 x2 x3 => Sys2Proof.Machine.execFclass x1 x2 x3 s
  | .executeComplete x1 x2 x3 => Sys2Proof.Machine.execExecuteComplete x1 x2 x3 s
  | .switch x1 x2 x3 => Sys2Proof.Machine.execSwitch x1 x2 x3 s
  | .merge x1 x2 x3 => Sys2Proof.Machine.execMerge x1 x2 x3 s
  | .gate x1 x2 x3 => Sys2Proof.Machine.execGate x1 x2 x3 s
  | .fanout x1 x2 x3 => Sys2Proof.Machine.execFanout x1 x2 x3 s
  | .select x1 x2 x3 => Sys2Proof.Machine.execSelect x1 x2 x3 s
  | .loopent x1 x2 x3 => Sys2Proof.Machine.execLoopent x1 x2 x3 s
  | .loopnext x1 x2 x3 => Sys2Proof.Machine.execLoopnext x1 x2 x3 s
  | .loopret x1 x2 x3 => Sys2Proof.Machine.execLoopret x1 x2 x3 s
  | .loopexit x1 x2 x3 => Sys2Proof.Machine.execLoopexit x1 x2 x3 s
  | .ld x1 x2 x3 => Sys2Proof.Machine.execLd x1 x2 x3 s
  | .st x1 x2 x3 => Sys2Proof.Machine.execSt x1 x2 x3 s
  | .aadd x1 x2 x3 => Sys2Proof.Machine.execAadd x1 x2 x3 s
  | .swap x1 x2 x3 => Sys2Proof.Machine.execSwap x1 x2 x3 s
  | .memoryResponse x1 x2 => Sys2Proof.Machine.execMemoryResponse x1 x2 s
  | .bankRequest x1 x2 x3 x4 x5 => Sys2Proof.Machine.execBankRequest x1 x2 x3 x4 x5 s
  | .hbmRequest x1 x2 => Sys2Proof.Machine.execHbmRequest x1 x2 s
  | .ctxalloc x1 x2 x3 => Sys2Proof.Machine.execCtxalloc x1 x2 x3 s
  | .ctxfree x1 x2 x3 => Sys2Proof.Machine.execCtxfree x1 x2 x3 s
  | .pass x1 x2 x3 => Sys2Proof.Machine.execPass x1 x2 x3 s
  | .call x1 x2 x3 => Sys2Proof.Machine.execCall x1 x2 x3 s
  | .ret x1 x2 x3 => Sys2Proof.Machine.execRet x1 x2 x3 s
  | .relaysend x1 x2 x3 => Sys2Proof.Machine.execRelaysend x1 x2 x3 s
  | .flagget x1 x2 x3 => Sys2Proof.Machine.execFlagget x1 x2 x3 s
  | .flagclr x1 x2 x3 => Sys2Proof.Machine.execFlagclr x1 x2 x3 s
  | .hurdle x1 x2 x3 => Sys2Proof.Machine.execHurdle x1 x2 x3 s
  | .lockacq x1 x2 x3 => Sys2Proof.Machine.execLockacq x1 x2 x3 s
  | .lockrel x1 x2 x3 => Sys2Proof.Machine.execLockrel x1 x2 x3 s
  | .delay x1 x2 x3 => Sys2Proof.Machine.execDelay x1 x2 x3 s
  | .window x1 x2 x3 x4 => Sys2Proof.Machine.execWindow x1 x2 x3 x4 s
  | .fft x1 x2 x3 x4 => Sys2Proof.Machine.execFft x1 x2 x3 x4 s
  | .ifft x1 x2 x3 x4 => Sys2Proof.Machine.execIfft x1 x2 x3 x4 s
  | .rfft x1 x2 x3 x4 => Sys2Proof.Machine.execRfft x1 x2 x3 x4 s
  | .rifft x1 x2 x3 x4 => Sys2Proof.Machine.execRifft x1 x2 x3 x4 s
  | .magspec x1 x2 x3 x4 => Sys2Proof.Machine.execMagspec x1 x2 x3 x4 s
  | .pwrspec x1 x2 x3 x4 => Sys2Proof.Machine.execPwrspec x1 x2 x3 x4 s
  | .avglin x1 x2 x3 x4 => Sys2Proof.Machine.execAvglin x1 x2 x3 x4 s
  | .avgexp x1 x2 x3 x4 => Sys2Proof.Machine.execAvgexp x1 x2 x3 x4 s
  | .banden x1 x2 x3 x4 => Sys2Proof.Machine.execBanden x1 x2 x3 x4 s
  | .peaks x1 x2 x3 x4 => Sys2Proof.Machine.execPeaks x1 x2 x3 x4 s
  | .firdec x1 x2 x3 x4 => Sys2Proof.Machine.execFirdec x1 x2 x3 x4 s
  | .envelope x1 x2 x3 x4 => Sys2Proof.Machine.execEnvelope x1 x2 x3 x4 s
  | .anglers x1 x2 x3 x4 => Sys2Proof.Machine.execAnglers x1 x2 x3 x4 s
  | .tsa x1 x2 x3 x4 => Sys2Proof.Machine.execTsa x1 x2 x3 x4 s
  | .stats x1 x2 x3 x4 => Sys2Proof.Machine.execStats x1 x2 x3 x4 s
  | .baseline x1 x2 x3 x4 => Sys2Proof.Machine.execBaseline x1 x2 x3 x4 s
  | .deviate x1 x2 x3 x4 => Sys2Proof.Machine.execDeviate x1 x2 x3 x4 s
  | .thresh x1 x2 x3 x4 => Sys2Proof.Machine.execThresh x1 x2 x3 x4 s
  | .strideEnqueue x1 x2 x3 => Sys2Proof.Machine.execStrideEnqueue x1 x2 x3 s
  | .seSrstWrite x1 x2 x3 => Sys2Proof.Machine.execSeSrstWrite x1 x2 x3 s
  | .code1 x1 x2 x3 => Sys2Proof.Machine.execCode1 x1 x2 x3 s
  | .code2 x1 x2 x3 => Sys2Proof.Machine.execCode2 x1 x2 x3 s
  | .code3 x1 x2 x3 => Sys2Proof.Machine.execCode3 x1 x2 x3 s
  | .bind x1 x2 x3 => Sys2Proof.Machine.execBind x1 x2 x3 s
  | .commit x1 x2 x3 => Sys2Proof.Machine.execCommit x1 x2 x3 s
  | .trip x1 x2 x3 => Sys2Proof.Machine.execTrip x1 x2 x3 s
  | .awrite x1 x2 x3 => Sys2Proof.Machine.execAwrite x1 x2 x3 s
  | .event x1 x2 x3 => Sys2Proof.Machine.execEvent x1 x2 x3 s
  | .firingDispatch x1 x2 x3 x4 x5 x6 => Sys2Proof.Machine.execFiringDispatch x1 x2 x3 x4 x5 x6 s
  | .ageingStep x1 x2 x3 x4 => Sys2Proof.Machine.execAgeingStep x1 x2 x3 x4 s
  | .flowreq x1 x2 => Sys2Proof.Machine.execFlowreq x1 x2 s
  | .flowgrant x1 x2 => Sys2Proof.Machine.execFlowgrant x1 x2 s
  | .flowrel x1 x2 => Sys2Proof.Machine.execFlowrel x1 x2 s
  | .flowcancel x1 x2 => Sys2Proof.Machine.execFlowcancel x1 x2 s
  | .flowRequestRetry x1 x2 => Sys2Proof.Machine.execFlowRequestRetry x1 x2 s
  | .runLimit x1 x2 => Sys2Proof.Machine.execRunLimit x1 x2 s
  | .boost x1 => Sys2Proof.Machine.execBoost x1 s
  | .cancel x1 x2 x3 x4 => Sys2Proof.Machine.execCancel x1 x2 x3 x4 s
  | .runnerTakeItem x1 x2 => Sys2Proof.Machine.execRunnerTakeItem x1 x2 s
  | .pacerRelease x1 => Sys2Proof.Machine.execPacerRelease x1 s
  | .pacHwmClr x1 x2 => Sys2Proof.Machine.execPacHwmClr x1 x2 s
  | .hurdleArrival x1 => Sys2Proof.Machine.execHurdleArrival x1 s
  | .hurdleRelease x1 x2 => Sys2Proof.Machine.execHurdleRelease x1 x2 s
  | .hurdleWaitTimeout x1 x2 => Sys2Proof.Machine.execHurdleWaitTimeout x1 x2 s
  | .hrdForce x1 x2 => Sys2Proof.Machine.execHrdForce x1 x2 s
  | .hrdStopWrite x1 x2 => Sys2Proof.Machine.execHrdStopWrite x1 x2 s
  | .horizonReceive x1 => Sys2Proof.Machine.execHorizonReceive x1 s
  | .holdConfigWrite x1 x2 x3 => Sys2Proof.Machine.execHoldConfigWrite x1 x2 x3 s
  | .holdHwmClr x1 x2 => Sys2Proof.Machine.execHoldHwmClr x1 x2 s
  | .stallWindowExpiry x1 => Sys2Proof.Machine.execStallWindowExpiry x1 s
  | .abortReplayRelease x1 => Sys2Proof.Machine.execAbortReplayRelease x1 s
  | .stwWindowWrite x1 x2 => Sys2Proof.Machine.execStwWindowWrite x1 x2 s
  | .rcIntOp x1 x2 => Sys2Proof.Machine.execRcIntOp x1 x2 s
  | .rcFpOp x1 x2 => Sys2Proof.Machine.execRcFpOp x1 x2 s
  | .addi x1 x2 => Sys2Proof.Machine.execAddi x1 x2 s
  | .andi x1 x2 => Sys2Proof.Machine.execAndi x1 x2 s
  | .ori x1 x2 => Sys2Proof.Machine.execOri x1 x2 s
  | .xori x1 x2 => Sys2Proof.Machine.execXori x1 x2 s
  | .slti x1 x2 => Sys2Proof.Machine.execSlti x1 x2 s
  | .sltiu x1 x2 => Sys2Proof.Machine.execSltiu x1 x2 s
  | .shli x1 x2 => Sys2Proof.Machine.execShli x1 x2 s
  | .shri x1 x2 => Sys2Proof.Machine.execShri x1 x2 s
  | .srai x1 x2 => Sys2Proof.Machine.execSrai x1 x2 s
  | .shori x1 x2 => Sys2Proof.Machine.execShori x1 x2 s
  | .rcLd x1 x2 x3 => Sys2Proof.Machine.execRcLd x1 x2 x3 s
  | .lw x1 x2 x3 => Sys2Proof.Machine.execLw x1 x2 x3 s
  | .lwu x1 x2 x3 => Sys2Proof.Machine.execLwu x1 x2 x3 s
  | .lh x1 x2 x3 => Sys2Proof.Machine.execLh x1 x2 x3 s
  | .lhu x1 x2 x3 => Sys2Proof.Machine.execLhu x1 x2 x3 s
  | .lb x1 x2 x3 => Sys2Proof.Machine.execLb x1 x2 x3 s
  | .lbu x1 x2 x3 => Sys2Proof.Machine.execLbu x1 x2 x3 s
  | .sd x1 x2 => Sys2Proof.Machine.execSd x1 x2 s
  | .sw x1 x2 => Sys2Proof.Machine.execSw x1 x2 s
  | .sh x1 x2 x3 => Sys2Proof.Machine.execSh x1 x2 x3 s
  | .sb x1 x2 x3 => Sys2Proof.Machine.execSb x1 x2 x3 s
  | .rcAadd x1 x2 x3 => Sys2Proof.Machine.execRcAadd x1 x2 x3 s
  | .rcSwap x1 x2 x3 => Sys2Proof.Machine.execRcSwap x1 x2 x3 s
  | .rcLockrel x1 x2 => Sys2Proof.Machine.execRcLockrel x1 x2 s
  | .emit x1 x2 => Sys2Proof.Machine.execEmit x1 x2 s
  | .bz x1 x2 => Sys2Proof.Machine.execBz x1 x2 s
  | .bnz x1 x2 => Sys2Proof.Machine.execBnz x1 x2 s
  | .j x1 x2 => Sys2Proof.Machine.execJ x1 x2 s
  | .jr x1 x2 => Sys2Proof.Machine.execJr x1 x2 s
  | .rcCall x1 x2 => Sys2Proof.Machine.execRcCall x1 x2 s
  | .callr x1 x2 => Sys2Proof.Machine.execCallr x1 x2 s
  | .rcRet x1 x2 x3 => Sys2Proof.Machine.execRcRet x1 x2 x3 s
  | .mfs x1 x2 => Sys2Proof.Machine.execMfs x1 x2 s
  | .mts x1 x2 => Sys2Proof.Machine.execMts x1 x2 s
  | .fence x1 x2 => Sys2Proof.Machine.execFence x1 x2 s
  | .waitw x1 x2 => Sys2Proof.Machine.execWaitw x1 x2 s
  | .mfc x1 x2 => Sys2Proof.Machine.execMfc x1 x2 s
  | .mtc x1 x2 => Sys2Proof.Machine.execMtc x1 x2 s
  | .mbPop x1 x2 => Sys2Proof.Machine.execMbPop x1 x2 s
  | .eret x1 x2 => Sys2Proof.Machine.execEret x1 x2 s
  | .wfi x1 x2 => Sys2Proof.Machine.execWfi x1 x2 s
  | .evack x1 x2 => Sys2Proof.Machine.execEvack x1 x2 s
  | .tsend x1 x2 => Sys2Proof.Machine.execTsend x1 x2 s
  | .stewardInterrupt => Sys2Proof.Machine.execStewardInterrupt s
  | .mailboxReceive => Sys2Proof.Machine.execMailboxReceive s
  | .lockstepMismatch => Sys2Proof.Machine.execLockstepMismatch s
  | .rcSrstWrite x1 x2 x3 => Sys2Proof.Machine.execRcSrstWrite x1 x2 x3 s
  | .rcConfigWrite x1 x2 x3 x4 => Sys2Proof.Machine.execRcConfigWrite x1 x2 x3 x4 s
  | .spmPwrWrite x1 x2 x3 => Sys2Proof.Machine.execSpmPwrWrite x1 x2 x3 s
  | .bankTransitionDone x1 x2 x3 => Sys2Proof.Machine.execBankTransitionDone x1 x2 x3 s
  | .spmScrub x1 x2 x3 x4 x5 => Sys2Proof.Machine.execSpmScrub x1 x2 x3 x4 x5 s
  | .hbmScrub x1 x2 x3 x4 => Sys2Proof.Machine.execHbmScrub x1 x2 x3 x4 s
  | .spareRowDone x1 => Sys2Proof.Machine.execSpareRowDone x1 s
  | .hbmTrainingDone x1 => Sys2Proof.Machine.execHbmTrainingDone x1 s
  | .lockAcquire x1 => Sys2Proof.Machine.execLockAcquire x1 s
  | .lockRelease x1 => Sys2Proof.Machine.execLockRelease x1 s
  | .leaseExpiry x1 x2 => Sys2Proof.Machine.execLeaseExpiry x1 x2 s
  | .lockWaitTimeout x1 x2 => Sys2Proof.Machine.execLockWaitTimeout x1 x2 s
  | .lckForce x1 x2 => Sys2Proof.Machine.execLckForce x1 x2 s
  | .ownerReset x1 => Sys2Proof.Machine.execOwnerReset x1 s
  | .lockRecoveryEnd x1 => Sys2Proof.Machine.execLockRecoveryEnd x1 s
  | .lckHwmClr x1 x2 => Sys2Proof.Machine.execLckHwmClr x1 x2 s
  | .dmaHandover x1 x2 => Sys2Proof.Machine.execDmaHandover x1 x2 s
  | .dmaBurstIssue x1 => Sys2Proof.Machine.execDmaBurstIssue x1 s
  | .dmaReadResponse x1 => Sys2Proof.Machine.execDmaReadResponse x1 s
  | .dmaWriteResponse x1 => Sys2Proof.Machine.execDmaWriteResponse x1 s
  | .dmaRequestPulse => Sys2Proof.Machine.execDmaRequestPulse s
  | .dmaChEnWrite x1 x2 x3 => Sys2Proof.Machine.execDmaChEnWrite x1 x2 x3 s
  | .abort x1 x2 => Sys2Proof.Machine.execAbort x1 x2 s
  | .shadowValidWrite x1 x2 x3 => Sys2Proof.Machine.execShadowValidWrite x1 x2 x3 s
  | .shadowRegisterWrite x1 x2 x3 x4 => Sys2Proof.Machine.execShadowRegisterWrite x1 x2 x3 x4 s
  | .chSrstWrite x1 x2 x3 => Sys2Proof.Machine.execChSrstWrite x1 x2 x3 s
  | .dmaSrstWrite x1 x2 => Sys2Proof.Machine.execDmaSrstWrite x1 x2 s
  | .nocCommit x1 x2 => Sys2Proof.Machine.execNocCommit x1 x2 s
  | .isoSet x1 x2 => Sys2Proof.Machine.execIsoSet x1 x2 s
  | .isoLiftWrite x1 x2 => Sys2Proof.Machine.execIsoLiftWrite x1 x2 s
  | .blkIsoSet x1 => Sys2Proof.Machine.execBlkIsoSet x1 s
  | .blkIsoClear x1 => Sys2Proof.Machine.execBlkIsoClear x1 s
  | .parkWrite x1 => Sys2Proof.Machine.execParkWrite x1 s
  | .heartbeat x1 => Sys2Proof.Machine.execHeartbeat x1 s
  | .heartbeatMiss x1 => Sys2Proof.Machine.execHeartbeatMiss x1 s
  | .sampleDeliver x1 x2 => Sys2Proof.Machine.execSampleDeliver x1 x2 s
  | .channelBlockComplete x1 => Sys2Proof.Machine.execChannelBlockComplete x1 s
  | .channelCreditResume x1 => Sys2Proof.Machine.execChannelCreditResume x1 s
  | .settlingEnd x1 => Sys2Proof.Machine.execSettlingEnd x1 s
  | .chCfgWrite x1 x2 => Sys2Proof.Machine.execChCfgWrite x1 x2 s
  | .biasMeasure x1 x2 => Sys2Proof.Machine.execBiasMeasure x1 x2 s
  | .faultClassAdopt x1 => Sys2Proof.Machine.execFaultClassAdopt x1 s
  | .limitActivate x1 x2 => Sys2Proof.Machine.execLimitActivate x1 x2 s
  | .limitDeactivate x1 x2 => Sys2Proof.Machine.execLimitDeactivate x1 x2 s
  | .calStart x1 => Sys2Proof.Machine.execCalStart x1 s
  | .calEnd x1 => Sys2Proof.Machine.execCalEnd x1 s
  | .tachEdge x1 x2 => Sys2Proof.Machine.execTachEdge x1 x2 s
  | .tachTokenTimer x1 => Sys2Proof.Machine.execTachTokenTimer x1 s
  | .tachTimeout x1 => Sys2Proof.Machine.execTachTimeout x1 s
  | .tripRequest => Sys2Proof.Machine.execTripRequest s
  | .tripWatchdog x1 x2 => Sys2Proof.Machine.execTripWatchdog x1 x2 s
  | .tripReset x1 => Sys2Proof.Machine.execTripReset x1 s
  | .tripArmWrite x1 => Sys2Proof.Machine.execTripArmWrite x1 s
  | .readbackMismatch x1 x2 => Sys2Proof.Machine.execReadbackMismatch x1 x2 s
  | .copyDisagree x1 => Sys2Proof.Machine.execCopyDisagree x1 s
  | .bindingWrite x1 x2 x3 => Sys2Proof.Machine.execBindingWrite x1 x2 x3 s
  | .aoutRequest => Sys2Proof.Machine.execAoutRequest s
  | .aoutUpdate x1 => Sys2Proof.Machine.execAoutUpdate x1 s
  | .restore x1 => Sys2Proof.Machine.execRestore x1 s
  | .frameClassify x1 => Sys2Proof.Machine.execFrameClassify x1 s
  | .crDataRead => Sys2Proof.Machine.execCrDataRead s
  | .dropPkt x1 => Sys2Proof.Machine.execDropPkt x1 s
  | .rollcall => Sys2Proof.Machine.execRollcall s
  | .announce x1 x2 x3 => Sys2Proof.Machine.execAnnounce x1 x2 x3 s
  | .nodeHeartbeatLost x1 => Sys2Proof.Machine.execNodeHeartbeatLost x1 s
  | .retire => Sys2Proof.Machine.execRetire s
  | .plcaCollision x1 x2 => Sys2Proof.Machine.execPlcaCollision x1 x2 s
  | .crTxSend x1 => Sys2Proof.Machine.execCrTxSend x1 s
  | .ftWrite => Sys2Proof.Machine.execFtWrite s
  | .ftRead => Sys2Proof.Machine.execFtRead s
  | .bindRequest => Sys2Proof.Machine.execBindRequest s
  | .streamData => Sys2Proof.Machine.execStreamData s
  | .streamBlockComplete x1 => Sys2Proof.Machine.execStreamBlockComplete x1 s
  | .streamCreditResume x1 => Sys2Proof.Machine.execStreamCreditResume x1 s
  | .streamGoneTimeout x1 => Sys2Proof.Machine.execStreamGoneTimeout x1 s
  | .flowEntryRelease x1 => Sys2Proof.Machine.execFlowEntryRelease x1 s
  | .ethFrameReceive x1 x2 x3 x4 => Sys2Proof.Machine.execEthFrameReceive x1 x2 x3 x4 s
  | .pfcFrame x1 x2 x3 x4 => Sys2Proof.Machine.execPfcFrame x1 x2 x3 x4 s
  | .xon x1 x2 => Sys2Proof.Machine.execXon x1 x2 s
  | .ethModeWrite x1 x2 => Sys2Proof.Machine.execEthModeWrite x1 x2 s
  | .subportLinkChange x1 x2 x3 => Sys2Proof.Machine.execSubportLinkChange x1 x2 x3 s
  | .ethTxGo x1 x2 => Sys2Proof.Machine.execEthTxGo x1 x2 s
  | .ethTxDone x1 => Sys2Proof.Machine.execEthTxDone x1 s
  | .ptpStep x1 => Sys2Proof.Machine.execPtpStep x1 s
  | .ppsOutEdge => Sys2Proof.Machine.execPpsOutEdge s
  | .ppsInEdge => Sys2Proof.Machine.execPpsInEdge s
  | .ppsInLost => Sys2Proof.Machine.execPpsInLost s
  | .synceLost => Sys2Proof.Machine.execSynceLost s
  | .synceRelock => Sys2Proof.Machine.execSynceRelock s
  | .relayTokenEnqueue => Sys2Proof.Machine.execRelayTokenEnqueue s
  | .relayFrameClose x1 => Sys2Proof.Machine.execRelayFrameClose x1 s
  | .syncTimer x1 => Sys2Proof.Machine.execSyncTimer x1 s
  | .sync => Sys2Proof.Machine.execSync s
  | .relayData => Sys2Proof.Machine.execRelayData s
  | .relayRecordDeliver x1 => Sys2Proof.Machine.execRelayRecordDeliver x1 s
  | .ack => Sys2Proof.Machine.execAck s
  | .nak => Sys2Proof.Machine.execNak s
  | .relayAckTimer x1 => Sys2Proof.Machine.execRelayAckTimer x1 s
  | .relayRto x1 => Sys2Proof.Machine.execRelayRto x1 s
  | .relayHoldExpiry x1 => Sys2Proof.Machine.execRelayHoldExpiry x1 s
  | .rlyRouteWrite x1 => Sys2Proof.Machine.execRlyRouteWrite x1 s
  | .fcpPacketReceive => Sys2Proof.Machine.execFcpPacketReceive s
  | .fcpReassemblyTimeout x1 => Sys2Proof.Machine.execFcpReassemblyTimeout x1 s
  | .fcpPendingTimer x1 => Sys2Proof.Machine.execFcpPendingTimer x1 s
  | .fcpCommandComplete x1 x2 => Sys2Proof.Machine.execFcpCommandComplete x1 x2 s
  | .sessionHalfOpenTimeout x1 => Sys2Proof.Machine.execSessionHalfOpenTimeout x1 s
  | .sessionIdleTimeout x1 => Sys2Proof.Machine.execSessionIdleTimeout x1 s
  | .ping x1 => Sys2Proof.Machine.execPing x1 s
  | .getInfo x1 => Sys2Proof.Machine.execGetInfo x1 s
  | .sessionOpen x1 => Sys2Proof.Machine.execSessionOpen x1 s
  | .sessionAuth x1 => Sys2Proof.Machine.execSessionAuth x1 s
  | .sessionClose x1 => Sys2Proof.Machine.execSessionClose x1 s
  | .regRead x1 x2 => Sys2Proof.Machine.execRegRead x1 x2 s
  | .regWrite x1 x2 => Sys2Proof.Machine.execRegWrite x1 x2 s
  | .imageWrite x1 => Sys2Proof.Machine.execImageWrite x1 s
  | .graphLoad x1 => Sys2Proof.Machine.execGraphLoad x1 s
  | .graphStart x1 => Sys2Proof.Machine.execGraphStart x1 s
  | .graphStop x1 => Sys2Proof.Machine.execGraphStop x1 s
  | .graphSwap x1 => Sys2Proof.Machine.execGraphSwap x1 s
  | .swapRedirect x1 x2 => Sys2Proof.Machine.execSwapRedirect x1 x2 s
  | .graphUnload x1 => Sys2Proof.Machine.execGraphUnload x1 s
  | .graphQuery x1 => Sys2Proof.Machine.execGraphQuery x1 s
  | .tokenInject x1 => Sys2Proof.Machine.execTokenInject x1 s
  | .streamBind x1 => Sys2Proof.Machine.execStreamBind x1 s
  | .streamUnbind x1 => Sys2Proof.Machine.execStreamUnbind x1 s
  | .quiesce x1 => Sys2Proof.Machine.execQuiesce x1 s
  | .resume x1 => Sys2Proof.Machine.execResume x1 s
  | .fwStage x1 => Sys2Proof.Machine.execFwStage x1 s
  | .fwCommit x1 => Sys2Proof.Machine.execFwCommit x1 s
  | .reset x1 => Sys2Proof.Machine.execReset x1 s
  | .attest x1 => Sys2Proof.Machine.execAttest x1 s
  | .power x1 => Sys2Proof.Machine.execPower x1 s
  | .repair x1 => Sys2Proof.Machine.execRepair x1 s
  | .healthQuery x1 => Sys2Proof.Machine.execHealthQuery x1 s
  | .warmupAnnounce => Sys2Proof.Machine.execWarmupAnnounce s
  | .powerOn => Sys2Proof.Machine.execPowerOn s
  | .rstNAssert => Sys2Proof.Machine.execRstNAssert s
  | .brownOut x1 => Sys2Proof.Machine.execBrownOut x1 s
  | .thermalTrip x1 => Sys2Proof.Machine.execThermalTrip x1 s
  | .thermalTripClear => Sys2Proof.Machine.execThermalTripClear s
  | .thermalWarn x1 x2 => Sys2Proof.Machine.execThermalWarn x1 x2 s
  | .jtagReset x1 => Sys2Proof.Machine.execJtagReset x1 s
  | .wdogKick x1 => Sys2Proof.Machine.execWdogKick x1 s
  | .wdogHalfExpiry => Sys2Proof.Machine.execWdogHalfExpiry s
  | .wdogExpiry => Sys2Proof.Machine.execWdogExpiry s
  | .swrstWarm x1 => Sys2Proof.Machine.execSwrstWarm x1 s
  | .swrstCold x1 => Sys2Proof.Machine.execSwrstCold x1 s
  | .swrstSteward x1 => Sys2Proof.Machine.execSwrstSteward x1 s
  | .hubSrstWrite x1 => Sys2Proof.Machine.execHubSrstWrite x1 s
  | .rgnSrstWrite x1 => Sys2Proof.Machine.execRgnSrstWrite x1 s
  | .referenceQualified x1 => Sys2Proof.Machine.execReferenceQualified x1 s
  | .fuseLoadDone x1 => Sys2Proof.Machine.execFuseLoadDone x1 s
  | .islandRelease x1 x2 => Sys2Proof.Machine.execIslandRelease x1 x2 s
  | .clockValidTimeout x1 => Sys2Proof.Machine.execClockValidTimeout x1 s
  | .stewardRestart => Sys2Proof.Machine.execStewardRestart s
  | .pwrDomWrite x1 x2 => Sys2Proof.Machine.execPwrDomWrite x1 x2 s
  | .domainSwitchDone x1 => Sys2Proof.Machine.execDomainSwitchDone x1 s
  | .pwrOpenWrite x1 => Sys2Proof.Machine.execPwrOpenWrite x1 s
  | .regionOpen x1 => Sys2Proof.Machine.execRegionOpen x1 s
  | .regionCloseDone x1 => Sys2Proof.Machine.execRegionCloseDone x1 s
  | .drainTimeout x1 => Sys2Proof.Machine.execDrainTimeout x1 s
  | .vbakLow => Sys2Proof.Machine.execVbakLow s
  | .vbakLost => Sys2Proof.Machine.execVbakLost s
  | .rtcSecond => Sys2Proof.Machine.execRtcSecond s
  | .bootRomEntry => Sys2Proof.Machine.execBootRomEntry s
  | .bootLock x1 => Sys2Proof.Machine.execBootLock x1 s
  | .bootOk x1 => Sys2Proof.Machine.execBootOk x1 s
  | .bootWindowExpiry => Sys2Proof.Machine.execBootWindowExpiry s
  | .flashRead x1 => Sys2Proof.Machine.execFlashRead x1 s
  | .flashProgram x1 => Sys2Proof.Machine.execFlashProgram x1 s
  | .flashErase x1 => Sys2Proof.Machine.execFlashErase x1 s
  | .flashCompare x1 => Sys2Proof.Machine.execFlashCompare x1 s
  | .flashOpDone x1 => Sys2Proof.Machine.execFlashOpDone x1 s
  | .keyWrite x1 => Sys2Proof.Machine.execKeyWrite x1 s
  | .keyClear x1 => Sys2Proof.Machine.execKeyClear x1 s
  | .secverBurn x1 => Sys2Proof.Machine.execSecverBurn x1 s
  | .measAppend x1 => Sys2Proof.Machine.execMeasAppend x1 s
  | .eventRaise x1 x2 => Sys2Proof.Machine.execEventRaise x1 x2 s
  | .eventTokenSend => Sys2Proof.Machine.execEventTokenSend s
  | .journalWriteResponse x1 => Sys2Proof.Machine.execJournalWriteResponse x1 s
  | .contextLifeCheck x1 => Sys2Proof.Machine.execContextLifeCheck x1 s
  | .replayStart x1 => Sys2Proof.Machine.execReplayStart x1 s
  | .commitRequest => Sys2Proof.Machine.execCommitRequest s
  | .outputRelease x1 => Sys2Proof.Machine.execOutputRelease x1 s
  | .hltAck x1 => Sys2Proof.Machine.execHltAck x1 s
  | .blockOperationEnd x1 x2 => Sys2Proof.Machine.execBlockOperationEnd x1 x2 s
  | .fuseLoadStart => Sys2Proof.Machine.execFuseLoadStart s
  | .fcpResetAct x1 => Sys2Proof.Machine.execFcpResetAct x1 s
  | .viepeLow x1 => Sys2Proof.Machine.execViepeLow x1 s
  | .vbakReturn => Sys2Proof.Machine.execVbakReturn s
  | .thermalWarnRearm x1 x2 => Sys2Proof.Machine.execThermalWarnRearm x1 x2 s
  | .hbmRefreshRate x1 x2 => Sys2Proof.Machine.execHbmRefreshRate x1 x2 s
  | .refOk => Sys2Proof.Machine.execRefOk s
  | .align x1 => Sys2Proof.Machine.execAlign x1 s

end Sys2Proof.Machine
end

