-- ==== Sys2Proof/Safety.lean ====
section
/-!
DEFINITION. What claims about the device say of its states: canonical tables, the access codes bit by bit, what a firing unit holds at its
fetch stage, and what no command may change.
-/
namespace Sys2Proof.Machine

/-- The state with another device: the queue and the fuses are as they were. -/
def State.withDev (s : State) (d : Dev) : State := { s with dev := d }

/-! ### Tables and registers (R9 to R13) -/

/-- The keys of a table rise strictly: no key is listed twice. -/
def keysRise (m : SMap α) : Prop := m.Pairwise (fun a b => a.1 < b.1)

/-- Registers whose write starts an action or has a condition of its own: every other register follows its access codes alone. -/
def ownWrite (b : Blk) (o : Nat) : Bool :=
  match b with
  | .clu => o == 4 || o == 0xC
  | .fu => o == 0x14 || o == 0x1C
  | .node => o == 0x10
  | .se => o == 0
  | .rc => o == 0x1C || o == 0 || o == 4 || o == 8
  | .spm => o == 0
  | .ctx => o == 0xC || o == 0x100 || o == 0x104 || o == 0x108 || o == 0x118
  | .pac => o == 0xC
  | .gw => o == 0 || o == 4 || o == 8 || o == 0x14 || o == 0x2C || o == 0x30
  | .stw => o == 4
  | .lck => o == 0x14 || o == 0x1C
  | .dma => o == 0xC
  | .rgn => o == 0x30
  | .dmaCh => o == 0 || decide (0x20 ≤ o)
  | .dief => o == 0xC
  | .noc => decide (0x20 ≤ o)
  | .afe => true
  | .afeCtl => o == 0
  | .aout => o == 0 || o == 0xC || o == 0x10
  | .trip => decide (o < 0x200)
  | .eth => o == 0 || o == 8 || o == 0xC || o == 0x44 || o == 0x60 || o == 0x68 || o == 0x70
  | .ptp => o == 0xC || o == 0x10
  | .rly => o == 0 || o == 4 || o == 0x28 || o == 0x48
  | .seg => o == 0
  | .ing => o == 0xC || o == 0x10 || o == 0x14 || o == 0x18 || o == 0x3C || o == 0x40 || o == 0x44 || o == 0xA0
  | .cmd => o == 0xC || o == 0x14 || o == 0x18 || o == 0x1C
  | .rst => decide (8 ≤ o) && decide (o ≤ 0x18)
  | .pwr => o == 0 || decide (0x100 ≤ o)
  | .boot => o == 4 || o == 0xC
  | .flash => o == 0x10
  | .sec => o == 0x90 || o == 0xA4 || o == 0xB0 || (decide (0x44 ≤ o) && decide (o ≤ 0x8C))
  | .hlt => o == 4
  | _ => false

def plainRegister (l : RegLoc) : Prop := ownWrite l.blk l.off = false

/-- A write to the register reaches it: its block is not held by a block reset, nor its DMA channel by its own (R341, R472). -/
def Dev.writable (d : Dev) (l : RegLoc) (a : Nat) : Prop :=
  d.heldInReset l a = false ∧ (l.blk = .dmaCh → d.rbit (chCtrl (l.inst / 32) (l.inst % 32)) 2 = false)

/-- RWB fields can be written (R13): BOOT_LOCK is 0, for the SEC block SEC.LOCK.LOCKED is 0. -/
def Dev.bootOpen (d : Dev) (l : RegLoc) : Bool := if l.blk = .sec then !d.locked else !d.rbit (bootReg 4) 0

/-- Bit `i` after a write of `v` over `old` (R13). -/
def bitWritten (l : RegLoc) (boot : Bool) (old v : W32) (i : Nat) : Bool :=
  let asked := l.spec.rw.getLsbD i || l.spec.wo.getLsbD i || (boot && l.spec.rwb.getLsbD i)
  let b := if asked then v.getLsbD i else old.getLsbD i
  b && !(v.getLsbD i && l.spec.w1c.getLsbD i)

/-- A cold reset holds the device: it is asserted and not all islands are released (R470, R477). -/
def Dev.inColdReset (d : Dev) : Prop := d.rst.phase ≠ 0 ∧ d.rst.cold = true

/-! ### Firing units -/

/-- The first token of a lane of an FU is taken, leaving `ps`: its hop credit is owed to the router (R212). -/
def Dev.tookToken (d : Dev) (k lane : Nat) (ps : List Packet) : Dev :=
  (d.setInbox (fuNode k) lane ps).oweHop (some ⟨Node.router (fuNode k), fuNode k⟩) lane 1

/-- FU `k` holds at its fetch stage a firing `f` of opcode `o` whose descriptor `desc`, with the FANEXT slots `ext`, can be executed (R133). -/
def Dev.firesAt (d : Dev) (k o : Nat) (f : Firing) (desc : BitVec 128) (ext : List (BitVec 128)) : Prop :=
  (∃ x, (d.fu k).fetch = some x ∧ x.fir = f ∧ x.desc = some desc ∧ x.ext = ext) ∧ dOpc desc = o ∧
  descOk desc ext (maskPorts (d.maskOf (k / 8) f.slot.toNat) ((f.toks.headD (0, {})).1)) = true

/-- No consumed token has ERR, and each has a payload type that its port accepts (R107, R110). -/
def cleanFiring (f : Firing) (desc : BitVec 128) : Prop := f.errTok = none ∧ mismatch f desc = none

/-! ### Integer arithmetic as two's complement words (R144 to R147) -/

/-- The result of an integer opcode on words of the width, whether it overflows, and whether it divides by 0. -/
def intWord (o : Nat) (signed : Bool) (a b : BitVec w) : BitVec w × Bool × Bool :=
  let less := fun (x y : BitVec w) => if signed then x.slt y else x.ult y
  let cmp := fun (p : Bool) => ((if p then 1 else 0 : BitVec w), false, false)
  match o with
  | 0x000 => (a, false, false)
  | 0x001 => (a + b, if signed then a.saddOverflow b else a.uaddOverflow b, false)
  | 0x002 => (a - b, if signed then a.ssubOverflow b else a.usubOverflow b, false)
  | 0x003 => (-a, a == BitVec.intMin w, false)
  | 0x004 => (a.abs, a == BitVec.intMin w, false)
  | 0x005 => (if less b a then b else a, false, false)
  | 0x006 => (if less a b then b else a, false, false)
  | 0x008 => (a * b, if signed then a.smulOverflow b else a.umulOverflow b, false)
  | 0x009 => ((if signed then (a.signExtend (2 * w) * b.signExtend (2 * w)) else (a.zeroExtend (2 * w) * b.zeroExtend (2 * w))).extractLsb' w w, false, false)
  | 0x00A => if b = 0 then (BitVec.allOnes w, false, true)
             else (if signed then a.sdiv b else a.udiv b, signed && a == BitVec.intMin w && b == BitVec.allOnes w, false)
  | 0x00B => if b = 0 then (a, false, true) else (if signed then a.srem b else a.umod b, signed && a == BitVec.intMin w && b == BitVec.allOnes w, false)
  | 0x010 => (a &&& b, false, false)
  | 0x011 => (a ||| b, false, false)
  | 0x012 => (a ^^^ b, false, false)
  | 0x013 => (~~~a, false, false)
  | 0x014 => (a &&& ~~~b, false, false)
  | 0x018 => (if w ≤ b.toNat then 0 else a <<< b.toNat, false, false)
  | 0x019 => (if w ≤ b.toNat then 0 else a >>> b.toNat, false, false)
  | 0x01A => (a.sshiftRight b.toNat, false, false)
  | 0x01C => (a.clz, false, false)
  | 0x01D => (a.ctz, false, false)
  | 0x01E => (a.cpop, false, false)
  | 0x020 => cmp (a == b)
  | 0x021 => cmp (a != b)
  | 0x022 => cmp (less a b)
  | 0x023 => cmp (!less b a)
  | 0x024 => cmp (less b a)
  | 0x025 => cmp (!less a b)
  | _ => (0, false, false)

/-- The payload and flags of an integer opcode: TYPE 0 and 1 work on 64 bits, 2 and 3 on bits 31:0, and a 32-bit result is sign-extended for TYPE 2
and zero-extended for TYPE 3 (R144). Overflow is OF, a division by 0 DZ (R142). -/
def intSpec (o ty a b : Nat) : W64 × BitVec 5 :=
  let signed : Bool := ty == 0 || ty == 2
  let (v, ov, dz) : W64 × Bool × Bool :=
    if ty ≤ 1 then intWord o signed (BitVec.ofNat 64 a) (BitVec.ofNat 64 b)
    else (let r := intWord o signed (BitVec.ofNat 32 a) (BitVec.ofNat 32 b); (if signed then r.1.signExtend 64 else r.1.zeroExtend 64, r.2))
  (v, (if ov then flOF else 0) ||| (if dz then flDZ else 0))

/-- The integer operations by opcode (R113). -/
def intCommands : List (Nat × (Fin 16 → Fin 17 → Fin 8 → Instr)) :=
  [(0x000, .mov), (0x001, .add), (0x002, .sub), (0x003, .neg), (0x004, .abs), (0x005, .min), (0x006, .max), (0x008, .mul), (0x009, .mulhi), (0x00A, .div), (0x00B, .rem)] ++
  [(0x010, .and), (0x011, .or), (0x012, .xor), (0x013, .not), (0x014, .andn), (0x018, .shl), (0x019, .shr), (0x01A, .sra), (0x01C, .clz), (0x01D, .ctz), (0x01E, .popc)] ++
  [(0x020, .eq), (0x021, .ne), (0x022, .lt), (0x023, .le), (0x024, .gt), (0x025, .ge)]

/-- The floating-point operations by opcode (R114). -/
def fpCommands : List (Nat × (Fin 16 → Fin 17 → Fin 8 → Instr)) :=
  [(0x100, .fadd), (0x101, .fsub), (0x102, .fmul), (0x103, .fdiv), (0x104, .fsqrt), (0x105, .fma), (0x106, .fneg), (0x107, .fabs), (0x108, .fmin), (0x109, .fmax)] ++
  [(0x110, .feq), (0x111, .flt), (0x112, .fle), (0x113, .funord), (0x118, .fcvt), (0x119, .ftoi), (0x11A, .itof), (0x11B, .fround), (0x11C, .fclass)]

/-- The memory operations by opcode and L1 operation (R117). -/
def memoryCommands : List ((Nat × Nat) × (Fin 16 → Fin 17 → Fin 8 → Instr)) :=
  [((0x280, 0), .ld), ((0x281, 1), .st), ((0x282, 2), .aadd), ((0x283, 3), .swap)]

/-- What an outstanding operation of an L1 operation is. -/
def memKind (op : Nat) : OutKind := if op = 0 then .load else if op = 1 then .store else .atomic

/-- The lock operations, the Runner dispatch nodes and the output operations by opcode (R122, R123, R573). -/
def lockCommands : List (Nat × (Fin 16 → Fin 17 → Fin 8 → Instr)) :=
  [(0x341, .lockacq), (0x342, .lockrel)]

def codeCommands : List (Nat × (Fin 16 → Fin 17 → Fin 8 → Instr)) :=
  [(0x3C0, .code1), (0x3C1, .code2), (0x3C2, .code3)]

def outputCommands : List (Nat × (Fin 16 → Fin 17 → Fin 8 → Instr)) :=
  [(0x3E0, .bind), (0x3E1, .commit), (0x3E2, .trip), (0x3E3, .awrite), (0x3E4, .event)]

/-- The block operations: opcode, what R256 asks of the operands, and what the operation computes (R244, R256, R257). -/
def strideCommands : List ((Nat × (Nat → Frame → (Nat → Nat) → SeSpec) × (SeIn → SeRes)) × (Fin 16 → Fin 17 → Ecc → BitVec 16 → Instr)) :=
  [((0x380, specWindow, seWindow), .window), ((0x381, specFft, seFft 0x381), .fft), ((0x382, specFft, seFft 0x382), .ifft), ((0x383, specRfft, seRfft), .rfft)] ++
  [((0x384, specRifft, seRifft), .rifft), ((0x385, specSpectrum, seMagspec), .magspec), ((0x386, specSpectrum, sePwrspec), .pwrspec), ((0x387, specAvglin, seAvglin), .avglin)] ++
  [((0x388, specAvgexp, seAvgexp), .avgexp), ((0x389, specBanden, seBanden), .banden), ((0x38A, specPeaks, sePeaksOp), .peaks), ((0x38B, specFirdec, seFirdec), .firdec)] ++
  [((0x38C, specEnvelope, seEnvelopeOp), .envelope), ((0x38D, specAnglers, seAnglers), .anglers), ((0x38E, specTsa, seTsa), .tsa), ((0x38F, specStats, seStats), .stats)] ++
  [((0x390, specBaseline, seBaseline), .baseline), ((0x391, specDeviate, seDeviate), .deviate), ((0x392, specThresh, seThresh), .thresh)]

/-! ### Cores (R266 to R299) -/

/-- The device once core `n` has fetched a word with outcome `e`: the bank counts a corrected error (R313), and a sleeping Steward is awake (R295). -/
def Dev.awake (d : Dev) (n : Nat) (e : Ecc) : Dev := let d := d.fetchNote n e; if n = stewCore then d.modStew (fun s => { s with wfi := false }) else d

/-- Core `n` can fetch and execute the word at its PC, which is the instruction `i` (R269, R271, R278, R295). -/
def Dev.executes (d : Dev) (n : Nat) (e : Ecc) (i : RcIns) : Prop :=
  d.coreRuns n = true ∧ d.stew.fatal = none ∧ d.rcFetch n e = .word ∧ rcDecode ((d.awake n e).codeWord n) = i ∧ (d.awake n e).rcRefuses n i = none

/-- Instructions with a 16-bit immediate, and their results (R277). -/
def immCommands : List ((RcKind × (W64 → BitVec 16 → W64)) × (Fin 273 → Ecc → Instr)) :=
  [((.addi, fun a m => a + m.signExtend 64), .addi), ((.andi, fun a m => a &&& m.zeroExtend 64), .andi), ((.ori, fun a m => a ||| m.zeroExtend 64), .ori),
   ((.xori, fun a m => a ^^^ m.zeroExtend 64), .xori), ((.slti, fun a m => if a.slt (m.signExtend 64) then 1 else 0), .slti),
   ((.sltiu, fun a m => if a.ult (m.signExtend 64) then 1 else 0), .sltiu), ((.shli, fun a m => a <<< m.toNat), .shli), ((.shri, fun a m => a >>> m.toNat), .shri),
   ((.srai, fun a m => a.sshiftRight m.toNat), .srai), ((.shori, fun a m => (a <<< 16) ||| m.zeroExtend 64), .shori)]

/-- Loads with their width and whether they sign-extend, stores and atomics (R279, R281). -/
def loadCommands : List ((RcKind × Nat × Bool) × (Fin 273 → Ecc → Ecc → Instr)) :=
  [((.ld, 8, false), .rcLd), ((.lw, 4, true), .lw), ((.lwu, 4, false), .lwu), ((.lh, 2, true), .lh), ((.lhu, 2, false), .lhu), ((.lb, 1, true), .lb), ((.lbu, 1, false), .lbu)]

def storeCommands : List ((RcKind × Nat) × (Fin 273 → Ecc → Ecc → Instr)) :=
  [((.sd, 8), fun n e _ => .sd n e), ((.sw, 4), fun n e _ => .sw n e), ((.sh, 2), .sh), ((.sb, 1), .sb)]

def atomicCommands : List ((RcKind × Nat) × (Fin 273 → Ecc → Ecc → Instr)) :=
  [((.aadd, 2), .rcAadd), ((.swap, 3), .rcSwap)]

/-- An access of Runner core `n` to `a` acts at once on its own bank B, which is on and in no write cycle of the word's sub-bank (R279, R305, R309). -/
def Dev.bankBReady (d : Dev) (n a : Nat) : Prop :=
  n < stewCore ∧ bankAddr (d.rcCluster n) 1 0 ≤ a ∧ a < bankAddr (d.rcCluster n) 1 0x40000 ∧ isSpm a = true ∧ d.tileOfCluster (spmCluster a) = n ∧
  (d.isoTiles (n / 17)).contains (n % 17) = false ∧ (d.bank n 1).state = 2 ∧ (d.bank n 1).target = none ∧
  (d.bank n 1).second.any (fun c => c.1 == subOf a) = false

end Sys2Proof.Machine
end

