-- ==== Sys2Proof/Certificates/Slice0/Obligations.lean ====
section
/-!
DEFINITION. The statements for the provers.
-/
open Sys2Proof Sys2Proof.Machine

/-- The block's commands run first in, first out: a step with `c` in front is `c`'s effect, with the rest of the queue waiting. -/
def Obligations.StepRunsFrontCommand : Prop :=
  ∀ (c : Instr) (cs : List Instr) (s : State), Sys2Proof.Machine.step { s with pending := c :: cs } = exec c { s with pending := cs }

/-- A step on an empty queue is one period of the always-on clock (R428; that it is, is the model's choice: notes/assumptions/11.md). Nothing but the time and
its fraction changes; with ADJ 0 outside a cold reset the time is 1 ns later. -/
def Obligations.IdleStepIsOneTick : Prop :=
  (∀ s : State, s.pending = [] → ∃ (t : W64) (f : W32), Sys2Proof.Machine.step s = .next (s.withDev { s.dev with time := t, frac := f })) ∧
  (∀ s : State, s.pending = [] → ¬ s.dev.inColdReset → s.dev.reg (ptpReg 0x10) = 0 →
    Sys2Proof.Machine.step s = .next (s.withDev { s.dev with time := s.dev.time + 1 })) ∧
  (∀ s : State, s.pending = [] → s.dev.inColdReset → Sys2Proof.Machine.step s = .next s)

/-- The block never stops: each command has a next state from every state, and leaves the queue of waiting commands alone. -/
def Obligations.EveryCommandGoesOn : Prop :=
  ∀ (c : Instr) (s : State), ∃ t : State, exec c s = .next t ∧ t.pending = s.pending

/-- The access codes of R13, bit by bit, for a register whose write has no behaviour of its own; a _LO half is held (R9), an unimplemented address ignores the
write (R11), and so does a block that is held in reset (R477; log 77). -/
def Obligations.RegisterWriteByAccessCode : Prop :=
  (∀ (a : BitVec 48) (v : W32) (s : State) (l : RegLoc), regAt a.toNat = some l → plainRegister l → s.dev.writable l a.toNat → keysRise s.dev.regs →
    l.isLo = false → l.isHi = false →
    ∃ t, exec (.registerWrite a v) s = .next t ∧ t.pending = s.pending ∧ t.dev = { s.dev with regs := t.dev.regs } ∧
      (∀ b, b ≠ s.dev.regKey l a.toNat → t.dev.reg b = s.dev.reg b) ∧
      ∀ i : Nat, i < 32 → (t.dev.reg (s.dev.regKey l a.toNat)).getLsbD i = bitWritten l (s.dev.bootOpen l) (s.dev.reg (s.dev.regKey l a.toNat)) v i) ∧
  (∀ (a : BitVec 48) (v : W32) (s : State) (l : RegLoc), regAt a.toNat = some l → plainRegister l → s.dev.writable l a.toNat → l.isLo = true →
    l.spec.rw ||| l.spec.rwb ||| l.spec.wo ≠ 0 →
    exec (.registerWrite a v) s = .next (s.withDev { s.dev with loHeld := mput s.dev.loHeld a.toNat v })) ∧
  (∀ (a : BitVec 48) (v : W32) (s : State) (l : RegLoc), regAt a.toNat = some l → s.dev.heldInReset l a.toNat = true →
    exec (.registerWrite a v) s = .next s) ∧
  (∀ (a : BitVec 48) (v : W32) (s : State), regAt a.toNat = none → exec (.registerWrite a v) s = .next s)

/-- R9 and R10 for a pair without a write behaviour of its own. -/
def Obligations.PairsActTogether : Prop :=
  (∀ (a : BitVec 48) (s : State) (l h : RegLoc), regAt a.toNat = some l → l.isLo = true → regAt (a.toNat + 4) = some h → h.isLo = false → h.isHi = true →
    ∃ t, exec (.pairLoRead a) s = .next t ∧
      t = s.withDev { s.dev with hiCap := mput s.dev.hiCap a.toNat (s.dev.regValue s.fuses h (a.toNat + 4)) } ∧
      t.dev.regRead t.fuses (a.toNat + 4) = (s.dev.regValue s.fuses h (a.toNat + 4), t.dev)) ∧
  (∀ (a : BitVec 48) (s : State), regAt a.toNat = none → exec (.pairLoRead a) s = .next s) ∧
  (∀ (a : BitVec 48) (v x : W32) (s : State) (l lo : RegLoc), regAt a.toNat = some l → plainRegister l → s.dev.writable l a.toNat → keysRise s.dev.regs → keysRise s.dev.loHeld →
    l.isLo = false → l.isHi = true → regAt (a.toNat - 4) = some lo → (s.dev.loHeld.find? (fun c => c.1 == a.toNat - 4)).map (·.2) = some x → 4 ≤ s.dev.regKey l a.toNat →
    ∃ t, exec (.pairHiWrite a v) s = .next t ∧ t.pending = s.pending ∧ t.dev = { s.dev with regs := t.dev.regs, loHeld := t.dev.loHeld } ∧
      t.dev.loHeld.find? (fun c => c.1 == a.toNat - 4) = none ∧ (∀ c, c.1 ≠ a.toNat - 4 → (c ∈ t.dev.loHeld ↔ c ∈ s.dev.loHeld)) ∧
      (∀ b, b ≠ s.dev.regKey l a.toNat → b ≠ s.dev.regKey l a.toNat - 4 → t.dev.reg b = s.dev.reg b) ∧
      ∀ i : Nat, i < 32 →
        (t.dev.reg (s.dev.regKey l a.toNat)).getLsbD i = bitWritten l (s.dev.bootOpen l) (s.dev.reg (s.dev.regKey l a.toNat)) v i ∧
        (t.dev.reg (s.dev.regKey l a.toNat - 4)).getLsbD i = bitWritten lo (s.dev.bootOpen l) (s.dev.reg (s.dev.regKey l a.toNat - 4)) x i) ∧
  (∀ (a : BitVec 48) (v : W32) (s : State) (l : RegLoc), regAt a.toNat = some l → plainRegister l → s.dev.writable l a.toNat → keysRise s.dev.regs →
    l.isLo = false → l.isHi = true → s.dev.loHeld.find? (fun c => c.1 == a.toNat - 4) = none →
    ∃ t, exec (.pairHiWrite a v) s = .next t ∧ t.pending = s.pending ∧ t.dev = { s.dev with regs := t.dev.regs, loHeld := t.dev.loHeld } ∧
      t.dev.loHeld = mdel s.dev.loHeld (a.toNat - 4) ∧
      (∀ b, b ≠ s.dev.regKey l a.toNat → t.dev.reg b = s.dev.reg b) ∧
      ∀ i : Nat, i < 32 → (t.dev.reg (s.dev.regKey l a.toNat)).getLsbD i = bitWritten l (s.dev.bootOpen l) (s.dev.reg (s.dev.regKey l a.toNat)) v i) ∧
  (∀ (a : BitVec 48) (v : W32) (s : State), exec (.pairHiWrite a v) s = exec (.registerWrite a v) s) ∧
  (∀ (a : BitVec 48) (v : W32) (s : State), (∀ l, regAt a.toNat = some l → s.dev.heldInReset l a.toNat = true) → exec (.pairHiWrite a v) s = .next s)

/-- Control of tiles and fabrics (R20, R22, R26, R27, R30 to R36, R355, R357, R360, R472). -/
def Obligations.TileAndMapControl : Prop :=
  (∀ (g : Fin 16) (t : Fin 17) (v : W32) (s : State), s.dev.resetting = false → v.getLsbD 0 = true →
    let d := (s.dev.emptyTile (tileKey g t)).resetRegs (tileRegs (tileKey g t))
    ((s.dev.tile (tileKey g t)).stride.run = none → s.dev.rbit (seStatusReg (tileKey g t)) 8 = false →
      exec (.cluSrstWrite g t v) s = .next (s.withDev (d.setBit (cluReg g t 0xC) 0 true))) ∧
    ((s.dev.tile (tileKey g t)).stride.run ≠ none ∨ s.dev.rbit (seStatusReg (tileKey g t)) 8 = true →
      exec (.cluSrstWrite g t v) s = .next (s.withDev ((d.setBit (seStatusReg (tileKey g t)) 8 true).setBit (cluReg g t 0xC) 0 true)))) ∧
  (∀ (g : Fin 16) (t : Fin 17) (v : W32) (s : State), s.dev.resetting = false → v.getLsbD 0 = false →
    exec (.cluSrstWrite g t v) s = .next (s.withDev ((s.dev.setBit (cluReg g t 0xC) 0 false).clkApply (tileKey g t)))) ∧
  (∀ (k : Fin 4) (v : W32) (s : State), s.dev.resetting = false → v.getLsbD 0 = false →
    exec (.diefSrstWrite k v) s = .next (s.withDev (s.dev.setBit (diefReg k 0xC) 0 false))) ∧
  (∀ (k : Fin 4) (v : W32) (s : State), s.dev.resetting = false → v.getLsbD 0 = true →
    exec (.diefSrstWrite k v) s = .next (s.withDev ((((s.dev.discardAll (fun c => c == 288 + k)).resetRegs (fun x => decide (nocReg k 0 ≤ x ∧ x < nocReg k 0 + 0x28))).setDom (16 + k) {}).setBit (diefReg k 0xC) 0 true))) ∧
  (∀ (g : Fin 16) (t : Fin 17) (k : Fin 4) (v : W32) (s : State), s.dev.resetting = true → exec (.cluSrstWrite g t v) s = .next s ∧ exec (.diefSrstWrite k v) s = .next s) ∧
  (∀ (g : Fin 16) (t : Fin 17) (s : State), s.dev.rbit (rgnReg g 0x34) t = true →
    exec (.tileUnhealthy g t) s = .next (s.withDev ((s.dev.setBit (rgnReg g 0x34) t false).raiseTile (tileKey g t) 5 0))) ∧
  (∀ (g : Fin 16) (t : Fin 17) (s : State), s.dev.rbit (rgnReg g 0x34) t = false → exec (.tileUnhealthy g t) s = .next s) ∧
  (∀ (g : Fin 16) (v : W32) (s : State), v.getLsbD 0 = true → v.getLsbD 2 = false →
    s.dev.rbit (rgnReg g 0x30) 1 = true ∨ s.dev.mapOk g (s.dev.mapShadow g) = false →
    exec (.mapCommit g v) s = .next (s.withDev (s.dev.writes (rgnReg g 0x30) (s.dev.setBit (rgnReg g 0x30) 2 true)))) ∧
  (∀ (g : Fin 16) (v : W32) (s : State), v.getLsbD 0 = true → v.getLsbD 2 = false → s.dev.rbit (rgnReg g 0x30) 1 = false →
    s.dev.mapOk g (s.dev.mapShadow g) = true → s.dev.mapShadow g = s.dev.map g →
    let d := s.dev.liftIso g
    let h : MeshHalf := { map := s.dev.map g, iso := if unmapped (s.dev.map g) < 16 ∧ !(d.isoTiles g).contains (unmapped (s.dev.map g)) then d.isoTiles g ++ [unmapped (s.dev.map g)] else d.isoTiles g }
    exec (.mapCommit g v) s = .next (s.withDev (s.dev.writes (rgnReg g 0x30) ((d.setDom g { d.dom g with mesh0 := h, mesh1 := h }).isolateCutOff g)))) ∧
  (∀ (g : Fin 16) (v : W32) (s : State), v.getLsbD 0 = false → v.getLsbD 2 = true →
    exec (.mapCommit g v) s = .next (s.withDev (s.dev.writes (rgnReg g 0x30) (s.dev.setBit (rgnReg g 0x30) 2 false)))) ∧
  (∀ (k : Fin 21) (s : State), (s.dev.dom k).flip = false ∨ s.dev.oldGone k = false → exec (.routeEpochFlipDone k) s = .next s) ∧
  (∀ (k : Fin 21) (s : State), 16 ≤ k.val → (s.dev.dom k).flip = true → s.dev.oldGone k = true → (s.dev.dom k).held = [] →
    exec (.routeEpochFlipDone k) s = .next (s.withDev ((s.dev.setDom k { s.dev.dom k with flip := false, held := [] }).setBit (nocReg (k - 16) 0x20) 1 false))) ∧
  (∀ (g : Fin 16) (t : Fin 17) (v : W32) (s : State), fld v 4 0 < 4 ∨ 20 < fld v 4 0 → exec (.clkFreqWrite g t v) s = .next s) ∧
  (∀ (d : Dev) (f : Fuses), d.fmax f = if d.rbit (rstReg 4) 1 = true then 0 else if f.varE = true then 16 else 20) ∧
  (∀ (g : Fin 16) (t : Fin 17) (v : W32) (s : State), 4 ≤ fld v 4 0 → fld v 4 0 ≤ 20 → fld v 4 0 ≤ s.dev.fmax s.fuses →
    let d := s.dev.setFld (cluReg g t 4) 4 0 (fld v 4 0)
    exec (.clkFreqWrite g t v) s = .next (s.withDev (d.clkApply (tileKey g t))) ∧
    (d.tileHeld (tileKey g t) = true → exec (.clkFreqWrite g t v) s = .next (s.withDev d)) ∧
    (d.tileHeld (tileKey g t) = false → d.rfld (cluReg g t 4) 4 0 ≤ 4 → exec (.clkFreqWrite g t v) s = .next (s.withDev (((d.setFld (cluReg g t 8) 10 6 4).setBit (cluReg g t 8) 0 false).modTile (tileKey g t) (fun x => { x with pll := none })))) ∧
    (d.tileHeld (tileKey g t) = false → 4 < d.rfld (cluReg g t 4) 4 0 → d.rfld (cluReg g t 8) 10 6 ≠ d.rfld (cluReg g t 4) 4 0 →
      exec (.clkFreqWrite g t v) s = .next (s.withDev (((d.setFld (cluReg g t 8) 10 6 4).setBit (cluReg g t 8) 0 true).modTile (tileKey g t) (fun x => { x with pll := some (d.rfld (cluReg g t 4) 4 0) }))))) ∧
  (∀ (g : Fin 16) (t : Fin 17) (v : W32) (s : State), 4 ≤ fld v 4 0 → fld v 4 0 ≤ 20 → s.dev.fmax s.fuses < fld v 4 0 →
    exec (.clkFreqWrite g t v) s = .next (s.withDev (((s.dev.setBit (cluReg g t 8) 2 true).setFld (cluReg g t 4) 4 0 (s.dev.fmax s.fuses)).clkApply (tileKey g t)))) ∧
  (∀ (g : Fin 16) (t : Fin 17) (s : State) (f : Nat), (s.dev.tile (tileKey g t)).pll = some f →
    exec (.pllRelockDone g t) s = .next (s.withDev (((s.dev.setFld (cluReg g t 8) 10 6 f).setBit (cluReg g t 8) 0 false).modTile (tileKey g t) (fun x => { x with pll := none })))) ∧
  (∀ (g : Fin 16) (t : Fin 17) (s : State) (f : Nat), (s.dev.tile (tileKey g t)).pll = some f →
    exec (.pllLockTimeout g t) s = .next (s.withDev (((((s.dev.setFld (cluReg g t 8) 10 6 4).setBit (cluReg g t 8) 0 false).setBit (cluReg g t 8) 1 true).modTile (tileKey g t)
        (fun x => { x with pll := none })).raiseTile (tileKey g t) 4 0))) ∧
  (∀ (g : Fin 16) (t : Fin 17) (s : State), (s.dev.tile (tileKey g t)).pll = none →
    exec (.pllRelockDone g t) s = .next s ∧ exec (.pllLockTimeout g t) s = .next s)

/-- A commit that changes the map (R31, R36, R312, R350, R355). -/
def Obligations.CommittedMapBecomesActive : Prop :=
  (∀ (g : Fin 16) (v : W32) (s : State), v.getLsbD 0 = true → v.getLsbD 2 = false → s.dev.rbit (rgnReg g 0x30) 1 = false → s.dev.regHeld (rgnReg g 0x30) = false →
    s.dev.mapOk g (s.dev.mapShadow g) = true → s.dev.mapShadow g ≠ s.dev.map g →
    let m := s.dev.mapShadow g
    let old := s.dev.map g
    let d := ((List.range 16).filter (fun i => old.getD i 31 != m.getD i 31)).foldl (fun d c => (d.clearCluster (16 * g + c)).freshTile (tileKey g (m.getD c 31))) s.dev
    let d := (d.setMap g m).modRegion g (fun r => { r with spent := r.spent || m.contains (unmapped old) })
    let iso := (d.isoTiles g).filter (fun t => !(mget [] d.net.lifts g).contains t)
    let half : MeshHalf := { map := m, iso := if unmapped m < 16 ∧ !iso.contains (unmapped m) then iso ++ [unmapped m] else iso }
    let x := d.dom g
    exec (.mapCommit g v) s = .next (s.withDev ((((d.setDom g { (if x.epoch then { x with mesh0 := half } else { x with mesh1 := half } : Domain) with
      epoch := !x.epoch, flip := true }).setBit (rgnReg g 0x30) 1 true).isolateCutOff g).clkApply (tileKey g (unmapped old))))) ∧
  (∀ (d : Dev) (g : Fin 16) (m : List Nat), keysRise d.regs → m.length = 16 → (∀ t ∈ m, t ≤ 16) → (d.setMap g m).map g = m) ∧
  (∀ (d : Dev) (c : Fin 256) (a : Nat), Memory.wf d.mem = true →
    (d.clearCluster c).byte a = if (bankAddr c 0 0 ≤ a ∧ a < bankAddr (c + 1) 0 0) ∨ (slotAddr c 0 ≤ a ∧ a < slotAddr (c + 1) 0) then 0 else d.byte a)

/-- Route commits, isolation, parking and heartbeats (R357 to R361, R365, R531). -/
def Obligations.RouteAndIsolationControl : Prop :=
  (∀ (k : Fin 5) (v : W32) (s : State), v.getLsbD 0 = true → v.getLsbD 2 = false → s.dev.rbit (nocReg k 0x20) 1 = true →
    exec (.nocCommit k v) s = .next (s.withDev (s.dev.writes (nocReg k 0x20) (s.dev.setBit (nocReg k 0x20) 2 true)))) ∧
  (∀ (k : Fin 5) (v : W32) (s : State), v.getLsbD 0 = true → v.getLsbD 2 = false → s.dev.rbit (nocReg k 0x20) 1 = false →
    (∃ i, i < 24 ∧ badEntry k i ((s.dev.nocShadow k).getD i 15) = true) →
    exec (.nocCommit k v) s = .next (s.withDev (s.dev.writes (nocReg k 0x20) ((s.dev.setBit (nocReg k 0x20) 2 true).raise (321 + 2 * k) 2 0)))) ∧
  (∀ (k : Fin 5) (v : W32) (s : State), v.getLsbD 0 = true → v.getLsbD 2 = false → s.dev.rbit (nocReg k 0x20) 1 = false → s.dev.regHeld (nocReg k 0x20) = false →
    (∀ i, i < 24 → badEntry k i ((s.dev.nocShadow k).getD i 15) = false) → s.dev.nocShadow k ≠ s.dev.nocActive k →
    let x := s.dev.dom (16 + k)
    let d := (List.range 3).foldl (fun (d : Dev) m => d.setReg (nocReg k (0x10 + 4 * m)) (d.reg (nocReg k (4 * m)))) s.dev
    exec (.nocCommit k v) s = .next (s.withDev (((d.setDom (16 + k) { x with
        epoch := !x.epoch, flip := true
        tab0 := if x.epoch then s.dev.nocShadow k else s.dev.nocActive k
        tab1 := if x.epoch then s.dev.nocActive k else s.dev.nocShadow k }).setBit (nocReg k 0x20) 1 true).setBit (nocReg k 0x20) 3 (!x.epoch)))) ∧
  (∀ (k : Fin 5) (v : W32) (s : State), v.getLsbD 0 = true → v.getLsbD 2 = false → s.dev.rbit (nocReg k 0x20) 1 = false →
    (∀ i, i < 24 → badEntry k i ((s.dev.nocShadow k).getD i 15) = false) → s.dev.nocShadow k = s.dev.nocActive k → exec (.nocCommit k v) s = .next s) ∧
  (∀ (k : Fin 5) (v : W32) (s : State), v.getLsbD 0 = false → v.getLsbD 2 = true →
    exec (.nocCommit k v) s = .next (s.withDev (s.dev.writes (nocReg k 0x20) (s.dev.setBit (nocReg k 0x20) 2 false)))) ∧
  (∀ (k : Fin 4) (v : W32) (s : State),
    exec (.isoSet k v) s = .next (s.withDev (s.dev.writes (nocReg k 0x24)
      (((List.range 17).filter (fun i => v.getLsbD i)).foldl (fun d t => d.isolate (k * 4 + fld v 18 17) t 2) s.dev).healthUpdate))) ∧
  (∀ (g : Fin 16) (v : W32) (s : State),
    let ts := (s.dev.isoTiles g).filter (fun t => v.getLsbD t)
    let old := mget [] s.dev.net.lifts g
    exec (.isoLiftWrite g v) s = .next (s.withDev { s.dev with net := { s.dev.net with
      lifts := mset [] s.dev.net.lifts g (old ++ ts.filter (fun t => !old.contains t)) } })) ∧
  (∀ (v : W32) (s : State), exec (.blkIsoSet v) s = .next (s.withDev
    (((List.range 16).filter (fun i => v.getLsbD i)).foldl (fun d u => if d.rbit (nocReg 4 0x54) u then d else (d.setBit (nocReg 4 0x54) u true).raise 328 2 u) s.dev).healthUpdate)) ∧
  (∀ (v : W32) (s : State), exec (.blkIsoClear v) s = .next (s.withDev (s.dev.setReg (nocReg 4 0x54) (s.dev.reg (nocReg 4 0x54) &&& ~~~v)))) ∧
  (∀ (v : W32) (s : State),
    let d := (List.range 4).foldl (fun (d : Dev) k => d.parkOutput ⟨.hub, .die k⟩) (s.dev.setFld (nocReg 4 0x40) 15 0 (fld v 15 0))
    exec (.parkWrite v) s = .next (s.withDev ((List.range 16).foldl (fun (d : Dev) g => d.forward .hub { pkt := { dest := holderDest g, body := .mgmt (.park (v.extractLsb' 0 16)) } }) d))) ∧
  (∀ (n : Fin 309) (s : State), exec (.heartbeat n) s = .next (s.withDev { s.dev with hbMiss := mset 0 s.dev.hbMiss n 0 })) ∧
  (∀ (n : Fin 309) (s : State), mget 0 s.dev.hbMiss n < 2 →
    exec (.heartbeatMiss n) s = .next (s.withDev { s.dev with hbMiss := mset 0 s.dev.hbMiss n (mget 0 s.dev.hbMiss n + 1) })) ∧
  (∀ (n : Fin 309) (s : State), 2 ≤ mget 0 s.dev.hbMiss n →
    let d : Dev := { s.dev with hbMiss := mset 0 s.dev.hbMiss n 0 }
    (n.val < 272 → exec (.heartbeatMiss n) s = .next (s.withDev (d.isolate (n / 17) (n % 17) 0).healthUpdate)) ∧
    (272 ≤ n.val → n.val < 288 → exec (.heartbeatMiss n) s = .next (s.withDev ((List.range 17).foldl (fun d t => d.isolate (n - 272) t 0) d).healthUpdate)) ∧
    (∀ k : Fin 4, n.val = 288 + k → exec (.heartbeatMiss n) s = .next (s.withDev
      (((d.dropDieLink ⟨.die k, .die ((k + 1) % 4)⟩).dropDieLink ⟨.die k, .die ((k + 3) % 4)⟩).dropDieLink ⟨.die k, .hub⟩).healthUpdate)) ∧
    (292 ≤ n.val → n.val < 308 → exec (.heartbeatMiss n) s = .next (s.withDev
      (if d.rbit (nocReg 4 0x54) (n - 292) then d else (d.setBit (nocReg 4 0x54) (n - 292) true).raise 328 2 (n - 292)).healthUpdate)) ∧
    (n.val = 308 → (d.link ⟨.hub, .meas⟩).down = false → exec (.heartbeatMiss n) s = .next (s.withDev d.dropMeasLink.healthUpdate)))

/-- Links (R40, R204, R210, R218, R346, R350 to R353). -/
def Obligations.LinksCarryFlits : Prop :=
  (∀ (l : LinkId) (err : BitVec 256) (s : State), s.dev.linkOpen l = false → exec (.flitReceive l err) s = .next s) ∧
  (∀ (l : LinkId) (err : BitVec 256) (s : State), s.dev.linkOpen l = true → s.dev.arbitrate l = none → exec (.flitReceive l err) s = .next (s.withDev (s.dev.serveL4 l.dst))) ∧
  (∀ (d : Dev) (n : Node), (Node.router n = n) → d.serveL4 n = d) ∧
  (∀ (l : LinkId) (err : BitVec 256) (s : State) (f : QFlit) (tie : Bool), s.dev.linkOpen l = true → s.dev.arbitrate l = some (.flit f tie) →
    flitOk (flitBits f.pkt f.idx f.n ^^^ err) = false →
    let x := s.dev.link l
    (x.resend = none → x.q.contains f = true → s.dev.behindMarsh l f = false →
      let d := s.dev.setLink l { x with q := removeFirst (· == f) x.q }
      exec (.flitReceive l err) s = .next (s.withDev ((d.setLink l { d.link l with fails := (d.link l).fails + 1, resend := some (some (f, tie)) }).serveL4 l.dst))) ∧
    (x.resend = some (some (f, tie)) → exec (.flitReceive l err) s = .next (s.withDev ((s.dev.setLink l { x with fails := x.fails + 1, resend := some (some (f, tie)) }).serveL4 l.dst)))) ∧
  (∀ (l : LinkId) (err : BitVec 256) (s : State) (f : QFlit) (tie : Bool), s.dev.linkOpen l = true → s.dev.arbitrate l = some (.flit f tie) →
    flitOk (flitBits f.pkt f.idx f.n ^^^ err) = true → exec (.flitReceive l err) s = .next (s.withDev (((s.dev.transfer l f tie).endService l f).serveL4 l.dst))) ∧
  (∀ (g : Fin 16) (t : Fin 17) (u : Fin 16) (err : BitVec 256) (s : State) (f : QFlit),
    let l : LinkId := ⟨.tile g t, .tileUnit g t u⟩
    s.dev.linkOpen l = true → s.dev.arbitrate l = some (.flit f false) → flitOk (flitBits f.pkt f.idx f.n ^^^ err) = true → f.pkt.ends = none →
    f.idx = 0 → f.n = 1 → f.via = none → (s.dev.link l).resend = none → (s.dev.link l).q.contains f = true → s.dev.behindMarsh l f = false → e2eKey l f.pkt = none →
    let lane := Packet.lane f.pkt
    let d := s.dev.setLink l { s.dev.link l with q := removeFirst (· == f) (s.dev.link l).q }
    let x := d.link l
    let d := d.setLink l { x with used := mset 0 x.used lane (mget 0 x.used lane + 1), lock := mdel x.lock lane, fails := 0, cur := mdel x.cur lane }
    exec (.flitReceive l err) s = .next (s.withDev ((d.setInbox (.tileUnit g t u) lane (d.inbox (.tileUnit g t u) lane ++ [f.pkt])).serveL4 l.dst))) ∧
  (∀ (l : LinkId) (err : BitVec 256) (s : State), s.dev.linkOpen l = true → s.dev.arbitrate l = some .credit → flitOk (s.dev.creditBits l ^^^ err) = true →
    exec (.flitReceive l err) s = .next (s.withDev ((s.dev.takeCredits l).serveL4 l.dst))) ∧
  (∀ (l : LinkId) (err : BitVec 256) (s : State), s.dev.linkOpen l = true → s.dev.arbitrate l = some .credit → flitOk (s.dev.creditBits l ^^^ err) = false →
    exec (.flitReceive l err) s = .next (s.withDev ((s.dev.setLink l { s.dev.link l with fails := (s.dev.link l).fails + 1, resend := some none }).serveL4 l.dst))) ∧
  (∀ (l : LinkId) (n : Nat) (s : State) (f : QFlit), (s.dev.link l).q[n]? = some f → f.idx = 0 → f.pkt.age.toNat < 15 →
    let q := (s.dev.link l).q
    let older := fun (y : QFlit) => { y with pkt := { y.pkt with age := y.pkt.age + 1 } }
    let d := s.dev.setLink l { s.dev.link l with
      q := q.take n ++ older f :: (q.drop (n + 1)).map (fun y => if (packetFlits l f (q.drop (n + 1))).contains y then older y else y) }
    (f.via = none ∨ f.n = 1 → exec (.ageIncrement l n) s = .next (s.withDev d)) ∧
    (∀ v, f.via = some v → f.n ≠ 1 → exec (.ageIncrement l n) s = .next (s.withDev (d.setLink v { d.link v with
      cur := (d.link v).cur.map (fun c => if c.1 = Packet.lane f.pkt ∧ c.2 = f.pkt then (c.1, { c.2 with age := c.2.age + 1 }) else c) })))) ∧
  (∀ (l : LinkId) (n : Nat) (s : State) (f : QFlit), (s.dev.link l).q[n]? = some f → f.idx ≠ 0 ∨ f.pkt.age = 15 → exec (.ageIncrement l n) s = .next s) ∧
  (∀ (l : LinkId) (s : State), (s.dev.link l).fails < 8 → exec (.linkDown l) s = .next (s.withDev s.dev.healthUpdate)) ∧
  (∀ (l : LinkId) (s : State), 8 ≤ (s.dev.link l).fails →
    let d := s.dev.setLink l { s.dev.link l with fails := 0, down := true }
    (dieLinkBits l ≠ [] → (∀ c, c ∈ dieLinkBits l → s.dev.rbit (diefReg c.1 4) c.2 = true) → exec (.linkDown l) s = .next (s.withDev
      (((dieLinkBits l).foldl (fun (d : Dev) c => ((d.setBit (diefReg c.1 4) c.2 false).setBit (diefReg c.1 4) (c.2 + 4) true).raise (320 + 2 * c.1) 1 c.2) d).rerouteBoth l).healthUpdate)) ∧
    (∀ g t u, l = ⟨.tile g t, .tile g u⟩ → hopsToGw u < hopsToGw t → exec (.linkDown l) s = .next (s.withDev ((d.isolate g t 1).reroute l).healthUpdate)) ∧
    (∀ g t u, l = ⟨.tile g t, .tile g u⟩ → hopsToGw t < hopsToGw u → exec (.linkDown l) s = .next (s.withDev ((d.isolate g u 1).reroute l).healthUpdate)) ∧
    (∀ g t u, l = ⟨.tile g t, .tile g u⟩ → hopsToGw t = hopsToGw u → exec (.linkDown l) s = .next (s.withDev (((d.isolate g t 1).isolate g u 1).reroute l).healthUpdate)) ∧
    (∀ g t, l = ⟨.tile g t, .gw g⟩ ∨ l = ⟨.gw g, .tile g t⟩ → exec (.linkDown l) s = .next (s.withDev ((d.isolate g t 1).reroute l).healthUpdate)) ∧
    (l = ⟨.hub, .meas⟩ ∨ l = ⟨.meas, .hub⟩ → exec (.linkDown l) s = .next (s.withDev d.dropMeasLink.healthUpdate))) ∧
  (∀ (l : LinkId) (w : W32) (s : State),
    let d := s.dev.setLink l { s.dev.link l with fails := 0, down := false }
    let d := d.setLink (LinkId.back l) { d.link (LinkId.back l) with fails := 0, down := false }
    (dieLinkBits l = [] → exec (.linkUp (l, w)) s = .next (s.withDev d)) ∧
    (∀ a b bs, dieLinkBits l = (a, b) :: bs → exec (.linkUp (l, w)) s = .next (s.withDev
      ([4, 5, 6].foldl (fun (d : Dev) k => if w.getLsbD k && k != b + 4 then d.setBit (diefReg a 4) k false else d)
        (((a, b) :: bs).foldl (fun (d : Dev) c => d.setBit (diefReg c.1 4) c.2 true) d))))) ∧
  (∀ (l : LinkId) (s : State), s.dev.linkOpen l = false ∨ s.dev.arbitrate l ≠ some .credit → exec (.creditReturn l) s = .next s) ∧
  (∀ (l : LinkId) (s : State), s.dev.linkOpen l = true → s.dev.arbitrate l = some .credit → l.src ≠ l.dst →
    let b := LinkId.back l
    let x := s.dev.link b
    let d := s.dev.setLink l { s.dev.link l with fails := 0, resend := none }
    (x.wait = false → (∀ k, k < 5 → mget 0 x.owed k ≤ mget 0 x.used k) →
      let d := d.setLink b { x with used := (List.range 5).foldl (fun m k => mset 0 m k (mget 0 x.used k - mget 0 x.owed k)) ([] : SMap Nat), owed := [] }
      (s.dev.nextE2e l = none → exec (.creditReturn l) s = .next (s.withDev d)) ∧
      (∀ h t k, s.dev.nextE2e l = some (h, t, k) → exec (.creditReturn l) s = .next (s.withDev
        ((d.modNet (fun n => { n with acc := mset 0 n.acc (accKey l.src h t) 0 })).oweE2e l.dst h t k)))) ∧
    (x.wait = true → s.dev.nextE2e l = none → d.drained b = true →
      exec (.creditReturn l) s = .next (s.withDev (d.setLink b { x with used := [], owed := [], wait := false }))))

/-- The tests of R56 in their order, each with the earlier ones passed; then the match stage (R57, R65, R205). -/
def Obligations.TagCheckOfATokenInOrder : Prop :=
  ∀ (g : Fin 16) (t : Fin 17) (f : Fin 8) (errs : List (Fin 2048 × Ecc)) (s : State) (lane : Nat) (p : Packet) (tok : Token) (ps : List Packet),
    let k := fuKey g t f
    (lane = 4 ∧ (s.dev.fu k).heldM = none) ∨ (lane = 0 ∧ (s.dev.fu k).held = none ∧ ((s.dev.fu k).heldM ≠ none ∨ (s.dev.inbox (fuNode k) 4).find? isToken = none)) →
    s.dev.inbox (fuNode k) lane = p :: ps → p.body = .token tok → infieldBlock p = none →
    let d := s.dev.tookToken k lane ps
    let m := maskPorts (d.maskOf (k / 8) tok.tag.node.toNat) tok.tag.port.toNat
    let sticky := fun (code detail : Nat) => (d.setBit (esStatus k) 1 true).fuError k tok.tag (Token.replay tok) code detail
    let x := d.matchTok k tok false (errs.map (fun c => (c.1.val, c.2)))
    (Tag.crcOk tok.tag = false → exec (.tokenTagCheck g t (f, errs)) s = .next (s.withDev (d.badTag k tok.tag))) ∧
    (Tag.crcOk tok.tag = true → (d.fu k).tombs.any (fun y => y.1 == tok.tag.ctx) = true → d.isMarkAt (k / 8) tok = false →
      exec (.tokenTagCheck g t (f, errs)) s = .next (s.withDev d)) ∧
    (Tag.crcOk tok.tag = true → (d.fu k).tombs.any (fun y => y.1 == tok.tag.ctx) = false ∨ d.isMarkAt (k / 8) tok = true →
      (d.addressed k tok.tag = false → exec (.tokenTagCheck g t (f, errs)) s = .next (s.withDev (sticky stMISROUTE (misrouteDetail tok.tag)))) ∧
      (d.addressed k tok.tag = true →
        (tok.tag.cls ≠ 0 → ¬ (tok.tag.cls = 4 ∧ tok.tag.graph = 0) → exec (.tokenTagCheck g t (f, errs)) s = .next (s.withDev (sticky stFORMAT 2))) ∧
        (tok.tag.cls = 0 ∨ (tok.tag.cls = 4 ∧ tok.tag.graph = 0) →
          (tok.tag.port = 3 → exec (.tokenTagCheck g t (f, errs)) s = .next (s.withDev (sticky stFORMAT 1))) ∧
          (tok.tag.port ≠ 3 → m.contains tok.tag.port.toNat = false → exec (.tokenTagCheck g t (f, errs)) s = .next (s.withDev (sticky stFORMAT 4))) ∧
          (tok.tag.port ≠ 3 → m.contains tok.tag.port.toNat = true → 8 < Token.ptype tok →
            exec (.tokenTagCheck g t (f, errs)) s = .next (s.withDev (sticky stFORMAT 3))) ∧
          (tok.tag.port ≠ 3 → m.contains tok.tag.port.toNat = true → Token.ptype tok ≤ 8 →
            (x.2 = true → exec (.tokenTagCheck g t (f, errs)) s = .next (s.withDev x.1)) ∧
            (x.2 = false → lane = 0 → exec (.tokenTagCheck g t (f, errs)) s = .next (s.withDev (x.1.modFu k (fun u => { u with held := some tok })))) ∧
            (x.2 = false → lane = 4 → exec (.tokenTagCheck g t (f, errs)) s = .next (s.withDev (x.1.modFu k (fun u => { u with heldM := some tok }))))))))

/-- The match stage (R62, R66, R67, R71, R77, R171), reached through TAG_CHECK_RETRY of a held token. -/
def Obligations.MatchFiresOrWaits : Prop :=
  ∀ (g : Fin 16) (t : Fin 17) (f : Fin 8) (errs : List (Fin 2048 × Ecc)) (s : State) (tok : Token),
    let k := fuKey g t f
    let d := s.dev.modFu k (fun u => { u with oflFull := false })
    let key := keyOf tok.tag
    let ports := maskPorts (d.maskOf (k / 8) tok.tag.node.toNat) tok.tag.port.toNat
    (d.fu k).held = some tok → (d.fu k).heldM = none → (d.fu k).fills.all (fun f => !f.ret) = true →
    let accepted := fun (x : Dev) => ((x.modFu k (fun u => { u with held := none })).progress (k / 136)).oflSettle k
    let solo := firingOf tok.tag.node [tok]
    (ports.all (· == tok.tag.port.toNat) = true → tok.tag.flow = 0 → d.fireRoom k solo = true →
      exec (.tagCheckRetry g t (f, errs)) s = .next (s.withDev (accepted (d.modFu k (fun u => { u with issue := u.issue ++ [{ lvl := d.eprio (k / 8) solo, fu := k, fir := solo }] }))))) ∧
    (ports.all (· == tok.tag.port.toNat) = true → d.fireRoom k solo = false → exec (.tagCheckRetry g t (f, errs)) s = .next (s.withDev (d.oflSettle k))) ∧
    (ports.all (· == tok.tag.port.toNat) = false → (d.fu k).fills.any (fun f => f.key == key) = true → (d.fu k).fillW.length < 16 →
      exec (.tagCheckRetry g t (f, errs)) s = .next (s.withDev (accepted (d.setFu k { d.fu k with fillW := (d.fu k).fillW ++ [{ tok := tok }] })))) ∧
    (ports.all (· == tok.tag.port.toNat) = false → (d.fu k).fills.any (fun f => f.key == key) = false →
      let d := d.readErrs k (d.setOf k key) (errs.map (fun c => (c.1.val, c.2)))
      let u := d.fu k
      let st := d.setOf k key
      let w := u.waiting st key
      let full := firingOf tok.tag.node (w.map (·.2) ++ [tok])
      let way := u.emptySlot ((List.range 8).map (· + 8 * st))
      let slot := u.emptySlot ((List.range 64).map (· + 1984))
      (w.any (fun e => e.2.tag.port == tok.tag.port) = true → exec (.tagCheckRetry g t (f, errs)) s = .next (s.withDev (accepted
        ((d.setBit (esStatus k) 2 true).fuError k tok.tag (Token.replay tok) stDUP_OPERAND (tok.tag.node.toNat + tok.tag.port.toNat * 2 ^ 15))))) ∧
      (w.any (fun e => e.2.tag.port == tok.tag.port) = false →
        (ports.all (fun p => p == tok.tag.port.toNat || w.any (fun e => e.2.tag.port.toNat == p)) = true →
          (d.fireRoom k full = true →
            exec (.tagCheckRetry g t (f, errs)) s = .next (s.withDev (accepted ((w.foldl (fun (d : Dev) l => d.modFu k (fun u => u.consume l.1)) d).enable k full)))) ∧
          (d.fireRoom k full = false → exec (.tagCheckRetry g t (f, errs)) s = .next (s.withDev (d.oflSettle k)))) ∧
        (ports.all (fun p => p == tok.tag.port.toNat || w.any (fun e => e.2.tag.port.toNat == p)) = false → d.filterMaybe k key = false →
          (∀ n, tok.tag.prio = 15 → slot = some n →
            exec (.tagCheckRetry g t (f, errs)) s = .next (s.withDev (accepted ((d.setFu k { u with slice := mput u.slice n { tok := tok, age := 0, st := 2 } }).esHwm k)))) ∧
          (∀ n, tok.tag.prio ≠ 15 ∨ slot = none → way = some n →
            exec (.tagCheckRetry g t (f, errs)) s = .next (s.withDev (accepted ((d.setFu k (u.place st n tok)).esHwm k)))) ∧
          (∀ n e d2, tok.tag.prio ≠ 15 ∨ slot = none → way = none → u.victim st = some (n, e) → d.toSpill k e = .ok d2 →
            exec (.tagCheckRetry g t (f, errs)) s = .next (s.withDev (accepted ((d2.modFu k (fun u => u.place st n tok)).esHwm k)))))))

/-- R62, R63, R71 to R77, R79, R90. -/
def Obligations.ScrubAndRebuild : Prop :=
  (∀ (g : Fin 16) (t : Fin 17) (f : Fin 8) (s : State),
    let k := fuKey g t f
    let u := s.dev.fu k
    let d := s.dev.setFu k { u with scrub := (u.scrub + 1) % 2048 }
    exec (.esScrub g t f .ok) s = .next (s.withDev d) ∧
    exec (.esScrub g t f .ce) s = .next (s.withDev (d.addSat16 (fuRegK k 0x30) 1)) ∧
    (∀ tagOk, (d.fu k).slice.find? (fun c => c.1 == u.scrub) = none → exec (.esScrub g t f (.ue tagOk)) s = .next (s.withDev d)) ∧
    (∀ c, (d.fu k).slice.find? (fun c => c.1 == u.scrub) = some c →
      let x := ((d.modFu k (fun u => { u with slice := mdel u.slice c.1 })).setBit (esStatus k) 3 true).raiseTile (k / 8) 3 (k % 8)
      exec (.esScrub g t f (.ue false)) s = .next (s.withDev x) ∧
      exec (.esScrub g t f (.ue true)) s = .next (s.withDev (x.fuError k c.2.tok.tag (Token.replay c.2.tok) stES_UNCORRECTABLE c.2.tok.tag.node.toNat)))) ∧
  (∀ (g : Fin 16) (t : Fin 17) (f : Fin 8) (v : W32) (s : State), v.getLsbD 1 = true →
    exec (.rebuild g t f v) s = .next (s.withDev (s.dev.writes (fuReg g t f 0x14) (s.dev.modFu (fuKey g t f) (fun u => { u with rebuild := true }))))) ∧
  (∀ (g : Fin 16) (t : Fin 17) (f : Fin 8) (v : W32) (s : State), v.getLsbD 1 = false → exec (.rebuild g t f v) s = .next s) ∧
  (∀ (g : Fin 16) (t : Fin 17) (f : Fin 8) (s : State), (s.dev.fu (fuKey g t f)).rebuild = true →
    exec (.rebuildDone g t f) s = .next (s.withDev (s.dev.modFu (fuKey g t f) (fun u => { u with
      rebuild := false, filter := s.dev.rebuiltFilter (fuKey g t f) }))) ∧
    ((s.dev.fu (fuKey g t f)).bitmap = [] → (s.dev.fu (fuKey g t f)).spill = [] →
      exec (.rebuildDone g t f) s = .next (s.withDev (s.dev.modFu (fuKey g t f) (fun u => { u with rebuild := false, filter := [] }))))) ∧
  (∀ (g : Fin 16) (t : Fin 17) (f : Fin 8) (bad : List Nat) (s : State), (s.dev.fu (fuKey g t f)).rebuild = true →
    let k := fuKey g t f
    let occ := s.dev.occupied k bad
    let d := s.dev.modFu k (fun u => { u with bitmap := occ, rebuild := false })
    exec (.overflowRebuildDone g t (f, bad)) s = .next (s.withDev ((d.modFu k (fun u => { u with filter := d.rebuiltFilter k })).spilled k occ.length (s.dev.rfld (fuRegK k 0xC) 17 0)))) ∧
  (∀ (g : Fin 16) (t : Fin 17) (f : Fin 8) (bad : List Nat) (s : State), (s.dev.fu (fuKey g t f)).rebuild = false →
    exec (.rebuildDone g t f) s = .next s ∧ exec (.overflowRebuildDone g t (f, bad)) s = .next s) ∧
  (∀ (g : Fin 16) (t : Fin 17) (f : Fin 8) (s : State),
    (s.dev.fu (fuKey g t f)).spill.find? (fun e => !e.issued) = none ∨ s.dev.l1Credit (fuNode (fuKey g t f)) = false ∨ s.dev.respRoom (fuKey g t f) = false →
    exec (.spillWriteIssue g t f) s = .next s) ∧
  (∀ (g : Fin 16) (t : Fin 17) (f : Fin 8) (s : State) (e : SpillEnt),
    let k := fuKey g t f
    let u := s.dev.fu k
    u.spill.find? (fun e => !e.issued) = some e → s.dev.l1Credit (fuNode k) = true → s.dev.respRoom k = true →
    let d := (s.dev.setFu k { u with nextTag := u.nextTag + 1, spill := replaceFirst (fun x => !x.issued) (fun x => { x with issued := true, tag := u.nextTag % 4096 }) u.spill }).filterMove
      k (keyOf e.ent.tok.tag) true
    exec (.spillWriteIssue g t f) s = .next (s.withDev (d.request (fuNode k) (hbmDest (d.oflAddr k e.slot)) false
      { op := 6, size := 4, addr := BitVec.ofNat 48 (d.oflAddr k e.slot), req := fuDest k, rtag := BitVec.ofNat 12 (u.nextTag % 4096), prio := e.ent.tok.tag.prio
        ctx := e.ent.tok.tag.ctx, graph := e.ent.tok.tag.graph, data := entryBytes { e.ent with st := 1 } }))) ∧
  (∀ (g : Fin 16) (t : Fin 17) (f : Fin 8) (s : State) (r : MemResp) (d : Dev) (e : SpillEnt),
    let k := fuKey g t f
    s.dev.takeResp (fuNode k) (fun r => r.op == 6) = some (r, d) → (d.fu k).spill.find? (fun e => e.issued && e.tag == r.rtag.toNat) = some e →
    let x := ((d.setFu k { d.fu k with spill := removeFirst (· == e) (d.fu k).spill }).spilled k 1 0).forceSpills k 8
    exec (.spillWriteResponse g t f) s = .next (s.withDev ((if e.fired then x.deleteSlot k e.slot (keyOf e.ent.tok.tag) e.ent.tok.tag else x).sweepAcks k))) ∧
  (∀ (g : Fin 16) (t : Fin 17) (f : Fin 8) (errs : List (Fin 8 × Ecc)) (s : State) (r : MemResp) (d : Dev) (e : Fill),
    let k := fuKey g t f
    let u := d.fu k
    s.dev.takeResp (fuNode k) (fun r => r.op == 7) = some (r, d) → u.fills.find? (fun f => f.tag == r.rtag.toNat && !f.ret) = some e →
    let found := (((List.range 8).map (fun i => (i, entryOfBytes ((r.data.drop (32 * i)).take 32)))).filter (fun x => x.2.st == 1 && keyOf x.2.tok.tag == e.key)).take 2
    (∀ b bs, found = [] → e.buckets.tail = b :: bs → exec (.fillResponse g t (f, errs)) s = .next (s.withDev
      ((d.setFu k { u with fills := replaceFirst (· == e) (fun f => { f with buckets := b :: bs }) u.fills }).askBucket
        k e.key e.tag b (((u.fillW.find? (fun w => keyOf w.tok.tag == e.key)).map (·.tok.tag)).getD {})))) ∧
    (found = [] → e.buckets.tail = [] → exec (.fillResponse g t (f, errs)) s = .next (s.withDev
      ((((d.setFu k { u with fills := replaceFirst (· == e) (fun f => { f with ret := true }) u.fills }).fillStep k { e with ret := true }).oflSettle k).sweepAcks k))) ∧
    (found ≠ [] →
      let slots := found.map (fun x => e.buckets.headD 0 * 8 + x.1)
      let d := d.setFu k { u with fills := replaceFirst (· == e) (fun f => { f with ret := true }) u.fills, bitmap := u.bitmap.filter (fun s => !slots.contains s) }
      let d := found.foldl (fun d x => (d.filterMove k (keyOf x.2.tok.tag) false).spilled k 0 1) d
      let y := found.foldl (fun (p : Dev × List Token) x =>
        let z := p.1.fillEntry k x.2.tok ((((errs.map (fun c => (c.1.val, c.2))).find? (fun c => c.1 == x.1)).map (·.2)).getD .ok)
        (z.1, p.2 ++ z.2.toList)) (d, [])
      exec (.fillResponse g t (f, errs)) s = .next (s.withDev (((y.1.fillStep k { e with ret := true, ents := y.2 }).oflSettle k).sweepAcks k)))) ∧
  (∀ (g : Fin 16) (t : Fin 17) (f : Fin 8) (s : State) (r : MemResp) (d : Dev) (x : Nat × W64),
    let k := fuKey g t f
    s.dev.takeResp (fuNode k) (fun r => r.op == 8) = some (r, d) → (d.fu k).dels.find? (fun x => x.1 % 4096 == r.rtag.toNat) = some x →
    exec (.overflowDeleteDone g t f) s = .next (s.withDev ((((d.setFu k { d.fu k with
      dels := removeFirst (· == x) (d.fu k).dels, bitmap := (d.fu k).bitmap.filter (· != x.1) }).filterMove k x.2 false).spilled k 0 1).sweepAcks k))) ∧
  (∀ (g : Fin 16) (t : Fin 17) (f : Fin 8) (errs : List (Fin 8 × Ecc)) (s : State), (∀ op, s.dev.takeResp (fuNode (fuKey g t f)) (fun r => r.op == op) = none) →
    exec (.spillWriteResponse g t f) s = .next s ∧ exec (.fillResponse g t (f, errs)) s = .next s ∧ exec (.overflowDeleteDone g t f) s = .next s)

/-- Contexts (R86, R88 to R90, R100, R109). -/
def Obligations.ContextsFaultAndSweep : Prop :=
  (∀ (g : Fin 16) (s : State), (s.dev.region g).pool.wait ≠ [] → (s.dev.region g).pool.starved = false →
    exec (.ctxStarveTimeout g) s = .next (s.withDev (((s.dev.modPool g (fun p => { p with starved := true })).setBit (ctxReg g 0x10) 0 true).raise (256 + 4 * g) 1 0))) ∧
  (∀ (g : Fin 16) (s : State), (s.dev.region g).pool.wait = [] ∨ (s.dev.region g).pool.starved = true → exec (.ctxStarveTimeout g) s = .next s) ∧
  (∀ (g : Fin 16) (s : State) (c : BitVec 22) (d : Dev), s.dev.takeMgmt (poolNode g) isFaultMsg = some (.fault c, d) →
    (cdState (d.ctxDesc c) = 1 ∨ cdState (d.ctxDesc c) = 3 →
      exec (.faultMessage g) s = .next (s.withDev ((d.setCtxDesc c (d.ctxDesc c ||| BitVec.ofNat 64 (2 ^ 55))).noteFault c none))) ∧
    (cdState (d.ctxDesc c) = 0 ∨ cdState (d.ctxDesc c) = 2 → exec (.faultMessage g) s = .next (s.withDev d))) ∧
  (∀ (g : Fin 16) (s : State) (c : BitVec 22) (x : BitVec 5) (d : Dev), s.dev.takeMgmt (poolNode g) isFlagsMsg = some (.flags c x, d) →
    exec (.flagUpdate g) s = .next (s.withDev (d.setCtxDesc c (d.ctxDesc c ||| BitVec.ofNat 64 (x.toNat * 2 ^ 56))))) ∧
  (∀ (g : Fin 16) (s : State), s.dev.takeMgmt (poolNode g) isFaultMsg = none → exec (.faultMessage g) s = .next s) ∧
  (∀ (g : Fin 16) (s : State), s.dev.takeMgmt (poolNode g) isFlagsMsg = none → exec (.flagUpdate g) s = .next s) ∧
  (∀ (g : Fin 16) (t : Fin 17) (f : Fin 8) (c : BitVec 22) (s : State), s.dev.takeMgmt (fuNode (fuKey g t f)) (isSweep c) = none →
    exec (.sweepReceive g t f c) s = .next s) ∧
  (∀ (g : Fin 16) (t : Fin 17) (f : Fin 8) (s : State),
    let k := fuKey g t f
    let u := s.dev.fu k
    (∀ x, u.sweeps.find? (fun x => !x.ofl) = some x →
      let slots := u.bitmap.filter (fun n => !u.spill.any (fun e => e.slot == n) && !u.dels.any (fun x => x.1 == n))
      let ent := fun (d : Dev) (n : Nat) => entryOfBytes (d.read (d.oflAddr k n) 32)
      let d := slots.foldl (fun (d : Dev) n => if (ent d n).st == 1 && (ent d n).tok.tag.ctx == x.ctx then d.deleteSlot k n (keyOf (ent d n).tok.tag) (ent d n).tok.tag else d)
        (s.dev.setFu k { u with sweeps := replaceFirst (fun x => !x.ofl) (fun x => { x with ofl := true }) u.sweeps })
      exec (.sweepOverflowDone g t f) s = .next (s.withDev (d.sweepAck k x.ctx))) ∧
    (u.sweeps.find? (fun x => !x.ofl) = none → exec (.sweepOverflowDone g t f) s = .next s)) ∧
  (∀ (g : Fin 16) (c : BitVec 18) (s : State) (x : Sweep),
    (s.dev.region g).pool.sweeps.find? (fun x => x.ctx == BitVec.ofNat 22 (g * 2 ^ 18 + c.toNat)) = some x → x.guard = false →
    (s.dev.sweepers.all (fun n => x.acked.contains n) = true → exec (.sweepAckComplete g c) s = .next (s.withDev (s.dev.modPool g (fun p => { p with
      sweeps := replaceFirst (fun x => x.ctx == BitVec.ofNat 22 (g * 2 ^ 18 + c.toNat)) (fun x => { x with guard := true }) p.sweeps })))) ∧
    (s.dev.sweepers.all (fun n => x.acked.contains n) = false → exec (.sweepAckComplete g c) s = .next s) ∧
    exec (.sweepGuardExpiry g c) s = .next s) ∧
  (∀ (g : Fin 16) (c : BitVec 18) (s : State) (x : Sweep),
    let ctx := BitVec.ofNat 22 (g * 2 ^ 18 + c.toNat)
    (s.dev.region g).pool.sweeps.find? (fun x => x.ctx == ctx) = some x → x.guard = true →
    (s.dev.fus.all (fun u => u.2.tombs.all (fun x => x.1 != ctx)) = true →
      exec (.sweepGuardExpiry g c) s = .next (s.withDev ((s.dev.modPool g (fun p => { p with sweeps := removeFirst (fun x => x.ctx == ctx) p.sweeps })).returnCtx ctx))) ∧
    (s.dev.fus.all (fun u => u.2.tombs.all (fun x => x.1 != ctx)) = false → exec (.sweepGuardExpiry g c) s = .next s)) ∧
  (∀ (g : Fin 16) (t : Fin 17) (f : Fin 8) (c : BitVec 22) (s : State),
    let k := fuKey g t f
    let u := s.dev.fu k
    (u.tombs.find? (fun x => x.1 == c) = none → exec (.tombstoneLapse g t (f, c)) s = .next s) ∧
    (∀ x, u.tombs.find? (fun x => x.1 == c) = some x → (u.tombs.takeWhile (fun y => y != x)).any (fun y => y.2 ≤ x.2) = false →
      (u.sweeps.find? (fun x => !x.tomb) = none → exec (.tombstoneLapse g t (f, c)) s = .next (s.withDev (s.dev.setFu k { u with tombs := removeFirst (· == x) u.tombs }))) ∧
      (∀ y, u.sweeps.find? (fun x => !x.tomb) = some y → exec (.tombstoneLapse g t (f, c)) s = .next (s.withDev ((s.dev.setFu k { u with
        tombs := removeFirst (· == x) u.tombs ++ [(y.ctx, y.guard)], sweeps := replaceFirst (fun x => !x.tomb) (fun x => { x with tomb := true }) u.sweeps }).sweepAck k y.ctx)))))

/-- R77, R88, R89, R195. -/
def Obligations.SweepRemovesTheContext : Prop :=
  ∀ (g : Fin 16) (t : Fin 17) (f : Fin 8) (c : BitVec 22) (s : State) (x : BitVec 32) (n : Nat) (d0 : Dev),
    let k := fuKey g t f
    mwf {} s.dev.fus = true → mwf {} s.dev.tiles = true → mwf {} s.dev.regions = true →
    s.dev.takeMgmt (fuNode k) (isSweep c) = some (.sweep c x n, d0) →
    ∃ d, exec (.sweepReceive g t f c) s = .next (s.withDev d) ∧
      (∀ e ∈ (d.fu k).slice, e.2.tok.tag.ctx ≠ c) ∧ (∀ w ∈ (d.fu k).fillW, w.tok.tag.ctx ≠ c) ∧ (∀ h, (d.fu k).held = some h ∨ (d.fu k).heldM = some h → h.tag.ctx ≠ c) ∧
      (∀ i ∈ (d.fu k).issue, i.fu = k → Firing.ctx i.fir ≠ c) ∧ (∀ e ∈ (d.fu k).spill, e.ent.tok.tag.ctx = c → e.issued = true ∧ e.fired = true) ∧
      ((s.dev.fu k).tombs.length < 32 → (c, x.toNat) ∈ (d.fu k).tombs) ∧ (∃ y ∈ (d.fu k).sweeps, y.ctx = c ∧ y.ofl = false)

/-- Marks and configuration of a region (R77, R81, R91, R92, R201, R241, R242, R328). -/
def Obligations.HighWaterAndConfiguration : Prop :=
  (∀ (g : Fin 16) (t : Fin 17) (f : Fin 8) (v : W32) (s : State), v.getLsbD 0 = true →
    let k := fuKey g t f
    let d := (s.dev.setFld (fuRegK k 4) 11 0 (s.dev.fu k).slice.length).setFld (fuRegK k 8) 14 8 ((s.dev.fu k).slice.filter (fun c => c.2.st == 2)).length
    exec (.esHwmClr g t f v) s = .next (s.withDev (s.dev.writes (fuReg g t f 0x14) (d.setFld (fuRegK k 0x10) 17 0 (d.rfld (fuRegK k 0xC) 17 0))))) ∧
  (∀ (g : Fin 16) (v : W32) (s : State), v.getLsbD 0 = true →
    exec (.oflHwmClr g v) s = .next (s.withDev (s.dev.writes (ctxReg g 0x118) (s.dev.setFld (ctxReg g 0x110) 24 0 (s.dev.rfld (ctxReg g 0x10C) 24 0)))) ∧
    exec (.ctxLowClr g v) s = .next (s.withDev (s.dev.writes (ctxReg g 0xC) (s.dev.setFld (ctxReg g 4) 18 0 (Pool.freeCount (s.dev.region g).pool)))) ∧
    exec (.pacHwmClr g v) s = .next (s.withDev (s.dev.writes (pacReg g 0xC) (s.dev.setFld (pacReg g 8) 16 0 (s.dev.region g).pacer.length))) ∧
    exec (.holdHwmClr g v) s = .next (s.withDev (s.dev.writes (gwReg g 0x14) (s.dev.setFld (gwReg g 0x10) 18 0 (s.dev.holdUsed g)))) ∧
    exec (.lckHwmClr g v) s = .next (s.withDev (s.dev.writes (lckReg g 0x14) (s.dev.setFld (lckReg g 0xC) 12 0 (s.dev.lck g).leases.length)))) ∧
  (∀ (g : Fin 16) (t : Fin 17) (f : Fin 8) (v : W32) (s : State), v.getLsbD 0 = false →
    exec (.esHwmClr g t f v) s = .next s ∧ exec (.oflHwmClr g v) s = .next s ∧ exec (.ctxLowClr g v) s = .next s ∧ exec (.pacHwmClr g v) s = .next s ∧
    exec (.holdHwmClr g v) s = .next s ∧ exec (.lckHwmClr g v) s = .next s) ∧
  (∀ (g : Fin 16) (t : Fin 17) (f : Fin 8) (v : W32) (s : State),
    ((s.dev.fu (fuKey g t f)).slice = [] → s.dev.rfld (fuRegK (fuKey g t f) 0xC) 17 0 = 0 →
      exec (.hashSaltWrite g t f v) s = .next (s.withDev (s.dev.writes (fuReg g t f 0x1C) (s.dev.setFld (fuRegK (fuKey g t f) 0x1C) 15 0 (fld v 15 0))))) ∧
    ((s.dev.fu (fuKey g t f)).slice ≠ [] ∨ s.dev.rfld (fuRegK (fuKey g t f) 0xC) 17 0 ≠ 0 → exec (.hashSaltWrite g t f v) s = .next s)) ∧
  (∀ (g : Fin 16) (v : W32) (s : State), exec (.oflConfigWrite g 0 v) s = .next (s.withDev (s.dev.writes (ctxReg g 0x100) (s.dev.holdLo (ctxReg g 0x100) v)))) ∧
  (∀ (g : Fin 16) (v : W32) (s : State), s.dev.regionOpen g = false → s.dev.noneSpilled g = true →
    exec (.oflConfigWrite g 4 v) s = .next (s.withDev (s.dev.writes (ctxReg g 0x104) (s.dev.pairWrite (ctxReg g 0x100) v))) ∧
    exec (.oflConfigWrite g 8 v) s = .next (s.withDev (s.dev.writes (ctxReg g 0x108) (s.dev.setFld (ctxReg g 0x108) 2 0 (fld v 2 0))))) ∧
  (∀ (g : Fin 16) (v : W32) (s : State), s.dev.regionOpen g = true ∨ s.dev.noneSpilled g = false →
    exec (.oflConfigWrite g 4 v) s = .next (s.withDev (s.dev.writes (ctxReg g 0x104) { s.dev with loHeld := mdel s.dev.loHeld (ctxReg g 0x100) })) ∧
    exec (.oflConfigWrite g 8 v) s = .next s)

/-- R103, R104. -/
def Obligations.NodeMemoryWrites : Prop :=
  (∀ (c : BitVec 8) (slot : BitVec 15) (w : Fin 4) (v : W32) (s : State), w.val < 3 →
    exec (.nodeSlotWrite c slot w v) s = .next (s.withDev (s.dev.modTile (s.dev.tileOfCluster c.toNat) (fun t => { t with held := mput t.held (slot.toNat * 4 + w) v })))) ∧
  (∀ (c : BitVec 8) (slot : BitVec 15) (v a0 a1 a2 : W32) (s : State), Memory.wf s.dev.mem = true → mwf {} s.dev.tiles = true →
    let k := s.dev.tileOfCluster c.toNat
    let held := fun (j : Nat) => ((s.dev.tile k).held.find? (fun x => x.1 == slot.toNat * 4 + j)).map (·.2)
    held 0 = some a0 → held 1 = some a1 → held 2 = some a2 →
    ∃ d, exec (.nodeSlotWrite c slot 3 v) s = .next (s.withDev d) ∧
      d.read (slotAddr c.toNat slot.toNat) 16 = leBytes 4 a0.toNat ++ leBytes 4 a1.toNat ++ leBytes 4 a2.toNat ++ leBytes 4 v.toNat ∧
      (∀ a, a < slotAddr c.toNat slot.toNat ∨ slotAddr c.toNat slot.toNat + 16 ≤ a → d.byte a = s.dev.byte a) ∧
      Memory.wf d.mem = true ∧ (∀ x ∈ (d.tile k).held, x.1 / 4 ≠ slot.toNat) ∧
      d = { s.dev with mem := d.mem, tiles := d.tiles }) ∧
  (∀ (g : Fin 16) (t : Fin 17) (v : W32) (s : State),
    exec (.maskDataWrite g t v) s = .next (s.withDev (s.dev.writes (nodeReg g t 0x10) (s.dev.modTile (tileKey g t) (fun x => { x with
      masks := mset 0 x.masks (s.dev.rfld (nodeReg g t 0xC) 14 0) (fld v 4 0) })))))

/-- R144 to R147: the results and flags of integer operations, against words of 64 and 32 bits. -/
def Obligations.IntegerResultsAreExact : Prop :=
  ∀ c ∈ intCommands, ∀ (g : Fin 16) (t : Fin 17) (f : Fin 8) (s : State) (fr : Firing) (desc : BitVec 128) (ext : List (BitVec 128)),
    s.dev.firesAt (fuKey g t f) c.1 fr desc ext → cleanFiring fr desc →
    ∃ lat occ : Nat, 1 ≤ lat ∧ 1 ≤ occ ∧
      exec (c.2 g t f) s = .next (s.withDev (s.dev.finish (fuKey g t f) lat occ
        { toks := s.dev.outAll fr desc (intSpec c.1 (dType desc) (operand fr desc 0) (operand fr desc 1)).1.toNat
            (if 0x020 ≤ c.1 then 0 else ptypeOf (dType desc)) false
          flags := keptFlags desc (intSpec c.1 (dType desc) (operand fr desc 0) (operand fr desc 1)).2 }))

/-- R157, R159: floating point; the lanes are Machine/Float.lean's. -/
def Obligations.FloatingPointHandsOn : Prop :=
  (∀ c ∈ fpCommands, ∀ (g : Fin 16) (t : Fin 17) (f : Fin 8) (s : State) (fr : Firing) (desc : BitVec 128) (ext : List (BitVec 128)),
    s.dev.firesAt (fuKey g t f) c.1 fr desc ext → cleanFiring fr desc →
    let r := fpRes c.1 (dType desc) (dRm desc) (dCt desc) (dNcan desc) (dImm desc).toNat (operand fr desc 0) (operand fr desc 1) (operand fr desc 2)
    exec (c.2 g t f) s = .next (s.withDev (s.dev.finish (fuKey g t f) r.lat r.occ
      { toks := s.dev.outAll fr desc r.pay r.ptype false, flags := keptFlags desc r.fl })) ∧
    ((0x110 ≤ c.1 ∧ c.1 ≤ 0x113) ∨ c.1 = 0x11C → r.ptype = 0)) ∧
  (∀ (g : Fin 16) (t : Fin 17) (f : Fin 8) (s : State) (fr : Firing) (desc : BitVec 128) (ext : List (BitVec 128)),
    s.dev.firesAt (fuKey g t f) 0x106 fr desc ext → cleanFiring fr desc → dType desc = 4 →
    exec (.fneg g t f) s = .next (s.withDev (s.dev.finish (fuKey g t f) 1 1
      { toks := s.dev.outAll fr desc (BitVec.ofNat 64 (operand fr desc 0) ^^^ (0x8000000000000000 : W64)).toNat 2 false }))) ∧
  (∀ (g : Fin 16) (t : Fin 17) (f : Fin 8) (s : State) (fr : Firing) (desc : BitVec 128) (ext : List (BitVec 128)),
    s.dev.firesAt (fuKey g t f) 0x107 fr desc ext → cleanFiring fr desc → dType desc = 4 →
    exec (.fabs g t f) s = .next (s.withDev (s.dev.finish (fuKey g t f) 1 1
      { toks := s.dev.outAll fr desc (BitVec.ofNat 64 (operand fr desc 0) &&& (0x7FFFFFFFFFFFFFFF : W64)).toNat 2 false })))

/-- R140. -/
def Obligations.ArithmeticDependsOnOperandsOnly : Prop :=
  ∀ c ∈ intCommands ++ fpCommands, ∀ (g g' : Fin 16) (t t' : Fin 17) (f f' : Fin 8) (s s' : State) (fr fr' : Firing) (desc desc' : BitVec 128)
    (ext ext' : List (BitVec 128)),
    s.dev.firesAt (fuKey g t f) c.1 fr desc ext → cleanFiring fr desc → s'.dev.firesAt (fuKey g' t' f') c.1 fr' desc' ext' → cleanFiring fr' desc' →
    dType desc = dType desc' → dRm desc = dRm desc' → dNcan desc = dNcan desc' → ((opParam c.1 (dImm desc).toNat).isSome = true → dImm desc = dImm desc') →
    (∀ p, p < 3 → operand fr desc p = operand fr' desc' p) →
    ∃ (pay pt l o l' o' : Nat) (fl : BitVec 5),
      exec (c.2 g t f) s = .next (s.withDev (s.dev.finish (fuKey g t f) l o { toks := s.dev.outAll fr desc pay pt false, flags := keptFlags desc fl })) ∧
      exec (c.2 g' t' f') s' = .next (s'.withDev (s'.dev.finish (fuKey g' t' f') l' o' { toks := s'.dev.outAll fr' desc' pay pt false, flags := keptFlags desc' fl }))

/-- R107, R108, R110, R133 for arithmetic firings. -/
def Obligations.ErrorTokensPassThroughArithmetic : Prop :=
  ∀ c ∈ intCommands ++ fpCommands, ∀ (g : Fin 16) (t : Fin 17) (f : Fin 8) (s : State),
    let k := fuKey g t f
    (∀ (fr : Firing) (desc : BitVec 128) (ext : List (BitVec 128)) (p : Nat) (e : Token), s.dev.firesAt k c.1 fr desc ext → fr.errTok = some (p, e) →
      exec (c.2 g t f) s = .next (s.withDev (s.dev.finish k 1 1 { toks := s.dev.outAll fr desc e.pay.toNat 6 true }))) ∧
    (∀ (fr : Firing) (desc : BitVec 128) (ext : List (BitVec 128)) (p q : Nat), s.dev.firesAt k c.1 fr desc ext → fr.errTok = none → mismatch fr desc = some (p, q) →
      exec (c.2 g t f) s = .next (s.withDev (s.dev.finish k 1 1 { toks := [s.dev.errOf k fr stTYPE_MISMATCH (p + q * 8)], fault := true }))) ∧
    ((∀ x desc, (s.dev.fu k).fetch = some x → x.desc = some desc → dOpc desc ≠ c.1) → exec (c.2 g t f) s = .next s) ∧
    (∀ x desc, (s.dev.fu k).fetch = some x → x.desc = some desc → dOpc desc = c.1 →
      descOk desc x.ext (maskPorts (s.dev.maskOf (k / 8) x.fir.slot.toNat) ((x.fir.toks.headD (0, {})).1)) = false →
      exec (c.2 g t f) s = .next (s.withDev ((s.dev.setBit (nodeReg g t 4) 2 true).finish k 1 1
        { toks := [s.dev.errOf k x.fir stBAD_NODE x.fir.slot.toNat], fault := true })))

/-- R54 for the tokens that operations hand on. -/
def Obligations.OutputTokensAreFormed : Prop :=
  ∀ (d : Dev) (f : Firing) (desc : BitVec 128) (dst : DstF) (pay pt : Nat) (err : Bool), f.toks ≠ [] → pt < 16 → dItop desc ≤ 2 →
    let o := d.outTok f desc dst pay pt err
    let lead := (Firing.lead f).tag
    Tag.crcOk o.tag = true ∧ o.tag.dev = d.devNo ∧ o.tag.die = dst.die ∧ o.tag.rgn = dst.rgn ∧ o.tag.clu = dst.clu ∧ o.tag.fu = dst.fu ∧
    o.tag.node = dst.slot ∧ o.tag.port = dst.port ∧ o.tag.graph = lead.graph ∧ o.tag.ctx = lead.ctx ∧ o.tag.flow = lead.flow ∧
    o.tag.cls = (if lead.graph = 0 then lead.cls else 0) ∧
    o.tag.iter = (if dItop desc = 0 then lead.iter else if dItop desc = 1 then lead.iter + 1 else 0) ∧
    (∀ p ∈ f.toks, p.2.tag.prio.toNat ≤ o.tag.prio.toNat) ∧ (∃ p ∈ f.toks, p.2.tag.prio = o.tag.prio) ∧ (∃ p ∈ f.toks, p.2.tag.epoch = o.tag.epoch) ∧
    Token.ptype o = pt ∧ Token.err o = err ∧ Token.replay o = f.toks.any (fun p => Token.replay p.2) ∧ o.pay = BitVec.ofNat 64 pay

/-- R166. -/
def Obligations.ExecuteStageKeepsOrder : Prop :=
  (∀ c ∈ intCommands ++ fpCommands, ∀ (g : Fin 16) (t : Fin 17) (f : Fin 8) (s : State) (fr : Firing) (desc : BitVec 128) (ext : List (BitVec 128)) (x : Fetched),
    let k := fuKey g t f
    let u := s.dev.fu k
    mwf {} s.dev.fus = true → s.dev.firesAt k c.1 fr desc ext → cleanFiring fr desc → u.fetch = some x →
    ∃ (d : Dev) (r : Result) (lat occ : Nat), exec (c.2 g t f) s = .next (s.withDev d) ∧ (d.fu k).results = u.results ++ [r] ∧ (d.fu k).fetch = none ∧
      r.start = max x.cycle (u.prevStart + u.prevOcc) ∧ r.done = max (r.start + lat) (u.prevDone + 1) ∧
      (d.fu k).prevStart = r.start ∧ (d.fu k).prevOcc = occ ∧ (d.fu k).prevDone = r.done ∧ (∀ j, j ≠ k → d.fu j = s.dev.fu j) ∧
      (c.1 < 0x100 → c.1 ≠ 0x00A → c.1 ≠ 0x00B → lat = 1 ∧ occ = 1)) ∧
  (∀ (g : Fin 16) (t : Fin 17) (f : Fin 8) (s : State) (r : Result) (rs : List Result),
    let k := fuKey g t f
    let x := s.dev.setFu k { s.dev.fu k with results := rs }
    (s.dev.fu k).results = r :: rs →
    (s.dev.sendTakes k r = true →
      (r.flags = 0 → r.fault = false → r.delay = none → exec (.executeComplete g t f) s = .next (s.withDev ((x.sendResult k r.flow r.ends r.relay r.toks).progress g))) ∧
      (∀ n, r.flags = 0 → r.fault = false → r.delay = some n →
        exec (.executeComplete g t f) s = .next (s.withDev (((x.paced k n r).sendResult k r.flow r.ends r.relay []).progress g))) ∧
      (r.flags ≠ 0 → r.fault = false → r.delay = none → exec (.executeComplete g t f) s = .next (s.withDev (((x.sendResult k r.flow r.ends r.relay r.toks).sendMgmt (fuNode k)
        (poolDest (r.ctx.toNat / 2 ^ 18)) (.flags r.ctx r.flags)).progress g))) ∧
      (r.flags = 0 → r.fault = true → r.delay = none →
        exec (.executeComplete g t f) s = .next (s.withDev (((x.sendResult k r.flow r.ends r.relay r.toks).faultCtx (fuNode k) r.ctx).progress g)))) ∧
    (s.dev.sendTakes k r = false → exec (.executeComplete g t f) s = .next s)) ∧
  (∀ (g : Fin 16) (t : Fin 17) (f : Fin 8) (s : State), (s.dev.fu (fuKey g t f)).results = [] → exec (.executeComplete g t f) s = .next s)

/-- R103, R133, R170. -/
def Obligations.DispatchAndUndefinedFirings : Prop :=
  (∀ (g : Fin 16) (t : Fin 17) (f : Fin 8) (w : Fin 4) (cy : Nat) (s : State) (it : Item),
    let k := fuKey g t f
    let u := s.dev.fu k
    let desc := s.dev.descAt (k / 8) it.fir.slot.toNat
    u.fetch = none → topItem u.issue = some it → dOpc desc ≠ 0x203 →
    let left := removeFirst (· == it) u.issue
    exec (.firingDispatch g t f .ok w cy) s = .next (s.withDev ((s.dev.setFu k { u with
      issue := left, fetch := some { fir := it.fir, desc := some desc, ue := BitVec.ofNat 15 (it.fir.slot.toNat + w), cycle := cy } }).grantMove k)) ∧
    (∀ b, exec (.firingDispatch g t f (.ue b) 0 cy) s = .next (s.withDev ((s.dev.setFu k { u with
      issue := left, fetch := some { fir := it.fir, desc := none, ue := it.fir.slot, cycle := cy } }).grantMove k)))) ∧
  (∀ (g : Fin 16) (t : Fin 17) (f : Fin 8) (e : Ecc) (w : Fin 4) (cy : Nat) (s : State),
    (s.dev.fu (fuKey g t f)).fetch.isSome = true ∨ topItem (s.dev.fu (fuKey g t f)).issue = none → exec (.firingDispatch g t f e w cy) s = .next s) ∧
  (∀ (g : Fin 16) (t : Fin 17) (f : Fin 8) (s : State) (x : Fetched) (desc : BitVec 128),
    let k := fuKey g t f
    (s.dev.fu k).fetch = some x → x.desc = some desc → opDefined (dOpc desc) = false → dOpc desc ≠ 0x27F →
    exec (.undefinedOpcode g t f) s = .next (s.withDev ((s.dev.setBit (nodeReg g t 4) 1 true).finish k 1 1
      { toks := [s.dev.errOf k x.fir stUNDEFINED_OPCODE (x.fir.slot.toNat + dOpc desc * 32768)], fault := true }))) ∧
  (∀ (g : Fin 16) (t : Fin 17) (f : Fin 8) (s : State) (x : Fetched), (s.dev.fu (fuKey g t f)).fetch = some x → x.desc = none →
    let d := ((s.dev.setBit (nodeReg g t 4) 0 true).setReg (nodeReg g t 8) (x.ue.zeroExtend 32)).raiseTile (tileKey g t) 3 0
    exec (.undefinedOpcode g t f) s = .next (s.withDev (d.finish (fuKey g t f) 1 1 { toks := [d.errOf (fuKey g t f) x.fir stNODE_UE x.ue.toNat], fault := true }))) ∧
  (∀ (g : Fin 16) (t : Fin 17) (f : Fin 8) (s : State) (o : Nat) (fr : Firing) (desc : BitVec 128) (ext : List (BitVec 128)),
    s.dev.firesAt (fuKey g t f) o fr desc ext → opDefined o = true → exec (.undefinedOpcode g t f) s = .next s)

/-- R107, R110, R115, R116. -/
def Obligations.SteeringPassesTokens : Prop :=
  (∀ (g : Fin 16) (t : Fin 17) (f : Fin 8) (s : State) (fr : Firing) (desc : BitVec 128) (ext : List (BitVec 128)),
    let k := fuKey g t f
    let passed := fun (ds : List DstF) (x : Token) => Host.Outcome.next (s.withDev (s.dev.finish k 1 1 { toks := ds.map (fun y => s.dev.passTok fr desc y x) }))
    let errors := fun (ds : List DstF) (e : Token) => Host.Outcome.next (s.withDev (s.dev.finish k 1 1 { toks := ds.map (fun y => s.dev.outTok fr desc y e.pay.toNat 6 true) }))
    let refused := fun (p q : Nat) => Host.Outcome.next (s.withDev (s.dev.finish k 1 1 { toks := [s.dev.errOf k fr stTYPE_MISMATCH (p + q * 8)], fault := true }))
    (s.dev.firesAt k 0x200 fr desc ext → ∀ x c, fr.port 0 = some x → fr.port 2 = some c →
      (Token.err c = false → mismatch fr desc = none → exec (.switch g t f) s = passed [if c.pay = 0 then dDst1 desc else dDst0 desc] x) ∧
      (Token.err c = false → ∀ p q, mismatch fr desc = some (p, q) → exec (.switch g t f) s = refused p q) ∧
      (Token.err c = true → exec (.switch g t f) s = .next (s.withDev (s.dev.finish k 1 1
        { toks := [s.dev.errToken (k / 136) (s.dev.baseTag fr) (if Token.err x then x.pay else c.pay) (Firing.replay fr)], fault := true })))) ∧
    (s.dev.firesAt k 0x201 fr desc ext →
      (∀ x, cleanFiring fr desc → fr.port 0 = some x → exec (.merge g t f) s = passed (dstsOf desc) x) ∧
      (∀ p e, fr.errTok = some (p, e) → exec (.merge g t f) s = errors (dstsOf desc) e)) ∧
    (s.dev.firesAt k 0x202 fr desc ext →
      (∀ x, cleanFiring fr desc → fr.port 0 = some x → exec (.gate g t f) s = passed (dstsOf desc) x) ∧
      (∀ p e, fr.errTok = some (p, e) → exec (.gate g t f) s = errors (dstsOf desc) e)) ∧
    (s.dev.firesAt k 0x204 fr desc ext →
      (∀ x y c, cleanFiring fr desc → fr.port 0 = some x → fr.port 1 = some y → fr.port 2 = some c →
        exec (.select g t f) s = passed (dstsOf desc) (if c.pay = 0 then y else x)) ∧
      (∀ p e, fr.errTok = some (p, e) → exec (.select g t f) s = errors (dstsOf desc) e) ∧
      (∀ p q, fr.errTok = none → mismatch fr desc = some (p, q) → exec (.select g t f) s = refused p q)) ∧
    (s.dev.firesAt k 0x203 fr desc ext →
      (∀ x, cleanFiring fr desc → fr.port 0 = some x → exec (.fanout g t f) s = passed (dstsOf desc ++ ext.flatMap dstsOf) x) ∧
      (∀ p e, fr.errTok = some (p, e) → exec (.fanout g t f) s = errors (dstsOf desc ++ ext.flatMap dstsOf) e))) ∧
  (∀ (d : Dev) (fr : Firing) (desc : BitVec 128) (y : DstF) (x : Token),
    let o := d.passTok fr desc y x
    o.pay = x.pay ∧ Token.ptype o = Token.ptype x ∧ Token.err o = Token.err x ∧ o.tag.node = y.slot ∧ o.tag.port = y.port ∧ Tag.crcOk o.tag = true)

/-- R110, R129, R130. -/
def Obligations.LoopNodesCarryPermits : Prop :=
  ∀ (g : Fin 16) (t : Fin 17) (f : Fin 8) (s : State) (fr : Firing) (desc : BitVec 128) (ext : List (BitVec 128)),
    let k := fuKey g t f
    let d := s.dev
    let i := (Firing.lead fr).tag.iter
    let occ := fun (ts : List Token) => 1 + (cdiv ts.length 2 - 1)
    let signal := fun (dst : DstF) (iter : BitVec 8) => d.loopTok fr dst iter 0 7 false
    (d.firesAt k 0x210 fr desc ext → cleanFiring fr desc →
      let v := Firing.lead fr
      let ts := d.loopTok fr (dDst0 desc) 0 v.pay (Token.ptype v) false ::
        ((List.range (loopK desc - 1)).map (fun j => signal (dDst1 desc) (BitVec.ofNat 8 j)) ++ [signal (selfDst fr (loopSlot desc) 2) 0])
      exec (.loopent g t f) s = .next (s.withDev (d.finish k 1 (occ ts) { toks := ts }))) ∧
    (∀ v, d.firesAt k 0x211 fr desc ext → cleanFiring fr desc → fr.port 1 = some v →
      (¬ (Token.ptype v = 6 ∧ statusCode v.pay = stLOOP_DRAIN) →
        exec (.loopnext g t f) s = .next (s.withDev (d.finish k 1 1 { toks := d.loopTok fr (dDst0 desc) (i + 1) v.pay (Token.ptype v) false ::
          (if dNdst desc = 2 then [signal (dDst1 desc) i] else []) }))) ∧
      (Token.ptype v = 6 ∧ statusCode v.pay = stLOOP_DRAIN → 1 < statusDetail v.pay % 256 →
        exec (.loopnext g t f) s = .next (s.withDev (d.finish k 1 1 { toks := [d.loopTok fr (selfDst fr fr.slot 1) (i + 1)
          (status stLOOP_DRAIN (d.originOf k) (statusDetail v.pay % 256 - 1)) 6 false] }))) ∧
      (Token.ptype v = 6 ∧ statusCode v.pay = stLOOP_DRAIN → statusDetail v.pay % 256 ≤ 1 →
        exec (.loopnext g t f) s = .next (s.withDev (d.finish k 1 1 { toks := [signal (selfDst fr (loopSlot desc) 2) (i - BitVec.ofNat 8 (loopK desc - 1))] })))) ∧
    (∀ v, d.firesAt k 0x212 fr desc ext → cleanFiring fr desc → fr.port 0 = some v →
      exec (.loopret g t f) s = .next (s.withDev (d.finish k 1 1 { toks :=
        if v.pay = 0 then [signal (dDst0 desc) (i + BitVec.ofNat 8 (loopK desc - 1)),
          d.loopTok fr { dDst0 desc with port := 1 } i (status stLOOP_DRAIN (d.originOf k) (loopK desc)) 6 false]
        else [signal (selfDst fr fr.slot 2) (i + 1), signal (dDst0 desc) (i + BitVec.ofNat 8 (loopK desc - 1))] }))) ∧
    (∀ v, d.firesAt k 0x213 fr desc ext → cleanFiring fr desc → fr.port 0 = some v →
      exec (.loopexit g t f) s = .next (s.withDev (d.finish k 1 1 { toks := d.loopTok fr (dDst0 desc) 0 v.pay (Token.ptype v) false ::
        (if dNdst desc = 2 then [signal (dDst1 desc) i] else []) }))) ∧
    (∀ p e, fr.errTok = some (p, e) →
      let r : Result := { toks := [d.errToken (k / 136) (d.baseTag fr) e.pay (Firing.replay fr)], fault := true }
      (d.firesAt k 0x210 fr desc ext → exec (.loopent g t f) s = .next (s.withDev (d.finish k 1 1 r))) ∧
      (d.firesAt k 0x211 fr desc ext → exec (.loopnext g t f) s = .next (s.withDev (d.finish k 1 1 r))) ∧
      (d.firesAt k 0x212 fr desc ext → exec (.loopret g t f) s = .next (s.withDev (d.finish k 1 1 r))) ∧
      (d.firesAt k 0x213 fr desc ext → exec (.loopexit g t f) s = .next (s.withDev (d.finish k 1 1 r))))

/-- R117, R118, R280. -/
def Obligations.MemoryNodesIssueOneAccess : Prop :=
  ∀ c ∈ memoryCommands, ∀ (g : Fin 16) (t : Fin 17) (f : Fin 8) (s : State) (fr : Firing) (desc : BitVec 128) (ext : List (BitVec 128)),
    let k := fuKey g t f
    let d := s.dev
    let a := (((operand fr desc 0 : Int) + (dImm desc).toInt) % 2 ^ 64).toNat
    let w := memWidth (dType desc)
    let b := d.baseTag fr
    d.firesAt k c.1.1 fr desc ext → cleanFiring fr desc →
    (d.accessError b.graph.toNat a w (c.1.2 != 1) (c.1.2 != 0) (c.1.2 == 0) = none →
      let tag := (d.fu k).nextTag % 4096
      let held := fun (kind : OutKind) =>
        d.setFu k { d.fu k with nextTag := (d.fu k).nextTag + 1, out := (d.fu k).out ++ [{ rtag := tag, kind := kind, fir := fr, desc := desc, addr := a }] }
      let req : MemReq := { op := BitVec.ofNat 4 c.1.2, size := sizeCode w, addr := BitVec.ofNat 48 a, req := fuDest k, rtag := BitVec.ofNat 12 tag, prio := b.prio
                            operand := BitVec.ofNat 64 (operand fr desc 1), ctx := b.ctx, graph := b.graph }
      (d.respRoom k = true → a < lockBase →
        exec (c.2 g t f) s = .next (s.withDev (((held (memKind c.1.2)).access (fuNode k) (k / 8) (if a / 0x40000 % 4 = 3 then 0 else 3) (k % 8) req).depart k))) ∧
      (d.respRoom k = true → lockBase ≤ a →
        exec (c.2 g t f) s = .next (s.withDev (((held .acquire).request (fuNode k) (lockDest (lockWord a)) false
          { req with op := 4, addr := BitVec.ofNat 48 (lockWord a), operand := 0, prio := BitVec.ofNat 4 ((held .acquire).eprio (k / 8) fr) }).depart k))) ∧
      (d.respRoom k = false → exec (c.2 g t f) s = .next s)) ∧
    (∀ code, d.accessError b.graph.toNat a w (c.1.2 != 1) (c.1.2 != 0) (c.1.2 == 0) = some code →
      exec (c.2 g t f) s = .next (s.withDev (d.finish k 1 1 { toks := [d.errOf k fr code a], fault := true }))) ∧
    (a % w ≠ 0 → d.accessError b.graph.toNat a w (c.1.2 != 1) (c.1.2 != 0) (c.1.2 == 0) = some stMISALIGNED)

/-- R84, R87, R110, R119, R120, R121. -/
def Obligations.ContextAndCallNodes : Prop :=
  ∀ (g : Fin 16) (t : Fin 17) (f : Fin 8) (s : State) (fr : Firing) (desc : BitVec 128) (ext : List (BitVec 128)) (v c : Token),
    let k := fuKey g t f
    let d := s.dev
    let caller := (Firing.lead fr).tag
    (fr.port 0 = some v → fr.port 1 = some c → Token.err c = false → mismatch fr desc = none →
      (d.firesAt k 0x302 fr desc ext → exec (.pass g t f) s = .next (s.withDev (d.finish k 1 1
        { toks := (dstsOf desc).map (fun x => d.ctxTok fr x (c.pay.extractLsb' 0 22) 0 v.pay (Token.ptype v) (Token.err v)) }))) ∧
      (d.firesAt k 0x303 fr desc ext → exec (.call g t f) s = .next (s.withDev (d.finish k 1 1
        { toks := [d.ctxTok fr (dDst0 desc) (c.pay.extractLsb' 0 22) 0 v.pay (Token.ptype v) (Token.err v),
            d.ctxTok fr (dDst1 desc) (c.pay.extractLsb' 0 22) 0 (linkWord ((dImm desc).extractLsb' 0 29) caller.iter caller.ctx) 1 false] }))) ∧
      (d.firesAt k 0x304 fr desc ext → exec (.ret g t f) s = .next (s.withDev (d.finish k 1 1
        { toks := [d.ctxTok fr (DstF.ofBits (c.pay.extractLsb' 35 29)) (c.pay.extractLsb' 0 22) (c.pay.extractLsb' 27 8) v.pay (Token.ptype v) (Token.err v)] }))) ∧
      (d.firesAt k 0x310 fr desc ext → exec (.relaysend g t f) s = .next (s.withDev (d.finish k 1 1
        { toks := d.outRelay fr desc v c.pay, relay := true })) ∧
        ∀ x ∈ d.outRelay fr desc v c.pay, x.tag.dev = c.pay.extractLsb' 50 14 ∧ x.tag.ctx = c.pay.extractLsb' 28 22 ∧ x.tag.iter = c.pay.extractLsb' 20 8 ∧
          x.tag.graph = (dImm desc).extractLsb' 0 12 ∧ x.pay = v.pay ∧ Tag.crcOk x.tag = true)) ∧
    (cleanFiring fr desc →
      let home := (Firing.ctx fr).toNat / 2 ^ 18
      let tag := (d.fu k).nextTag % 4096
      let away := d.setFu k { d.fu k with nextTag := (d.fu k).nextTag + 1, out := (d.fu k).out ++ [{ rtag := tag, kind := .flags, fir := fr, desc := desc, addr := 0 }] }
      (d.firesAt k 0x320 fr desc ext →
        (d.atPool k home = true →
          exec (.flagget g t f) s = .next (s.withDev (d.finish k 1 1 { toks := d.outAll fr desc (fld (d.ctxDesc (Firing.ctx fr)) 60 56) 1 false }))) ∧
        (d.atPool k home = false →
          exec (.flagget g t f) s = .next (s.withDev ((away.sendMgmt (fuNode k) (poolDest home) (.flagAsk k tag (Firing.ctx fr) false)).depart k)))) ∧
      (d.firesAt k 0x321 fr desc ext →
        (d.atPool k home = true →
          let x := d.setCtxDesc (Firing.ctx fr) (putFld (d.ctxDesc (Firing.ctx fr)) 60 56 0)
          exec (.flagclr g t f) s = .next (s.withDev (x.finish k 1 1 { toks := x.outAll fr desc 0 7 false }))) ∧
        (d.atPool k home = false →
          exec (.flagclr g t f) s = .next (s.withDev ((away.sendMgmt (fuNode k) (poolDest home) (.flagAsk k tag (Firing.ctx fr) true)).depart k))))) ∧
    (d.firesAt k 0x300 fr desc ext →
      let pool := allocRegion k desc
      let tag := (d.fu k).nextTag % 4096
      let x := d.setFu k { d.fu k with nextTag := (d.fu k).nextTag + 1, fetch := (d.fu k).fetch.map (fun y => { y with asked := some tag }) }
      ((d.fu k).fetch.any (fun y => y.asked.isSome) = true → exec (.ctxalloc g t f) s = .next s) ∧
      ((d.fu k).fetch.any (fun y => y.asked.isSome) = false →
        (x.atPool k pool = true → exec (.ctxalloc g t f) s = .next (s.withDev ((x.modPool pool (fun p => { p with
          wait := insertWait { fu := k, rtag := tag, ctx := Firing.ctx fr, graph := caller.graph.toNat, prio := (Firing.prio fr).toNat } p.wait })).serveWaiters pool))) ∧
        (x.atPool k pool = false → exec (.ctxalloc g t f) s = .next (s.withDev (x.sendMgmt (fuNode k) (poolDest pool)
          (.ctxReq k tag (Firing.ctx fr) caller.graph (Firing.prio fr))))))) ∧
    (d.firesAt k 0x301 fr desc ext →
      let x := d.finish k 1 1 {}
      let ctx := (d.baseTag fr).ctx
      let home := (Firing.ctx fr).toNat / 2 ^ 18
      (d.atPool k home = false →
        exec (.ctxfree g t f) s = .next (s.withDev (x.sendMgmt (fuNode k) (poolDest home) (.ctxFree k (d.baseTag fr) (Firing.replay fr))))) ∧
      (d.atPool k home = true →
        (cdState (x.ctxDesc ctx) = 1 → cdFault (x.ctxDesc ctx) = false → (∃ r, r ≠ ctx ∧ x.rootOf ctx = some r) →
          exec (.ctxfree g t f) s = .next (s.withDev (x.returnCtx ctx))) ∧
        (cdState (x.ctxDesc ctx) = 1 → cdFault (x.ctxDesc ctx) = true → exec (.ctxfree g t f) s = .next (s.withDev (x.startSweep ctx))) ∧
        (cdState (x.ctxDesc ctx) = 2 → exec (.ctxfree g t f) s = .next (s.withDev x)) ∧
        (cdState (x.ctxDesc ctx) = 0 →
          let y := x.setBit (ctxReg (ctx.toNat / 2 ^ 18) 0x10) 1 true
          exec (.ctxfree g t f) s = .next (s.withDev (y.sendToken (poolNode (ctx.toNat / 2 ^ 18))
            (y.errToken (ctx.toNat / 2 ^ 18) (d.baseTag fr) (status stCTX_DOUBLE_FREE originBlock ctx.toNat) (Firing.replay fr)))))))

/-- R122, R168, R171, R190, R192, R222, R248, R322, R324, R573. -/
def Obligations.SynchronisationAndDispatchNodes : Prop :=
  ∀ (g : Fin 16) (t : Fin 17) (f : Fin 8) (s : State) (fr : Firing) (desc : BitVec 128) (ext : List (BitVec 128)), cleanFiring fr desc →
    let k := fuKey g t f
    let d := s.dev
    let passed := (dstsOf desc).map (fun x => d.passTok fr desc x (Firing.lead fr))
    (d.firesAt k 0x340 fr desc ext → Token.err (Firing.lead fr) = false → exec (.hurdle g t f) s = .next (s.withDev ((d.modRegion (k / 136) (fun r => { r with
      hrdIn := r.hrdIn ++ [{ fu := k, slot := fr.slot, entry := (dImm desc).toNat, tok := Firing.lead fr, rep := false }] })).finish k 1 1 {}))) ∧
    (d.firesAt k 0x343 fr desc ext →
      ((dImm desc).toNat = 0 → exec (.delay g t f) s = .next (s.withDev (d.finish k 1 1 { toks := passed }))) ∧
      ((dImm desc).toNat ≠ 0 → exec (.delay g t f) s = .next (s.withDev (d.finish k 1 1 { toks := passed, delay := some (dImm desc).toNat })))) ∧
    (mwf {} d.regions = true → ∀ n r, let x := d.paced k n r
      (x.region (k / 136)).pacer = (d.region (k / 136)).pacer ++
        [{ deadline := BitVec.ofNat 64 ((d.time.toNat / d.tickNs (k / 136) + n) * d.tickNs (k / 136)), ctx := r.ctx, toks := r.toks
           eprio := max (r.toks.foldl (fun m y => max m y.tag.prio.toNat) 0) (min 14 (boostOf (d.tile (k / 8)).sched.boosts r.ctx)) }] ∧
      (r.delay = some n → r.toks ≠ [] → (d.sendTakes k r = true ↔ (d.region (k / 136)).pacer.length < 65536))) ∧
    (∀ c ∈ lockCommands, d.firesAt k c.1 fr desc ext →
      let a := operand fr desc 0
      let used := fun (a : Nat) => a < hbmSize ∨ (spmBase ≤ a ∧ a < spmEnd)
      (a % 8 ≠ 0 → exec (c.2 g t f) s = .next (s.withDev (d.finish k 1 1 { toks := [d.errOf k fr stMISALIGNED a], fault := true }))) ∧
      (a % 8 = 0 → ¬ used a → exec (c.2 g t f) s = .next (s.withDev (d.finish k 1 1 { toks := [d.errOf k fr stADDR_RANGE a], fault := true }))) ∧
      (a % 8 = 0 → used a → c.1 = 0x341 → d.permits a (d.graphBits (d.baseTag fr).graph.toNat true false) = false →
        exec (c.2 g t f) s = .next (s.withDev (d.finish k 1 1 { toks := [d.errOf k fr stACCESS a], fault := true }))) ∧
      (a % 8 = 0 → used a → (c.1 = 0x341 → d.permits a (d.graphBits (d.baseTag fr).graph.toNat true false) = true) →
        let tag := (d.fu k).nextTag % 4096
        let x := d.setFu k { d.fu k with nextTag := (d.fu k).nextTag + 1, out := (d.fu k).out ++
          [{ rtag := tag, kind := if c.1 = 0x341 then .acquire else .release, fir := fr, desc := desc, addr := a }] }
        (d.respRoom k = false → exec (c.2 g t f) s = .next s) ∧
        (d.respRoom k = true → exec (c.2 g t f) s = .next (s.withDev ((x.request (fuNode k) (lockDest a) false
          { op := if c.1 = 0x341 then 4 else 5, size := 3, addr := BitVec.ofNat 48 a, req := fuDest k, rtag := BitVec.ofNat 12 tag
            prio := BitVec.ofNat 4 (x.eprio (k / 8) fr), operand := BitVec.ofNat 64 (if c.1 = 0x341 then (dImm desc).toNat else operand fr desc 1)
            ctx := (d.baseTag fr).ctx, graph := (d.baseTag fr).graph }).depart k))))) ∧
    (∀ c ∈ codeCommands, d.firesAt k c.1 fr desc ext →
      (queueRoom (d.tile (k / 8)).sched.runQ 64 8 (d.eprio (k / 8) fr) = true → exec (c.2 g t f) s = .next (s.withDev ((d.modSched (k / 8) (fun x => { x with
        runQ := x.runQ ++ [{ lvl := d.eprio (k / 8) fr, fu := k, desc := desc, fir := fr }] })).depart k))) ∧
      (queueRoom (d.tile (k / 8)).sched.runQ 64 8 (d.eprio (k / 8) fr) = false → exec (c.2 g t f) s = .next s)) ∧
    (∀ o, 0x380 ≤ o → o ≤ 0x392 → d.firesAt k o fr desc ext →
      (queueRoom (d.tile (k / 8)).sched.strQ 32 4 (d.eprio (k / 8) fr) = true → exec (.strideEnqueue g t f) s = .next (s.withDev (((d.modSched (k / 8) (fun x => { x with
        strQ := x.strQ ++ [{ lvl := d.eprio (k / 8) fr, fu := k, desc := desc, fir := fr }] })).depart k).strideNext (k / 8)))) ∧
      (queueRoom (d.tile (k / 8)).sched.strQ 32 4 (d.eprio (k / 8) fr) = false → exec (.strideEnqueue g t f) s = .next s))

/-- R110, R123, R126. -/
def Obligations.OutputNodesSendRequests : Prop :=
  ∀ c ∈ outputCommands, ∀ (g : Fin 16) (t : Fin 17) (f : Fin 8) (s : State) (fr : Firing) (desc : BitVec 128) (ext : List (BitVec 128)),
    let k := fuKey g t f
    let d := s.dev
    let tag := (d.fu k).nextTag % 4096
    let x := d.setFu k { d.fu k with nextTag := (d.fu k).nextTag + 1, out := (d.fu k).out ++ [{ rtag := tag, kind := .io, fir := fr, desc := desc, addr := 0 }] }
    let tok := x.passTok fr desc (ioDst c.1 (dImm desc).toNat) (Firing.lead fr)
    let sent := (x.send (fuNode k) { x.tokenPacket tok with src := ioSrc k tag }).depart k
    d.firesAt k c.1 fr desc ext → mismatch fr desc = none →
    (fr.errTok = none → exec (c.2 g t f) s = .next (s.withDev sent)) ∧
    (∀ p e, fr.errTok = some (p, e) → exec (c.2 g t f) s = .next (s.withDev (if c.1 = 0x3E0 then d.finish k 1 1 { toks := d.outAll fr desc e.pay.toNat 6 true } else sent)))

/-- R302, R303, R305, R308, R310 to R313. -/
def Obligations.BanksServeTheirRequests : Prop :=
  ∀ (g : Fin 16) (t : Fin 17) (b : Fin 4) (sub : Fin 16) (s : State),
    let tl := tileKey g t
    let d := s.dev.portFill tl
    let x := d.bank tl b
    let after := fun (d : Dev) => Host.Outcome.next (s.withDev d)
    (∀ q : BankReq, x.second.find? (fun c => c.1 == sub.val) = none → d.competing tl b sub = [q] →
      let n := accessBytes q.req.size
      let a := q.req.addr.toNat
      let on := if q.fu < 8 then d.modBank tl b (fun y => { y with rr := mset 0 y.rr sub ((q.fu + 1) % 8) }) else d
      let took := on.bankTake tl b q
      let touched := fun (d : Dev) => (d.noteWrite q.addr).bankAnswer tl q (respOf q.req 0 0 [])
      (x.target = none → x.state = 2 →
        (q.req.op = 0 → n ≤ 8 → exec (.bankRequest g t b sub .ok) s = after (took.bankAnswer tl q (respOf q.req 0 (took.readLe a n) []))) ∧
        (q.req.op = 0 → 8 < n → exec (.bankRequest g t b sub .ok) s = after
          (if n ≤ q.pos + 8 then took.bankAnswer tl q (respOf q.req 0 0 (q.got ++ on.read q.addr 8))
           else on.bankPut tl b q (some { q with pos := q.pos + 8, got := q.got ++ on.read q.addr 8 }))) ∧
        (∀ e, q.req.op = 1 → n = 4 ∨ n = 8 → exec (.bankRequest g t b sub e) s = after (touched (took.writeLe a n q.req.operand.toNat))) ∧
        (∀ y, q.req.op = 0 → exec (.bankRequest g t b sub (.ue y)) s = after ((((((on.setBit (spmReg g t 0xC) 0 true).setFld
          (spmReg g t 0x10) 19 0 (q.addr / 8 * 8 % 0x100000)).raiseTile tl 3 0)).bankTake tl b q).bankAnswer tl q (respOf q.req 1 0 []))) ∧
        (q.req.op = 2 ∨ q.req.op = 3 ∨ (q.req.op = 1 ∧ q.req.size.toNat ≤ 1) →
          exec (.bankRequest g t b sub .ok) s = after (took.modBank tl b (fun y => { y with second := mput y.second sub q })))) ∧
      (∀ e, x.target = some 2 → exec (.bankRequest g t b sub e) s = after d) ∧
      (∀ e, x.target ≠ some 2 → (x.state ≠ 2 ∨ x.target ≠ none) → q.pos = 0 →
        exec (.bankRequest g t b sub e) s = after (((d.bankTake tl b q).setBit (spmReg g t 0xC) 1 true).bankAnswer tl q (respOf q.req 3 0 [])))) ∧
    (∀ (q : BankReq) (j : Nat) e, x.second.find? (fun c => c.1 == sub.val) = some (j, q) →
      let n := accessBytes q.req.size
      let a := q.req.addr.toNat
      let done := d.modBank tl b (fun y => { y with second := mdel y.second sub })
      let answered := fun (d : Dev) (v : Nat) => after ((d.noteWrite q.addr).bankAnswer tl q (respOf q.req 0 v []))
      (q.req.op = 2 → exec (.bankRequest g t b sub e) s = answered (done.writeLe a n (done.readLe a n + q.req.operand.toNat)) (done.readLe a n)) ∧
      (q.req.op = 3 → exec (.bankRequest g t b sub e) s = answered (done.writeLe a n q.req.operand.toNat) (done.readLe a n)) ∧
      (q.req.op = 1 → n ≤ 8 → exec (.bankRequest g t b sub e) s = answered (done.writeLe a n q.req.operand.toNat) 0)) ∧
    (∀ v : W32, (∀ j < 4, fld v (2 * j + 1) (2 * j) = 3) → exec (.spmPwrWrite g t v) s = .next s) ∧
    (∀ v : W32, (∀ j < 4, j ≠ b.val → fld v (2 * j + 1) (2 * j) = 3) → fld v (2 * b.val + 1) (2 * b.val) ≠ 3 →
      let y := fld v (2 * b.val + 1) (2 * b.val)
      exec (.spmPwrWrite g t v) s = after ((s.dev.setFld (spmReg g t 0) (2 * b.val + 1) (2 * b.val) y).modBank tl b
        (fun z => if z.target.isSome then { z with next := some y } else if z.state = y then z else { z with target := some y }))) ∧
    (let x := s.dev.bank tl b;
      (∀ y, x.target = some y → x.second = [] → s.dev.burstAt tl b = false → x.next = none →
        exec (.bankTransitionDone g t b) s = after ((if y = 0 ∨ x.state = 0 then s.dev.clearBank tl b else s.dev).modBank tl b
          (fun q => { q with state := y, target := none, next := none }))) ∧
      (x.target = none ∨ x.second ≠ [] ∨ s.dev.burstAt tl b = true → exec (.bankTransitionDone g t b) s = .next s) ∧
      (∀ off, x.state = 2 → x.target = none → exec (.spmScrub g t b off .ce) s = after (s.dev.addSat16 (spmReg g t 8) 1)))

/-- R208, R308, R314 to R317. -/
def Obligations.HbmServesInOrder : Prop :=
  ∀ (k : Fin 2) (s : State),
    let d := s.dev
    let node := hbmNode k
    (d.rbit (hbmReg k 0) 0 = true →
      (∀ (r : MemReq) (took : Dev),
        ((d.hbmOf k).held.find? (fun r => !d.rowCopies k r.addr.toNat) = some r ∧ took = d.modHbm k (fun x => { x with held := removeFirst (· == r) x.held })) ∨
        ((d.hbmOf k).held.find? (fun r => !d.rowCopies k r.addr.toNat) = none ∧ (∃ p, d.takeInbox node 1 = some (p, took) ∧ p.body = .req r) ∧
          took.rowCopies k r.addr.toNat = false) →
        let a := r.addr.toNat
        let n := accessBytes r.size
        let answer := fun (d : Dev) (st v : Nat) (bs : List Byte) =>
          Host.Outcome.next (s.withDev (d.send node { dest := r.req, prio := r.prio, body := .resp (respOf r st v bs) }))
        (r.op = 0 → n ≤ 8 → stackBase k ≤ a → a + n ≤ stackBase (k + 1) → exec (.hbmRequest k .ok) s = answer took 0 (took.readLe a n) []) ∧
        (r.op = 1 → 4 ≤ n → stackBase k ≤ a → a + n ≤ stackBase (k + 1) →
          exec (.hbmRequest k .ok) s = answer (if n ≤ 8 then took.writeLe a n r.operand.toNat else took.write a r.data) 0 0 []) ∧
        (∀ x, r.op = 0 → stackBase k ≤ a → a + n ≤ stackBase (k + 1) → exec (.hbmRequest k (.ue x)) s = answer (took.hbmEcc k a (.ue x)) 1 0 []) ∧
        (∀ e, r.op = 6 → stackBase k ≤ a → a + 32 ≤ stackBase (k + 1) →
          exec (.hbmRequest k e) s = answer (took.write a (entryBytes { entryOfBytes r.data with st := 1 })) 0 0 []) ∧
        (∀ e, r.op = 7 → stackBase k ≤ a → a + n ≤ stackBase (k + 1) →
          let seen := took.hbmEcc k a e
          let hit := (List.range 8).filter (fun i => let y := entryOfBytes (seen.read (a + 32 * i) 32); y.st != 0 && keyOf y.tok.tag == r.operand)
          exec (.hbmRequest k e) s = answer (hit.foldl (fun d i => d.emptySlotAt (a + 32 * i)) seen) (if isUe e then 1 else 0) 0 (seen.read a 256)) ∧
        (∀ e, r.op = 8 → stackBase k ≤ a → a + 32 ≤ stackBase (k + 1) →
          exec (.hbmRequest k e) s = answer ((took.hbmEcc k a e).emptySlotAt a) (if isUe e then 1 else 0) 0 []) ∧
        (r.op = 0 → a < stackBase k ∨ stackBase (k + 1) < a + n → exec (.hbmRequest k .ok) s = answer took 2 0 [])) ∧
      (∀ (p : Packet) (r : MemReq) (took : Dev) (e : Ecc), (d.hbmOf k).held.find? (fun r => !d.rowCopies k r.addr.toNat) = none → d.takeInbox node 1 = some (p, took) → p.body = .req r →
        took.rowCopies k r.addr.toNat = true → exec (.hbmRequest k e) s = .next (s.withDev (took.modHbm k (fun x => { x with held := x.held ++ [r] }))))) ∧
    (d.rbit (hbmReg k 0) 0 = false → ∀ e, exec (.hbmRequest k e) s = .next s) ∧
    (∀ off : Fin 0x600000000, d.rfld (hbmReg k 0x14) 7 0 ≠ 0 → d.rbit (hbmReg k 0) 0 = true →
      exec (.hbmScrub k off .ok false) s = .next (s.withDev (d.setFld (hbmReg k 0x18) 7 0 (off * 256 / 0x600000000))) ∧
      exec (.hbmScrub k off .ok true) s = .next (s.withDev (((d.setFld (hbmReg k 0x18) 7 0 0).setBit (hbmReg k 0x18) 8 true).modHbm k (fun x => { x with ce := [] })))) ∧
    (∀ row rest, (d.hbmOf k).copying = row :: rest →
      exec (.spareRowDone k) s = .next (s.withDev ((d.modHbm k (fun x => { x with copying := rest, ce := mdel x.ce row })).raiseFree 335 k))) ∧
    (d.rbit (hbmReg k 0) 1 = true → d.rfld (pwrReg (0x100 + 4 * (39 + k))) 3 2 ≠ 0 → d.islands.contains (303 + k) = true →
      exec (.hbmTrainingDone k) s = .next (s.withDev ((d.setBit (hbmReg k 0) 1 false).setBit (hbmReg k 0) 0 true)))

/-- R321 to R327. -/
def Obligations.LockLeases : Prop :=
  ∀ (g : Fin 16) (s : State),
    let d := s.dev
    let u := d.lck g
    let node := lckNode g
    (∀ (p : Packet) (r : MemReq) (took : Dev), d.takeInbox node 1 = some (p, took) → p.body = .req r →
      let a := r.addr.toNat
      let u := took.lck g
      let waits := took.modLck g (fun u => { u with wait := u.wait ++ [{ addr := a, req := r, prio := r.prio.toNat }] })
      let after := fun (d : Dev) => Host.Outcome.next (s.withDev d)
      (r.op = 4 →
        (took.regionOpen g = false → exec (.lockAcquire g) s = after (took.lockAnswer g r 0 0)) ∧
        (took.regionOpen g = true →
          (u.leaseOn a = none → u.leases.length < 4096 →
            let h := mget {} u.hist (a / 8)
            let l : Lease := { addr := a, owner := r.ctx, seq := if h.used then h.seq + 1 else 0, expiry := BitVec.ofNat 32 (took.time.toNat / 1000 + took.leaseUs g) }
            let d1 := took.modLck g (fun u => { u with leases := u.leases ++ [l], hist := mset {} u.hist (a / 8) { seq := l.seq, used := true } })
            exec (.lockAcquire g) s = after ((d1.hwm (lckReg g 0xC) 12 0 (d1.lck g).leases.length).lockAnswer g r 0 (grantWord h u.recov l).toNat)) ∧
          (u.leaseOn a = none → 4096 ≤ u.leases.length → u.wait.length < 8192 → exec (.lockAcquire g) s = after waits) ∧
          (∀ l, u.leaseOn a = some l → l.owner = r.ctx → exec (.lockAcquire g) s = after ((took.setBit (lckReg g 0x20) 4 true).lockAnswer g r 0 0)) ∧
          (∀ l, u.leaseOn a = some l → l.owner ≠ r.ctx → u.wait.length < 8192 → exec (.lockAcquire g) s = after (waits.lockBoosts g)) ∧
          ((u.leaseOn a = none ∧ 4096 ≤ u.leases.length) ∨ (∃ l, u.leaseOn a = some l ∧ l.owner ≠ r.ctx) → 8192 ≤ u.wait.length →
            exec (.lockAcquire g) s = after ((took.setBit (lckReg g 0x20) 5 true).lockAnswer g r 0 0)))) ∧
      (r.op = 5 →
        (∀ l, u.leaseOn a = some l → r.operand.extractLsb' 39 22 = l.owner → r.operand.extractLsb' 32 7 = l.seq →
          exec (.lockRelease g) s = after ((took.lockAnswer g r 0 0).leaseEnd g a false false)) ∧
        ((u.leaseOn a = none ∨ ∃ l, u.leaseOn a = some l ∧ ¬ (r.operand.extractLsb' 39 22 = l.owner ∧ r.operand.extractLsb' 32 7 = l.seq)) →
          exec (.lockRelease g) s = after ((took.setBit (lckReg g 0x20) 3 true).lockAnswer g r 3 0)))) ∧
    (∀ (a : BitVec 48) l, u.leaseOn a.toNat = some l →
      exec (.leaseExpiry g a) s = .next (s.withDev (((d.setBit (lckReg g 0x20) 1 true).raise (258 + 4 * g) 1 0).leaseEnd g a.toNat false true))) ∧
    (∀ n w, u.wait[n.toNat]? = some w →
      exec (.lockWaitTimeout g n) s = .next (s.withDev (((d.modLck g (fun u => { u with wait := u.wait.eraseIdx n.toNat })).lockAnswer g w.req 4 0).lockBoosts g))) ∧
    (∀ (v : W32) l,
      let d1 := d.pairWrite (lckReg g 0x18) v
      (d1.lck g).leaseOn (d1.pair (lckReg g 0x18)) = some l →
      exec (.lckForce g v) s = .next (s.withDev (d.writes (lckReg g 0x1C) ((d1.setBit (lckReg g 0x20) 2 true).leaseEnd g (d1.pair (lckReg g 0x18)) false true)))) ∧
    (∀ c d1, d.takeMgmt node isOwnerReset = some (.ownerReset c, d1) →
      let d2 := d1.modLck g (fun u => { u with wait := u.wait.filter (fun w => w.req.ctx != c) })
      exec (.ownerReset g) s = .next (s.withDev
        ((((d2.lck g).leases.filter (fun l => l.owner == c)).foldl (fun d l => d.leaseEnd g l.addr true false) d2).lockBoosts g))) ∧
    exec (.lockRecoveryEnd g) s = .next (s.withDev (d.modLck g (fun u => { u with recov := false })))

/-- R176, R244, R247 to R249, R251, R252, R256, R264. -/
def Obligations.BlockOperationsCompute : Prop :=
  (∀ op ∈ strideCommands, ∀ (g : Fin 16) (t : Fin 17) (e : Ecc) (w : BitVec 16) (s : State) (it : Item) (t0 : Token),
    let tl := tileKey g t
    let d := s.dev
    let f := it.fir
    let code := op.1.1
    let c := regionOf t0.tag.die.toNat t0.tag.rgn.toNat * 16 + t0.tag.clu.toNat
    let x := Frame.ofBits t0.pay
    let imm := (dImm it.desc).toNat % 65536
    let zoff := (dImm it.desc).toNat / 65536
    let zw := fun (i : Nat) => d.readLe (bankAddr c 0 (4 * (zoff + i))) 4
    let sp := op.1.2.1 imm x zw
    let y := if sp.y then (f.port 1).map (fun t => Frame.ofBits t.pay) else none
    let header := if sp.s = 0 then 0 else zw 0
    (d.tile tl).stride.run = some it → (d.tile tl).stride.done = false → dOpc it.desc = code → f.port 0 = some t0 →
    (∀ p x, f.errTok = some (p, x) → exec (op.2 g t e w) s = .next (s.withDev (d.seDone tl (d.outAll f it.desc x.pay.toNat 6 true) false 0))) ∧
    (f.errTok = none → Token.ptype t0 = 6 → exec (op.2 g t e w) s = .next (s.withDev (d.seDone tl ((dstsOf it.desc).map (fun z => d.passTok f it.desc z t0)) false 0))) ∧
    (f.errTok = none → (∀ p ∈ f.toks, Token.ptype p.2 = 5) → Token.ptype t0 = 5 →
      let bank := d.bank tl 0
      (strideParam code (dImm it.desc).toNat = false →
        let d1 := { d with fresh := d.fresh + 1 }
        ∃ r, seCheck c x y zoff sp header (some ((Config.freeValue d.fresh).toNat % 65536)) = some r ∧
          exec (op.2 g t e w) s = .next (s.withDev (d1.seFail tl it r.1 r.2.1 r.2.2 false))) ∧
      (strideParam code (dImm it.desc).toNat = true →
        (∀ r, seCheck c x y zoff sp header none = some r → exec (op.2 g t e w) s = .next (s.withDev (d.seFail tl it r.1 r.2.1 r.2.2 false))) ∧
        (seCheck c x y zoff sp header none = none →
          (bank.target = some 2 ∨ bank.second ≠ [] → exec (op.2 g t e w) s = .next s) ∧
          (bank.second = [] → bank.target ≠ some 2 → (bank.state ≠ 2 ∨ bank.target ≠ none) → exec (op.2 g t e w) s = .next (s.withDev
            (((d.setBit (spmReg g t 0xC) 1 true).seLast tl stACCESS code).seDone tl
              (d.outAll f it.desc (status stACCESS (d.originOf it.fu) (bankAddr c 0 (4 * x.off))).toNat 6 true) true 0))) ∧
          (bank.second = [] → bank.target = none → bank.state = 2 → e = .ok ∨ e = .ce →
            let d1 := if e = .ce then d.addSat16 (spmReg g t 8) 1 else d
            let cp := seCopies header (Token.replay t0) x.stamp
            let z := d1.bankWords c zoff (if code = 0x38D ∨ sp.s = 0 then sp.zlen else 4 + sp.p)
            let src := if code = 0x391 then header / 2 ^ 31 % 2 else cp.1
            let r := op.1.2.2 { imm := imm, x := x, xs := d1.elems c x, z := z, st := d1.bankWords c (zoff + 4 + sp.p + src * sp.s) sp.s }
            (seTouched (d.tile tl).stride.hits x y zoff sp.zlen = false → exec (op.2 g t e w) s = .next (s.withDev (d1.seWrite tl c it x y zoff sp cp.2 r))) ∧
            (seTouched (d.tile tl).stride.hits x y zoff sp.zlen = true →
              exec (op.2 g t e w) s = .next (s.withDev ({ d1 with fresh := d1.fresh + r.size }.seWrite tl c it x y zoff sp cp.2 (r.undefined d1.fresh))))))))) ∧
  (∀ (header stamp : Nat) (replay : Bool), stamp < 2 ^ 17 →
    let cp := seCopies header replay stamp
    seCopies (cp.2 * 2 ^ 31 + 2 ^ 17 + stamp) true stamp = cp ∧ (replay = false → cp.1 = header / 2 ^ 31 % 2) ∧ cp.1 + cp.2 = 1 ∧
    (∀ later, later < 2 ^ 17 → later ≠ stamp → seCopies (cp.2 * 2 ^ 31 + 2 ^ 17 + stamp) true later = (cp.2, cp.1))) ∧
  (∀ (g : Fin 16) (t : Fin 17) (s : State),
    let tl := tileKey g t
    let d := s.dev
    (∀ it, (d.tile tl).stride.run = some it → (d.tile tl).stride.done = true →
      let x := (d.tile tl).stride
      let d1 := { d with pulses := d.pulses ++ [(4, (d.logicalOf g t).getD 0, g.val)] }
      exec (.blockOperationEnd g t) s = .next (s.withDev
        (((d1.modStride tl (fun _ => {})).sendFiring (.tileUnit g t 9) tl it.fir x.toks x.flags x.fault).strideNext tl))) ∧
    ((d.tile tl).stride.run = none ∨ (d.tile tl).stride.done = false → exec (.blockOperationEnd g t) s = .next s) ∧
    (∀ v : W32, d.rst.phase ≠ 0 → exec (.seSrstWrite g t v) s = .next s) ∧
    (∀ v : W32, d.rst.phase = 0 →
      let after := fun (x : Dev) => Host.Outcome.next (s.withDev (d.writes (seReg g t 0) x))
      (v.getLsbD 0 = true →
        let d1 := d.setBit (seReg g t 0) 0 true
        let ended := fun (x : Dev) (it : Item) =>
          (((x.modStride tl (fun _ => {})).setBit (seReg g t 4) 8 true).abandonCtx (Firing.ctx it.fir)).releaseFlow tl (Firing.flow it.fir)
        ((d.tile tl).stride.run = none → exec (.seSrstWrite g t v) s = after d1) ∧
        (∀ it, (d.tile tl).stride.run = some it → it.fir.port 1 = none → exec (.seSrstWrite g t v) s = after (ended d1 it)) ∧
        (∀ it y, (d.tile tl).stride.run = some it → it.fir.port 1 = some y → (Frame.ofBits y.pay).placed ((d.clusterOf tl).getD 0) = true →
          let fr := Frame.ofBits y.pay
          exec (.seSrstWrite g t v) s = after (ended (d1.freeWords ((d.clusterOf tl).getD 0) fr.off (fr.bytes / 4)) it)) ∧
        (∀ it y, (d.tile tl).stride.run = some it → it.fir.port 1 = some y → (Frame.ofBits y.pay).placed ((d.clusterOf tl).getD 0) = false →
          exec (.seSrstWrite g t v) s = after (ended d1 it))) ∧
      (v.getLsbD 0 = false → exec (.seSrstWrite g t v) s = after ((d.setBit (seReg g t 0) 0 false).strideNext tl))))

/-- R266, R268, R273 to R277. -/
def Obligations.CoreRegisterInstructions : Prop :=
  (∀ op ∈ immCommands, ∀ (n : Fin 273) (e : Ecc) (s : State) (i : RcIns), s.dev.executes n e i → i.kind = op.1.1 →
    exec (op.2 n e) s = .next (s.put ((s.dev.awake n e).rcNext n (fun r => r.set i.rd (op.1.2 ((s.dev.core n).get i.ra) i.imm))))) ∧
  (∀ (n : Fin 273) (e : Ecc) (s : State) (i : RcIns), s.dev.executes n e i →
    let r := s.dev.core n
    (i.kind = .intOp →
      let v := intSpec (i.fn % 256) (i.fn / 512) (r.get i.ra).toNat (r.get i.rb).toNat
      exec (.rcIntOp n e) s = .next (s.put ((s.dev.awake n e).rcNext n (fun x => { x.set i.rd v.1 with fflags := x.fflags ||| v.2 })))) ∧
    (i.kind = .fpOp →
      let v := rcFpValue i (r.get i.ra).toNat (r.get i.rb).toNat (r.get i.rd).toNat
      exec (.rcFpOp n e) s = .next (s.put ((s.dev.awake n e).rcNext n (fun x => { x.set i.rd (BitVec.ofNat 64 v.1) with fflags := x.fflags ||| v.2 })))) ∧
    (i.kind = .mfs →
      let v := (s.dev.awake n e).special n i.rb
      exec (.mfs n e) s = .next (s.put (v.2.rcNext n (fun x => x.set i.rd v.1)))) ∧
    (i.kind = .mts → exec (.mts n e) s = .next (s.put ((s.dev.awake n e).rcNext n (fun x => { x with fflags := (r.get i.ra).extractLsb' 0 5 }))))) ∧
  (∀ (d : Dev) (n rd : Nat) (v : W64), mwf {} d.tiles = true → mwf 0 (d.core n).g = true →
    let r := (d.rcNext n (fun x => x.set rd v)).core n
    r.pc = (d.core n).pc + 1 ∧ (∀ j, r.get j = if j = rd ∧ j ≠ 0 then v else (d.core n).get j) ∧ { r with pc := (d.core n).pc, g := (d.core n).g } = d.core n)

/-- R279 to R282, R294, R295, R309. -/
def Obligations.CoreMemoryInstructions : Prop :=
  (∀ (n : Fin 273) (e x : Ecc) (s : State) (i : RcIns), s.dev.executes n e i →
    let d := s.dev
    let dw := d.awake n e
    let r := d.core n
    let a := (r.get i.ra + i.imm.signExtend 64).toNat
    let b := (r.get i.ra).toNat
    let aw := if i.fn.testBit 0 then 4 else 8
    (∀ op ∈ loadCommands, i.kind = op.1.1 →
      let w := op.1.2.1
      let gets := fun (v : Nat) => Host.Outcome.next (s.put (dw.rcNext n (fun y => y.set i.rd (extend w v op.1.2.2))))
      (d.rcTest n a w 0 = none →
        (d.bankBReady n a → x = .ok → exec (op.2 n e x) s = gets (dw.readLe a w)) ∧
        (d.acts n a = false → a < lockBase ∨ lockEnd ≤ a → exec (op.2 n e x) s = .next (s.put (dw.rcSend n i a w 0 (r.get i.rb).toNat op.1.2.2))) ∧
        (lockBase ≤ a → a < lockEnd → exec (op.2 n e x) s = .next (s.put (dw.rcLock n i (lockWord a) 4 0))) ∧
        ((n.val = stewCore ∧ isLocal a = true) ∨ isNode a = true → isUe x = false → exec (op.2 n e x) s = gets (dw.readLe a w)) ∧
        (n.val = stewCore → hbmSize ≤ a → isSpm a = false → isNode a = false → isConfig a = false → isLocal a = false → a < lockBase ∨ lockEnd ≤ a →
          a < 0x4003000000 ∨ 0x4003010000 ≤ a → exec (op.2 n e x) s = gets 0)) ∧
      (a % w ≠ 0 → n.val < stewCore → exec (op.2 n e x) s = .next (s.put (dw.firingFault n 7 a)))) ∧
    (∀ op ∈ storeCommands, i.kind = op.1.1 →
      let w := op.1.2
      (d.rcTest n a w 1 = none →
        (d.bankBReady n a → exec (op.2 n e .ok) s = .next (s.put (((dw.writeLe a w (r.get i.rd).toNat).noteWrite a).rcNext n id))) ∧
        (d.acts n a = false → a < lockBase ∨ lockEnd ≤ a → exec (op.2 n e x) s = .next (s.put (dw.rcSend n i a w 1 (r.get i.rd).toNat false))) ∧
        (isNode a = true → exec (op.2 n e x) s = .next (s.put ((dw.nodeStore a w (r.get i.rd).toNat).rcNext n id))) ∧
        (n.val = stewCore → sramBase ≤ a → a < sramBase + 0x800000 → exec (op.2 n e x) s = .next (s.put ((dw.writeLe a w (r.get i.rd).toNat).rcNext n id)))) ∧
      (a % w ≠ 0 → n.val < stewCore → exec (op.2 n e x) s = .next (s.put (dw.firingFault n 7 a)))) ∧
    (∀ op ∈ atomicCommands, i.kind = op.1.1 →
      (d.rcTest n b aw op.1.2 = none →
        (d.bankBReady n b → exec (op.2 n e .ok) s = .next (s.put
          (((dw.writeLe b aw (if op.1.2 = 2 then dw.readLe b aw + (r.get i.rb).toNat else (r.get i.rb).toNat)).noteWrite b).rcNext n
            (fun y => y.set i.rd (extend aw (dw.readLe b aw) false))))) ∧
        (d.acts n b = false → b < lockBase ∨ lockEnd ≤ b → exec (op.2 n e x) s = .next (s.put (dw.rcSend n i b aw op.1.2 (r.get i.rb).toNat false)))) ∧
      (b % aw ≠ 0 → n.val < stewCore → exec (op.2 n e x) s = .next (s.put (dw.firingFault n 7 b)))) ∧
    (i.kind = .lockrel →
      (b % 8 = 0 → b < hbmSize ∨ isSpm b = true → exec (.rcLockrel n e) s = .next (s.put (dw.rcLock n i b 5 (r.get i.rb).toNat))) ∧
      (b % 8 ≠ 0 → n.val < stewCore → exec (.rcLockrel n e) s = .next (s.put (dw.firingFault n 7 b))) ∧
      (b % 8 = 0 → hbmSize ≤ b → isSpm b = false → n.val < stewCore → exec (.rcLockrel n e) s = .next (s.put (dw.firingFault n 8 b))))) ∧
  (∀ (d : Dev) (a w v k : Nat), Memory.wf d.mem = true → k < a ∨ a + w ≤ k → (d.writeLe a w v).byte k = d.byte k)

/-- R271, R278, R284 to R287. -/
def Obligations.CoreControlFlow : Prop :=
  ∀ (n : Fin 273) (e : Ecc) (s : State) (i : RcIns), s.dev.executes n e i →
    let d := s.dev.awake n e
    let r := s.dev.core n
    let go := fun (target : Int) => Host.Outcome.next (s.put (d.modCore n (fun x => { x with pc := target.toNat })))
    let target : Int := r.pc + 1 + i.off
    let ok := 0 ≤ target ∧ pcValid n target.toNat = true
    let stay := Host.Outcome.next (s.put (d.rcNext n id))
    (i.kind = .bz → (r.get i.ra = 0 → ok → exec (.bz n e) s = go target) ∧ (r.get i.ra ≠ 0 → exec (.bz n e) s = stay)) ∧
    (i.kind = .bnz → (r.get i.ra ≠ 0 → ok → exec (.bnz n e) s = go target) ∧ (r.get i.ra = 0 → exec (.bnz n e) s = stay)) ∧
    (i.kind = .j → (ok → exec (.j n e) s = go target) ∧ (¬ ok → n.val < stewCore → exec (.j n e) s = .next (s.put (d.firingFault n 3 0)))) ∧
    (i.kind = .jr → (pcValid n (r.get i.ra).toNat = true → exec (.jr n e) s = go (r.get i.ra).toNat) ∧
      (pcValid n (r.get i.ra).toNat = false → n.val < stewCore → exec (.jr n e) s = .next (s.put (d.firingFault n 3 0)))) ∧
    (i.kind = .call ∨ i.kind = .callr →
      let js := maskRegs i.mask
      let size := 8 * (js.length + 1)
      let sp := r.get 30
      let goal : Int := if i.kind = .callr then (r.get i.ra).toNat else target
      let limit := if n.val = stewCore then d.stew.stklim.toNat else bankAddr (d.rcCluster n) 1 (8 * r.limit)
      let nsp := sp - BitVec.ofNat 64 size
      let header := (if d.stackMode n then 0xC0 else 0xC1) * 2 ^ 40 + i.mask * 2 ^ 32 + (r.pc + 1) % 2 ^ 32
      let words := (nsp.toNat, header) :: (List.range js.length).map (fun q => (nsp.toNat + 8 * (1 + q), (r.get (20 + js.getD q 0)).toNat))
      let answer := if i.kind = .call then exec (.rcCall n e) s else exec (.callr n e) s
      (n.val < stewCore → sp.toNat < limit + size → answer = .next (s.put (d.firingFault n 4 0))) ∧
      ((n.val = stewCore ∧ limit = 0) ∨ limit + size ≤ sp.toNat → 0 ≤ goal → pcValid n goal.toNat = true → ∀ y, d.frameWrite s.fuses n words = .ok y → y.stall = false → y.d.stew.fatal = none →
        answer = .next (s.put (y.d.modCore n (fun x => { x.set 30 nsp with pc := goal.toNat })))) ∧
      ((n.val = stewCore ∧ limit = 0) ∨ limit + size ≤ sp.toNat → 0 ≤ goal → pcValid n goal.toNat = true → ∀ y, d.frameWrite s.fuses n words = .ok y → y.stall = true →
        answer = .next (s.put d))) ∧
    (i.kind = .ret → ∀ (x : Ecc) (h : Nat) (d1 : Dev),
      let sp := (r.get 30).toNat
      let js := maskRegs (h / 2 ^ 32 % 256)
      d.frameRead s.fuses n x [sp] = .ok ([h], false, d1) →
      (h / 2 ^ 40 = (if d.stackMode n then 0xC0 else 0xC1) → (d.stackMode n = true → h / 2 ^ 32 % 256 = 0) → pcValid n (h % 2 ^ 32) = true →
        ∀ vs d2, d1.frameRead s.fuses n x ((List.range js.length).map (fun q => sp + 8 * (1 + q))) = .ok (vs, false, d2) → d2.stew.fatal = none →
          exec (.rcRet n e x) s = .next (s.put (d2.modCore n (fun y =>
            { ((List.zip js vs).foldl (fun (y : Runner) p => y.set (20 + p.1) (BitVec.ofNat 64 p.2)) y).set 30 (BitVec.ofNat 64 (sp + 8 * (js.length + 1))) with
              pc := h % 2 ^ 32 })))) ∧
      (h / 2 ^ 40 ≠ (if d.stackMode n then 0xC0 else 0xC1) → n.val < stewCore → exec (.rcRet n e x) s = .next (s.put (d.firingFault n 5 0))))

/-- R174, R175, R209, R267, R282, R288 to R292, R301. -/
def Obligations.RunnersSendAndEnd : Prop :=
  (∀ (n : Fin 273) (e : Ecc) (s : State) (i : RcIns) (it : Item), s.dev.executes n e i → n.val < stewCore → (s.dev.core n).item = some it →
    let d := s.dev.awake n e
    let r := s.dev.core n
    let sel := i.imm.toNat / 256 % 4
    (i.kind = .emit → (if sel = 0 then 1 else 2) ≤ dNdst it.desc → d.sendRoom (fuNode it.fu) = false → exec (.emit n e) s = .next (s.put d)) ∧
    (i.kind = .emit → (if sel = 0 then 1 else 2) ≤ dNdst it.desc → d.sendRoom (fuNode it.fu) = true →
      exec (.emit n e) s = .next (s.put ((d.fuSend it.fu
        ((if sel = 0 then [dDst0 it.desc] else if sel = 1 then [dDst1 it.desc] else [dDst0 it.desc, dDst1 it.desc]).map
          (d.emitTok it i (r.get i.rd) (r.get i.ra)))).rcNext n id))) ∧
    (i.kind = .emit → dNdst it.desc < (if sel = 0 then 1 else 2) → exec (.emit n e) s = .next (s.put (d.firingFault n 6 0))) ∧
    (i.kind = .fence → (r.stores = [] → exec (.fence n e) s = .next (s.put (d.rcNext n id))) ∧ (r.stores ≠ [] → exec (.fence n e) s = .next (s.put d))) ∧
    (i.kind = .waitw → (r.stores = [] → exec (.waitw n e) s = .next (s.put ((d.rcFlags n it).rcEnd n it))) ∧ (r.stores ≠ [] → exec (.waitw n e) s = .next (s.put d)))) ∧
  (∀ (g : Fin 16) (t : Fin 17) (s : State),
    let n := tileKey g t
    let d := s.dev
    let x := d.tile n
    (∀ it, x.runner.item = none → d.rbit (rcReg g t 0x1C) 0 = false → topItem x.sched.runQ = some it →
      let pay := fun (p : Nat) => match it.fir.port p with | some x => x.pay | none => 0
      let top := min 32768 (d.rfld (rcReg g t 4) 18 3)
      let sp := BitVec.ofNat 64 (bankAddr (d.rcCluster n) 1 (8 * top))
      ∃ r, exec (.runnerTakeItem g t) s = .next (s.withDev ((d.modSched n (fun s => { s with runQ := removeFirst (· == it) s.runQ })).modRunner n (fun _ => r))) ∧
        r.get 1 = pay 0 ∧ r.get 2 = pay 1 ∧ r.get 3 = pay 2 ∧ r.get 4 = firingInfo it.fir ∧ r.get 29 = sp ∧ r.get 30 = sp ∧
        (∀ j, ¬ (1 ≤ j ∧ j ≤ 4) → j ≠ 29 → j ≠ 30 → r.get j = 0) ∧
        r.pc = (dImm it.desc).toNat % 65536 ∧ r.item = some it ∧ r.mode = d.rbit (rcReg g t 0) 0 ∧ r.fflags = 0 ∧ r.wait = none ∧ r.stores = [] ∧
        r.top = top ∧ r.limit = d.rfld (rcReg g t 8) 18 3) ∧
    (x.runner.item ≠ none → exec (.runnerTakeItem g t) s = .next s) ∧
    (x.runner.item ≠ none → x.runner.ending = false → d.rfld (schReg g t 4) 31 0 ≠ 0 → (∀ w, x.runner.wait = some w → w.kind ≠ .acquire) →
      exec (.runLimit g t) s = .next (s.withDev ((d.setBit (schReg g t 8) 1 true).firingFault n 11 0))) ∧
    (x.runner.item = none → exec (.runLimit g t) s = .next s) ∧
    (∀ v : W32, d.rst.phase ≠ 0 → exec (.rcSrstWrite g t v) s = .next s) ∧
    (∀ v : W32, d.rst.phase = 0 → exec (.rcSrstWrite g t v) s = .next (s.withDev (d.writes (rcReg g t 0x1C)
      (if v.getLsbD 0 then ((d.setBit (rcReg g t 0x1C) 0 true).runnerAbandon n).modRunner n (fun r => { r with cyc := 0 }) else d.setBit (rcReg g t 0x1C) 0 false)))) ∧
    (∀ v : W32, exec (.rcConfigWrite g t 0 v) s = .next (s.withDev (d.writes (rcReg g t 0) (d.setBit (rcReg g t 0) 0 (v.getLsbD 0)))) ∧
      exec (.rcConfigWrite g t 1 v) s = .next (s.withDev (d.writes (rcReg g t 4) (d.setFld (rcReg g t 4) 18 3 (fld v 18 3)))) ∧
      exec (.rcConfigWrite g t 2 v) s = .next (s.withDev (d.writes (rcReg g t 8) (d.setFld (rcReg g t 8) 18 3 (fld v 18 3)))))) ∧
  (∀ (n : Fin 273) (s : State) (a : MemResp) (d1 : Dev), n.val < stewCore → s.dev.stew.fatal = none → s.dev.takeResp (rcNode n) (fun _ => true) = some (a, d1) →
    let c := d1.core n
    c.gone.find? (fun x => x.1 == a.rtag.toNat) = none → c.ending = false →
    (∀ w, c.wait = some w → w.rtag = a.rtag.toNat → w.kind ≠ .release → a.status = 0 →
      exec (.memoryResponse n 8) s = .next (s.put (d1.rcNext n (fun x => { x.set w.rd (extend w.bytes a.result.toNat w.sext) with wait := none })))) ∧
    (∀ w, c.wait = some w → w.rtag = a.rtag.toNat → ¬ (w.kind = .acquire ∧ a.status = 4) → a.status ≠ 0 →
      exec (.memoryResponse n 8) s = .next (s.put ((d1.modCore n (fun x => { x with wait := none })).rcFault n (respCause a.status.toNat) w.addr))) ∧
    (∀ st, c.wait = none → c.stores.find? (fun x => x.1 == a.rtag.toNat) = some st → a.status = 0 →
      exec (.memoryResponse n 8) s = .next (s.put (d1.modCore n (fun x => { x with stores := removeFirst (· == st) x.stores })))) ∧
    (∀ st, c.wait = none → c.stores.find? (fun x => x.1 == a.rtag.toNat) = some st → a.status ≠ 0 →
      exec (.memoryResponse n 8) s = .next (s.put ((d1.modCore n (fun x => { x with stores := removeFirst (· == st) x.stores })).rcFault n (respCause a.status.toNat) st.2))))

/-- R295 to R299, R528. -/
def Obligations.StewardInstructions : Prop :=
  ∀ (s : State), s.dev.stew.on = true →
    let st := s.dev.stew
    (∀ (e : Ecc) (i : RcIns), s.dev.executes 272 e i →
      let d := s.dev.awake 272 e
      let v := st.core.get i.ra
      (i.kind = .mfc → exec (.mfc 272 e) s = .next (s.put (d.rcNext 272 (fun x => x.set i.rd (d.stewControl i.rb))))) ∧
      (i.kind = .mtc →
        (i.rb = 0 → exec (.mtc 272 e) s = .next (s.put ((d.modStew (fun x => { x with sstat := v.extractLsb' 0 4 })).rcNext 272 id))) ∧
        (i.rb = 1 → exec (.mtc 272 e) s = .next (s.put ((d.modStew (fun x => { x with epc := v })).rcNext 272 id))) ∧
        (i.rb = 4 → exec (.mtc 272 e) s = .next (s.put ((d.modStew (fun x => { x with vbase := v })).rcNext 272 id))) ∧
        (i.rb = 12 → exec (.mtc 272 e) s = .next (s.put ((d.modStew (fun x => { x with stklim := v })).rcNext 272 id)))) ∧
      (i.kind = .mbPop → ∀ t rest, st.mbox = (t, none) :: rest →
        exec (.mbPop 272 e) s = .next (s.put ((d.modStew (fun x => { x with mbox := rest })).rcNext 272 id))) ∧
      (i.kind = .mbPop → ∀ t h rest, st.mbox = (t, some h) :: rest →
        exec (.mbPop 272 e) s = .next (s.put (((d.modStew (fun x => { x with mbox := rest })).oweE2e .hub h 32 1).rcNext 272 id))) ∧
      (i.kind = .eret → exec (.eret 272 e) s = .next (s.put (d.modStew (fun x => { x with
        sstat := (x.sstat &&& 10#4) ||| (if x.sstat.getLsbD 1 then 1#4 else 0#4), core := { x.core with pc := x.epc.toNat } })))) ∧
      (i.kind = .wfi → exec (.wfi 272 e) s = .next (s.put ((d.rcNext 272 id).modStew (fun x => { x with wfi := !s.dev.stewIrq })))) ∧
      (i.kind = .evack → exec (.evack 272 e) s = .next (s.put ((d.setEvtPending (v.toNat % 1024) false).rcNext 272 id))) ∧
      (i.kind = .tsend →
        let t : Token := { tag := Tag.seal (Tag.ofBits (v ++ st.core.get (i.ra + 1))), pay := st.core.get (i.ra + 2), ty := (st.core.get (i.ra + 3)).extractLsb' 0 8 }
        (d.sendRoom (.hubUnit 0) = true → exec (.tsend 272 e) s = .next (s.put ((d.sendToken (.hubUnit 0) t).rcNext 272 id))) ∧
        (d.sendRoom (.hubUnit 0) = false → exec (.tsend 272 e) s = .next (s.put d)))) ∧
    (st.core.wait = none → st.sstat.getLsbD 0 = true → s.dev.stewIrq = true →
      exec .stewardInterrupt s = .next (s.withDev (s.dev.modStew (fun x => { x with
        epc := BitVec.ofNat 64 x.core.pc, cause := if s.dev.eventTop.isSome then 15 else 14, wfi := false
        sstat := (x.sstat &&& 8#4) ||| 6#4, core := { x.core with pc := (x.vbase + 16).toNat } })))) ∧
    (∀ p ps t t' d1, let lane := if (s.dev.inbox (.hubUnit 0) 4).isEmpty then 0 else 4
      s.dev.inbox (.hubUnit 0) lane = p :: ps → p.body = .token t → st.mbox.length < 1024 →
      s.dev.blockTag (.hubUnit 0) t (infieldIs t.tag 0 0 0 && t.tag.graph == 0) = (some t', d1) →
      exec .mailboxReceive s = .next (s.withDev (((d1.setInbox (.hubUnit 0) lane ps).oweHop (some ⟨.hub, .hubUnit 0⟩) lane 1).modStew
        (fun x => { x with mbox := x.mbox ++ [(t', p.part)] })))) ∧
    exec .lockstepMismatch s = .next (s.withDev ((s.dev.raiseFree 645 0).stewReset 11 0))

/-- R172, R180 to R183, R185 to R188, R193, R195, R196. -/
def Obligations.FlowsAreServedOneAtATime : Prop :=
  (∀ (g : Fin 16) (t : Fin 17) (s : State) (fl : BitVec 20) (c : BitVec 8) (p : BitVec 4) (no : Nat) (d1 : Dev),
    let tl := tileKey g t
    let d := s.dev
    let n := schedNode tl
    let sc := (d1.tile tl).sched
    let r : FlowReq := { flow := fl, clu := c.toNat, eprio := p.toNat, no := no }
    let push := fun (d : Dev) (m : Mgmt) => d.send n { dest := schedDest c.toNat, log := true, body := .mgmt m }
    (d.takeMgmt n isFlowReq = some (.flowReq fl c p no, d1) →
      (inService sc.service fl = false → serviceRoom sc.service p.toNat = true →
        exec (.flowreq g t) s = .next (s.withDev (push (d1.modSched tl (fun s => { s with service := s.service ++ [(fl, c.toNat, p.toNat == 15)] })) (.flowGrant fl no)))) ∧
      (inService sc.service fl = true ∨ serviceRoom sc.service p.toNat = false → sc.pend.length < 256 →
        exec (.flowreq g t) s = .next (s.withDev (d1.modSched tl (fun s => { s with pend := s.pend ++ [r] })))) ∧
      (inService sc.service fl = true ∨ serviceRoom sc.service p.toNat = false → 256 ≤ sc.pend.length →
        exec (.flowreq g t) s = .next (s.withDev (push d1 (.flowRefuse fl no))))) ∧
    (d.takeMgmt n isFlowRel = some (.flowRel fl c, d1) →
      let mine := fun (e : BitVec 20 × Nat × Bool) => e.1 == fl && e.2.1 == c.toNat
      let d2 := d1.modSched tl (fun s => { s with service := removeFirst mine s.service })
      let sc2 := (d2.tile tl).sched
      let granted := fun (x : FlowReq) => Host.Outcome.next (s.withDev ((d2.modSched tl (fun s => { s with pend := removeFirst (· == x) s.pend })).grantFlow tl x))
      (sc.service.any mine = false → exec (.flowrel g t) s = .next (s.withDev d1)) ∧
      (sc.service.any mine = true →
        (∀ x, sc2.pend.find? (fun r => r.flow == fl && serviceRoom sc2.service r.eprio) = some x → exec (.flowrel g t) s = granted x) ∧
        (sc2.pend.find? (fun r => r.flow == fl && serviceRoom sc2.service r.eprio) = none → ∀ x, bestRequest sc2 = some x → exec (.flowrel g t) s = granted x) ∧
        (sc2.pend = [] → exec (.flowrel g t) s = .next (s.withDev d2)))) ∧
    (d.takeMgmt n isFlowCancel = some (.flowCancel fl c no, d1) →
      exec (.flowcancel g t) s = .next (s.withDev (d1.modSched tl (fun s => { s with pend := removeFirst (fun r => r.flow == fl && r.clu == c.toNat && r.no == no) s.pend })))) ∧
    (let mine := fun (w : FlowWait) => Firing.flow w.fir == fl && w.asked && !w.granted && w.no == no;
     (d.takeMgmt n isFlowGrant = some (.flowGrant fl no, d1) →
      (sc.flowW.find? mine = none → exec (.flowgrant g t) s = .next (s.withDev (d1.releaseFlow tl fl))) ∧
      (∀ w, sc.flowW.find? mine = some w → exec (.flowgrant g t) s = .next (s.withDev
        (((d1.modSched tl (fun s => { s with flowW := replaceFirst mine (fun x => { x with granted := true }) s.flowW })).askNext tl fl).grantMove w.fu)))) ∧
     (d.takeMgmt n isFlowRefuse = some (.flowRefuse fl no, d1) →
      (sc.flowW.any mine = true → exec (.flowRequestRetry g t) s = .next (s.withDev
        ((d1.modSched tl (fun s => { s with flowW := replaceFirst mine (fun x => { x with asked := false }) s.flowW })).askNext tl fl))) ∧
      (sc.flowW.any mine = false → exec (.flowRequestRetry g t) s = .next (s.withDev d1))))) ∧
  (∀ (d : Dev) (tl : Nat) (fl : BitVec 20),
    let sc := (d.tile tl).sched
    let waits := fun (w : FlowWait) => Firing.flow w.fir == fl && !w.granted
    (∀ w, sc.flowW.find? waits = some w → w.asked = false → d.askNext tl fl = (d.modSched tl (fun x => { x with
      flowW := replaceFirst waits (fun y => { y with asked := true, no := sc.reqNo }) x.flowW, reqNo := sc.reqNo + 1 })).toFlowHome tl fl
        (.flowReq fl (d.ownClu tl) (BitVec.ofNat 4 (d.eprio tl w.fir)) sc.reqNo)) ∧
    (∀ w, sc.flowW.find? waits = some w → w.asked = true → d.askNext tl fl = d) ∧ (sc.flowW.find? waits = none → d.askNext tl fl = d)) ∧
  (∀ (g : Fin 16) (t : Fin 17) (q : Fin 10) (n : Fin 64) (s : State),
    (s.dev.rfld (schReg g t 0) 19 0 = 0 → exec (.ageingStep g t q n) s = .next s) ∧
    (q.val < 8 → s.dev.rfld (schReg g t 0) 19 0 ≠ 0 →
      exec (.ageingStep g t q n) s = .next (s.withDev (s.dev.modFu (tileKey g t * 8 + q) (fun u => { u with issue :=
        match u.issue[n.val]? with
        | some x => if x.lvl < 14 then u.issue.eraseIdx n ++ [{ x with lvl := x.lvl + 1 }] else u.issue
        | none => u.issue }))))) ∧
  (∀ (s : State) (c : BitVec 22) (u b : BitVec 4) (d1 : Dev),
    (∀ g : Fin 16, s.dev.takeMgmt (poolNode g) isBoost = some (.boost c u b, d1) →
      let home := c.toNat / 2 ^ 18
      let d2 := d1.modPool home (fun p => { p with boosts := setBoost p.boosts c u.toNat b.toNat })
      ∀ n : Fin 288, n.val = 272 + g →
        (cdState (d2.ctxDesc c) = 0 → exec (.boost n) s = .next (s.withDev d2)) ∧
        (cdState (d2.ctxDesc c) ≠ 0 → exec (.boost n) s = .next (s.withDev (d2.setCtxDesc c (putFld (d2.ctxDesc c) 47 44 (boostOf (d2.region home).pool.boosts c)))))) ∧
    (∀ n : Fin 288, n.val < 272 → s.dev.takeMgmt (schedNode n) isBoost = some (.boost c u b, d1) →
      exec (.boost n) s = .next (s.withDev (d1.boostSched n c u.toNat b.toNat)))) ∧
  (∀ (g : Fin 16) (t : Fin 17) (f : Fin 8) (c : BitVec 22) (s : State),
    (cdState (s.dev.ctxDesc c) = 2 → exec (.cancel g t f c) s = .next (s.withDev (s.dev.cancelItems (fuKey g t f) (fun x => Firing.ctx x == c)))) ∧
    (cdState (s.dev.ctxDesc c) = 1 → (s.dev.graph (cdGraph (s.dev.ctxDesc c))).st ≠ 5 → (s.dev.graph (cdGraph (s.dev.ctxDesc c))).st ≠ 0 →
      exec (.cancel g t f c) s = .next s)) ∧
  (∀ (g : Fin 16) (s : State),
    let q := (s.dev.region g).pacer
    ((∀ x ∈ q, reached s.dev.time x.deadline = false) → exec (.pacerRelease g) s = .next s) ∧
    (∀ e t ts, pacerNext s.dev.time q = some e → e.toks = t :: ts →
      exec (.pacerRelease g) s = .next (s.withDev ((s.dev.modRegion g (fun r => { r with
        pacer := if ts.isEmpty then removeFirst (· == e) r.pacer else replaceFirst (· == e) (fun x => { x with toks := ts }) r.pacer })).sendToken (pacNode g) t)) ∧
      e ∈ q ∧ reached s.dev.time e.deadline = true ∧
      ∀ x ∈ q, reached s.dev.time x.deadline = true → (s.dev.time - x.deadline).toNat ≤ (s.dev.time - e.deadline).toNat ∧
        ((s.dev.time - x.deadline).toNat = (s.dev.time - e.deadline).toNat → x.eprio ≤ e.eprio)))

/-- R222 to R225, R229. -/
def Obligations.HurdlesJudgeArrivals : Prop :=
  ∀ (g : Fin 16) (s : State) (a : HrdArr) (as : List HrdArr),
    let d := s.dev.modRegion g (fun r => { r with hrdIn := as })
    let after := fun (x : Dev) => Host.Outcome.next (s.withDev x)
    (s.dev.region g).hrdIn = a :: as →
    (d.hurdleOf g a.tok.tag.graph a.entry = none → exec (.hurdleArrival g) s = after (d.hrdError g a.tok stBAD_NODE a.slot.toNat true)) ∧
    (∀ slot h0, d.hurdleOf g a.tok.tag.graph a.entry = some (slot, h0) → h0.slots.contains a.slot = true → h0.fu / 8 = d.originOf a.fu / 8 →
      let src := h0.slots.findIdx (· == a.slot)
      let h : Hurdle := { h0 with firstCtx := if h0.firstCtx.any (fun x => x.1 == src) then h0.firstCtx else mput h0.firstCtx src a.tok.tag.ctx }
      let d1 := d.setHurdle g slot h
      let e := a.tok.tag.epoch
      let dd := (e - h.e).toNat
      let k := srcKey src e
      let cnt := mget 0 h.cnt k
      let cls := mget 0 h.cls k
      let both := e.toNat + h.e.toNat * 256
      let late := d1.setBit (hrdStatus g slot) 4 true
      let ahead := d1.setBit (hrdStatus g slot) 3 true
      let inside := h.retired.contains src = false ∧ dd ≤ h.ahead ∧ dd < 128
      let left := h.passed = true ∧ e = h.e
      (isClose a.tok = false → isRetire a.tok = true →
        exec (.hurdleArrival g) s = after (if h.retired.contains src then d1 else d1.setHurdle g slot { h with retired := h.retired ++ [src] })) ∧
      (isClose a.tok = true →
        let n := statusDetail a.tok.pay % 65536
        (inside → n ≤ h.maxper → cls = 0 → cnt ≤ n → ¬ left → exec (.hurdleArrival g) s = after (d1.setHurdle g slot { h with cls := mset 0 h.cls k (n + 1) })) ∧
        (h.retired.contains src = true ∨ (inside ∧ (h.maxper < n ∨ cls ≠ 0 ∨ n < cnt)) → exec (.hurdleArrival g) s = after (d1.hrdCount g slot h a.tok src false)) ∧
        ((h.retired.contains src = false ∧ 128 ≤ dd) ∨ (inside ∧ n ≤ h.maxper ∧ cls = 0 ∧ cnt ≤ n ∧ left) →
          exec (.hurdleArrival g) s = after (late.hrdError g a.tok stEPOCH_LATE both false)) ∧
        (h.retired.contains src = false → dd < 128 → h.ahead < dd → exec (.hurdleArrival g) s = after (ahead.hrdError g a.tok stEPOCH_AHEAD both false))) ∧
      (isClose a.tok = false → isRetire a.tok = false →
        let within := cnt < h.maxper ∧ (cls = 0 ∨ cnt + 2 ≤ cls)
        (inside → within → ¬ left →
          let d2 := d1.setHurdle g slot { h with
            cnt := mset 0 h.cnt k (cnt + 1)
            held := if a.rep || a.gone then h.held else h.held ++ [{ src := src, tok := a.tok }]
            errs := if a.rep then mset 0 h.errs k (mget 0 h.errs k + 1) else h.errs }
          exec (.hurdleArrival g) s = after (d2.hwm (gwReg g 0x10) 18 0 (d2.holdUsed g))) ∧
        (a.gone = true → ¬ inside ∨ ¬ within ∨ left → exec (.hurdleArrival g) s = after d1) ∧
        (a.gone = false →
          ((h.retired.contains src = false ∧ 128 ≤ dd) ∨ (inside ∧ within ∧ left) →
            (Token.replay a.tok = false → exec (.hurdleArrival g) s = after (late.hrdError g a.tok stEPOCH_LATE both true)) ∧
            (Token.replay a.tok = true → exec (.hurdleArrival g) s = after (if a.rep then d1 else d1.hrdSend g (d1.toksTo h (h.lateFeeds e) { src := src, tok := a.tok })))) ∧
          (h.retired.contains src = false → dd < 128 → h.ahead < dd → exec (.hurdleArrival g) s = after (ahead.hrdError g a.tok stEPOCH_AHEAD both true)) ∧
          (h.retired.contains src = true → exec (.hurdleArrival g) s = after (d1.hrdCount g slot h a.tok src false)) ∧
          (inside → ¬ within → exec (.hurdleArrival g) s = after (d1.hrdCount g slot h a.tok src true)))))

/-- R226 to R231, R236 to R240, R242. -/
def Obligations.HurdlesReleaseEpochs : Prop :=
  ∀ (g : Fin 16) (s : State),
    let d := s.dev
    (∀ slot : BitVec 8,
      let k := slot.toNat
      let h := d.hurdle g k
      (h.complete = true → d.hrdStopped g k = false → h.beyond = false →
        let sent := (List.range h.nsrc).flatMap (fun i => (h.held.filter (fun x => x.tok.tag.epoch == h.e)).filter (fun x => x.src == i))
        let h1 := { h with lastCtx := sent.foldl (fun m x => mput m x.src x.tok.tag.ctx) h.lastCtx }
        let d1 := sent.foldl (fun d x => d.hrdSend g (d.releaseToks h1 x)) d
        exec (.hurdleRelease g slot) s = .next (s.withDev (((if h.closeout then d1.closeOuts g h1 sent false else d1).setHurdle g k { h1 with
          held := h.held.filter (fun x => x.tok.tag.epoch != h.e) }).hrdAdvance g k))) ∧
      (h.complete = false ∨ d.hrdStopped g k = true ∨ h.beyond = true → exec (.hurdleRelease g slot) s = .next s) ∧
      (h.nsrc ≠ 0 → h.waitus ≠ 0 → h.complete = false → h.late = false → h.passed = false →
        exec (.hurdleWaitTimeout g slot) s = .next (s.withDev
          (((d.setHurdle g k { h with late := true }).setBit (hrdStatus g k) 1 true).raise (258 + 4 * g) 2 k))) ∧
      (h.late = true ∨ h.passed = true → exec (.hurdleWaitTimeout g slot) s = .next s)) ∧
    (∀ (x : Dev) (k : Nat),
      let h := x.hurdle g k
      let r := x.reg (hrdStop g k)
      let own := fun (j : Nat) => j % 256 == h.e.toNat
      (r.getLsbD 8 = true → r.extractLsb' 0 8 = h.e → x.hrdAdvance g k = x.setHurdle g k { h with passed := true }) ∧
      (r.getLsbD 8 = false ∨ r.extractLsb' 0 8 ≠ h.e → h.old = none → x.hrdAdvance g k = (x.setHurdle g k { h with
        e := h.e + 1, passed := false, late := false, old := none, cnt := mclear h.cnt own, cls := mclear h.cls own, errs := mclear h.errs own }).sendHorizon g k)) ∧
    (∀ v : W32,
      let k := d.hrdSel g
      let h := d.hurdle g k
      let d1 := d.setReg (hrdStop g k) (v &&& 0x1FF#32)
      let after := fun (o : Nat) (x : Dev) => Host.Outcome.next (s.withDev (d.writes (gwReg g o) x))
      (v.getLsbD 0 = true → h.nsrc ≠ 0 → h.complete = false → d.hrdStopped g k = false →
        exec (.hrdForce g v) s = after 0x30 ((d.setBit (hrdStatus g k) 2 true).hrdRelease g k true)) ∧
      (v.getLsbD 0 = false ∨ h.nsrc = 0 ∨ h.complete = true ∨ d.hrdStopped g k = true → exec (.hrdForce g v) s = .next s) ∧
      (h.passed = false → exec (.hrdStopWrite g v) s = after 0x2C d1) ∧
      (h.passed = true → exec (.hrdStopWrite g v) s = after 0x2C (d1.hrdAdvance g k)) ∧
      exec (.holdConfigWrite g 0 v) s = after 0 (d.holdLo (gwReg g 0) v) ∧
      (d.regionOpen g = false → d.holdUsed g = 0 →
        exec (.holdConfigWrite g 4 v) s = after 4 (d.pairWrite (gwReg g 0) v) ∧
        exec (.holdConfigWrite g 8 v) s = after 8 (d.setFld (gwReg g 8) 2 0 (fld v 2 0))) ∧
      (d.regionOpen g = true ∨ d.holdUsed g ≠ 0 →
        exec (.holdConfigWrite g 4 v) s = after 4 { d with loHeld := mdel d.loHeld (gwReg g 0) } ∧ exec (.holdConfigWrite g 8 v) s = .next s) ∧
      exec (.stwWindowWrite g v) s = .next (s.withDev (d.writes (stwReg g 4) (d.setFld (stwReg g 4) 19 0 (fld v 19 0))))) ∧
    (d.rbit (stwReg g 0) 0 = true → d.regionOpen g = true →
      let x := (d.region g).stw
      (x.progress = true ∨ d.heldWork g = false →
        exec (.stallWindowExpiry g) s = .next (s.withDev (d.setStw g (fun s => { s with stage := 0, progress := false, forceFail := false })))) ∧
      (x.progress = false → d.heldWork g = true → x.stage = 0 →
        exec (.stallWindowExpiry g) s = .next (s.withDev ((d.setStw g (fun s => { s with stage := 1, forceFail := false })).forcedSpill g))) ∧
      (x.progress = false → d.heldWork g = true → x.stage ≠ 0 →
        let full := (regionFus g).any (fun k => (d.fu k).oflFull) || x.forceFail
        let d1 := d.setStw g (fun s => { s with stage := 3 })
        (full = false → exec (.stallWindowExpiry g) s = .next (s.withDev ((d1.setBit (stwReg g 0x10) 5 true).raise (256 + 4 * g) 2 1))) ∧
        (full = true → exec (.stallWindowExpiry g) s = .next (s.withDev ((d1.stallAbort g).raise (256 + 4 * g) 2 (if (d1.victims g).isEmpty then 4 else 2)))))) ∧
    (d.rbit (stwReg g 0) 0 = false ∨ d.regionOpen g = false →
      exec (.stallWindowExpiry g) s = .next (s.withDev (d.setStw g (fun s => { s with stage := 0, progress := false })))) ∧
    ((d.region g).stw.progress = true → exec (.abortReplayRelease g) s = .next (s.withDev
      { (d.setStw g (fun s => { s with stage := 0, progress := false })) with
        groups := d.groups.map (fun (x : Group) => if x.stw && x.root.toNat / 2 ^ 18 == g then { x with stw := false } else x) })) ∧
    ((d.region g).stw.progress = false → exec (.abortReplayRelease g) s = .next s)

/-- R331 to R341. -/
def Obligations.DmaTransfersProceed : Prop :=
  (∀ (g : Fin 16) (c : Fin 32) (s : State),
    let d := s.dev
    let x := d.dmaCh g c
    let set := shadowOffsets.foldl (fun (m : SMap W32) o => mset 0 m o (d.reg (dmaChReg g c o))) []
    let y := { x with busy := true, set := set, issued := 0, bursts := [], abort := false, cmpAt := none, err := 0, bad := false }
    let d1 := (d.setBit (chCtrl g c) 3 false).modDma g c (fun _ => y)
    (x.busy = false → d.dmaFree g c = true → d.rbit (chCtrl g c) 0 = true → d.rbit (chCtrl g c) 3 = true →
      (y.descOk (d1.rfld (chCtrl g c) 14 12) = true → exec (.dmaHandover g c) s = .next (s.withDev d1)) ∧
      (y.descOk (d1.rfld (chCtrl g c) 14 12) = false → exec (.dmaHandover g c) s = .next (s.withDev (d1.dmaComplete g c true)))) ∧
    (d.dmaFree g c = false ∨ d.rbit (chCtrl g c) 0 = false ∨ (x.busy = true ∧ x.bad = false) ∨ (x.busy = false ∧ d.rbit (chCtrl g c) 3 = false) →
      exec (.dmaHandover g c) s = .next s)) ∧
  (∀ (g : Fin 16) (c : Nat) (s : State), s.dev.dmaOutstanding g < 64 → s.dev.dmaPick g = some c →
    let d := s.dev
    let x := d.dmaCh g c
    let n := x.burstLen x.issued
    let tag := x.freeTag
    let lv := d.dmaLevel g c
    let d1 := (d.modRegion g (fun r => { r with dmaRr := mset 0 r.dmaRr lv ((c + 1) % 32) })).modDma g c (fun y => { y with
      issued := y.issued + n, nextTag := tag / 2 + 1, bursts := y.bursts ++ [{ rtag := tag, off := x.issued, len := n, wr := x.mode == 1 }]
      pend := if d.rfld (chCtrl g c) 14 12 = 0 then y.pend else y.pend - 1 })
    (x.mode = 1 → d.dmaPermits (x.dstAt x.issued) true = true →
      exec (.dmaBurstIssue g) s = .next (s.withDev (d1.dmaReq g c 1 tag (x.dstAt x.issued) n (x.fillBytes n)))) ∧
    (x.mode = 0 → d.dmaPermits (x.srcAt x.issued) false = true → d.dmaPermits (x.dstAt x.issued) true = true →
      exec (.dmaBurstIssue g) s = .next (s.withDev (d1.dmaReq g c 0 tag (x.srcAt x.issued) n [])))) ∧
  (∀ (g : Fin 16) (s : State), 64 ≤ s.dev.dmaOutstanding g ∨ s.dev.dmaPick g = none → exec (.dmaBurstIssue g) s = .next s) ∧
  (∀ (g : Fin 16) (s : State) (r : MemResp) (d1 : Dev) (b : Burst),
    let c := r.rtag.toNat / 128
    let tag := r.rtag.toNat % 128
    let x := d1.dmaCh g c
    (x.gone.contains tag = false → r.status = 0 →
      (s.dev.takeResp (dmaNode g) (fun r => r.op == 0) = some (r, d1) → x.bursts.find? (fun b => b.rtag == tag / 2 * 2 && !b.wr) = some b → x.mode = 0 → x.err = 0 →
        exec (.dmaReadResponse g) s = .next (s.withDev ((d1.setBurst g c b.rtag (some { b with wr := true })).dmaReq g c 1 b.rtag (x.dstAt b.off) b.len r.data))) ∧
      (s.dev.takeResp (dmaNode g) (fun r => r.op == 1) = some (r, d1) → x.bursts.find? (fun b => b.rtag == tag && b.wr) = some b →
        exec (.dmaWriteResponse g) s = .next (s.withDev ((d1.setBurst g c b.rtag none).dmaFinish g c)))) ∧
    (x.gone.contains tag = true →
      (s.dev.takeResp (dmaNode g) (fun r => r.op == 0) = some (r, d1) → exec (.dmaReadResponse g) s = .next (s.withDev (d1.dmaGone g c tag))) ∧
      (s.dev.takeResp (dmaNode g) (fun r => r.op == 1) = some (r, d1) → exec (.dmaWriteResponse g) s = .next (s.withDev (d1.dmaGone g c tag))))) ∧
  (∀ (d : Dev) (g c : Nat),
    let x := d.dmaCh g c
    let d1 := (d.setBit (chStatus g c) 1 true).setBit (dmaReg g 4) c true
    let again := d1.rbit (chCtrl g c) 4 && !d1.rbit (chCtrl g c) 3
    x.busy = true → x.bursts = [] → x.err = 0 → x.abort = false → x.cmpAt = none → x.total ≤ x.issued → x.r 0x48 / 16 % 2 = 0 →
    d.dmaFinish g c = d1.modDma g c (fun y => { y with
      busy := again, issued := if again then 0 else y.issued, bursts := [], abort := false, cmpAt := none, err := 0, bad := false })) ∧
  (∀ (s : State) (src idx g0 : Nat) (rest : List (Nat × Nat × Nat)),
    let paced := ((List.range 16).flatMap (fun g => (List.range 32).map (fun c => (g, c)))).filter (fun p => s.dev.pacedBy p.1 p.2 src idx g0)
    let hit := fun (d : Dev) (p : Nat × Nat) =>
      if (d.dmaCh p.1 p.2).pend = 255 then (d.setBit (chStatus p.1 p.2) 5 true).raise (259 + 4 * p.1) 3 p.2
      else d.modDma p.1 p.2 (fun y => { y with pend := y.pend + 1 })
    (s.dev.pulses = [] → exec .dmaRequestPulse s = .next s) ∧
    (s.dev.pulses = (src, idx, g0) :: rest → exec .dmaRequestPulse s = .next (s.withDev (paced.foldl hit { s.dev with pulses := rest })))) ∧
  (∀ (g : Fin 16) (c : Fin 32) (s : State),
    let d := s.dev
    let x := d.dmaCh g c
    let stop := fun (d : Dev) => (d.modDma g c (fun y => { y with abort := true })).dmaFinish g c
    (d.dmaFree g c = true →
      exec (.dmaChEnWrite g c true) s = .next (s.withDev (d.setBit (chCtrl g c) 0 true)) ∧
      (x.busy = false → exec (.abort g c) s = .next s) ∧
      (x.busy = true → exec (.abort g c) s = .next (s.withDev (stop d))) ∧
      exec (.dmaChEnWrite g c false) s = .next (s.withDev ((d.setBit (chCtrl g c) 0 false).dmaAbort g c)) ∧
      (∀ v, exec (.shadowValidWrite g c v) s = .next (s.withDev (d.setBit (chCtrl g c) 3 v))) ∧
      (∀ (o : Fin 16) (v : W32),
        let a := dmaChReg g c (0x20 + 4 * o)
        (d.rbit (chCtrl g c) 3 = true → exec (.shadowRegisterWrite g c o v) s = .next (s.withDev (d.setBit (chStatus g c) 7 true))) ∧
        (d.rbit (chCtrl g c) 3 = false → o = 0 ∨ o = 2 ∨ o = 11 → exec (.shadowRegisterWrite g c o v) s = .next (s.withDev (d.holdLo a v))) ∧
        (d.rbit (chCtrl g c) 3 = false → o = 1 ∨ o = 3 ∨ o = 12 → exec (.shadowRegisterWrite g c o v) s = .next (s.withDev (d.pairWrite (a - 4) v))) ∧
        (d.rbit (chCtrl g c) 3 = false → o ∉ [0, 1, 2, 3, 11, 12] → ∀ l, regLoc a = some l →
          exec (.shadowRegisterWrite g c o v) s = .next (s.withDev (d.setReg a (accessWrite l.spec false (d.reg a) v)))))) ∧
    (d.dmaFree g c = false → ∀ b (o : Fin 16) v,
      exec (.dmaChEnWrite g c b) s = .next s ∧ exec (.abort g c) s = .next s ∧ exec (.shadowValidWrite g c b) s = .next s ∧ exec (.shadowRegisterWrite g c o v) s = .next s) ∧
    (d.resetting = false → d.dmaHeld g = false →
      exec (.chSrstWrite g c true) s = .next (s.withDev ((d.dmaReset g c).setBit (chCtrl g c) 2 true)) ∧
      exec (.chSrstWrite g c false) s = .next (s.withDev (d.setBit (chCtrl g c) 2 false))) ∧
    (d.resetting = false → d.rbit (rstReg 0x10) g = false →
      exec (.dmaSrstWrite g true) s = .next (s.withDev
        ((((((List.range 32).foldl (fun d c => d.dmaReset g c) d).setReg (dmaReg g 4) 0).setReg (dmaReg g 8) 0).setReg (dmaReg g 0xC) 1).modRegion g
          (fun r => { r with dmaRr := [] }))) ∧
      exec (.dmaSrstWrite g false) s = .next (s.withDev (d.setReg (dmaReg g 0xC) 0))))

/-- R368 to R377, R380. -/
def Obligations.ChannelsDeliverSamples : Prop :=
  ∀ (n : Fin 64) (s : State),
    let d := s.dev
    (∀ c, d.afeOn n = false ∨ d.afeValid n = false → exec (.sampleDeliver n c) s = .next s) ∧
    (∀ c : BitVec 32, d.afeOn n = true → d.afeValid n = true →
      let k : Int := if 8388607 < c.toInt then 8388607 else if c.toInt < -8388607 then -8388607 else c.toInt
      let d0 := if k = c.toInt then d else d.setBit (afeReg n 0x48) 1 true
      let x := d0.afe n
      let cfg := d.reg (afeReg n 0)
      let i := x.next
      let j := i / d0.afeB n
      let len := d0.rfld (afeReg n 0x28) 31 16
      let d2 := if i % d0.afeB n = 0 ∧ len ≠ 0 ∧ j % len = 0 then d0.setFld (afeReg n 0x28) 7 0 ((d0.afeEpoch n).toNat + 1) else d0
      let tag := n * 32 + x.wtag % 32
      let bits := sampleBits (cfg.getLsbD 19) (fld cfg 30 29) (d2.reg (afeReg n 0xC)) k
      let toks : List (W64 × Byte) :=
        if fld cfg 18 17 = 2 then
          [if cfg.getLsbD 19 then (BitVec.ofInt 64 k, tyByte 0 false false false) else (BitVec.ofNat 64 bits, tyByte 3 false false false)]
        else []
      let a := d2.pair (afeReg n 4) + 4 * (i % d2.afeS n)
      let last := (i + 1) % d2.afeB n == 0
      let y := blkAdd x.blks j x.wtag (d2.afeEpoch n) toks last
      let d1 := d2.modAfe n (fun (c : AfeCh) => { c with next := i + 1, wtag := c.wtag + 1, writes := c.writes ++ [(tag, y.2, last)], blks := y.1 })
      exec (.sampleDeliver n c) s = .next (s.withDev ((d1.request measNode (hbmDest a) false
        { op := 1, size := 2, addr := BitVec.ofNat 48 a, req := { die := 5 }, rtag := BitVec.ofNat 12 tag, operand := BitVec.ofNat 64 bits }).afePush n))) ∧
    (∀ d1, d.afeWritten n = some (true, d1) → exec (.channelBlockComplete n) s = .next (s.withDev (d1.afePush n))) ∧
    (d.afeWritten n = none → exec (.channelBlockComplete n) s = .next s) ∧
    (let x := d.modAfe n (fun c => { c with full := false })
     ((d.afe n).full = true → d.afeRoom n = true → exec (.channelCreditResume n) s = .next (s.withDev (x.afeGap n))) ∧
     ((d.afe n).full = false ∨ d.afeRoom n = false → exec (.channelCreditResume n) s = .next s)) ∧
    ((d.afe n).settle = true → d.afeOn n = true → d.domOn (44 + n / 16) = true →
      let i := firstIndex d.time.toNat (d.rfld (afeReg n 0) 24 21)
      exec (.settlingEnd n) s = .next (s.withDev
        (((((d.setBit (afeReg n 0x48) 31 true).setBit (afeReg n 0x48) 30 false).setPair (afeReg n 0x50) i).modAfe n (fun c => { c with settle := false, next := i })).tripUpdate))) ∧
    ((d.afe n).settle = false → exec (.settlingEnd n) s = .next s) ∧
    (∀ v, d.meas.cal = some (n / 16) → exec (.chCfgWrite n v) s = .next (s.withDev (d.modAfe n (fun c => { c with held := c.held ++ [(0, v)] })))) ∧
    (∀ v, d.meas.cal ≠ some (n / 16) → d.afeOn n = false → v.getLsbD 31 = false → fld v 27 25 ≠ 0 → fld v 30 29 ≠ 3 → fld v 27 25 < 6 → fld v 24 21 < 10 → fld v 18 17 ≠ 3 →
      exec (.chCfgWrite n v) s = .next (s.withDev (d.setReg (afeReg n 0) (v &&& 0xFFFFFF00#32)))) ∧
    (let v := d.reg (afeReg n 0) &&& 0x7FFFFF00#32
     d.meas.cal ≠ some (n / 16) → d.afeOn n = true → fld v 27 25 ≠ 0 → fld v 30 29 ≠ 3 → fld v 27 25 < 6 → fld v 24 21 < 10 → fld v 18 17 ≠ 3 →
      exec (.chCfgWrite n v) s = .next (s.withDev ((d.setReg (afeReg n 0) v).afeOffline n 3 false)))

/-- R378 to R383, R392. -/
def Obligations.SensorsLimitsAndTachometers : Prop :=
  (∀ (n : Fin 64) (s : State),
    let d := s.dev
    let st := afeReg n 0x48
    (∀ mv : W16, d.rfld (afeReg n 0) 27 25 ≠ 0 →
      let d1 := d.setReg (afeReg n 0x4C) (BitVec.ofNat 32 mv.toNat)
      let viepe := d1.rfld (afeCtlReg 0xC) 15 0
      let win := (d1.reg (afeReg n 0x40)).toNat
      ∃ k, exec (.biasMeasure n mv) s = .next (s.withDev (d1.modAfe n (fun c => { c with cls := k }))) ∧
        (mv.toNat < 1000 → k = 4) ∧ (1000 ≤ mv.toNat → viepe < mv.toNat + 3000 → k = 3) ∧
        (1000 ≤ mv.toNat → mv.toNat + 3000 ≤ viepe →
          (mv.toNat < win % 65536 → k = 1) ∧ (win % 65536 ≤ mv.toNat → (win / 65536 < mv.toNat → k = 2) ∧ (mv.toNat ≤ win / 65536 → k = 0)))) ∧
    (∀ mv, d.rfld (afeReg n 0) 27 25 = 0 → exec (.biasMeasure n mv) s = .next s) ∧
    (let k := (d.afe n).cls
     d.rfld (afeReg n 0) 27 25 ≠ 0 → d.rfld st 27 25 ≠ k →
      exec (.faultClassAdopt n) s = .next (s.withDev ((if k = 0 then d.setFld st 27 25 k else (d.setFld st 27 25 k).setBit st 3 true).raiseFree (400 + n) 0))) ∧
    (d.rfld st 27 25 = (d.afe n).cls → exec (.faultClassAdopt n) s = .next s) ∧
    (∀ cs, d.rbit (afeReg n 0x38) 4 = true → d.afeValid n = true → d.rbit st 28 = false → lastRun (d.rfld (afeReg n 0x38) 3 0) cs (d.beyond n) = true →
      exec (.limitActivate n cs) s = .next (s.withDev ((((d.setBit st 28 true).setBit st 4 true).raiseFree (400 + n) 0).tripUpdate))) ∧
    (∀ cs, d.rbit st 28 = true → exec (.limitActivate n cs) s = .next s) ∧
    (∀ cs, d.rbit st 28 = true → lastRun (d.rfld (afeReg n 0x38) 3 0) cs (fun c => !d.beyond n c) = true →
      exec (.limitDeactivate n cs) s = .next (s.withDev ((d.setBit st 28 false).tripUpdate))) ∧
    (∀ cs, d.rbit st 28 = false → exec (.limitDeactivate n cs) s = .next s)) ∧
  (∀ (v : W32) (s : State),
    let a := afeCtlReg 0
    let d := s.dev.setFld a 1 0 (fld v 1 0)
    let d := if v.getLsbD 29 then d.setBit a 29 false else d
    let g := fld v 1 0
    (v.getLsbD 31 = false → exec (.calStart v) s = .next (s.withDev d)) ∧
    (v.getLsbD 31 = true → d.meas.cal.isSome = true ∨ d.domOn (44 + g) = false ∨ d.rbit (afeCtlReg 4) 2 = false →
      exec (.calStart v) s = .next (s.withDev (d.setBit a 29 true))) ∧
    (v.getLsbD 31 = true → d.meas.cal = none → d.domOn (44 + g) = true → d.rbit (afeCtlReg 4) 2 = true →
      exec (.calStart v) s = .next (s.withDev ((((groupCh g).foldl (fun d n => (d.afeOffline n 0 false).setBit (afeReg n 0x48) 29 true) d).modMeas
        (fun m => { m with cal := some g })).setBit a 30 true)))) ∧
  (∀ (co : List (Option (W32 × BitVec 24))) (s : State),
    let held := fun (d : Dev) (n : Nat) (w : Nat × W32) => match findReg w.1 regsAfe with | some (r, _) => d.chWriteNow n w.1 r.rw r.w1c w.2 | none => d
    let one := fun (g : Nat) (d : Dev) (i : Nat) =>
      let n := 16 * g + i
      let d := match co.getD i none with
        | some (gain, offs) => (d.setReg (afeReg n 0x58) gain).setReg (afeReg n 0x5C) (offs.zeroExtend 32)
        | none => (d.setBit (afeCtlReg 0) 29 true).raiseFree (400 + n) 0
      ((d.afe n).held.foldl (fun d w => held d n w) ((d.setBit (afeReg n 0x48) 29 false).modAfe n (fun c => { c with held := [], settle := d.afeOn n })))
    (∀ g, s.dev.meas.cal = some g →
      exec (.calEnd co) s = .next (s.withDev (((List.range 16).foldl (one g) (s.dev.modMeas (fun m => { m with cal := none }))).setBit (afeCtlReg 0) 30 false))) ∧
    (s.dev.meas.cal = none → exec (.calEnd co) s = .next s)) ∧
  (∀ (t : Fin 8) (s : State),
    let d := s.dev.tachDrop t
    let st := tchReg t 0x30
    (∀ w, d.rbit (tchReg t 0) 31 = false → exec (.tachEdge t w) s = .next (s.withDev d)) ∧
    (∀ w : W16, d.rbit (tchReg t 0) 31 = true → w.toNat < d.rfld (tchReg t 8) 15 0 → exec (.tachEdge t w) s = .next (s.withDev (d.setBit st 0 true))) ∧
    (∀ w : W16, d.rbit (tchReg t 0) 31 = true → d.rfld (tchReg t 8) 15 0 ≤ w.toNat →
      let d1 := d.setBit st 2 false
      let x := mget {} d1.meas.tach t
      (x.edges < d1.rfld (tchReg t 0) 23 16 → exec (.tachEdge t w) s = .next (s.withDev (d1.modTach t (fun x => { x with edges := x.edges + 1 })))) ∧
      (d1.rfld (tchReg t 0) 23 16 ≤ x.edges → d1.rbit (tchReg t 0x18) 7 = false →
        let c := d1.pair (tchReg t 0x28) + 1
        let a := d1.pair (tchReg t 0x20) + 8 * (c % 4096)
        let d2 := (d1.modTach t (fun x => { x with edges := 0, ts := d1.time })).setPair (tchReg t 0x28) (c % 2 ^ 64)
        let d3 := d2.request measNode (hbmDest a) false
          { op := 1, size := 3, addr := BitVec.ofNat 48 a, req := { die := 5 }, rtag := BitVec.ofNat 12 (2048 + t), operand := d2.time }
        d3.rbit (tchReg t 0x18) 7 = false → exec (.tachEdge t w) s = .next (s.withDev d3))) ∧
    (let x := mget {} d.meas.tach t
     x.due = true → exec (.tachTokenTimer t) s = .next (s.withDev ((d.tachSend t x.ts (tyByte 8 false false false)).modTach t (fun x => { x with due := false })))) ∧
    ((mget {} d.meas.tach t).due = false → exec (.tachTokenTimer t) s = .next (s.withDev (d.modTach t (fun x => { x with busy := false })))) ∧
    (let d := s.dev
     (d.rbit (tchReg t 0) 31 = true → d.rfld (tchReg t 0xC) 15 0 ≠ 0 → d.rbit st 2 = false →
      let d1 := (d.setBit st 2 true).raiseFree (464 + t) 0
      exec (.tachTimeout t) s = .next (s.withDev (if d1.rbit (tchReg t 0x18) 7 then d1.tachSend t (status stTACH_STOPPED originBlock t) (tyByte 6 false false false) else d1))) ∧
     (d.rbit st 2 = true → exec (.tachTimeout t) s = .next s))) ∧
  (∀ (mv : W16) (b : Bool) (s : State),
    exec (.viepeLow mv) s = .next (s.withDev ((s.dev.setReg (afeCtlReg 0xC) (BitVec.ofNat 32 mv.toNat)).setBit (afeCtlReg 4) 3 (decide (mv.toNat < 26000)))) ∧
    exec (.align b) s = .next (s.withDev (s.dev.setBit (afeCtlReg 4) 0 b)))

/-- R384 to R389, R397. -/
def Obligations.TripsAndOutputsAct : Prop :=
  (∀ (v : W32) (s : State),
    let d := s.dev
    exec (.tripArmWrite v) s = .next (s.withDev ((d.setReg (tripReg 0) v).tripUpdate)) ∧
    exec (.tripReset v) s = .next (s.withDev (d.modTrip (fun r => { r with latched := r.latched &&& ~~~(v &&& ~~~d.tripRaw) })))) ∧
  (∀ (d : Dev) (l : Nat), l < 32 → mwf 0 d.regs = true →
    (((d.reg (tripReg 0)).getLsbD l = false ∨ (d.reg (tripReg 4)).getLsbD l = true ∨ (d.hwDemand).getLsbD l = true ∨ d.meas.trip.latched.getLsbD l = true) →
      (d.tripUpdate.reg (tripReg 0x10)).getLsbD l = true) ∧
    (d.tripRaw.getLsbD l = false → d.meas.trip.latched.getLsbD l = false → (d.tripUpdate.reg (tripReg 0x10)).getLsbD l = false)) ∧
  (∀ (s : State) (q : Packet) (t t' : Token) (d d1 : Dev) (b : Bool),
    s.dev.takeTok measNode (fun t => t.tag.clu != 1) = some (q, t, d) → d.blockTag measNode t (infieldIs t.tag 1 0 0) = (some t', d1) →
    let l := t'.tag.node.toNat
    (32 ≤ l → exec .tripRequest s = .next (s.withDev ((d1.blockError measNode t' stBAD_NODE l).ioAnswer q.src none))) ∧
    (l < 32 → copyOf (d1.reg (tripReg (0x100 + 8 * l))) (d1.reg (tripReg (0x104 + 8 * l))) t'.tag = some b →
      let dem := if Token.err t' || t'.pay != 0 then 1 else 0
      exec .tripRequest s = .next (s.withDev ((d1.modTrip (fun r =>
        if b then { r with latB := putFld r.latB l l dem, wdB := putFld r.wdB l l 0 } else { r with latA := putFld r.latA l l dem, wdA := putFld r.wdA l l 0 })).ioSignal q.src))) ∧
    (l < 32 → copyOf (d1.reg (tripReg (0x100 + 8 * l))) (d1.reg (tripReg (0x104 + 8 * l))) t'.tag = none →
      exec .tripRequest s = .next (s.withDev ((d1.blockError measNode t' stIO_UNBOUND l).ioAnswer q.src none)))) ∧
  (∀ (l : Fin 32) (s : State),
    let d := s.dev
    (∀ b, d.rfld (tripReg 0x24) 15 0 = 0 ∨ (if b then d.boundB else d.boundA).getLsbD l = false → exec (.tripWatchdog l b) s = .next s) ∧
    (∀ b, d.rfld (tripReg 0x24) 15 0 ≠ 0 → (if b then d.boundB else d.boundA).getLsbD l = true →
      let d1 := d.modTrip (fun r => if b then { r with wdB := putFld r.wdB l l 1 } else { r with wdA := putFld r.wdA l l 1 })
      (let n := d1.rfld (tripReg (0x100 + 8 * l)) 11 0; (d1.graph n).dup = false ∨ d1.copyLost n b = false) → exec (.tripWatchdog l b) s = .next (s.withDev d1)) ∧
    (∀ v, let d1 := d.setBit (tripReg 0x14) l v
      exec (.readbackMismatch l v) s = .next (s.withDev (if d1.rbit (tripReg 0x10) l = v then d1 else (d1.setBit (tripReg 0x18) l true).raiseFree (472 + l) 0))) ∧
    ((d.boundA &&& d.boundB).getLsbD l = true → d.meas.trip.latA.getLsbD l ≠ d.meas.trip.latB.getLsbD l →
      exec (.copyDisagree l) s = .next (s.withDev ((d.setBit (tripReg 0x1C) l true).raiseFree (472 + l) 0))) ∧
    ((d.boundA &&& d.boundB).getLsbD l = false ∨ d.meas.trip.latA.getLsbD l = d.meas.trip.latB.getLsbD l → exec (.copyDisagree l) s = .next s)) ∧
  (∀ (k : Fin 48) (v : W32) (s : State),
    let d := s.dev
    (k.val < 32 → ∀ regs, exec (.bindingWrite k regs v) s = .next (s.withDev
      ((if regs then d.setReg (tripReg (0x104 + 8 * k)) v else d.setFld (tripReg (0x100 + 8 * k)) 11 0 (fld v 11 0)).modTrip
        (fun r => { r with latA := putFld r.latA k k 1, latB := putFld r.latB k k 1, wdA := putFld r.wdA k k 0, wdB := putFld r.wdB k k 0 })))) ∧
    (32 ≤ k.val → ∀ regs, exec (.bindingWrite k regs v) s = .next (s.withDev
      ((if regs then d.setReg (aoutReg (k - 32) 0x10) v else d.setFld (aoutReg (k - 32) 0xC) 11 0 (fld v 11 0)).modMeas
        (fun x => { x with aout := mmod {} x.aout (k.val - 32) (fun (o : Aout) => { o with a := none, b := none }) }))))) ∧
  (∀ (s : State) (q : Packet) (t t' : Token) (d d1 : Dev) (b : Bool),
    s.dev.takeTok measNode (fun t => t.tag.clu == 1) = some (q, t, d) → d.blockTag measNode t (infieldIs t.tag 1 1 0) = (some t', d1) →
    let m := t'.tag.node.toNat
    let v : W32 := t'.pay.extractLsb' 0 32
    let ok := !Token.err t' && !isNan f32 v.toNat
    m < 16 → copyOf (d1.reg (aoutReg m 0xC)) (d1.reg (aoutReg m 0x10)) t'.tag = some b →
    let d2 := if ok && (dacCode v.toNat).2 then d1.setBit (aoutReg m 0x14) 3 true else d1
    exec .aoutRequest s = .next (s.withDev ((d2.modAout m (fun o => if b then { o with b := some (v, ok) } else { o with a := some (v, ok) })).ioSignal q.src))) ∧
  (∀ (m : Fin 16) (s : State),
    let d := s.dev
    let x := mget {} d.meas.aout m
    let d1 := d.modAout m (fun o => { o with a := none, b := none })
    (d.rbit (aoutReg m 0) 31 = false → exec (.aoutUpdate m) s = .next (s.withDev d1)) ∧
    (∀ v w, d.rbit (aoutReg m 0) 31 = true → d.rbit (aoutReg m 0x14) 7 = false → x.a = some (v, true) → x.b = some (w, true) → v = w →
      exec (.aoutUpdate m) s = .next (s.withDev (d1.aoutDrive m v))) ∧
    (∀ v, d.rbit (aoutReg m 0) 31 = true → d.rbit (aoutReg m 0x14) 7 = false → x.a = some (v, true) → x.b = none →
      exec (.aoutUpdate m) s = .next (s.withDev (d1.aoutDrive m v))) ∧
    (let d2 := (d1.setBit (aoutReg m 0x14) 1 true).modAout m (fun o => { o with miss := o.miss + 1 })
     d.rbit (aoutReg m 0) 31 = true → x.a = none → x.b = none →
      exec (.aoutUpdate m) s = .next (s.withDev (if d2.rfld (aoutReg m 0) 23 16 < x.miss + 1 then d2.aoutSafe m true else d2))) ∧
    exec (.restore m) s = .next (s.withDev ((d.setBit (aoutReg m 0x14) 7 false).setBit (aoutReg m 0x14) 6 false)))

/-- R230, R400, R406 to R417, R420. -/
def Obligations.StreamsAndCallRoom : Prop :=
  (∀ (p : Fin 2) (f : RxFrame) (fs : List RxFrame) (s : State),
    (s.dev.ethPort p).rx = f :: fs → exec (.frameClassify (.port p)) s = .next (s.withDev ((s.dev.modEth p (fun x => { x with rx := fs })).classify p f))) ∧
  (∀ (k : Fin 8) (bs : List Byte) (fcs jabber : Bool) (s : State),
    (s.dev.segOn k = false → exec (.frameClassify (.segment k bs fcs jabber)) s = .next s) ∧
    (s.dev.segOn k = true → exec (.frameClassify (.segment k bs false false)) s = .next (s.withDev (s.dev.setBit (segReg k 8) 4 true)) ∧
      exec (.frameClassify (.segment k bs true false)) s = .next (s.withDev (s.dev.classify (8 + k) { bytes := bs, ts := s.dev.time })))) ∧
  (∀ (s : State),
    let d := s.dev
    let flow := d.rfld (ingReg 0x50) 19 0
    let ws := (List.range 16).map (fun i => d.reg (ingReg (0x60 + 4 * i)))
    (entOk ws = true → d.flowBound flow = false → exec .ftWrite s = .next (s.withDev (d.writes (ingReg 0xA0) (d.ftStore flow ws))) ∧
      (Memory.wf d.mem = true → (d.ftStore flow ws).ftEntry flow = ws)) ∧
    (entOk ws = false ∨ d.flowBound flow = true → exec .ftWrite s = .next (s.withDev (d.writes (ingReg 0xA0) (d.setBit (ingReg 0xA0) 2 true)))) ∧
    exec .ftRead s = .next (s.withDev (d.writes (ingReg 0xA0) ((List.range 16).foldl (fun d i => d.setReg (ingReg (0x60 + 4 * i)) (d.ftWord flow i)) d)))) ∧
  (∀ (s : State) (q : Packet) (t t' : Token) (d d1 : Dev),
    s.dev.takeTok ingNode (fun _ => true) = some (q, t, d) → d.blockTag ingNode t (infieldIs t.tag 0 2 0) = (some t', d1) →
    let flow := fld t'.pay 19 0
    let answer := fun (d : Dev) (c : Nat) => d.ioAnswer q.src (some ((status c originBlock flow).toNat, 6, c != 0))
    fld t'.pay 63 33 = 0 → t'.pay.getLsbD 20 = false →
    (flow = 0 ∨ (d1.ftWord flow 0).getLsbD 31 = false → exec .bindRequest s = .next (s.withDev (answer d1 0xA01))) ∧
    (flow ≠ 0 → (d1.ftWord flow 0).getLsbD 31 = true → d1.ing.streams.find? (fun c => c.2.flow == flow) = none →
      let k := lowestFree (d1.ing.streams.map (·.1)) 0
      k < 65536 → exec .bindRequest s = .next (s.withDev (answer (d1.modIng (fun i => { i with
        streams := mput i.streams k { flow := flow, graph := t'.tag.graph, ctx := t'.tag.ctx, ent := d1.ftEntry flow } })) 0)))) ∧
  (∀ (s : State) (p : StrPkt) (ps : List StrPkt), s.dev.ing.data = p :: ps →
    let d := s.dev.modIng (fun i => { i with data := ps })
    (d.boundSlot (fun x => !x.going && x.source == p.source && x.id == p.stream) = none → exec .streamData s = .next (s.withDev (d.setBit (ingReg 0x30) 2 true))) ∧
    (∀ k, d.boundSlot (fun x => !x.going && x.source == p.source && x.id == p.stream) = some k →
      let x := d.str k
      (p.fmt ≠ fld x.cfg 31 28 ∨ p.rate ≠ fld x.cfg 27 24 ∨ p.nsamp = 0 ∨ p.len ≠ p.nsamp * strElemSize p.fmt →
        exec .streamData s = .next (s.withDev (d.setBit (ingReg 0x30) 3 true))) ∧
      (p.fmt = fld x.cfg 31 28 → p.rate = fld x.cfg 27 24 → p.nsamp ≠ 0 → p.len = p.nsamp * strElemSize p.fmt → p.sstat % 8 = 0 → p.gone = false → p.resync = false →
        (x.next = none ∨ x.next = some p.index → exec .streamData s = .next (s.withDev ((d.strPut k p.index (x.samples p)).strPush k))) ∧
        (∀ a, x.next = some a → p.index + p.nsamp ≤ a → exec .streamData s = .next (s.withDev (d.setBit (ingReg 0x30) 1 true)))))) ∧
  (∀ (k : BitVec 16) (s : State),
    let d := s.dev
    let n := k.toNat
    (∀ d1, d.ing.late = [] → d.strWritten n = some (true, d1) → exec (.streamBlockComplete k) s = .next (s.withDev (d1.strPush n))) ∧
    ((d.str n).full = true → d.strRoom n = true → exec (.streamCreditResume k) s = .next (s.withDev ((d.modStr n (fun x => { x with full := false })).strGap n))) ∧
    ((d.ing.streams.find? (fun c => c.1 == n)).isSome = true → (d.str n).going = false →
      exec (.streamGoneTimeout k) s = .next (s.withDev (((d.strFillBlock n).modStr n (fun x => { x with going := true })).strPush n)))) ∧
  (∀ (s : State),
    let d := s.dev
    (d.ing.cr = [] → exec .crDataRead s = .next s) ∧
    (∀ c cs, d.ing.cr = c :: cs → exec .crDataRead s = .next (s.withDev (d.modIng (fun i => { i with
      cr := if c.bytes.length ≤ c.pos + 4 then cs else { c with pos := c.pos + 4 } :: cs })))) ∧
    (∀ v : W32, exec (.dropPkt v) s = .next (s.withDev (d.writes (ingReg 0x3C) (if v.getLsbD 0 then d.modIng (fun i => { i with cr := i.cr.drop 1 }) else d)))) ∧
    (∀ c d1, d.takeCr 4 = some (c, d1) → exec .retire s = .next (s.withDev (d1.retireNode (BitVec.ofNat 64 (be c.bytes 4 8))))) ∧
    (∀ (pol : Fin 3) (hb : W16) (ents : List (List W32)) (c : CrPkt) (d1 : Dev), d.takeCr 1 = some (c, d1) →
      let src : W64 := BitVec.ofNat 64 (be c.bytes 4 8)
      let b := c.bytes.drop 32
      let ns := be b 0 1
      let d2 := d1.retireNode src
      let answer := fun (d : Dev) (x : List Byte) => d.crSend c.origin none (crMessage 2 (be c.bytes 14 2) d.time.toNat x)
      (ns = 0 ∨ 16 < ns ∨ b.length < 4 + 8 * ns → exec (.announce pol hb ents) s = .next (s.withDev d1)) ∧
      (∀ x d3, pol = 0 → c.origin < 8 → ns = 1 → 12 ≤ b.length →
        d2.admitStream src c.origin [] (be b 4 2) (be b 6 1) (be b 7 1) (be b 8 2) (ents.getD 0 []) = (0, some x, d3) →
        exec (.announce pol hb ents) s = .next (s.withDev (answer
          (d3.modIng (fun i => { i with nodes := i.nodes ++ [{ source := src, origin := c.origin, plca := 0, streams := [x] }] }))
          ([0, 0] ++ beBytes 2 hb.toNat ++ (beBytes 2 (be b 4 2) ++ [0, 0])))))) ∧
    (∀ src n, d.ing.nodes.find? (fun n => n.source == src) = some n →
      exec (.nodeHeartbeatLost src) s = .next (s.withDev ((d.sendRetire n.origin 2).retireNode src))) ∧
    (∀ (fl : BitVec 20), d.ing.rel.contains fl.toNat = true → d.flowBound fl.toNat = false →
      exec (.flowEntryRelease fl) s = .next (s.withDev ((d.modIng (fun i => { i with rel := i.rel.filter (· != fl.toNat) })).ftStore fl.toNat
        ((d.ftWord fl.toNat 0 &&& 0x7FFFFFFF#32) :: (d.ftEntry fl.toNat).drop 1)))) ∧
    (∀ v : W32, d.crBusy = true → exec (.crTxSend v) s = .next (s.withDev (d.writes (ingReg 0x44) d))) ∧
    (∀ v : W32, d.crBusy = false →
      let d1 := d.setReg (ingReg 0x44) (v &&& 0xF7FF#32)
      let bs := d1.ing.txbuf.take (fld v 10 0)
      exec (.crTxSend v) s = .next (s.withDev (d.writes (ingReg 0x44)
        (if !v.getLsbD 31 then d1 else (d1.modIng (fun i => { i with txbuf := [] })).crOut (fld v 15 12) (pcpOf bs) 2 bs)))) ∧
    (∀ (k : Fin 8) (id : BitVec 6), d.segOn k = false → exec (.plcaCollision k id) s = .next s) ∧
    (∀ (k : Fin 8) (id : BitVec 6), d.segOn k = true →
      let d2 := (((d.setBit (segReg k 8) 2 true).raiseFree (520 + k) 0).sendRetire (8 + k) 4).sendRetire (8 + k) 4
      exec (.plcaCollision k id) s = .next (s.withDev
        ((d2.ing.nodes.filter (fun n => n.origin == 8 + k.val && n.plca == id.toNat)).foldl (fun d n => d.retireNode n.source) d2))) ∧
    exec .rollcall s = .next (s.withDev (([0, 1] ++ (List.range 8).map (8 + ·)).foldl (fun d t =>
      let q := d.crSeq
      let id := if t < 8 then 0 else q.2.rfld (segReg (t - 8) 0) 5 0 + 1
      q.2.crSend t (some (2 ^ 48 - 1)) (crMessage 5 q.1 q.2.time.toNat [BitVec.ofNat 8 id, 0, 0, 0])) d)) ∧
    (∀ r sl e d1, d.takeMgmt ingNode isHorizon = some (.horizon r sl e, d1) → exec (.horizonReceive 16) s = .next (s.withDev (d1.ingHorizon r.toNat sl.toNat e))) ∧
    (∀ r sl e d1, d.takeMgmt measNode isHorizon = some (.horizon r sl e, d1) → exec (.horizonReceive 17) s = .next (s.withDev (d1.measHorizon r.toNat sl.toNat e))))

/-- R421 to R426. -/
def Obligations.PortsSendAndReceive : Prop :=
  ∀ (p : Fin 2) (sub : Fin 4) (s : State),
    let d := s.dev
    let x := d.ethPort p
    (∀ bs fcs, d.subUp p sub = false → exec (.ethFrameReceive p sub bs fcs) s = .next s) ∧
    (∀ bs, d.subUp p sub = true →
      exec (.ethFrameReceive p sub bs false) s = .next (s.withDev (d.ethCount p sub 2)) ∧
      (bs.length + 4 < 64 → exec (.ethFrameReceive p sub bs true) s = .next s) ∧
      (64 ≤ bs.length + 4 → d.rfld (ethReg p 0xC) 13 0 < bs.length + 4 →
        exec (.ethFrameReceive p sub bs true) s = .next (s.withDev ((d.setBit (ethReg p 0x48) 1 true).ethCount p sub 4))) ∧
      (64 ≤ bs.length + 4 → bs.length + 4 ≤ d.rfld (ethReg p 0xC) 13 0 →
        (∀ d1, (d.ethCount p sub 0).msecReceive p sub bs = (none, d1) → exec (.ethFrameReceive p sub bs true) s = .next (s.withDev d1)) ∧
        (∀ f d1, (d.ethCount p sub 0).msecReceive p sub bs = (some f, d1) → f.length + 4 ≤ 0x8000 →
          let y := d1.ethPort p
          let n := f.length + 4
          let d2 := d1.modEth p (fun x => { x with rx := x.rx ++ [{ sub := sub, prio := pcpOf f, ts := d1.time, bytes := f }] })
          (y.used (fun _ => true) + n ≤ 0x3C0000 → y.used (· != d1.fcpPcp p) + n ≤ 0x3C0000 → d2.pfcOn p (pcpOf f) = false →
            exec (.ethFrameReceive p sub bs true) s = .next (s.withDev d2)) ∧
          (0x400000 < y.used (fun _ => true) + n →
            exec (.ethFrameReceive p sub bs true) s = .next (s.withDev (((d1.setBit (ethReg p 0x48) 0 true).raiseFree (346 + p) 0).ethCount p sub 3)))))) ∧
    (∀ (c : Fin 8) (pause : Bool), d.subUp p sub = true →
      let d1 := d.ethCount p sub 5
      let rest := fun (x : EthPort) => x.paused.filter (· != 8 * sub.val + c)
      (d1.pfcOn p c = false → exec (.pfcFrame p sub c pause) s = .next (s.withDev d1)) ∧
      (d1.pfcOn p c = true →
        exec (.pfcFrame p sub c true) s = .next (s.withDev (d1.modEth p (fun x => { x with paused := (8 * sub.val + c) :: rest x }))) ∧
        exec (.pfcFrame p sub c false) s = .next (s.withDev ((d1.modEth p (fun x => { x with paused := rest x })).ethKick p)))) ∧
    (∀ c : Fin 8, x.xoff.contains c.val = true → x.used (· == c.val) < 0x40000 →
      exec (.xon p c) s = .next (s.withDev ((d.modEth p (fun x => { x with xoff := x.xoff.filter (· != c.val) })).sendPfc p c false))) ∧
    (∀ c : Fin 8, x.xoff.contains c.val = false → exec (.xon p c) s = .next s) ∧
    (∀ v : W32,
      let d1 := d.setReg (ethReg p 0x44) (v &&& 0x2000FFFF#32)
      (x.busy = true → exec (.ethTxGo p v) s = .next (s.withDev (d.writes (ethReg p 0x44) d))) ∧
      (x.busy = false → v.getLsbD 31 = false → exec (.ethTxGo p v) s = .next (s.withDev (d.writes (ethReg p 0x44) d1))) ∧
      (x.busy = false → v.getLsbD 31 = true →
        let bs := d1.read (d1.pair (ethReg p 0x3C)) (fld v 13 0)
        exec (.ethTxGo p v) s = .next (s.withDev (d.writes (ethReg p 0x44) ((d1.modEth p (fun x => { x with busy := true })).ethSend p (fld v 15 14) (pcpOf bs) 1 bs))))) ∧
    (x.busy = true → x.txq.any (fun f => f.mark == 1) = false →
      let d1 := d.modEth p (fun x => { x with busy := false })
      exec (.ethTxDone p) s = .next (s.withDev (if d1.rbit (ethReg p 0x44) 29 then d1.setPair (ethReg p 0x58) d1.time.toNat else d1))) ∧
    (x.busy = false → exec (.ethTxDone p) s = .next s) ∧
    (∀ up, up = d.subUp p sub → exec (.subportLinkChange p sub up) s = .next s) ∧
    (d.subUp p sub = true → exec (.subportLinkChange p sub false) s = .next (s.withDev
      (((((d.setBit (ethReg p 4) sub false).setBit (ethReg p 4) (4 + sub) true).raiseFree (336 + 4 * p + sub) 0).relayLink p sub false).ethKick p))) ∧
    (d.subUp p sub = false → sub.val < subports (d.rfld (ethReg p 0) 2 0) → d.domOn (37 + p) = true → d.islands.contains (301 + p.val) = true → d.rbit (rstReg 0xC) (12 + p) = false →
      exec (.subportLinkChange p sub true) s = .next (s.withDev
        ((((d.setBit (ethReg p 4) sub true).raiseFree (336 + 4 * p + sub) 0).relayLink p sub true).ethKick p))) ∧
    (∀ v : W32,
      let old := d.rfld (ethReg p 0) 2 0
      let m := if 6 ≤ fld v 2 0 then old else fld v 2 0
      let d1 := if m = old then d else d.portDown p
      let d2 := if fld v 5 4 = 3 then d1 else d1.setFld (ethReg p 0) 5 4 (fld v 5 4)
      exec (.ethModeWrite p v) s = .next (s.withDev (d.writes (ethReg p 0) ((d2.setFld (ethReg p 0) 3 3 (fld v 3 3)).setFld (ethReg p 0) 2 0 m))))

/-- R194, R427 to R431. -/
def Obligations.DeviceTimeIsKept : Prop :=
  ∀ (s : State),
    let d := s.dev
    ((d.rst.phase = 0 ∨ d.rst.cold = false) → d.reg (ptpReg 0x10) = 0 → d.tick = { d with time := d.time + 1 }) ∧
    ((d.rst.phase = 0 ∨ d.rst.cold = false) →
      let adj : Int := max (-2147484) (min 2147484 (d.reg (ptpReg 0x10)).toInt)
      ((d.tick.time.toNat * 2 ^ 32 + d.tick.frac.toNat : Nat) : Int) = ((d.time.toNat * 2 ^ 32 + d.frac.toNat : Nat) + (2 ^ 32 + adj)) % 2 ^ 96) ∧
    (∀ hi : W32,
      let d1 := d.pairWrite (ptpReg 8) hi
      let step : W64 := hi ++ d1.reg (ptpReg 8)
      exec (.ptpStep hi) s = .next (s.withDev (((({ d1.pacerStep d1.time step with time := d1.time + step } : Dev).setBit (ptpReg 0x28) 2 true).raiseFree 348 0).measStep step.toInt.natAbs))) ∧
    (∀ (was step : W64), (step.msb = false → (∀ g < 16, ∀ e ∈ (d.region g).pacer, reached was e.deadline = true ∨ reached (was + step) e.deadline = false) →
      d.pacerStep was step = d)) ∧
    exec .ppsOutEdge s = .next (s.withDev (if d.rbit (ptpReg 0x14) 1 then
      { d with ppsOut := (d.time.toNat / 1000000000, min 50000 (max 1 (d.rfld (ptpReg 0x18) 15 0))) } else d)) ∧
    exec .ppsInEdge s = .next (s.withDev { d.setPair (ptpReg 0x1C) d.time.toNat with ppsSeen := true }) ∧
    (d.ppsSeen = true → exec .ppsInLost s = .next (s.withDev ((({ d with ppsSeen := false } : Dev).setBit (ptpReg 0x28) 1 true).raiseFree 349 0))) ∧
    (d.ppsSeen = false → exec .ppsInLost s = .next s) ∧
    (d.rbit (ptpReg 0x24) 7 = true → d.rbit (ptpReg 0x24) 5 = true → exec .synceLost s = .next (s.withDev
      ((((d.setBit (ptpReg 0x24) 5 false).setBit (ptpReg 0x24) 6 true).setBit (ptpReg 0x28) 0 true).raiseFree 350 0))) ∧
    (d.rbit (ptpReg 0x24) 7 = true → exec .synceRelock s = .next (s.withDev ((d.setBit (ptpReg 0x24) 5 true).setBit (ptpReg 0x24) 6 false))) ∧
    (d.rbit (ptpReg 0x24) 7 = false → exec .synceLost s = .next s ∧ exec .synceRelock s = .next s)

/-- R433 to R443. -/
def Obligations.RelayLinkKeepsOrder : Prop :=
  (∀ (s : State) (q : Packet) (t : Token) (d : Dev), s.dev.takeTok rlyNode (fun _ => true) = some (q, t, d) →
    let dev := t.tag.dev.toNat
    (t.tag.dev = d.devNo → exec .relayTokenEnqueue s = .next (s.withDev (d.blockSend rlyNode t))) ∧
    (t.tag.dev ≠ d.devNo → d.routeOf dev = none →
      exec .relayTokenEnqueue s = .next (s.withDev ((d.setBit (rlyReg 0x7C) 3 true).blockError rlyNode t stRELAY_NOROUTE dev))) ∧
    (∀ p, t.tag.dev ≠ d.devNo → d.routeOf dev = some p → d.rly.moves.any (fun m => m.1 == dev) = false → (d.peer p).st = 2 ∨ (d.peer p).st = 3 →
      (d.peer p).ring.length < d.ringRecs →
      exec .relayTokenEnqueue s = .next (s.withDev (d.modPeer p (fun x => { x with q := x.q ++ [.token t], full := false }))))) ∧
  (∀ (p : BitVec 8) (s : State),
    let d := s.dev
    let n := p.toNat
    let x := d.peer n
    let c := d.peerCfg n
    (x.st ≠ 2 ∨ d.peerWin n ≤ x.frames.length → exec (.relayFrameClose p) s = .next s) ∧
    (x.st = 2 → x.frames.length < d.peerWin n →
      let r := takeRecs (d.frameRecs n) (x.rq - (x.sent - x.grant).toNat) x.q
      (r.1 = [] → exec (.relayFrameClose p) s = .next s) ∧
      (r.1 ≠ [] → exec (.relayFrameClose p) s = .next (s.withDev ((d.modPeer n (fun x => { x with
        q := r.2, frames := x.frames ++ [(x.seq, r.1)], seq := x.seq + 1, sent := x.sent + BitVec.ofNat 32 (r.1.filter (·.isTok)).length })).relayData n (x.seq, r.1))))) ∧
    (x.st = 2 → x.frames ≠ [] →
      (x.tries + 1 < max 1 (d.rfld (rlyReg 0x10) 31 24) →
        exec (.relayRto p) s = .next (s.withDev ((d.modPeer n (fun x => { x with tries := x.tries + 1 })).goBack n))) ∧
      (max 1 (d.rfld (rlyReg 0x10) 31 24) ≤ x.tries + 1 → exec (.relayRto p) s = .next (s.withDev (d.peerDown n)))) ∧
    (x.st ≠ 2 → exec (.relayRto p) s = .next s) ∧
    (x.st = 3 → exec (.relayHoldExpiry p) s = .next (s.withDev (d.peerDown n))) ∧
    (x.st ≠ 3 → exec (.relayHoldExpiry p) s = .next s) ∧
    (c.getLsbD 31 = true → x.st ≤ 1 → d.subUp (peerPort c) (peerSub c) = true →
      exec (.syncTimer p) s = .next (s.withDev ((d.modPeer n (fun x => { x with st := 1 })).relaySync n))) ∧
    (c.getLsbD 31 = false ∨ 2 ≤ x.st → exec (.syncTimer p) s = .next s) ∧
    (x.st = 2 → exec (.relayAckTimer p) s = .next (s.withDev (d.relaySend n 1 0 []))) ∧
    (x.st ≠ 2 → exec (.relayAckTimer p) s = .next s) ∧
    (let e := d.sideLists
     ((e.peer n).rx = [] → exec (.relayRecordDeliver p) s = .next (s.withDev e)) ∧
     (∀ t b rest, (e.peer n).rx = (t, b) :: rest → Tag.crcOk t.tag = false → exec (.relayRecordDeliver p) s = .next (s.withDev ((e.recTaken n).raiseFree 355 n))) ∧
     (∀ t b rest, (e.peer n).rx = (t, b) :: rest → Tag.crcOk t.tag = true → t.tag.dev = e.devNo → e.hubCredit t = true →
       mget [] e.rly.side (regionOf t.tag.die.toNat t.tag.rgn.toNat) = [] →
       exec (.relayRecordDeliver p) s = .next (s.withDev ((e.recTaken n).blockSend rlyNode t))))) ∧
  (∀ (s : State) (f : RelayRx) (d : Dev),
    let p := f.peer
    let bs := f.bytes
    let x := d.peer p
    let ack : W32 := BitVec.ofNat 32 (be bs 12 4)
    let grant : W32 := BitVec.ofNat 32 (be bs 16 4)
    (∀ rs, s.dev.relayFront 0 = some (f, d) → x.st = 2 → relayHdrOk bs (d.frameRecs p) = true → recsOf bs (be bs 6 2) = some rs →
      (be bs 8 4 = x.expect.toNat →
        exec .relayData s = .next (s.withDev ((rs.foldl (fun (d : Dev) r => match r with | .horizon g k e => d.importHz x.dev g k e | _ => d) (d.modPeer p (fun x => { x with
          expect := x.expect + 1, nak := false
          rx := x.rx ++ rs.filterMap (fun r => match r with | .token t => some (t, true) | _ => none) }))).relayAck p ack grant))) ∧
      (be bs 8 4 ≠ x.expect.toNat → x.nak = true → exec .relayData s = .next (s.withDev d)) ∧
      (be bs 8 4 ≠ x.expect.toNat → x.nak = false → exec .relayData s = .next (s.withDev ((d.modPeer p (fun x => { x with nak := true })).relaySend p 2 0 [])))) ∧
    (x.st = 2 → relayHdrOk bs 0 = true → be bs 8 4 = 0 →
      (s.dev.relayFront 1 = some (f, d) → exec .ack s = .next (s.withDev (d.relayAck p ack grant))) ∧
      (s.dev.relayFront 2 = some (f, d) → exec .nak s = .next (s.withDev ((d.relayAck p ack grant).goBack p)))) ∧
    (let r := (bs.drop 28).take 32
     let src := be bs 2 2
     let up := decide (2 ≤ x.st)
     let mine := be bs 4 2 == d.devNo.toNat
     s.dev.relayFront 3 = some (f, d) → relayHdrOk bs 1 = true → be bs 6 2 = 1 → be r 25 1 = 2 → be r 26 6 = 0 → be r 12 13 = 0 →
     (be bs 20 4 ≠ (d.reg (rlyReg 4)).toNat ∨ src = d.devNo.toNat → exec .sync s = .next (s.withDev ((d.setBit (rlyReg 0x7C) 2 true).raiseFree 354 p))) ∧
     (be bs 20 4 = (d.reg (rlyReg 4)).toNat → src ≠ d.devNo.toNat →
      let d1 := (if up then ((d.peerLost p (x.ring.filter (·.isTok)).length).stopResend p (x.frames.map (·.1))).raiseFree 352 p else d).modPeer p (fun x => { x with
        st := if mine then 2 else 1, dev := BitVec.ofNat 14 src, known := true, rq := be r 0 4, q := if up then [] else x.q, frames := [], seq := 0
        expect := BitVec.ofNat 32 (be r 8 4), sent := 0, grant := 0, taken := 0, nak := false, tries := 0, full := false, rx := x.rx.map (fun r => (r.1, false)) })
      exec .sync s = .next (s.withDev ((if !mine || !(d1.peer p).told then d1.relaySync p else d1).relayMoves))))) ∧
  (∀ (d : Dev) (p : Nat) (ack grant : W32),
    let x := d.peer p
    let first := (x.frames.head?.map (·.1)).getD x.seq
    let d1 := d.modPeer p (fun x => { x with grant := grant })
    ((ack - first).msb = true → d.relayAck p ack grant = d1) ∧
    ((ack - first).msb = false → x.frames.length < (ack - first).toNat → d.relayAck p ack grant = d1.setBit (rlyReg 0x7C) 1 true) ∧
    (ack = first → d.relayAck p ack grant = d1) ∧
    (ack ≠ first → (ack - first).msb = false → (ack - first).toNat ≤ x.frames.length →
      d.relayAck p ack grant = ((d1.modPeer p (fun x => { x with frames := x.frames.drop (ack - first).toNat, tries := 0, full := false })).stopResend p
        ((x.frames.take (ack - first).toNat).map (·.1))).relayMoves)) ∧
  (∀ (v : W32) (s : State),
    let d := s.dev
    let dev := d.rfld (rlyReg 0x44) 13 0
    let d1 := d.setReg (banked (rlyReg 0x48) dev) (v &&& 0x800000FF#32)
    let old := (d1.rly.peers.filter (fun c => c.1 != fld v 7 0 && decide (2 ≤ c.2.st) && c.2.ring.any (fun r => r.dev? == some dev))).map (fun c => (dev, c.1))
    (v.getLsbD 31 = false → exec (.rlyRouteWrite v) s = .next (s.withDev (d.writes (rlyReg 0x48) d1))) ∧
    (v.getLsbD 31 = true → exec (.rlyRouteWrite v) s = .next (s.withDev (d.writes (rlyReg 0x48)
      (d1.modRly (fun r => { r with moves := r.moves ++ old.filter (fun m => !r.moves.contains m) }))))))

/-- R448 to R459. -/
def Obligations.FcpPacketsAreTested : Prop :=
  (∀ (s : State) (p : FcpRx) (ps : List FcpRx), s.dev.fcp.rx = p :: ps →
    let d := s.dev.modFcp (fun f => { f with rx := ps })
    let b := p.bytes
    let n := be b 6 2
    let seq : W32 := BitVec.ofNat 32 (be b 8 4)
    let plen := be b 16 4
    let fofs := be b 24 4
    let total := be b 28 4
    let whole := 32 ≤ b.length ∧ be b 0 4 = 0x46455257 ∧ be b 4 1 = 1 ∧ plen ≤ 8192 ∧ fofs + plen ≤ total ∧ total ≤ 65536
    let c : FcpCmd := { seq := seq, op := be b 12 2, rtag := BitVec.ofNat 32 (be b 20 4), route := p.route }
    (d.fcpServed = false → exec .fcpPacketReceive s = .next (s.withDev d)) ∧
    (d.fcpServed = true →
      (b.length < 32 ∨ be b 0 4 ≠ 0x46455257 → exec .fcpPacketReceive s = .next (s.withDev (d.cmdBit 0))) ∧
      (whole → be b 5 1 = 0 → n = 0 → 32 + plen ≤ b.length → exec .fcpPacketReceive s = .next (s.withDev (d.fcpFragment 0 fofs total { c with par := sub b 32 plen }))) ∧
      (whole → be b 5 1 = 0 → n ≠ 0 → 32 + plen ≤ b.length → exec .fcpPacketReceive s = .next (s.withDev (d.cmdBit 0))) ∧
      (whole → be b 5 1 = 2 → n ≠ 0 → 48 + plen ≤ b.length →
        (64 < n ∨ (d.sess n).st = 0 → exec .fcpPacketReceive s = .next (s.withDev (d.cmdBit 1))) ∧
        (n ≤ 64 → (d.sess n).st ≠ 0 → Config.gcmOpen (d.sess n).h2d (fcpNonce 0 seq fofs) (b.take 32) (sub b 32 (plen + 16)) = none →
          exec .fcpPacketReceive s = .next (s.withDev ((d.cmdBit 2).sessEvent n 4)))))) ∧
  (∀ (d : Dev) (n : Nat) (c : FcpCmd), n ≠ 0 →
    let x := d.sess n
    (c.seq = x.last → x.run.isSome = true → d.fcpRequest n c = d.fcpAnswer n c fPENDING 0) ∧
    (c.seq = x.last → x.run = none → x.close = none → ∀ r st par, x.reply = some (r, st, par) → d.fcpRequest n c = d.fcpSendReply n { r with route := c.route } st 1 par) ∧
    (c.seq ≠ x.last → x.last.toNat = 2 ^ 32 - 1 → d.fcpRequest n c = d.fcpAnswer n c fSEQ_EXHAUSTED 0) ∧
    (c.seq.toNat < x.last.toNat → x.last.toNat ≠ 2 ^ 32 - 1 → d.fcpRequest n c = d) ∧
    (x.last.toNat < c.seq.toNat → x.run.isSome = true → c.op ≠ 0x12 → d.fcpRequest n c = d.fcpAnswer n c fBUSY 0) ∧
    (x.last.toNat < c.seq.toNat → x.run = none → d.opcodeTest n c.op = none → (d.modSess n (fun x => { x with last := c.seq, reply := none })).opcodeTest n c.op = none →
      d.fcpRequest n c = (d.modSess n (fun x => { x with last := c.seq, reply := none })).modSess n (fun x => { x with run := some c }))) ∧
  (∀ (n : Nat) (k : Fin 65) (s : State),
    let d := s.dev
    let x := d.sess k
    exec (.fcpReassemblyTimeout n) s = .next (s.withDev (d.modFcp (fun f => { f with parts := f.parts.eraseIdx n }))) ∧
    (∀ c, x.run = some c → c.long = false → exec (.fcpPendingTimer k) s = .next (s.withDev
      ((d.modSess k (fun x => { x with run := some { c with long := true } })).fcpAnswer k c fPENDING 0))) ∧
    (∀ c, x.run = some c → c.long = true → exec (.fcpPendingTimer k) s = .next s) ∧
    (x.st = 1 → exec (.sessionHalfOpenTimeout k) s = .next (s.withDev (d.freeSess k))) ∧
    (x.st ≠ 1 → exec (.sessionHalfOpenTimeout k) s = .next s) ∧
    (x.st = 2 → d.rfld (cmdReg 0x10) 15 0 ≠ 0 → exec (.sessionIdleTimeout k) s = .next (s.withDev ((d.freeSess k).sessEvent k 3))) ∧
    (x.st ≠ 2 → exec (.sessionIdleTimeout k) s = .next s)) ∧
  (∀ (k : Fin 65) (s : State) (c : FcpCmd),
    let d := s.dev
    (d.fcpRun k 0x10 = some c → c.par.length = 1220 → be c.par 1 3 = 0 → d.fuseBad = false →
      let slot := be c.par 0 1
      (64 ≤ d.sessCount 1 + d.sessCount 2 → exec (.sessionOpen k) s = .next (s.withDev (d.fcpFinal k c fNO_SESSION 0 []))) ∧
      (d.sessCount 1 + d.sessCount 2 < 64 → 4 ≤ d.sessCount 1 → exec (.sessionOpen k) s = .next (s.withDev (d.fcpFinal k c fBUSY 0 []))) ∧
      (d.sessCount 1 + d.sessCount 2 < 64 → d.sessCount 1 < 4 →
        (64 ≤ slot ∨ (d.keySlot slot).typ ≠ 1 ∨ (d.keySlot slot).roles = 0 → exec (.sessionOpen k) s = .next (s.withDev (d.fcpFinal k c fAUTH_FAILED 0 []))) ∧
        (∀ n, slot < 64 → (d.keySlot slot).typ = 1 → (d.keySlot slot).roles ≠ 0 → d.freeSession = some n →
          ∃ (nd ct key t1 : List Byte) (d1 : Dev), d1 = { d with fresh := d1.fresh } ∧
            exec (.sessionOpen k) s = .next (s.withDev ((d1.modSess n (fun x => { st := 1, slot := slot, t1 := t1, key := key, ev := x.ev })).fcpFinal k c fOK 0
              (beBytes 2 n ++ [0, 0] ++ nd ++ ct ++ beBytes 4 17088 ++ fit 17088 (Config.slhSign (idSeed s.fuses) t1))))))) ∧
    (d.fcpRun k 0x11 = some c → 4 ≤ c.par.length → c.par.length = 4 + be c.par 0 4 →
      let x := d.sess k
      let key := d.keySlot x.slot
      let ok := be c.par 0 4 = sigLen key.pset ∧
        Config.slhVerify key.pset (KeySlot.pk key) (beBytes 48 (Config.sha384 (x.t1 ++ strHost)).toNat) (c.par.drop 4) = true
      (ok → exec (.sessionAuth k) s = .next (s.withDev (((d.modSess k (fun x => { x with st := 2, roles := key.roles })).fcpFinal k c fOK 0 []).sessEvent k 1))) ∧
      (¬ ok → exec (.sessionAuth k) s = .next (s.withDev ((((d.fcpFinal k c fAUTH_FAILED 0 []).freeSess k).cmdBit 3).sessEvent k 7)))) ∧
    (d.fcpRun k 0x12 = some c → c.par = [] → (d.sess k).close = none →
      exec (.sessionClose k) s = .next (s.withDev (((d.fcpFinal k c fOK 0 []).freeSess k).sessEvent k 2))) ∧
    (d.fcpServed = true → (d.sess k).close = some c → c.par = [] →
      exec (.sessionClose k) s = .next (s.withDev (((d.fcpAnswer k c fOK 0).freeSess k).sessEvent k 2))))

/-- R461, R467, R514 to R521, R545. -/
def Obligations.HostCommandsReply : Prop :=
  ∀ (k : Fin 65) (s : State) (c : FcpCmd),
    let d := s.dev
    let f := s.fuses
    let reply := fun (d : Dev) (par : List Byte) => Host.Outcome.next (s.withDev (d.fcpFinal k c fOK 0 par))
    let refuse := fun (st detail : Nat) => Host.Outcome.next (s.withDev (d.fcpFinal k c st detail []))
    let p := c.par
    (d.fcpRun k 0x01 = some c → (p.length ≤ 1024 → exec (.ping k) s = reply d p) ∧ (1024 < p.length → exec (.ping k) s = refuse fBAD_PARAM 1024)) ∧
    (d.fcpRun k 0x02 = some c → p = [] → let x := d.infoBytes f
      exec (.getInfo k) s = reply x.2 (x.1 ++ beBytes 4 x.2.certBytes.length ++ x.2.certBytes)) ∧
    (d.fcpAny k 0x20 = some c → p.length = 12 → be p 0 2 = 1 → be p 2 2 = 0 → c.stage = 0 → c.aux = [] → ∀ e, (∀ b, e ≠ .ue b) →
      let a := be p 4 8
      sramBase ≤ a → a + 4 ≤ sramBase + 0x800000 → d.fcpBarred a false = false → exec (.regRead k e) s = reply d (beBytes 4 (d.readLe a 4))) ∧
    (d.fcpAny k 0x21 = some c → p.length = 16 → be p 0 2 = 1 → be p 2 2 = 0 → c.stage = 0 →
      let a := be p 4 8
      sramBase ≤ a → a + 4 ≤ sramBase + 0x800000 → d.fcpBarred a true = false →
        exec (.regWrite k .ok) s = .next (s.put ((d.writeLe a 4 (be p 12 4)).fcpFinal k c fOK 0 []))) ∧
    (d.fcpRun k 0x30 = some c → 4 ≤ p.length → be p 0 4 + (p.length - 4) ≤ d.stageSize →
      let a := d.stageBase k + be p 0 4
      d.hbmReady a (p.length - 4) = true → exec (.imageWrite k) s = reply (d.write a (p.drop 4)) []) ∧
    (d.fcpRun k 0x50 = some c → p.length = 16 → be p 8 2 ≤ 4095 → be p 10 2 = 0 → be p 12 4 < 2 ^ 22 →
      let x := d.bindStream (BitVec.ofNat 64 (be p 0 8)) (BitVec.ofNat 12 (be p 8 2)) (BitVec.ofNat 22 (be p 12 4))
      exec (.streamBind k) s = .next (s.withDev (if x.1 = 0 then x.2.fcpFinal k c fOK 0 [] else x.2.fcpFinal k c fSTREAM x.1 []))) ∧
    (d.fcpRun k 0x51 = some c → p.length = 8 → be p 0 4 < 2 ^ 20 → be p 4 1 ≤ 1 → be p 5 3 = 0 →
      (∀ j x, d.ing.streams.find? (fun x => x.2.flow == be p 0 4) = some (j, x) →
        exec (.streamUnbind k) s = reply (if be p 4 1 = 1 then d.strGo j else d.unbind j) []) ∧
      (d.ing.streams.find? (fun x => x.2.flow == be p 0 4) = none → exec (.streamUnbind k) s = reply d [])) ∧
    (p.length = 16 → be p 0 1 ≤ 4 → be p 1 7 = 0 → quietBad p = false →
      let rule := some (be p 0 1, BitVec.ofNat 64 (be p 8 8))
      let q := d.ing.quiesce
      (d.fcpRun k 0x52 = some c → (∀ i, q.findIdx? (· == rule) = some i → exec (.quiesce k) s = reply d (beBytes 1 i)) ∧
        (q.findIdx? (· == rule) = none → q.findIdx? (·.isNone) = none → q.length < 64 →
          exec (.quiesce k) s = reply (d.modIng (fun g => { g with quiesce := q ++ [rule] })) (beBytes 1 q.length))) ∧
      (d.fcpRun k 0x53 = some c → exec (.resume k) s = reply (d.modIng (fun g => { g with quiesce := g.quiesce.map (fun r => if r == rule then none else r) })) [])) ∧
    (d.fcpRun k 0x60 = some c → p.length = 4 → be p 0 4 ≤ d.stageSize →
      let r := imageCheck (d.shadows f) d.secMin (d.staged k) (some (be p 0 4)) 6
      (r = 0 → exec (.fwStage k) s = .next (s.withDev (d.fcpStage k c 1 [be p 0 4]))) ∧ (r ≠ 0 → exec (.fwStage k) s = refuse fIMAGE_BAD r)) ∧
    (d.fcpRun k 0x61 = some c → p.length = 4 → be p 0 1 ≤ 1 → be p 1 3 = 0 →
      (d.boot.staged = none → exec (.fwCommit k) s = refuse fIMAGE_BAD 9) ∧
      (∀ slot h, d.boot.staged = some (slot, h) →
        let d1 := (d.leaveWarmup.writeRec slot true h).fcpFinal k c fOK 0 []
        exec (.fwCommit k) s = .next (s.withDev (if be p 0 1 = 1 then d1.fcpLater 7 0 else d1)))) ∧
    (d.fcpRun k 0x70 = some c → p.length = 4 →
      (be p 0 1 = 7 → be p 1 3 = 0 → exec (.reset k) s = .next (s.withDev ((d.fcpFinal k c fOK 0 []).fcpLater 7 0))) ∧
      (be p 0 1 ≤ 1 → be p 1 3 = 0 → exec (.reset k) s = .next (s.withDev ((d.leaveWarmup.fcpFinal k c fOK 0 []).fcpLater (be p 0 1) 0))) ∧
      (2 ≤ be p 0 1 → be p 0 1 ≤ 4 → be p 1 1 ≤ 3 → be p 2 1 ≤ 3 → be p 3 1 ≤ 16 →
        let n := tileKey (4 * be p 1 1 + be p 2 1) (be p 3 1)
        exec (.reset k) s = .next (s.withDev (((d.blockReset (be p 0 1) n true).fcpFinal k c fOK 0 []).fcpLater (be p 0 1) n))) ∧
      (be p 0 1 = 5 → be p 1 1 ≤ 3 → be p 2 1 ≤ 3 → be p 3 1 = 0 →
        let n := 4 * be p 1 1 + be p 2 1
        exec (.reset k) s = .next (s.withDev (((d.blockReset 5 n true).fcpFinal k c fOK 0 []).fcpLater 5 n))) ∧
      (be p 0 1 = 6 → be p 1 1 ≤ 3 → be p 2 1 = 0 → be p 3 1 = 0 →
        exec (.reset k) s = .next (s.withDev (((d.blockReset 6 (be p 1 1) true).fcpFinal k c fOK 0 []).fcpLater 6 (be p 1 1))))) ∧
    (∀ i kind n, d.fcp.acts[i]? = some (kind, n) →
      let d1 := d.modFcp (fun x => { x with acts := x.acts.eraseIdx i })
      exec (.fcpResetAct i) s = .next (s.withDev
        (if kind = 0 then d1.coldReset 6 0 else if kind = 1 then d1.warmReset 7 0 else if kind = 7 then d1.stewReset 12 0 else d1.blockReset kind n false))) ∧
    (∀ i, d.fcp.acts[i]? = none → exec (.fcpResetAct i) s = .next s) ∧
    (d.fcpRun k 0x71 = some c → p.length = 32 → d.fuseBad = false →
      exec (.attest k) s = reply d (beBytes 4 d.logBytes.length ++ d.logBytes ++ fit 17088 (Config.slhSign (idSeed f) (beBytes 48 (Config.sha384 (p ++ d.logBytes)).toNat)))) ∧
    (d.fcpRun k 0x72 = some c → p.length = 4 → be p 0 1 ≤ 47 → be p 2 2 = 0 →
      (be p 1 1 = 2 → exec (.power k) s = reply d (d.powerState (be p 0 1))) ∧
      (be p 1 1 = 0 → d.powerHeld c (be p 0 1) = true → exec (.power k) s = .next (s.withDev (d.fcpFinalFree k c fIN_USE))) ∧
      (be p 1 1 = 1 ∨ (be p 1 1 = 0 ∧ d.powerHeld c (be p 0 1) = false) →
        let d1 := d.domWrite (be p 0 1) (BitVec.ofNat 32 (2 + be p 1 1))
        exec (.power k) s = .next (s.withDev (if d1.rbit (domReg (be p 0 1)) 1 then d1.fcpFinalFree k c fHW_FAULT else d1.powerWait k c)))) ∧
    (d.fcpRun k 0x73 = some c → p.length = 4 → be p 0 1 ≤ 15 → be p 1 1 ≤ 15 → be p 2 1 ≤ 16 → be p 3 1 = 0 → (d.map (be p 0 1)).contains (be p 2 1) = false →
      d.regionOpen (be p 0 1) = true → exec (.repair k) s = .next (s.withDev (((d.parkSet (be p 0 1) true).openSet (be p 0 1) false).fcpStage k c 1 []))) ∧
    (d.fcpRun k 0x74 = some c → p.length = 4 → be p 0 1 ≤ 2 → (be p 0 1 = 1 → be p 1 2 ≤ 15) → be p 3 1 = 0 →
      (be p 0 1 = 2 → (d.graph (be p 1 2)).st = 0 → exec (.healthQuery k) s = refuse fNO_GRAPH (be p 1 2)) ∧
      (be p 0 1 ≠ 2 ∨ (d.graph (be p 1 2)).st ≠ 0 → exec (.healthQuery k) s = reply d (d.healthBytes f (be p 0 1) (be p 1 2)))) ∧
    (d.inWarmup = false → exec .warmupAnnounce s = .next s) ∧
    (d.inWarmup = true → d.rfld (bootReg 0x14) 15 0 ≠ 0 → d.subUp 0 0 = true → let x := d.infoBytes f
      exec .warmupAnnounce s = .next (s.withDev (x.2.ethSend 0 0 0 0 (List.replicate 6 0xFF ++ beBytes 6 (x.2.macOf 0 0) ++ beBytes 2 (x.2.rfld (cmdReg 4) 15 0) ++
        fcpHeader 0 { op := 2, rtag := 0xFFFFFFFF } fOK 72 0 72 ++ List.replicate 8 0 ++ x.1 ++ beBytes 4 0))))

/-- R137, R139, R457, R461 to R466. -/
def Obligations.GraphCommandsReply : Prop :=
  (∀ (k : Fin 65) (s : State) (c : FcpCmd),
    let d := s.dev
    let reply := fun (d : Dev) (par : List Byte) => Host.Outcome.next (s.withDev (d.fcpFinal k c fOK 0 par))
    let refuse := fun (st detail : Nat) => Host.Outcome.next (s.withDev (d.fcpFinal k c st detail []))
    let p := c.par
    let n := be p 0 2
    let st := (d.graph n).st
    (d.fcpRun k 0x31 = some c → p.length = 36 → be p 0 4 ≤ d.stageSize →
      let bs := d.staged k 0 (be p 0 4)
      let vm := byteNats (sub p 4 16)
      let dm := byteNats (sub p 20 16)
      (d.loadReason bs (be p 0 4) vm dm ≠ 0 → exec (.graphLoad k) s = refuse fLOAD_REFUSED (d.loadReason bs (be p 0 4) vm dm)) ∧
      (∀ id, d.loadReason bs (be p 0 4) vm dm = 0 → d.imgId bs = some id →
        let d1 := d.loadGraph bs id vm dm
        exec (.graphLoad k) s = reply d1 (beBytes 2 id ++ [0, 0] ++ beBytes 4 (d1.graph id).slots.length))) ∧
    (p.length = 4 → be p 2 2 = 0 →
      (d.graphThere n = false →
        (d.fcpRun k 0x36 = some c → exec (.graphQuery k) s = refuse fNO_GRAPH n) ∧
        (d.fcpRun k 0x32 = some c → exec (.graphStart k) s = refuse fNO_GRAPH n) ∧
        (d.fcpRun k 0x33 = some c → exec (.graphStop k) s = refuse fNO_GRAPH n) ∧
        (d.fcpRun k 0x35 = some c → exec (.graphUnload k) s = refuse fNO_GRAPH n)) ∧
      (d.graphThere n = true →
        (d.fcpRun k 0x36 = some c → d.allHurdles = [] →
          exec (.graphQuery k) s = reply d (beBytes 1 st ++ [0] ++ beBytes 2 (regionBits (d.graph n).regsA.contains) ++ beBytes 2 (regionBits (d.graph n).regsB.contains) ++ [0, 0])) ∧
        (d.fcpRun k 0x32 = some c → (st = 1 → exec (.graphStart k) s = reply (d.setGraph n { d.graph n with st := 2 }) (beBytes 4 0)) ∧
          (st ≠ 1 → st ≠ 4 → exec (.graphStart k) s = refuse fGRAPH_STATE st)) ∧
        (d.fcpRun k 0x33 = some c → (st ≠ 2 → exec (.graphStop k) s = refuse fGRAPH_STATE st) ∧
          (st = 2 → let d1 := d.setGraph n { d.graph n with st := 3 }
            exec (.graphStop k) s = .next (s.withDev (((d1.feeders n).foldl (fun (d : Dev) x => d.hrdStopSet x.1 x.2 256#32) d1).stopWait k c)))) ∧
        (d.fcpRun k 0x35 = some c → (st ≠ 1 → st ≠ 4 → exec (.graphUnload k) s = refuse fGRAPH_STATE st) ∧
          (st = 1 ∨ st = 4 → d.armedNew n = false →
            let d1 := (d.endBindings n).freeAnchors n
            exec (.graphUnload k) s = reply (d1.keepOnly n (d1.allHurdles.filter (fun x => x.2.2.graph.toNat == n && x.2.2.redirect.isSome))) [])))) ∧
    (d.fcpRun k 0x34 = some c → p.length = 12 → be p 9 1 ≤ 1 → be p 10 2 = 0 → d.graphThere n = true → d.graphThere (be p 2 2) = false →
      exec (.graphSwap k) s = refuse fNO_GRAPH (be p 2 2)) ∧
    (d.fcpRun k 0x34 = some c → p.length = 12 → be p 9 1 ≤ 1 → be p 10 2 = 0 → d.graphThere n = true → d.graphThere (be p 2 2) = true →
      (d.graph (be p 2 2)).st ≠ 1 → exec (.graphSwap k) s = refuse fGRAPH_STATE (d.graph (be p 2 2)).st) ∧
    (d.fcpRun k 0x34 = some c → p.length = 12 → be p 9 1 ≤ 1 → be p 10 2 = 0 → d.graphThere n = true → d.graphThere (be p 2 2) = true → (d.graph (be p 2 2)).st = 1 →
      let hos := d.entryHurdles n (be p 4 2)
      let es : BitVec 8 := BitVec.ofNat 8 (be p 8 1)
      let a : Armed := { new := be p 2 2, hn := be p 6 2, es := es, sess := k, token := be p 9 1 == 1 }
      hos.isEmpty = false → hos.any (fun x => (d.entryOf (be p 2 2) (be p 6 2) x.2.2.copyB).map (·.nsrc) != some x.2.2.nsrc) = false →
      hos.any (fun x => x.2.2.armed.isSome || d.rbit (hrdStop x.1 x.2.1) 8) = false → hos.any (fun x => decide (128 ≤ (es - x.2.2.e).toNat)) = false →
      exec (.graphSwap k) s = reply (hos.foldl (fun (d : Dev) x =>
        (d.setHurdle x.1 x.2.1 { d.hurdle x.1 x.2.1 with armed := some a }).hrdStopSet x.1 x.2.1 (256#32 + es.zeroExtend 32)) d) []) ∧
    (d.fcpRun k 0x40 = some c → p.length = 36 → n = 1 → be p 2 2 = 0 → be p 29 7 = 0 →
      let t := recToken p 0
      (d.recBad (d.sess k).roles t = 0 → exec (.tokenInject k) s = .next (s.withDev ((d.blockSend cmdNode t).injectWait k { c with aux := [fOK, 0] })) ∧ Tag.crcOk t.tag = true) ∧
      (d.recBad (d.sess k).roles t ≠ 0 →
        exec (.tokenInject k) s = .next (s.withDev (d.injectWait k { c with aux := [fTOKEN_REFUSED, d.recBad (d.sess k).roles t * 65536] }))))) ∧
  (∀ (g : Fin 16) (slot : BitVec 8) (s : State) (a : Armed),
    let d := s.dev
    let j := slot.toNat
    let h := d.hurdle g j
    h.armed = some a →
    (d.hrdStopped g j = false → exec (.swapRedirect g slot) s = .next s) ∧
    (d.hrdStopped g j = true → a.token = false →
      let d1 := (d.setHurdle g j { h with armed := none, redirect := some (a.new, a.hn), old := some (h.feeds.1, h.feeds.2, a.es), due := false }).hrdStopSet g j
        (d.reg (hrdStop g j) &&& 0xFF#32)
      (d1.graph a.new).st ≠ 1 → (d1.hurdle g j).due = false →
      exec (.swapRedirect g slot) s = .next (s.withDev (d1.sessEvent a.sess 6)))) ∧
  (∀ (k : Fin 65) (ok : Bool) (s : State) (c : FcpCmd),
    let d := s.dev
    ((d.sess k).run = none → exec (.fcpCommandComplete k ok) s = .next s) ∧
    (d.fcpServed = true → (d.sess k).run = some c → c.stage ≠ 0 →
      (c.op = 0x32 → exec (.fcpCommandComplete k ok) s = .next (s.withDev (d.startWait k c))) ∧
      (c.op = 0x33 → exec (.fcpCommandComplete k ok) s = .next (s.withDev (d.stopWait k c))) ∧
      (c.op = 0x40 → exec (.fcpCommandComplete k ok) s = .next (s.withDev (d.injectWait k c))) ∧
      (c.op = 0x60 → exec (.fcpCommandComplete k ok) s = .next (s.withDev (d.fwStaged k c ok))) ∧
      (c.op = 0x72 → exec (.fcpCommandComplete k ok) s = .next (s.withDev (d.powerWait k c))) ∧
      (c.op = 0x73 → exec (.fcpCommandComplete k ok) s = .next (s.withDev (d.repairStep s.fuses k c)))))

/-- R470 to R476, R493. -/
def Obligations.ResetsReachTheirState : Prop :=
  (∀ s : State,
    let d := s.dev
    exec .powerOn s = .next (s.withDev (d.coldReset 1 0)) ∧
    exec .rstNAssert s = .next (s.withDev (d.coldReset 2 0)) ∧
    (∀ rail : Fin 13, exec (.brownOut rail) s = .next (s.withDev (d.coldReset 3 rail))) ∧
    (∀ die : Fin 6, exec (.thermalTrip die) s = .next (s.withDev { d.coldReset 4 die with rst := { (d.coldReset 4 die).rst with hot := true } })) ∧
    exec .thermalTripClear s = .next (s.withDev { d with rst := { d.rst with hot := false } }) ∧
    (∀ v : W32, fld v 31 16 = 0x5A17 → fld v 1 0 = 1 → exec (.swrstWarm v) s = .next (s.withDev (d.warmReset 7 0))) ∧
    (∀ v : W32, fld v 31 16 = 0x5A17 → fld v 1 0 = 2 → exec (.swrstCold v) s = .next (s.withDev (d.coldReset 6 0))) ∧
    (∀ v : W32, fld v 31 16 = 0x5A17 → fld v 1 0 = 3 → exec (.swrstSteward v) s = .next (s.withDev (d.stewReset 12 0))) ∧
    (∀ v : W32, fld v 31 16 ≠ 0x5A17 → exec (.swrstWarm v) s = .next s ∧ exec (.swrstCold v) s = .next s ∧ exec (.swrstSteward v) s = .next s) ∧
    (∀ cold, d.debugLocked = true → exec (.jtagReset cold) s = .next s) ∧
    (d.debugLocked = false → exec (.jtagReset true) s = .next (s.withDev (d.coldReset 8 0)) ∧ exec (.jtagReset false) s = .next (s.withDev (d.warmReset 9 0))) ∧
    (d.rbit (rstReg 0x14) 31 = true →
      exec .wdogExpiry s = .next (s.withDev (d.warmReset 5 0)) ∧
      (d.rst.half = false → exec .wdogHalfExpiry s = .next (s.withDev ({ d with rst := { d.rst with half := true } }.raiseFree 644 0)))) ∧
    (d.rbit (rstReg 0x14) 31 = false → exec .wdogExpiry s = .next s ∧ exec .wdogHalfExpiry s = .next s) ∧
    (∀ v : W32, fld v 15 0 = 0x4B1C → exec (.wdogKick v) s = .next (s.withDev { d with rst := { d.rst with half := false } })) ∧
    (∀ v : W32, fld v 15 0 ≠ 0x4B1C → exec (.wdogKick v) s = .next s) ∧
    (∀ (die : Fin 6) (t : W16),
      let e := d.setTemp die t
      let limit : Int := ((e.reg (rstReg 0x1C)).extractLsb' 0 8).toInt * 64
      (e.rst.warned = false → limit < t.toInt → exec (.thermalWarn die t) s = .next (s.withDev ({ e with rst := { e.rst with warned := true } }.raiseFree 641 0))) ∧
      (e.rst.warned = true ∨ t.toInt ≤ limit → exec (.thermalWarn die t) s = .next (s.withDev e)) ∧
      (t.toInt ≤ limit - 320 → exec (.thermalWarnRearm die t) s = .next (s.withDev { e with rst := { e.rst with warned := false } })) ∧
      (limit - 320 < t.toInt → exec (.thermalWarnRearm die t) s = .next (s.withDev e))) ∧
    (d.stew.hold = true → d.rst.phase = 0 → exec .stewardRestart s = .next (s.withDev { d with stew := { on := true } })) ∧
    (d.stew.hold = false ∨ d.rst.phase ≠ 0 → exec .stewardRestart s = .next s)) ∧
  (∀ (d : Dev) (code detail : Nat), code < 256 → detail < 2 ^ 22 →
    let e := d.coldReset code detail
    e.rst.phase = 1 ∧ e.rst.cold = true ∧ e.rst.hot = d.rst.hot ∧ e.islands = [] ∧ e.net = {} ∧ e.fus = [] ∧ e.tiles = Dev.init.tiles ∧ e.regions = [] ∧ e.graphs = [] ∧
    e.jrn = [] ∧ e.groups = [] ∧ e.pend = [] ∧ e.evtQ = [] ∧ e.time = 0 ∧ e.fcp = {} ∧ e.stew = {} ∧ e.domQ = [] ∧ e.sec = {} ∧ e.flash = d.flash ∧
    (Memory.wf d.mem = true → ∀ a, e.byte a = if romBase ≤ a ∧ a < sramBase then d.byte a else unlisted) ∧
    (keysRise d.regs →
      e.reg (rstReg 0) = BitVec.ofNat 32 (512 + code) ∧
      (∀ a, bakRegs (a % 2 ^ 48) = false → a ≠ rstReg 0 → e.reg a = regReset a) ∧
      (code = 1 ∨ code = 3 → e.rst.hist = d.rst.hist ++ [(code, 2, detail)] ∧ ∀ a, bakRegs (a % 2 ^ 48) = true → e.reg a = d.reg a) ∧
      (code ≠ 1 → code ≠ 3 →
        let n := d.rfld (bakReg 0xC) 3 0
        e.rst.hist = d.rst.hist ∧ e.reg (bakReg (0x44 + 8 * n)) = BitVec.ofNat 32 (code * 2 ^ 24 + 2 * 2 ^ 22 + detail) ∧
        e.reg (bakReg (0x40 + 8 * n)) = d.reg (bakReg 0x10) ∧ e.rfld (bakReg 0xC) 3 0 = (n + 1) % 16 ∧
        (e.reg (bakReg 4)).toNat = min (2 ^ 32 - 1) ((d.reg (bakReg 4)).toNat + 1)))) ∧
  (∀ (d : Dev) (code detail : Nat),
    let e := d.warmReset code detail
    (d.rst.phase ≠ 0 → d.rst.cold = true → e = if d.rst.phase = 3 then { d with rst := { d.rst with phase := 2 } } else d) ∧
    (d.rst.phase = 0 ∨ d.rst.cold = false →
      e.rst.phase = 2 ∧ e.rst.cold = false ∧ e.time = d.time ∧ e.flash = d.flash ∧ e.jrnNext = d.jrnNext ∧ e.evtQ = d.evtQ ∧ e.domQ = d.domQ ∧
      e.islands = d.islands.filter (fun i => i == 303 || i == 304) ∧ e.fus = [] ∧ e.tiles = Dev.init.tiles ∧ e.net.inbox = [] ∧ e.fcp = {} ∧ e.boot = {} ∧
      (d.inbox (hbmNode 0) 1 = [] → d.inbox (hbmNode 1) 1 = [] → Memory.wf d.mem = true →
        ∀ a, e.byte a = if a < hbmSize ∨ romBase ≤ a then d.byte a else unlisted) ∧
      (d.inbox (hbmNode 0) 1 = [] → d.inbox (hbmNode 1) 1 = [] → keysRise d.regs →
        e.rbit (rstReg 0x14) 31 = d.rbit (rstReg 0x14) 31 ∧ (code < 256 → e.reg (rstReg 0) = BitVec.ofNat 32 (256 + code)) ∧
        (∀ a, warmRegs (a % 2 ^ 48) = true → bakRegs (a % 2 ^ 48) = false → e.reg a = d.reg a) ∧
        (∀ a, warmRegs (a % 2 ^ 48) = false → a ≠ rstReg 0 → a ≠ rstReg 0x14 → e.reg a = regReset a))))

/-- R472, R473, R477 to R479, R481, R483 to R485, R507. -/
def Obligations.ReleaseAndBlockResets : Prop :=
  (∀ s : State,
    let d := s.dev
    exec (.referenceQualified true) s = .next (s.withDev (d.setBit (rstReg 0x24) 13 true)) ∧
    (d.rst.phase = 1 → d.rst.hot = false → exec (.referenceQualified false) s = .next (s.withDev { d with rst := { d.rst with phase := 2 } })) ∧
    (d.rst.phase ≠ 1 ∨ d.rst.hot = true → exec (.referenceQualified false) s = .next s) ∧
    (d.rst.phase = 2 → exec .fuseLoadStart s = .next (s.withDev { d.setFld (rstReg 4) 1 0 0 with rst := { d.rst with phase := 3 } })) ∧
    (d.rst.phase ≠ 2 → exec .fuseLoadStart s = .next s) ∧
    (∀ ok, d.rst.phase ≠ 3 → exec (.fuseLoadDone ok) s = .next s) ∧
    (d.rst.phase = 3 →
      exec (.fuseLoadDone true) s = .next (s.withDev (let e := (d.loadShadows s.fuses false).setFld (rstReg 4) 1 0 1; { e with rst := { d.rst with phase := 4 } })) ∧
      (d.rst.fails < 2 → exec (.fuseLoadDone false) s = .next (s.withDev { d with rst := { d.rst with fails := d.rst.fails + 1 } })) ∧
      (2 ≤ d.rst.fails → exec (.fuseLoadDone false) s = .next (s.withDev
        (let e := (d.loadShadows s.fuses true).setFld (rstReg 4) 1 0 2; { e with rst := { d.rst with phase := 4 } }))))) ∧
  (∀ (i : Fin 307) (straps : BitVec 4) (s : State),
    let d := s.dev
    let waits := (d.rst.phase = 0 ∨ d.rst.phase = 4) ∧ d.islands.contains i.val = false ∧ d.rst.noclk.contains i.val = false ∧ d.islandPowered i = true
    (¬ waits → exec (.islandRelease i straps) s = .next s ∧ exec (.clockValidTimeout i) s = .next s) ∧
    (waits →
      let e := d.setBit (rstReg 0x24) (islandClk i) true
      (i.val ≠ 300 → 272 ≤ i.val → exec (.islandRelease i straps) s = .next (s.withDev { e with islands := e.islands ++ [i.val] })) ∧
      (i.val < 272 → exec (.islandRelease i straps) s = .next (s.withDev
        ((if d.rst.cold then { e with islands := e.islands ++ [i.val] }
          else (List.range 8).foldl (fun (d : Dev) f => d.modFu (i * 8 + f) (fun u => { u with rebuild := true })) { e with islands := e.islands ++ [i.val] }).clkApply i))) ∧
      (i.val = 300 → d.rst.cold = false → d.rst.hist = [] →
        exec (.islandRelease i straps) s = .next (s.withDev { e with islands := e.islands ++ [300], rst := { e.rst with phase := 0, hist := [] }, stew := { on := true } })) ∧
      (i.val = 300 → d.rst.cold = true → d.rst.hist = [] → straps.toNat / 4 ≠ 3 →
        let e := e.setReg (bootReg 0) (BitVec.ofNat 32 straps.toNat)
        exec (.islandRelease i straps) s = .next (s.withDev { e with islands := e.islands ++ [300], rst := { e.rst with phase := 0, hist := [] }, stew := { on := true } })) ∧
      (let f : Dev := (d.setBit (rstReg 4) 2 true).setBit (rstReg 0x24) (islandClk i) false
       let f : Dev := { f with rst := { f.rst with noclk := f.rst.noclk ++ [i.val] } }
       (i.val ≠ 300 → exec (.clockValidTimeout i) s = .next (s.withDev (f.raiseFree 640 0))) ∧
       (i.val = 300 → exec (.clockValidTimeout i) s = .next (s.withDev f))))) ∧
  (∀ (v : W32) (s : State),
    (s.dev.resetting = true → exec (.hubSrstWrite v) s = .next s ∧ exec (.rgnSrstWrite v) s = .next s) ∧
    (s.dev.resetting = false →
      exec (.hubSrstWrite v) s = .next (s.withDev ([1, 2, 3, 4, 5, 12, 13].foldl (fun (d : Dev) u =>
        if v.getLsbD u = false then d.setBit (rstReg 0xC) u false
        else if d.rbit (rstReg 0xC) u = true then d
        else (d.hubReset u).setBit (rstReg 0xC) u true) s.dev)) ∧
      exec (.rgnSrstWrite v) s = .next (s.withDev ((List.range 16).foldl (fun (d : Dev) g =>
        if v.getLsbD g = false then (if d.rbit (rstReg 0x10) g = true then (d.setBit (rstReg 0x10) g false).regionClocks g else d)
        else if d.regionOpen g = true then d.setBit (rstReg 4) 3 true
        else if d.rbit (rstReg 0x10) g = true then d
        else (d.regionLost s.fuses g).setBit (rstReg 0x10) g true) s.dev)))) ∧
  (∀ d : Dev,
    let e := fun (u : Nat) => d.discardAll (fun c => c == 6656 + u)
    let e2 := (e 2).recover (e 2).relayCtxs
    (d.hubReset 2).rly = {} ∧ (d.hubReset 3).fcp.sess = [] ∧ (d.hubReset 1).ing.quiesce = (e 1).ing.quiesce ∧ (d.hubReset 1).ing.streams = [] ∧
    (keysRise e2.regs → ∀ a, (d.hubReset 2).reg a = if inBlock (rlyReg 0) (rlyReg 0x1000) (a % 2 ^ 48) then regReset a else e2.reg a) ∧
    (keysRise (e 3).regs → ∀ a, (d.hubReset 3).reg a = if inBlock (cmdReg 0) (cmdReg 0x1000) (a % 2 ^ 48) then regReset a else (e 3).reg a) ∧
    (keysRise (e 4).regs → ∀ a, inBlock (secReg 0x14) (secReg 0x28) (a % 2 ^ 48) = true → (d.hubReset 4).reg a = (e 4).reg a) ∧
    (d.hubReset 4).sec.log = (e 4).sec.log ∧
    (keysRise (e 4).sec.keys → ∀ k, mget {} (d.hubReset 4).sec.keys k = if k < 64 then mget {} (e 4).sec.keys k else {}))

/-- R486 to R490, R492, R495, R497, R571. -/
def Obligations.DomainsAndRegionsSwitch : Prop :=
  (∀ (k : Fin 48) (v : W32) (s : State),
    let d := s.dev
    let on := v.getLsbD 0
    v.getLsbD 1 = false →
    (on = d.domOn k → d.domQ.any (fun x => x.1 == k.val) = false → exec (.pwrDomWrite k v) s = .next s) ∧
    (on ≠ d.domOn k → d.domMay k on = false →
      exec (.pwrDomWrite k v) s = .next (s.withDev ((d.setBit (domReg k) 1 true).raiseFree (592 + k) 0))) ∧
    (on ≠ d.domOn k → d.domMay k on = true → d.domQ = [] → keysRise d.regs →
      exec (.pwrDomWrite k v) s = .next (s.withDev
        (({ d.setBit (domReg k) 0 on with domQ := [(k.val, on)] } : Dev).setFld (domReg k) 3 2 (if on then 1 else 3)))) ∧
    (∀ h t, on ≠ d.domOn k → d.domMay k on = true → d.domQ = h :: t → t.any (fun x => x.1 == k.val) = false →
      exec (.pwrDomWrite k v) s = .next (s.withDev { d.setBit (domReg k) 0 on with domQ := h :: (t ++ [(k.val, on)]) }))) ∧
  (∀ d : Dev, d.domMay 36 false = false ∧
    (∀ g : Fin 16, d.domMay (2 * g) true = true ↔ d.domOn (2 * g + 1) = true ∧ d.domOn (32 + g / 4) = true) ∧
    (∀ g : Fin 16, d.domMay (2 * g) false = true ↔ d.regionOpen g = false ∧ d.closing g = false) ∧
    (∀ k : Fin 48, 44 ≤ k.val → (d.domMay k true = true ↔ d.domOn 43 = true))) ∧
  (∀ (k : Fin 48) (s : State) (j : Nat) (on : Bool) (q : List (Nat × Bool)), s.dev.domQ = (j, on) :: q →
    let d := s.dev
    (j ≠ k.val → exec (.domainSwitchDone k) s = .next s) ∧
    (j = k.val → on = true → exec (.domainSwitchDone k) s = .next (s.withDev
      ((({ d.setFld (domReg k) 3 2 2 with domQ := q } : Dev).domUp k).domNext (q.length + 1)))) ∧
    (j = k.val → on = false → exec (.domainSwitchDone k) s = .next (s.withDev
      ((({ d.setFld (domReg k) 3 2 0 with domQ := q } : Dev).domDown s.fuses k).domNext (q.length + 1))))) ∧
  (∀ (k : Fin 48) (s : State), s.dev.domQ = [] → exec (.domainSwitchDone k) s = .next s) ∧
  (∀ (d : Dev) (f : Fuses) (i : Fin 2),
    let e := ({ d with islands := d.islands.filter (fun j => islandDom j != some (39 + i.val)) } : Dev).discardAll (fun c => c == Node.code (hbmNode i))
    (d.domDown f (39 + i)).islands = e.islands ∧
    (Memory.wf e.mem = true → ∀ a, (d.domDown f (39 + i)).byte a = if stackBase i ≤ a ∧ a < stackBase (i + 1) then unlisted else e.byte a)) ∧
  (∀ (v : W32) (s : State), keysRise s.dev.regs →
    let d := s.dev
    ∃ t : Dev, exec (.pwrOpenWrite v) s = .next (s.withDev t) ∧ t = { d with regs := t.regs } ∧
      (∀ a, a ≠ pwrReg 0 → a ≠ pwrReg 4 → a ≠ pwrReg 8 → t.reg a = d.reg a) ∧
      ∀ g : Fin 16, t.regionOpen g = d.regionOpen g ∧
        (v.getLsbD g = true → t.rbit (pwrReg 0) g = true ∧ t.closing g = d.closing g) ∧
        (v.getLsbD g = false → d.regionOpen g = true → d.closing g = false → d.parked g = true → t.rbit (pwrReg 0) g = false ∧ t.closing g = true) ∧
        (v.getLsbD g = false → d.regionOpen g = true → d.closing g = false → d.parked g = false → t.rbit (pwrReg 8) 0 = true ∧ t.closing g = false) ∧
        (v.getLsbD g = false → d.regionOpen g = false → t.rbit (pwrReg 0) g = false ∧ t.closing g = d.closing g)) ∧
  (∀ (g : Fin 16) (s : State),
    let d := s.dev
    let may := d.rbit (pwrReg 0) g = true ∧ d.regionOpen g = false ∧ d.closing g = false ∧ d.domOn (2 * g) = true ∧ d.domOn (2 * g + 1) = true ∧
      ∀ k, k ∈ regionFus g → (d.fu k).rebuild = false
    (may → exec (.regionOpen g) s = .next (s.withDev ((d.setBit (pwrReg 4) g true).serveWaiters g))) ∧
    (¬ may → exec (.regionOpen g) s = .next s) ∧
    (d.closing g = true → d.creditsHome g = true → d.requestsDone g = true →
      exec (.regionCloseDone g) s = .next (s.withDev (((d.setBit (pwrReg 4) g false).setBit (pwrReg 4) (16 + g) false).raiseFree (592 + 2 * g) 0))) ∧
    (d.closing g = false ∨ d.creditsHome g = false ∨ d.requestsDone g = false → exec (.regionCloseDone g) s = .next s) ∧
    (d.closing g = true → exec (.drainTimeout g) s = .next (s.withDev ((d.setBit (pwrReg 8) 1 true).raiseFree (592 + 2 * g) 0))) ∧
    (d.closing g = false → exec (.drainTimeout g) s = .next s)) ∧
  (∀ s : State,
    let d := s.dev
    (d.rbit (bakReg 0) 1 = false → exec .vbakLow s = .next (s.withDev ((d.setBit (bakReg 0) 1 true).raiseFree 642 0))) ∧
    (d.rbit (bakReg 0) 1 = true → exec .vbakLow s = .next s) ∧
    exec .vbakReturn s = .next (s.withDev (d.setBit (bakReg 0) 1 false)) ∧
    (keysRise d.regs → ∃ t : Dev, exec .vbakLost s = .next (s.withDev t) ∧ t.rbit (bakReg 0) 0 = true ∧ t.rbit (bakReg 0) 1 = d.rbit (bakReg 0) 1 ∧
      ∀ a, a ≠ bakReg 0 → t.reg a = if bakRegs (a % 2 ^ 48) then regReset a else d.reg a) ∧
    (keysRise d.regs → ∃ t : Dev, exec .rtcSecond s = .next (s.withDev t) ∧
      (t.reg (bakReg 0x10)).toNat + t.rfld (bakReg 0x14) 15 0 * 2 ^ 32 = ((d.reg (bakReg 0x10)).toNat + d.rfld (bakReg 0x14) 15 0 * 2 ^ 32 + 1) % 2 ^ 48 ∧
      t.reg (bakReg 0x18) = 0 ∧ ∀ a, a ≠ bakReg 0x10 → a ≠ bakReg 0x14 → a ≠ bakReg 0x18 → t.reg a = d.reg a) ∧
    (∀ (k : Fin 2) (t : W16), exec (.hbmRefreshRate k t) s = .next (s.withDev
      ((d.setFld (hbmReg k 0x24) 15 0 t.toNat).modHbm k (fun x => { x with fast := decide (85 * 64 ≤ t.toInt) })))) ∧
    (d.domOn 43 = true → exec .refOk s = .next (s.withDev (d.setBit (afeCtlReg 4) 2 true))) ∧
    (d.domOn 43 = false → exec .refOk s = .next s))

/-- R498, R502 to R507, R510 to R513, R515, R518, R524, R525. -/
def Obligations.BootAndTrust : Prop :=
  (∀ s : State,
    let d := s.dev
    let ready := d.stew.on = true ∧ d.stew.core.pc = 0 ∧ d.rbit (bootReg 4) 0 = false ∧ d.boot.entry = none ∧ d.rbit (bootReg 8) 7 = false
    let e := d.identity s.fuses
    let src := e.rfld (bootReg 0) 1 0
    let starts := e.rfld (bakReg 8) 3 0
    (¬ ready → exec .bootRomEntry s = .next s) ∧
    (ready →
      (e.rbit (rstReg 4) 1 = true → exec .bootRomEntry s = .next (s.withDev (e.warmup s.fuses 4))) ∧
      (e.rbit (rstReg 4) 1 = false → e.fsLimit ≤ starts → exec .bootRomEntry s = .next (s.withDev (e.warmup s.fuses 1))) ∧
      (e.rbit (rstReg 4) 1 = false → starts < e.fsLimit →
        (∀ r, e.currentRec = some r → r.trial = true → starts ≠ 0 → exec .bootRomEntry s = .next (s.withDev
          ((e.writeRec (1 - r.slot) false (signedHash (e.slotRead (1 - r.slot)))).bootFlash s.fuses true))) ∧
        ((∀ r, e.currentRec = some r → r.trial = false ∨ starts = 0) → src = 3 → exec .bootRomEntry s = .next (s.withDev (e.warmup s.fuses 2))) ∧
        ((∀ r, e.currentRec = some r → r.trial = false ∨ starts = 0) → src = 1 → exec .bootRomEntry s = .next (s.withDev (e.warmup s.fuses 5))) ∧
        (src ≠ 1 → src ≠ 3 →
          (e.currentRec = none → exec .bootRomEntry s = .next (s.withDev (e.bootFlash s.fuses false))) ∧
          (∀ r, e.currentRec = some r → r.trial = false ∨ starts = 0 → e.rfld (rstReg 0) 9 8 = 2 →
            exec .bootRomEntry s = .next (s.withDev (e.bootFlash s.fuses false))))))) ∧
  (∀ (d : Dev) (f : Fuses) (rev : Bool),
    let a := d.activeSlot
    let check := fun (d : Dev) i => imageCheck (d.shadows f) d.secMin (d.slotRead i) none 6
    let d1 := d.setFld (bootReg 0x10) (4 * a + 3) (4 * a) (check d a)
    let d2 := d1.setFld (bootReg 0x10) (4 * (1 - a) + 3) (4 * (1 - a)) (check d1 (1 - a))
    (check d a = 0 → d.bootFlash f rev = (d1.bootStatus a false rev).handover (d1.slotRead a) a) ∧
    (check d a ≠ 0 → check d1 (1 - a) = 0 →
      d.bootFlash f rev = ((d2.bootStatus (1 - a) true rev).raiseFree 647 0).handover (d2.slotRead (1 - a)) (1 - a)) ∧
    (check d a ≠ 0 → check d1 (1 - a) ≠ 0 → d.bootFlash f rev = (d2.setReg (bootReg 8) 0).warmup f 3)) ∧
  (∀ (v : W32) (s : State),
    let d := s.dev
    (v.getLsbD 0 = false ∨ d.rbit (bootReg 4) 0 = true → exec (.bootLock v) s = .next s) ∧
    (v.getLsbD 0 = true → d.rbit (bootReg 4) 0 = false → keysRise d.regs →
      ∃ t : Dev, exec (.bootLock v) s = .next (s.withDev t) ∧ t.locked = true ∧ t.rbit (bootReg 4) 0 = true ∧ t.rbit (bootReg 8) 1 = true ∧ t.rbit (bootReg 8) 2 = false ∧
        t.boot = { d.boot with entry := none } ∧ (∀ x, d.boot.entry = some x → t.stew.core = { d.stew.core with pc := x }) ∧ (d.boot.entry = none → t.stew = d.stew) ∧
        ∀ a, a ≠ bootReg 4 → a ≠ bootReg 8 → a ≠ secReg 0 → t.reg a = d.reg a) ∧
    (v.getLsbD 1 = true → d.rbit (bootReg 8) 1 = true → keysRise d.regs →
      ∃ t : Dev, exec (.bootOk v) s = .next (s.withDev t) ∧ t = { d with regs := t.regs } ∧ t.rbit (bootReg 8) 1 = false ∧ t.rbit (bootReg 8) 2 = true ∧ t.rfld (bakReg 8) 3 0 = 0 ∧
        ∀ a, a ≠ bootReg 8 → a ≠ bakReg 8 → t.reg a = d.reg a) ∧
    (v.getLsbD 1 = false ∨ d.rbit (bootReg 8) 1 = false → exec (.bootOk v) s = .next s) ∧
    (d.rbit (bootReg 8) 1 = true → exec .bootWindowExpiry s = .next (s.withDev (d.coldReset 13 0))) ∧
    (d.rbit (bootReg 8) 1 = false → exec .bootWindowExpiry s = .next s)) ∧
  (∀ (op : Nat) (c : Instr) (v : W32) (s : State),
    (op = 0 ∧ c = .flashRead v) ∨ (op = 1 ∧ c = .flashProgram v) ∨ (op = 2 ∧ c = .flashErase v) ∨ (op = 3 ∧ c = .flashCompare v) →
    let d := s.dev.setFld (flashReg 0x10) 1 0 (fld v 1 0)
    let a := d.rfld (flashReg 0) 25 0
    let n := d.rfld (flashReg 4) 23 0
    let b := d.pair (flashReg 8)
    (fld v 1 0 ≠ op ∨ v.getLsbD 31 = false ∨ d.rbit (flashReg 0x14) 0 = true → exec c s = .next (s.withDev d)) ∧
    (fld v 1 0 = op → v.getLsbD 31 = true → d.rbit (flashReg 0x14) 0 = false →
      (d.flashRefuses op a n = true ∨ (op ≠ 2 ∧ bufOk b n = false) → exec c s = .next (s.withDev (d.setBit (flashReg 0x14) 1 true))) ∧
      (d.flashRefuses op a n = false → op = 2 ∨ bufOk b n = true →
        exec c s = .next (s.withDev { d.setBit (flashReg 0x14) 0 true with boot := { d.boot with flash := some (op, a, n, b) } })))) ∧
  (∀ s : State,
    let d := s.dev
    let e : Dev := { d.setBit (flashReg 0x14) 0 false with boot := { d.boot with flash := none } }
    (∀ ok, d.boot.flash = none → exec (.flashOpDone ok) s = .next s) ∧
    (∀ x, d.boot.flash = some x → exec (.flashOpDone false) s = .next (s.withDev (e.setBit (flashReg 0x14) 1 true))) ∧
    (∀ a n b, d.boot.flash = some (0, a, n, b) → exec (.flashOpDone true) s = .next (s.withDev (e.write b (readFlash d.flash a n)))) ∧
    (∀ a n b, d.boot.flash = some (1, a, n, b) → mwf 0xFF d.flash = true → ∃ t : Dev, exec (.flashOpDone true) s = .next (s.withDev t) ∧
      t = { e with flash := t.flash } ∧ mwf 0xFF t.flash = true ∧
      ∀ i, t.flashByte i = if a ≤ i ∧ i < a + n then d.flashByte i &&& d.byte (b + (i - a)) else d.flashByte i) ∧
    (∀ a n b, d.boot.flash = some (2, a, n, b) → mwf 0xFF d.flash = true → ∃ t : Dev, exec (.flashOpDone true) s = .next (s.withDev t) ∧
      t = { e with flash := t.flash } ∧ mwf 0xFF t.flash = true ∧ ∀ i, t.flashByte i = if a ≤ i ∧ i < a + n then 0xFF else d.flashByte i) ∧
    (∀ a n b, d.boot.flash = some (3, a, n, b) →
      ((∀ i, i < n → d.flashByte (a + i) = d.byte (b + i)) → exec (.flashOpDone true) s = .next (s.withDev e)) ∧
      (∀ i, i < n → d.flashByte (a + i) ≠ d.byte (b + i) → exec (.flashOpDone true) s = .next (s.withDev (e.setBit (flashReg 0x14) 2 true))))) ∧
  (∀ (v : W32) (s : State),
    let d := s.dev
    let k := d.rfld (secReg 0x40) 7 0
    let info := d.reg (banked (secReg 0x44) k)
    let ws := (List.range 16).map (fun i => d.reg (banked (secReg (0x50 + 4 * i)) k))
    let n := fld v 6 0
    let w := fun (a : Nat) (e : Dev) => Host.Outcome.next (s.withDev (d.writes (secReg a) e))
    (v.getLsbD 0 = false → exec (.keyWrite v) s = w 0x90 d) ∧
    (v.getLsbD 1 = false → exec (.keyClear v) s = w 0x90 d) ∧
    (k < 64 → d.locked = true →
      (v.getLsbD 0 = true → exec (.keyWrite v) s = w 0x90 (d.setBit (secReg 0xF4) 1 true)) ∧
      (v.getLsbD 1 = true → exec (.keyClear v) s = w 0x90 (d.setBit (secReg 0xF4) 1 true))) ∧
    (64 ≤ k ∨ d.locked = false →
      (v.getLsbD 0 = true → k < 64 → exec (.keyWrite v) s = w 0x90 (d.setKey k { typ := 1, roles := fld info 10 8, pset := fld info 7 4, data := ws })) ∧
      (v.getLsbD 0 = true → 64 ≤ k → exec (.keyWrite v) s = w 0x90 (d.setKey k { typ := 2, data := ws.take 8 })) ∧
      (v.getLsbD 1 = true → exec (.keyClear v) s = w 0x90 (d.setKey k {}))) ∧
    (d.rbit (bootReg 8) 2 = false ∨ d.sec.secver < n ∨ n ≤ d.secMin → exec (.secverBurn v) s = .next (s.put (d.writes (secReg 0xA4) d))) ∧
    (d.rbit (bootReg 8) 2 = true → n ≤ d.sec.secver → d.secMin < n → d.regHeld (secReg 0xA4) = false → keysRise d.regs →
      ∃ t, exec (.secverBurn v) s = .next t ∧ t.dev = d.setFld (secReg 0xA0) 6 0 n ∧ t.dev.secMin = n ∧
        t.fuses = { s.fuses with secver := max s.fuses.secver n }) ∧
    (d.sec.log.length < 1024 → exec (.measAppend v) s = w 0xB0 { d with sec := { d.sec with log := d.sec.log ++
      [(fld v 31 24, fld v 23 0, (List.range 12).flatMap (fun i => beBytes 4 (d.reg (secReg (0xC0 + 4 * i))).toNat))] } }) ∧
    (1024 ≤ d.sec.log.length → exec (.measAppend v) s = w 0xB0 (d.setBit (secReg 0xF4) 3 true)))

/-- R526 to R530, R533 to R536, R544. -/
def Obligations.EventsJournalAndReplay : Prop :=
  (∀ (src : BitVec 10) (cause : BitVec 27) (s : State), src.toNat < 704 →
    let n := src.toNat
    let d := (s.dev.addSat16 (banked (evtReg 0x18) n) 1).setFld (banked (evtReg 0x14) n) 26 0 cause.toNat
    let on := d.rbit (banked (evtReg 4) n) 31
    let byToken := d.rbit (banked (evtReg 4) n) 30
    let run := d.running (d.rfld (evtReg 0xC) 11 0)
    let e := d.setEvtPending n true
    let tok := d.evtToken n cause.toNat none
    (on = false → exec (.eventRaise src cause) s = .next (s.withDev d)) ∧
    (on = true → byToken = false → exec (.eventRaise src cause) s = .next (s.withDev e)) ∧
    (on = true → byToken = true → run = false → exec (.eventRaise src cause) s = .next (s.withDev (e.setBit (evtReg 0x1C) 0 true))) ∧
    (on = true → byToken = true → run = true → d.evtPending n = true → exec (.eventRaise src cause) s = .next (s.withDev d)) ∧
    (on = true → byToken = true → run = true → d.evtPending n = false →
      (d.evtQ.length < 64 → exec (.eventRaise src cause) s = .next (s.withDev { e with evtQ := d.evtQ ++ [(n, tok)] })) ∧
      (64 ≤ d.evtQ.length → exec (.eventRaise src cause) s = .next (s.withDev { e with evtWait := d.evtWait ++ [(n, tok)] })))) ∧
  (∀ (src : BitVec 10) (cause : BitVec 27) (s : State), 704 ≤ src.toNat →
    (s.dev.takeTok eventNode (fun _ => true) = none → exec (.eventRaise src cause) s = .next s) ∧
    (∀ q t d d1, s.dev.takeTok eventNode (fun _ => true) = some (q, t, d) → d.blockTag eventNode t (infieldIs t.tag 0 3 0) = (none, d1) →
      exec (.eventRaise src cause) s = .next (s.withDev (d1.ioAnswer q.src none))) ∧
    (∀ q t d t1 d1, s.dev.takeTok eventNode (fun _ => true) = some (q, t, d) → d.blockTag eventNode t (infieldIs t.tag 0 3 0) = (some t1, d1) →
      let n := t1.tag.node.toNat
      (704 ≤ n → n < 1024 → exec (.eventRaise src cause) s = .next (s.withDev
        ((({ d1 with fresh := d1.fresh + 1 } : Dev).raiseWith n (causeWord ((Config.freeValue d1.fresh).toNat % 256) 0) (some (t1.pay, t1.ty))).ioSignal q.src))) ∧
      (n < 704 ∨ 1024 ≤ n → exec (.eventRaise src cause) s = .next (s.withDev ((d1.blockError eventNode t1 stBAD_NODE n).ioAnswer q.src none))))) ∧
  (∀ s : State,
    let d := s.dev
    (d.evtQ = [] → exec .eventTokenSend s = .next s) ∧
    (∀ src t q, d.evtQ = (src, t) :: q → d.hubCredit t = false → exec .eventTokenSend s = .next s) ∧
    (∀ src t q, d.evtQ = (src, t) :: q → d.hubCredit t = true → exec .eventTokenSend s = .next (s.withDev
      ((({ d with evtQ := q ++ d.evtWait.take 1, evtWait := d.evtWait.drop 1 } : Dev).setEvtPending src false).blockSend eventNode t)))) ∧
  (∀ (n : Nat) (s : State),
    let d := s.dev
    (d.jrnWait.length ≤ n → exec (.journalWriteResponse n) s = .next (s.withDev d.journalRetry)) ∧
    (∀ w, d.jrnWait[n]? = some w →
      (w.written = false → exec (.journalWriteResponse n) s = .next (s.withDev d.journalRetry)) ∧
      (w.written = true →
        let e : Dev := { d with jrnWait := d.jrnWait.set n { w with done := true } }
        exec (.journalWriteResponse n) s = .next (s.withDev (e.jrnFlush w.src).journalRetry)))) ∧
  (∀ (src : Node) (ws : List JWait), jrnReady src ws = (ws.filter (fun w => w.src == src)).takeWhile (fun w => w.done)) ∧
  (∀ (d : Dev) (src : Node), (jrnReady src d.jrnWait = [] → d.jrnFlush src = d) ∧
    (∀ w, jrnReady src d.jrnWait = [w] →
      d.jrnFlush src = ({ d with jrnWait := removeFirst (· == w) d.jrnWait } : Dev).send src { d.tokenPacket w.tok with ends := w.ends, src := w.mark })) ∧
  (∀ d : Dev,
    ((∀ w ∈ d.jrnWait, w.written = true) → d.journalRetry = d) ∧
    (∀ w, d.jrnWait = [w] → w.written = false → d.jrnUsed < d.jrnCap →
      (∀ r, w.root = some r →
        d.journalRetry = { ({ d with jrnWait := [] } : Dev).journalWrite r w.tok with jrnWait := [{ w with written := true }] }) ∧
      (w.root = none → d.journalRetry = { d with jrnWait := [{ w with written := true }] })) ∧
    (∀ w, d.jrnWait = [w] → d.jrnCap ≤ d.jrnUsed → d.journalRetry = d) ∧
    (∀ r t, (d.journalWrite r t).jrn = d.jrn ++ [{ n := d.jrnNext, root := r, tok := t }] ∧ (d.journalWrite r t).jrnNext = d.jrnNext + 1)) ∧
  (∀ (g : Fin 16) (s : State),
    let d := s.dev
    (d.expired g = [] → exec (.contextLifeCheck g) s = .next s) ∧
    (∀ i, d.expired g = [i] →
      let c : BitVec 22 := BitVec.ofNat 22 (g * 2 ^ 18 + i)
      let v := d.ctxDesc c
      let tag : Tag := { graph := BitVec.ofNat 12 (cdGraph v), ctx := c, prio := BitVec.ofNat 4 (cdPrio v) }
      exec (.contextLifeCheck g) s = .next (s.withDev ((d.sendToken (.regionUnit g 2) (d.errToken g tag (status stCTX_EXPIRED originBlock c.toNat) false)).setFault c)))) ∧
  (∀ d : Dev,
    (d.groups.filter d.stranded = [] → d.loseStranded = d) ∧
    (∀ x, d.groups.filter d.stranded = [x] → d.loseStranded = ({ d with groups := removeFirst (· == x) d.groups } : Dev).loseGroup x) ∧
    ∀ x, d.stranded x = (x.hold && !d.regionOpen (x.root.toNat / 2 ^ 18) && (d.rst.noclk.contains (272 + x.root.toNat / 2 ^ 18) ||
      ((d.map (x.root.toNat / 2 ^ 18)).all (d.isoTiles (x.root.toNat / 2 ^ 18)).contains && !(d.reserveWord (x.root.toNat / 2 ^ 18)).getLsbD 5)))) ∧
  (∀ (e : Ecc) (s : State),
    let d := s.dev.loseStranded
    (d.hbmLost = true ∨ d.replayNext = none → exec (.replayStart e) s = .next (s.withDev d.healthUpdate)) ∧
    (∀ x, d.hbmLost = false → d.replayNext = some x →
      let g := x.root.toNat / 2 ^ 18
      let gone : Dev := { d with groups := removeFirst (· == x) d.groups }
      (∀ p, e = .ue p → exec (.replayStart e) s = .next (s.withDev ((gone.loseGroup x).healthState 2 4))) ∧
      ((∀ p, e ≠ .ue p) → d.mayTake g x.prio x.graph false = false → exec (.replayStart e) s = .next (s.withDev d)) ∧
      (∀ c d1, (∀ p, e ≠ .ue p) → d.mayTake g x.prio x.graph false = true → d.takeCtx g x.prio x.graph (some none) = some (c, d1) →
        let mine := d1.jrn.filter (fun r => x.recs.contains r.n)
        let d2 : Dev := { d1 with
          jrn := d1.jrn.map (fun (r : JRec) => if x.recs.contains r.n then { r with root := c, kept := false } else r)
          groups := d1.groups.map (fun (y : Group) => if y == x then { y with root := c, hold := false } else y) }
        let d3 := (d2.setCtxDesc c (putFld (putFld (d2.ctxDesc c) 31 0 (x.recs.getLastD 0 % d2.jrnCap)) 63 61 3)).ownerReset (poolNode g) c
        exec (.replayStart e) s = .next (s.withDev
          ((mine.foldl (fun (d : Dev) r => d.sendToken healthNode { r.tok with tag := Tag.seal { r.tok.tag with ctx := c }, ty := r.tok.ty ||| 0x40#8 }) d3).count32 (hltReg 0x24)))))) ∧
  (∀ (d : Dev) (x : Group), d.replayNext = some x →
    let ok := fun (y : Group) => y ∈ d.groups ∧ y.hold = true ∧ y.stw = false ∧ d.regionOpen (y.root.toNat / 2 ^ 18) = true ∧ d.running y.graph = true
    ok x ∧ ∀ y, ok y → x.recs.headD 0 ≤ y.recs.headD 0) ∧
  (∀ (v : W32) (s : State),
    let d := s.dev
    (v.getLsbD 0 = true → d.healthCause.1 = 0 → d.rfld (hltReg 0) 1 0 ≠ 0 → exec (.hltAck v) s = .next (s.withDev ((d.setReg (hltReg 0) 0).raiseFree 651 0))) ∧
    (v.getLsbD 0 = false ∨ d.healthCause.1 ≠ 0 ∨ d.rfld (hltReg 0) 1 0 = 0 → exec (.hltAck v) s = .next s))

/-- R537 to R540, R544. -/
def Obligations.OutputsAreHeldAndReleased : Prop :=
  (∀ s : State,
    let d := s.dev
    (65536 ≤ d.pend.length → exec .commitRequest s = .next s) ∧
    (d.takeTok healthNode (fun _ => true) = none → exec .commitRequest s = .next s) ∧
    (∀ q t d1 t1 d2, d.pend.length < 65536 → d.takeTok healthNode (fun _ => true) = some (q, t, d1) →
      d1.blockTag healthNode t (infieldIs t.tag 0 4 0) = (some t1, d2) →
      let n := t1.tag.node.toNat
      let c := t1.tag.ctx
      let root := (d2.rootOf c).getD c
      let v := d2.ctxDesc c
      let held := (d2.pend.filter (fun p => p.ctx == c && !p.lost)).length
      (4096 ≤ n → exec .commitRequest s = .next (s.withDev ((d2.blockError healthNode t1 stBAD_NODE n).ioAnswer q.src none))) ∧
      (n < 4096 → 64 ≤ held → exec .commitRequest s = .next (s.withDev
        ((({ d2 with fresh := d2.fresh + 1 } : Dev).blockError healthNode t1 stCOMMIT_LIMIT ((Config.freeValue d2.fresh).toNat % 2 ^ 37)).ioAnswer q.src none))) ∧
      (n < 4096 → held < 64 → cdLive (d2.ctxDesc root) = false ∨ cdFault (d2.ctxDesc root) = true →
        exec .commitRequest s = .next (s.withDev (d2.ioSignal q.src))) ∧
      (n < 4096 → held < 64 → cdLive (d2.ctxDesc root) = true → cdFault (d2.ctxDesc root) = false → cdCommit v ≠ 0 →
        let x := d2.graph t1.tag.graph.toNat
        let d3 := if x.used.contains n then d2 else d2.setGraph t1.tag.graph.toNat { x with used := x.used ++ [n] }
        exec .commitRequest s = .next (s.withDev (({ d3 with pend := d3.pend ++
          [{ ch := n, val := t1.pay, ty := t1.ty, graph := t1.tag.graph.toNat, ctx := c, root := root, copyB := x.dup && x.regsB.contains (c.toNat / 2 ^ 18) }] } : Dev).ioSignal q.src))) ∧
      (n < 4096 → held < 64 → cdLive (d2.ctxDesc root) = true → cdFault (d2.ctxDesc root) = false → cdCommit v = 0 →
        let d3 := d2.setCtxDesc c (putFld v 54 52 1)
        let x := d2.graph t1.tag.graph.toNat
        let d4 := if x.used.contains n then d3 else d3.setGraph t1.tag.graph.toNat { x with used := x.used ++ [n] }
        exec .commitRequest s = .next (s.withDev (({ d4 with pend := d4.pend ++
          [{ ch := n, val := t1.pay, ty := t1.ty, graph := t1.tag.graph.toNat, ctx := c, root := root, copyB := x.dup && x.regsB.contains (c.toNat / 2 ^ 18) }] } : Dev).ioSignal q.src))))) ∧
  (∀ (root : BitVec 22) (s : State),
    let d := s.dev
    let live := cdCommit (d.ctxDesc root) = 2 ∧ cdLive (d.ctxDesc root) = true
    let mine := d.pend.filter (fun p => p.root == root && (p.lost || (cdCommit (d.ctxDesc root) == 2 && cdLive (d.ctxDesc root))))
    let outs := mine.filterMap (fun p => (d.outFlags p).map (fun f => (p, f)))
    let fits := fun (x : Pend × Nat) => d.outRoom x.1.ch (outs.filter (fun y => y.1.ch == x.1.ch)).length
    let gone : Dev := { d with pend := d.pend.filter (fun p => !mine.contains p), outHeld := d.outHeld.filter (· != root.toNat) }
    (mine = [] ∨ d.hbmLost = true → exec (.outputRelease root) s = .next s) ∧
    (mine ≠ [] → d.hbmLost = false →
      (∀ x, outs.find? (fun x => !fits x) = some x →
        (d.outHeld.contains root.toNat = true → exec (.outputRelease root) s = .next s) ∧
        (d.outHeld.contains root.toNat = false →
          exec (.outputRelease root) s = .next (s.withDev ({ d with outHeld := d.outHeld ++ [root.toNat] }.raiseFree 334 x.1.ch)))) ∧
      ((∀ x ∈ outs, fits x = true) → live → d.jrnCap ≤ d.jrnUsed → exec (.outputRelease root) s = .next s) ∧
      ((∀ x ∈ outs, fits x = true) → live → d.jrnUsed < d.jrnCap →
        let d1 := (outs.foldl (fun (d : Dev) x => d.outWrite x.1 x.2) gone).committed root
        exec (.outputRelease root) s = .next (s.withDev (((d1.setCtxDesc root (putFld (d1.ctxDesc root) 54 52 3)).reclaim root).returnCtx root).journalRetry)) ∧
      ((∀ x ∈ outs, fits x = true) → ¬ live → exec (.outputRelease root) s = .next (s.withDev (outs.foldl (fun (d : Dev) x => d.outWrite x.1 x.2) gone))))) ∧
  (∀ (d : Dev) (p : Pend),
    let x := d.graph p.graph
    (d.rbit (outReg 0x34 p.ch) 31 = false → d.outFlags p = none) ∧
    (d.rbit (outReg 0x34 p.ch) 31 = true →
      (p.lost = true ∨ d.graphLost p.graph = true → d.outFlags p = some 1) ∧
      (p.lost = false → d.graphLost p.graph = false →
        (x.dup = false → d.outFlags p = some 0) ∧
        (x.dup = true → x.aliveA = true → p.copyB = false → d.outFlags p = some 0) ∧
        (x.dup = true → x.aliveA = true → p.copyB = true → d.outFlags p = none) ∧
        (x.dup = true → x.aliveA = false → p.copyB = true → d.outFlags p = some 2) ∧
        (x.dup = true → x.aliveA = false → p.copyB = false → d.outFlags p = none))))

/-- Fuses are burnt once (R510, R511, R515): whatever the command in front of the queue, and whatever the state, the fuses stay those of `f` with a SECVER that
only rises. -/
def Obligations.FusesOnlyBurnSecver : Prop :=
  ∀ (f : Fuses) (s s' : State), s.fuses = { f with secver := s.fuses.secver } → f.secver ≤ s.fuses.secver →
    Sys2Proof.Machine.step s = .next s' → s'.fuses = { f with secver := s'.fuses.secver } ∧ f.secver ≤ s'.fuses.secver

/-- R470, R477, R493 of the state right after the power-on reset is asserted; the values the spec leaves open are the model's (notes/assumptions/2.md, 3.md, 6.md). -/
def Obligations.ResetStateIsColdReset : Prop :=
  let s := Sys2Proof.Machine.State.reset
  let d := s.dev
  s.pending = [] ∧ d.inColdReset ∧ d.rst.hist = [(1, 2, 0)] ∧ d.islands = [] ∧ d.time = 0 ∧ d.net = {} ∧ d.fus = [] ∧ d.regions = [] ∧ d.graphs = [] ∧
  d.groups = [] ∧ d.jrn = [] ∧ d.evtQ = [] ∧ d.pend = [] ∧ d.stew = {} ∧ d.fcp = {} ∧ d.ing = {} ∧ d.rly = {} ∧ d.meas = {} ∧
  Memory.wf d.mem = true ∧ keysRise d.regs ∧ (∀ a, d.byte a = unlisted) ∧ (∀ a, d.reg a = regReset a) ∧
  (s.fuses = { s.fuses with secver := s.fuses.secver } ∧ s.fuses.secver ≤ s.fuses.secver)
end

