-- ==== Sys2Proof/Laws/Table.lean ====
section
/-!
SUPPORT. Laws of sparse tables: a read after a write, other keys, and the canonical form that every operation keeps.
-/
namespace Sys2Proof.Machine

/-- A read after a write of a listed value. -/
@[simp] theorem mget_mput_same {α : Type} (d : α) : ∀ (m : SMap α) (k : Nat) (v : α), mget d (mput m k v) k = v
  | [], k, v => by simp [mput, mget]
  | (i, w) :: m, k, v => by
    by_cases h : i = k
    · simp [mput, mget, h]
    · by_cases h' : k < i
      · simp [mput, mget, h, h']
      · simp [mput, mget, h, h', mget_mput_same d m k v]

variable {α : Type} [DecidableEq α]

theorem mwfFrom_le {d : α} : ∀ {m : SMap α} {lo lo' : Nat}, lo' ≤ lo → mwfFrom d lo m = true → mwfFrom d lo' m = true
  | [], _, _, _, _ => rfl
  | (i, v) :: m, lo, lo', h, hw => by
    simp only [mwfFrom, Bool.and_eq_true, decide_eq_true_eq] at hw ⊢
    exact ⟨⟨Nat.le_trans h hw.1.1, hw.1.2⟩, hw.2⟩

theorem mget_lt {d : α} : ∀ {m : SMap α} {lo k : Nat}, mwfFrom d lo m = true → k < lo → mget d m k = d
  | [], _, _, _, _ => rfl
  | (i, v) :: m, lo, k, hw, h => by
    simp only [mwfFrom, Bool.and_eq_true, decide_eq_true_eq] at hw
    have : k < i := Nat.lt_of_lt_of_le h hw.1.1
    simp [mget, Nat.ne_of_gt this, this]

theorem mget_mdel_same {d : α} : ∀ {m : SMap α} {lo k : Nat}, mwfFrom d lo m = true → mget d (mdel m k) k = d
  | [], _, _, _ => rfl
  | (i, v) :: m, lo, k, hw => by
    simp only [mwfFrom, Bool.and_eq_true, decide_eq_true_eq] at hw
    by_cases h : i = k
    · subst h
      simpa [mdel] using mget_lt hw.2 (Nat.lt_succ_self i)
    · by_cases h' : k < i
      · simp [mdel, mget, h, h']
      · simp [mdel, mget, h, h', mget_mdel_same hw.2]

/-- A read after a write (R13, R302). -/
theorem mget_mset_same {d : α} {m : SMap α} (hw : mwf d m = true) (k : Nat) (v : α) : mget d (mset d m k v) k = v := by
  unfold mset
  split
  · next h => rw [h]; exact mget_mdel_same hw
  · exact mget_mput_same d m k v

theorem mget_mput_other {d : α} : ∀ {m : SMap α} {lo k j : Nat} {v : α}, mwfFrom d lo m = true → j ≠ k → mget d (mput m k v) j = mget d m j
  | [], _, k, j, v, _, h => by
    have : k ≠ j := fun e => h e.symm
    by_cases h' : j < k <;> simp [mput, mget, this]
  | (i, w) :: m, lo, k, j, v, hw, h => by
    have hkj : k ≠ j := fun e => h e.symm
    simp only [mwfFrom, Bool.and_eq_true, decide_eq_true_eq] at hw
    by_cases h1 : i = k
    · subst h1; simp [mput, mget, hkj]
    · by_cases h2 : k < i
      · by_cases h3 : j < k
        · simp [mput, mget, h1, h2, hkj, h3, Nat.lt_trans h3 h2, Nat.ne_of_gt (Nat.lt_trans h3 h2)]
        · simp [mput, mget, h1, h2, hkj, h3]
      · by_cases h3 : i = j
        · subst h3; simp [mput, mget, h1, h2]
        · simp [mput, mget, h1, h2, h3, mget_mput_other hw.2 h]

theorem mget_mdel_other {d : α} : ∀ {m : SMap α} {lo k j : Nat}, mwfFrom d lo m = true → j ≠ k → mget d (mdel m k) j = mget d m j
  | [], _, _, _, _, _ => rfl
  | (i, w) :: m, lo, k, j, hw, h => by
    simp only [mwfFrom, Bool.and_eq_true, decide_eq_true_eq] at hw
    by_cases h1 : i = k
    · subst h1
      by_cases h3 : j < i
      · simp only [mdel, mget, if_true, Ne.symm h, if_false, h3]
        exact mget_lt hw.2 (Nat.lt_succ_of_lt h3)
      · simp [mdel, mget, Ne.symm h, h3]
    · by_cases h2 : k < i
      · simp [mdel, h1, h2]
      · simp [mdel, mget, h1, h2, mget_mdel_other hw.2 h]

/-- A write leaves every other key alone. -/
theorem mget_mset_other {d : α} {m : SMap α} (hw : mwf d m = true) {k j : Nat} (v : α) (h : j ≠ k) : mget d (mset d m k v) j = mget d m j := by
  unfold mset
  split
  · exact mget_mdel_other hw h
  · exact mget_mput_other hw h

theorem mwfFrom_mput {d v : α} (hv : v ≠ d) : ∀ {m : SMap α} {lo k : Nat}, lo ≤ k → mwfFrom d lo m = true → mwfFrom d lo (mput m k v) = true
  | [], lo, k, hk, _ => by simp [mput, mwfFrom, hk, hv]
  | (i, w) :: m, lo, k, hk, hw => by
    simp only [mwfFrom, Bool.and_eq_true, decide_eq_true_eq] at hw
    by_cases h1 : i = k
    · subst h1; simp [mput, mwfFrom, hk, hv, hw.2]
    · by_cases h2 : k < i
      · simp [mput, h1, h2, mwfFrom, hk, hv, hw.1.2, hw.2, show k + 1 ≤ i from h2]
      · simp [mput, h1, h2, mwfFrom, hw.1.1, hw.1.2, mwfFrom_mput hv (show i + 1 ≤ k by omega) hw.2]

theorem mwfFrom_mdel {d : α} : ∀ {m : SMap α} {lo k : Nat}, mwfFrom d lo m = true → mwfFrom d lo (mdel m k) = true
  | [], _, _, _ => rfl
  | (i, w) :: m, lo, k, hw => by
    have hw' := hw
    simp only [mwfFrom, Bool.and_eq_true, decide_eq_true_eq] at hw
    by_cases h1 : i = k
    · simp only [mdel, h1, if_true]
      exact mwfFrom_le (show lo ≤ i + 1 by omega) hw.2
    · by_cases h2 : k < i
      · simpa [mdel, h1, h2] using hw'
      · simp [mdel, h1, h2, mwfFrom, hw.1.1, hw.1.2, mwfFrom_mdel hw.2]

/-- A write keeps the canonical form. -/
theorem mwf_mset {d : α} {m : SMap α} (k : Nat) (v : α) (hw : mwf d m = true) : mwf d (mset d m k v) = true := by
  unfold mset
  split
  · exact mwfFrom_mdel hw
  · next h => exact mwfFrom_mput h (Nat.zero_le k) hw

theorem mwfFrom_filter {d : α} (p : Nat × α → Bool) : ∀ {m : SMap α} {lo : Nat}, mwfFrom d lo m = true → mwfFrom d lo (m.filter p) = true
  | [], _, _ => rfl
  | (i, w) :: m, lo, hw => by
    simp only [mwfFrom, Bool.and_eq_true, decide_eq_true_eq] at hw
    by_cases h : p (i, w) = true
    · simp [List.filter, h, mwfFrom, hw.1.1, hw.1.2, mwfFrom_filter p hw.2]
    · simp only [List.filter, h]
      exact mwfFrom_le (show lo ≤ i + 1 by omega) (mwfFrom_filter p hw.2)

/-- Dropping keys keeps the canonical form. -/
theorem mwf_mclear {d : α} {m : SMap α} (p : Nat → Bool) (hw : mwf d m = true) : mwf d (mclear m p) = true := mwfFrom_filter _ hw

theorem mget_filter {d : α} (p : Nat × α → Bool) (q : Nat → Bool) (hp : ∀ i v, p (i, v) = q i) :
    ∀ {m : SMap α} {lo : Nat} (k : Nat), mwfFrom d lo m = true → mget d (m.filter p) k = if q k then mget d m k else d
  | [], _, k, _ => by simp [mget]
  | (i, w) :: m, lo, k, hw => by
    have hw' := hw
    simp only [mwfFrom, Bool.and_eq_true, decide_eq_true_eq] at hw
    have ih := mget_filter p q hp k hw.2
    by_cases h : p (i, w) = true
    · have hq : q i = true := by rw [← hp i w]; exact h
      by_cases h1 : i = k
      · subst h1; simp [List.filter, h, mget, hq]
      · by_cases h2 : k < i
        · simp [List.filter, h, mget, h1, h2]
        · simp [List.filter, h, mget, h1, h2, ih]
    · have hq : q i = false := by rw [← hp i w]; simpa using h
      simp only [List.filter, h]
      rw [ih]
      by_cases h1 : i = k
      · subst h1; simp [hq]
      · by_cases h2 : k < i
        · simp [mget, h1, h2, mget_lt hw.2 (Nat.lt_succ_of_lt h2)]
        · simp [mget, h1, h2]

/-- What a cleared table reads as. -/
theorem mget_mclear {d : α} {m : SMap α} (p : Nat → Bool) (k : Nat) (hw : mwf d m = true) : mget d (mclear m p) k = if p k then d else mget d m k := by
  rw [mclear, mget_filter (fun c => !p c.1) (fun i => !p i) (fun _ _ => rfl) k hw]
  cases p k <;> simp

end Sys2Proof.Machine
end

