-- ==== Sys2Proof/Laws/Firing.lean ====
section
/-!
SUPPORT. What the checks and the execute stage of a firing unit do, once for all operations.
-/
namespace Sys2Proof.Machine

/-- A firing that can be executed passes the checks. -/
theorem checked_of_firesAt {d : Dev} {k o : Nat} {f : Firing} {desc : BitVec 128} {ext : List (BitVec 128)} (h : d.firesAt k o f desc ext) :
    d.checked k o = (some (f, desc, ext), d) := by
  obtain ⟨⟨x, hx, rfl, hd, rfl⟩, ho, hok⟩ := h
  simp only [Dev.checked, hx, hd, ho, ne_eq, not_true_eq_false, if_false, hok, Bool.not_true, Bool.false_eq_true]

/-- … and, with no ERR token and the types that its ports accept, is ready. -/
theorem ready_of_firesAt {d : Dev} {k o : Nat} {f : Firing} {desc : BitVec 128} {ext : List (BitVec 128)} (h : d.firesAt k o f desc ext)
    (hc : cleanFiring f desc) : d.ready? k o = (some (f, desc, ext), d) := by
  obtain ⟨h1, h2⟩ := hc
  simp only [Dev.ready?, checked_of_firesAt h, h1, Dev.typeError, h2, Option.map_none]

/-- An ERR token's status goes to every destination (R110). -/
theorem ready_of_err {d : Dev} {k o : Nat} {f : Firing} {desc : BitVec 128} {ext : List (BitVec 128)} {p : Nat} {t : Token}
    (h : d.firesAt k o f desc ext) (he : f.errTok = some (p, t)) :
    d.ready? k o = (none, d.finish k 1 1 { toks := (fanDsts desc (if o = 0x203 then ext else [])).map (fun x => d.outTok f desc x t.pay.toNat 6 true) }) := by
  simp only [Dev.ready?, checked_of_firesAt h, he]

/-- A payload type that a port does not accept gives TYPE_MISMATCH (R107). -/
theorem ready_of_mismatch {d : Dev} {k o : Nat} {f : Firing} {desc : BitVec 128} {ext : List (BitVec 128)} {p q : Nat}
    (h : d.firesAt k o f desc ext) (he : f.errTok = none) (hm : mismatch f desc = some (p, q)) :
    d.ready? k o = (none, d.failFiring k (d.errOf k f stTYPE_MISMATCH (p + q * 8))) := by
  simp only [Dev.ready?, checked_of_firesAt h, he, Dev.typeError, hm, Option.map_some]

/-- A firing whose descriptor is another opcode's, or no firing: the checks answer none and change nothing. -/
theorem checked_other {d : Dev} {k o : Nat} (h : ∀ x desc, (d.fu k).fetch = some x → x.desc = some desc → dOpc desc ≠ o) :
    d.checked k o = (none, d) := by
  unfold Dev.checked
  cases hx : (d.fu k).fetch with
  | none => rfl
  | some x =>
    cases hd : x.desc with
    | none => simp only [hd]
    | some desc => simp only [hd, h x desc hx hd, ne_eq, not_false_eq_true, if_true]

/-- Everything the hand-over of a result does: the fetch stage empties, the result waits behind earlier ones with its times (R166). -/
theorem finish_fu {d : Dev} {k lat occ : Nat} {r : Result} {x : Fetched} (hw : mwf {} d.fus = true) (h : (d.fu k).fetch = some x) :
    (d.finish k lat occ r).fu k = { d.fu k with
      fetch := none
      results := (d.fu k).results ++ [{ r with
        ctx := Firing.ctx x.fir, flow := Firing.flow x.fir
        start := max x.cycle ((d.fu k).prevStart + (d.fu k).prevOcc)
        done := max (max x.cycle ((d.fu k).prevStart + (d.fu k).prevOcc) + lat) ((d.fu k).prevDone + 1) }]
      prevStart := max x.cycle ((d.fu k).prevStart + (d.fu k).prevOcc), prevOcc := occ
      prevDone := max (max x.cycle ((d.fu k).prevStart + (d.fu k).prevOcc) + lat) ((d.fu k).prevDone + 1) } := by
  unfold Dev.finish
  simp only [h]
  exact mget_mset_same hw k _

/-- … and of another FU nothing changes. -/
theorem finish_other {d : Dev} {k j lat occ : Nat} {r : Result} (hw : mwf {} d.fus = true) (hj : j ≠ k) : (d.finish k lat occ r).fu j = d.fu j := by
  unfold Dev.finish
  dsimp only
  cases (d.fu k).fetch with
  | none => rfl
  | some x => exact mget_mset_other hw _ hj

/-- A sealed tag passes the tag CRC (R53). -/
theorem crcOk_seal (t : Tag) : Tag.crcOk (Tag.seal t) = true := decide_eq_true (show tcrcOf t = tcrcOf (Tag.seal t) from rfl)

end Sys2Proof.Machine
end

