-- ==== Sys2Proof/Laws/Memory.lean ====
section
/-!
SUPPORT. Laws of byte memory: what a read gives after a write, which bytes a write leaves alone, and the canonical form.
-/
namespace Sys2Proof.Machine

/-- Every memory operation keeps the canonical form: a store of bytes … -/
theorem wf_writeMem : ∀ (bs : List Byte) (m : List Host.Cell) (a : Nat), Memory.wf m = true → Memory.wf (writeMem m a bs) = true
  | [], _, _, h => h
  | b :: bs, _, a, h => wf_writeMem bs _ (a + 1) (mwf_mset a b h)

/-- … the clearing of a range … -/
theorem wf_clearMem (d : Dev) (a b : Nat) (h : Memory.wf d.mem = true) : Memory.wf (d.clearMem a b).mem = true :=
  mwf_mclear (m := d.mem) (fun k => decide (a ≤ k ∧ k < b)) h

/-- … and the keeping of some ranges, as a reset does. -/
theorem wf_keepMem (p : Host.Cell → Bool) (m : List Host.Cell) (h : Memory.wf m = true) : Memory.wf (m.filter p) = true := mwfFrom_filter p h

theorem wf_write (d : Dev) (a : Nat) (bs : List Byte) (h : Memory.wf d.mem = true) : Memory.wf (d.write a bs).mem = true := wf_writeMem bs _ a h

theorem wf_setByte (d : Dev) (a : Nat) (b : Byte) (h : Memory.wf d.mem = true) : Memory.wf (d.setByte a b).mem = true := mwf_mset a b h

/-- A store leaves every byte outside it alone. -/
theorem mget_writeMem_other : ∀ (bs : List Byte) (m : List Host.Cell) (a k : Nat), Memory.wf m = true → (k < a ∨ a + bs.length ≤ k) →
    mget unlisted (writeMem m a bs) k = mget unlisted m k
  | [], _, _, _, _, _ => rfl
  | b :: bs, m, a, k, h, hk => by
    simp only [List.length_cons] at hk
    rw [writeMem, mget_writeMem_other bs _ (a + 1) k (mwf_mset a b h) (by omega)]
    exact mget_mset_other h b (by omega)

theorem byte_write_other (d : Dev) (a k : Nat) (bs : List Byte) (h : Memory.wf d.mem = true) (hk : k < a ∨ a + bs.length ≤ k) :
    (d.write a bs).byte k = d.byte k := mget_writeMem_other bs d.mem a k h hk

/-- The bytes of a store read back. -/
theorem mget_writeMem_at : ∀ (bs : List Byte) (m : List Host.Cell) (a i : Nat), Memory.wf m = true → (hi : i < bs.length) →
    mget unlisted (writeMem m a bs) (a + i) = bs[i]
  | b :: bs, m, a, 0, h, _ => by
    rw [Nat.add_zero, writeMem, mget_writeMem_other bs _ (a + 1) a (mwf_mset a b h) (by omega)]
    exact mget_mset_same h a b
  | b :: bs, m, a, i + 1, h, hi => by
    have hi' : i < bs.length := by simpa using hi
    rw [writeMem, show a + (i + 1) = a + 1 + i by omega, mget_writeMem_at bs _ (a + 1) i (mwf_mset a b h) hi']
    rfl

theorem readMem_writeMem (bs : List Byte) (m : List Host.Cell) (a : Nat) (h : Memory.wf m = true) : readMem (writeMem m a bs) a bs.length = bs := by
  have key : ∀ (n : Nat) (xs : List Byte) (o : Nat) (mm : List Host.Cell), xs.length = n →
      (∀ i (hi : i < xs.length), mget unlisted mm (o + i) = xs[i]) → readMem mm o n = xs := by
    intro n
    induction n with
    | zero => intro xs o mm hl _; simp [readMem, List.length_eq_zero_iff.mp hl]
    | succ n ih =>
      intro xs o mm hl hx
      match xs with
      | x :: xs =>
        rw [readMem]
        have h0 := hx 0 (by simp)
        simp only [Nat.add_zero, List.getElem_cons_zero] at h0
        rw [h0, ih xs (o + 1) mm (by simpa using hl) (fun i hi => by
          have := hx (i + 1) (by simpa using hi)
          simpa [Nat.add_assoc, Nat.add_comm 1 i] using this)]
  exact key _ bs a _ rfl (fun i hi => mget_writeMem_at bs m a i h hi)

/-- A read after a write of the same bytes gives them (R302). -/
theorem read_write (d : Dev) (a : Nat) (bs : List Byte) (h : Memory.wf d.mem = true) : (d.write a bs).read a bs.length = bs :=
  readMem_writeMem bs d.mem a h

/-- The bytes of a cleared range read 0, and the others as before. -/
theorem byte_clearMem (d : Dev) (a b k : Nat) (h : Memory.wf d.mem = true) :
    (d.clearMem a b).byte k = if decide (a ≤ k ∧ k < b) then unlisted else d.byte k :=
  mget_mclear (m := d.mem) (fun k => decide (a ≤ k ∧ k < b)) k h

end Sys2Proof.Machine
end

