-- ==== Sys2Proof/Laws/Network.lean ====
section
/-!
SUPPORT. Flits: one that arrives as it was sent passes the receiver's check, one with an error in its LCRC does not (R346).
-/
namespace Sys2Proof.Machine
theorem append_low (x : BitVec n) (b : BitVec m) : (x ++ b).extractLsb' 0 m = b := by
  apply BitVec.eq_of_getLsbD_eq; intro i hi; simp [BitVec.getLsbD_append, hi]
theorem append_high (x : BitVec n) (b : BitVec m) : (x ++ b).extractLsb' m n = x := by
  apply BitVec.eq_of_getLsbD_eq; intro i hi
  have : ¬ m + i < m := by omega
  simp [BitVec.getLsbD_append, hi, this]
theorem append_mid (s : BitVec n) (c : BitVec k) (b : BitVec m) : (s ++ c ++ b).extractLsb' m k = c := by
  apply BitVec.eq_of_getLsbD_eq; intro i hi
  have : ¬ m + i < m := by omega
  simp [BitVec.getLsbD_append, hi, this]
theorem append_top (s : BitVec n) (c : BitVec k) (b : BitVec m) : (s ++ c ++ b).extractLsb' (m + k) n = s := by
  apply BitVec.eq_of_getLsbD_eq
  intro i hi
  rw [BitVec.getLsbD_extractLsb', BitVec.getLsbD_append, BitVec.getLsbD_append, if_neg (by omega), if_neg (by omega)]
  simp [hi, show m + k + i - m - k = i by omega]
/-- A flit as its sender forms it (R344) passes the receiver's check. -/
theorem flitOk_sent (side : BitVec 40) (body : BitVec 200) : flitOk (side ++ lcrc side body ++ body) = true := by
  unfold flitOk
  rw [show (216 : Nat) = 200 + 16 from rfl]
  simp only [append_top, append_mid, append_low, decide_true]
/-- An error in the lowest bit of the LCRC is found. -/
theorem flitOk_sent_error (side : BitVec 40) (body : BitVec 200) : flitOk ((side ++ lcrc side body ++ body) ^^^ (1#256 <<< 200)) = false := by
  have a : (1#256 <<< 200).extractLsb' 200 16 = 1#16 := by decide
  have b : (1#256 <<< 200).extractLsb' 216 40 = 0#40 := by decide
  have c : (1#256 <<< 200).extractLsb' 0 200 = 0#200 := by decide
  unfold flitOk
  simp only [BitVec.extractLsb'_xor, a, b, c, append_mid, append_low, BitVec.xor_zero, decide_eq_false_iff_not]
  rw [show (216 : Nat) = 200 + 16 from rfl, append_top]
  intro h
  have h0 := congrArg (fun x => x.getLsbD 0) h
  simp at h0
/-- A packet's flits pass the check as sent, and an error in the LCRC is found. -/
theorem flitOk_flitBits (p : Packet) (k n : Nat) : flitOk (flitBits p k n) = true := flitOk_sent _ _
theorem flitOk_lcrc_error (p : Packet) (k n : Nat) : flitOk (flitBits p k n ^^^ (1#256 <<< 200)) = false := flitOk_sent_error _ _
/-- So for the L3 flit of a link. -/
theorem flitOk_creditBits (d : Dev) (l : LinkId) : flitOk (d.creditBits l) = true := flitOk_sent _ _
theorem flitOk_credit_error (d : Dev) (l : LinkId) : flitOk (d.creditBits l ^^^ (1#256 <<< 200)) = false := flitOk_sent_error _ _
end Sys2Proof.Machine
end

