-- ==== Sys2Proof/Laws/State.lean ====
section
/-!
SUPPORT. One lemma per field and update of the device: what each leaves as it was, true by rfl. Written by a script over the fields that claims name.
-/
namespace Sys2Proof.Machine

/-! ### Dev.setReg -/
@[simp] theorem Dev.setReg_fresh (d : Dev) (a : Nat) (v : W32) : (d.setReg a v).fresh = d.fresh := rfl
@[simp] theorem Dev.setReg_time (d : Dev) (a : Nat) (v : W32) : (d.setReg a v).time = d.time := rfl
@[simp] theorem Dev.setReg_frac (d : Dev) (a : Nat) (v : W32) : (d.setReg a v).frac = d.frac := rfl
@[simp] theorem Dev.setReg_loHeld (d : Dev) (a : Nat) (v : W32) : (d.setReg a v).loHeld = d.loHeld := rfl
@[simp] theorem Dev.setReg_hiCap (d : Dev) (a : Nat) (v : W32) : (d.setReg a v).hiCap = d.hiCap := rfl
@[simp] theorem Dev.setReg_mem (d : Dev) (a : Nat) (v : W32) : (d.setReg a v).mem = d.mem := rfl
@[simp] theorem Dev.setReg_fus (d : Dev) (a : Nat) (v : W32) : (d.setReg a v).fus = d.fus := rfl
@[simp] theorem Dev.setReg_tiles (d : Dev) (a : Nat) (v : W32) : (d.setReg a v).tiles = d.tiles := rfl
@[simp] theorem Dev.setReg_regions (d : Dev) (a : Nat) (v : W32) : (d.setReg a v).regions = d.regions := rfl
@[simp] theorem Dev.setReg_net (d : Dev) (a : Nat) (v : W32) : (d.setReg a v).net = d.net := rfl
@[simp] theorem Dev.setReg_islands (d : Dev) (a : Nat) (v : W32) : (d.setReg a v).islands = d.islands := rfl
@[simp] theorem Dev.setReg_graphs (d : Dev) (a : Nat) (v : W32) : (d.setReg a v).graphs = d.graphs := rfl
@[simp] theorem Dev.setReg_evtQ (d : Dev) (a : Nat) (v : W32) : (d.setReg a v).evtQ = d.evtQ := rfl
@[simp] theorem Dev.setReg_evtWait (d : Dev) (a : Nat) (v : W32) : (d.setReg a v).evtWait = d.evtWait := rfl
@[simp] theorem Dev.setReg_jrn (d : Dev) (a : Nat) (v : W32) : (d.setReg a v).jrn = d.jrn := rfl
@[simp] theorem Dev.setReg_jrnNext (d : Dev) (a : Nat) (v : W32) : (d.setReg a v).jrnNext = d.jrnNext := rfl
@[simp] theorem Dev.setReg_jrnWait (d : Dev) (a : Nat) (v : W32) : (d.setReg a v).jrnWait = d.jrnWait := rfl
@[simp] theorem Dev.setReg_jrnLow (d : Dev) (a : Nat) (v : W32) : (d.setReg a v).jrnLow = d.jrnLow := rfl
@[simp] theorem Dev.setReg_groups (d : Dev) (a : Nat) (v : W32) : (d.setReg a v).groups = d.groups := rfl
@[simp] theorem Dev.setReg_pend (d : Dev) (a : Nat) (v : W32) : (d.setReg a v).pend = d.pend := rfl
@[simp] theorem Dev.setReg_outHeld (d : Dev) (a : Nat) (v : W32) : (d.setReg a v).outHeld = d.outHeld := rfl
@[simp] theorem Dev.setReg_stew (d : Dev) (a : Nat) (v : W32) : (d.setReg a v).stew = d.stew := rfl
@[simp] theorem Dev.setReg_hbm (d : Dev) (a : Nat) (v : W32) : (d.setReg a v).hbm = d.hbm := rfl
@[simp] theorem Dev.setReg_pulses (d : Dev) (a : Nat) (v : W32) : (d.setReg a v).pulses = d.pulses := rfl
@[simp] theorem Dev.setReg_hbMiss (d : Dev) (a : Nat) (v : W32) : (d.setReg a v).hbMiss = d.hbMiss := rfl
@[simp] theorem Dev.setReg_meas (d : Dev) (a : Nat) (v : W32) : (d.setReg a v).meas = d.meas := rfl
@[simp] theorem Dev.setReg_eth (d : Dev) (a : Nat) (v : W32) : (d.setReg a v).eth = d.eth := rfl
@[simp] theorem Dev.setReg_wire (d : Dev) (a : Nat) (v : W32) : (d.setReg a v).wire = d.wire := rfl
@[simp] theorem Dev.setReg_ing (d : Dev) (a : Nat) (v : W32) : (d.setReg a v).ing = d.ing := rfl
@[simp] theorem Dev.setReg_rly (d : Dev) (a : Nat) (v : W32) : (d.setReg a v).rly = d.rly := rfl
@[simp] theorem Dev.setReg_ppsSeen (d : Dev) (a : Nat) (v : W32) : (d.setReg a v).ppsSeen = d.ppsSeen := rfl
@[simp] theorem Dev.setReg_ppsOut (d : Dev) (a : Nat) (v : W32) : (d.setReg a v).ppsOut = d.ppsOut := rfl
@[simp] theorem Dev.setReg_fcp (d : Dev) (a : Nat) (v : W32) : (d.setReg a v).fcp = d.fcp := rfl
@[simp] theorem Dev.setReg_rst (d : Dev) (a : Nat) (v : W32) : (d.setReg a v).rst = d.rst := rfl
@[simp] theorem Dev.setReg_domQ (d : Dev) (a : Nat) (v : W32) : (d.setReg a v).domQ = d.domQ := rfl
@[simp] theorem Dev.setReg_sec (d : Dev) (a : Nat) (v : W32) : (d.setReg a v).sec = d.sec := rfl
@[simp] theorem Dev.setReg_boot (d : Dev) (a : Nat) (v : W32) : (d.setReg a v).boot = d.boot := rfl
@[simp] theorem Dev.setReg_flash (d : Dev) (a : Nat) (v : W32) : (d.setReg a v).flash = d.flash := rfl

/-! ### Dev.setFld -/
@[simp] theorem Dev.setFld_fresh (d : Dev) (a hi lo x : Nat) : (d.setFld a hi lo x).fresh = d.fresh := rfl
@[simp] theorem Dev.setFld_time (d : Dev) (a hi lo x : Nat) : (d.setFld a hi lo x).time = d.time := rfl
@[simp] theorem Dev.setFld_frac (d : Dev) (a hi lo x : Nat) : (d.setFld a hi lo x).frac = d.frac := rfl
@[simp] theorem Dev.setFld_loHeld (d : Dev) (a hi lo x : Nat) : (d.setFld a hi lo x).loHeld = d.loHeld := rfl
@[simp] theorem Dev.setFld_hiCap (d : Dev) (a hi lo x : Nat) : (d.setFld a hi lo x).hiCap = d.hiCap := rfl
@[simp] theorem Dev.setFld_mem (d : Dev) (a hi lo x : Nat) : (d.setFld a hi lo x).mem = d.mem := rfl
@[simp] theorem Dev.setFld_fus (d : Dev) (a hi lo x : Nat) : (d.setFld a hi lo x).fus = d.fus := rfl
@[simp] theorem Dev.setFld_tiles (d : Dev) (a hi lo x : Nat) : (d.setFld a hi lo x).tiles = d.tiles := rfl
@[simp] theorem Dev.setFld_regions (d : Dev) (a hi lo x : Nat) : (d.setFld a hi lo x).regions = d.regions := rfl
@[simp] theorem Dev.setFld_net (d : Dev) (a hi lo x : Nat) : (d.setFld a hi lo x).net = d.net := rfl
@[simp] theorem Dev.setFld_islands (d : Dev) (a hi lo x : Nat) : (d.setFld a hi lo x).islands = d.islands := rfl
@[simp] theorem Dev.setFld_graphs (d : Dev) (a hi lo x : Nat) : (d.setFld a hi lo x).graphs = d.graphs := rfl
@[simp] theorem Dev.setFld_evtQ (d : Dev) (a hi lo x : Nat) : (d.setFld a hi lo x).evtQ = d.evtQ := rfl
@[simp] theorem Dev.setFld_evtWait (d : Dev) (a hi lo x : Nat) : (d.setFld a hi lo x).evtWait = d.evtWait := rfl
@[simp] theorem Dev.setFld_jrn (d : Dev) (a hi lo x : Nat) : (d.setFld a hi lo x).jrn = d.jrn := rfl
@[simp] theorem Dev.setFld_jrnNext (d : Dev) (a hi lo x : Nat) : (d.setFld a hi lo x).jrnNext = d.jrnNext := rfl
@[simp] theorem Dev.setFld_jrnWait (d : Dev) (a hi lo x : Nat) : (d.setFld a hi lo x).jrnWait = d.jrnWait := rfl
@[simp] theorem Dev.setFld_jrnLow (d : Dev) (a hi lo x : Nat) : (d.setFld a hi lo x).jrnLow = d.jrnLow := rfl
@[simp] theorem Dev.setFld_groups (d : Dev) (a hi lo x : Nat) : (d.setFld a hi lo x).groups = d.groups := rfl
@[simp] theorem Dev.setFld_pend (d : Dev) (a hi lo x : Nat) : (d.setFld a hi lo x).pend = d.pend := rfl
@[simp] theorem Dev.setFld_outHeld (d : Dev) (a hi lo x : Nat) : (d.setFld a hi lo x).outHeld = d.outHeld := rfl
@[simp] theorem Dev.setFld_stew (d : Dev) (a hi lo x : Nat) : (d.setFld a hi lo x).stew = d.stew := rfl
@[simp] theorem Dev.setFld_hbm (d : Dev) (a hi lo x : Nat) : (d.setFld a hi lo x).hbm = d.hbm := rfl
@[simp] theorem Dev.setFld_pulses (d : Dev) (a hi lo x : Nat) : (d.setFld a hi lo x).pulses = d.pulses := rfl
@[simp] theorem Dev.setFld_hbMiss (d : Dev) (a hi lo x : Nat) : (d.setFld a hi lo x).hbMiss = d.hbMiss := rfl
@[simp] theorem Dev.setFld_meas (d : Dev) (a hi lo x : Nat) : (d.setFld a hi lo x).meas = d.meas := rfl
@[simp] theorem Dev.setFld_eth (d : Dev) (a hi lo x : Nat) : (d.setFld a hi lo x).eth = d.eth := rfl
@[simp] theorem Dev.setFld_wire (d : Dev) (a hi lo x : Nat) : (d.setFld a hi lo x).wire = d.wire := rfl
@[simp] theorem Dev.setFld_ing (d : Dev) (a hi lo x : Nat) : (d.setFld a hi lo x).ing = d.ing := rfl
@[simp] theorem Dev.setFld_rly (d : Dev) (a hi lo x : Nat) : (d.setFld a hi lo x).rly = d.rly := rfl
@[simp] theorem Dev.setFld_ppsSeen (d : Dev) (a hi lo x : Nat) : (d.setFld a hi lo x).ppsSeen = d.ppsSeen := rfl
@[simp] theorem Dev.setFld_ppsOut (d : Dev) (a hi lo x : Nat) : (d.setFld a hi lo x).ppsOut = d.ppsOut := rfl
@[simp] theorem Dev.setFld_fcp (d : Dev) (a hi lo x : Nat) : (d.setFld a hi lo x).fcp = d.fcp := rfl
@[simp] theorem Dev.setFld_rst (d : Dev) (a hi lo x : Nat) : (d.setFld a hi lo x).rst = d.rst := rfl
@[simp] theorem Dev.setFld_domQ (d : Dev) (a hi lo x : Nat) : (d.setFld a hi lo x).domQ = d.domQ := rfl
@[simp] theorem Dev.setFld_sec (d : Dev) (a hi lo x : Nat) : (d.setFld a hi lo x).sec = d.sec := rfl
@[simp] theorem Dev.setFld_boot (d : Dev) (a hi lo x : Nat) : (d.setFld a hi lo x).boot = d.boot := rfl
@[simp] theorem Dev.setFld_flash (d : Dev) (a hi lo x : Nat) : (d.setFld a hi lo x).flash = d.flash := rfl

/-! ### Dev.setBit -/
@[simp] theorem Dev.setBit_fresh (d : Dev) (a n : Nat) (b : Bool) : (d.setBit a n b).fresh = d.fresh := rfl
@[simp] theorem Dev.setBit_time (d : Dev) (a n : Nat) (b : Bool) : (d.setBit a n b).time = d.time := rfl
@[simp] theorem Dev.setBit_frac (d : Dev) (a n : Nat) (b : Bool) : (d.setBit a n b).frac = d.frac := rfl
@[simp] theorem Dev.setBit_loHeld (d : Dev) (a n : Nat) (b : Bool) : (d.setBit a n b).loHeld = d.loHeld := rfl
@[simp] theorem Dev.setBit_hiCap (d : Dev) (a n : Nat) (b : Bool) : (d.setBit a n b).hiCap = d.hiCap := rfl
@[simp] theorem Dev.setBit_mem (d : Dev) (a n : Nat) (b : Bool) : (d.setBit a n b).mem = d.mem := rfl
@[simp] theorem Dev.setBit_fus (d : Dev) (a n : Nat) (b : Bool) : (d.setBit a n b).fus = d.fus := rfl
@[simp] theorem Dev.setBit_tiles (d : Dev) (a n : Nat) (b : Bool) : (d.setBit a n b).tiles = d.tiles := rfl
@[simp] theorem Dev.setBit_regions (d : Dev) (a n : Nat) (b : Bool) : (d.setBit a n b).regions = d.regions := rfl
@[simp] theorem Dev.setBit_net (d : Dev) (a n : Nat) (b : Bool) : (d.setBit a n b).net = d.net := rfl
@[simp] theorem Dev.setBit_islands (d : Dev) (a n : Nat) (b : Bool) : (d.setBit a n b).islands = d.islands := rfl
@[simp] theorem Dev.setBit_graphs (d : Dev) (a n : Nat) (b : Bool) : (d.setBit a n b).graphs = d.graphs := rfl
@[simp] theorem Dev.setBit_evtQ (d : Dev) (a n : Nat) (b : Bool) : (d.setBit a n b).evtQ = d.evtQ := rfl
@[simp] theorem Dev.setBit_evtWait (d : Dev) (a n : Nat) (b : Bool) : (d.setBit a n b).evtWait = d.evtWait := rfl
@[simp] theorem Dev.setBit_jrn (d : Dev) (a n : Nat) (b : Bool) : (d.setBit a n b).jrn = d.jrn := rfl
@[simp] theorem Dev.setBit_jrnNext (d : Dev) (a n : Nat) (b : Bool) : (d.setBit a n b).jrnNext = d.jrnNext := rfl
@[simp] theorem Dev.setBit_jrnWait (d : Dev) (a n : Nat) (b : Bool) : (d.setBit a n b).jrnWait = d.jrnWait := rfl
@[simp] theorem Dev.setBit_jrnLow (d : Dev) (a n : Nat) (b : Bool) : (d.setBit a n b).jrnLow = d.jrnLow := rfl
@[simp] theorem Dev.setBit_groups (d : Dev) (a n : Nat) (b : Bool) : (d.setBit a n b).groups = d.groups := rfl
@[simp] theorem Dev.setBit_pend (d : Dev) (a n : Nat) (b : Bool) : (d.setBit a n b).pend = d.pend := rfl
@[simp] theorem Dev.setBit_outHeld (d : Dev) (a n : Nat) (b : Bool) : (d.setBit a n b).outHeld = d.outHeld := rfl
@[simp] theorem Dev.setBit_stew (d : Dev) (a n : Nat) (b : Bool) : (d.setBit a n b).stew = d.stew := rfl
@[simp] theorem Dev.setBit_hbm (d : Dev) (a n : Nat) (b : Bool) : (d.setBit a n b).hbm = d.hbm := rfl
@[simp] theorem Dev.setBit_pulses (d : Dev) (a n : Nat) (b : Bool) : (d.setBit a n b).pulses = d.pulses := rfl
@[simp] theorem Dev.setBit_hbMiss (d : Dev) (a n : Nat) (b : Bool) : (d.setBit a n b).hbMiss = d.hbMiss := rfl
@[simp] theorem Dev.setBit_meas (d : Dev) (a n : Nat) (b : Bool) : (d.setBit a n b).meas = d.meas := rfl
@[simp] theorem Dev.setBit_eth (d : Dev) (a n : Nat) (b : Bool) : (d.setBit a n b).eth = d.eth := rfl
@[simp] theorem Dev.setBit_wire (d : Dev) (a n : Nat) (b : Bool) : (d.setBit a n b).wire = d.wire := rfl
@[simp] theorem Dev.setBit_ing (d : Dev) (a n : Nat) (b : Bool) : (d.setBit a n b).ing = d.ing := rfl
@[simp] theorem Dev.setBit_rly (d : Dev) (a n : Nat) (b : Bool) : (d.setBit a n b).rly = d.rly := rfl
@[simp] theorem Dev.setBit_ppsSeen (d : Dev) (a n : Nat) (b : Bool) : (d.setBit a n b).ppsSeen = d.ppsSeen := rfl
@[simp] theorem Dev.setBit_ppsOut (d : Dev) (a n : Nat) (b : Bool) : (d.setBit a n b).ppsOut = d.ppsOut := rfl
@[simp] theorem Dev.setBit_fcp (d : Dev) (a n : Nat) (b : Bool) : (d.setBit a n b).fcp = d.fcp := rfl
@[simp] theorem Dev.setBit_rst (d : Dev) (a n : Nat) (b : Bool) : (d.setBit a n b).rst = d.rst := rfl
@[simp] theorem Dev.setBit_domQ (d : Dev) (a n : Nat) (b : Bool) : (d.setBit a n b).domQ = d.domQ := rfl
@[simp] theorem Dev.setBit_sec (d : Dev) (a n : Nat) (b : Bool) : (d.setBit a n b).sec = d.sec := rfl
@[simp] theorem Dev.setBit_boot (d : Dev) (a n : Nat) (b : Bool) : (d.setBit a n b).boot = d.boot := rfl
@[simp] theorem Dev.setBit_flash (d : Dev) (a n : Nat) (b : Bool) : (d.setBit a n b).flash = d.flash := rfl

/-! ### Dev.write -/
@[simp] theorem Dev.write_fresh (d : Dev) (a : Nat) (bs : List Byte) : (d.write a bs).fresh = d.fresh := rfl
@[simp] theorem Dev.write_time (d : Dev) (a : Nat) (bs : List Byte) : (d.write a bs).time = d.time := rfl
@[simp] theorem Dev.write_frac (d : Dev) (a : Nat) (bs : List Byte) : (d.write a bs).frac = d.frac := rfl
@[simp] theorem Dev.write_regs (d : Dev) (a : Nat) (bs : List Byte) : (d.write a bs).regs = d.regs := rfl
@[simp] theorem Dev.write_loHeld (d : Dev) (a : Nat) (bs : List Byte) : (d.write a bs).loHeld = d.loHeld := rfl
@[simp] theorem Dev.write_hiCap (d : Dev) (a : Nat) (bs : List Byte) : (d.write a bs).hiCap = d.hiCap := rfl
@[simp] theorem Dev.write_fus (d : Dev) (a : Nat) (bs : List Byte) : (d.write a bs).fus = d.fus := rfl
@[simp] theorem Dev.write_tiles (d : Dev) (a : Nat) (bs : List Byte) : (d.write a bs).tiles = d.tiles := rfl
@[simp] theorem Dev.write_regions (d : Dev) (a : Nat) (bs : List Byte) : (d.write a bs).regions = d.regions := rfl
@[simp] theorem Dev.write_net (d : Dev) (a : Nat) (bs : List Byte) : (d.write a bs).net = d.net := rfl
@[simp] theorem Dev.write_islands (d : Dev) (a : Nat) (bs : List Byte) : (d.write a bs).islands = d.islands := rfl
@[simp] theorem Dev.write_graphs (d : Dev) (a : Nat) (bs : List Byte) : (d.write a bs).graphs = d.graphs := rfl
@[simp] theorem Dev.write_evtQ (d : Dev) (a : Nat) (bs : List Byte) : (d.write a bs).evtQ = d.evtQ := rfl
@[simp] theorem Dev.write_evtWait (d : Dev) (a : Nat) (bs : List Byte) : (d.write a bs).evtWait = d.evtWait := rfl
@[simp] theorem Dev.write_jrn (d : Dev) (a : Nat) (bs : List Byte) : (d.write a bs).jrn = d.jrn := rfl
@[simp] theorem Dev.write_jrnNext (d : Dev) (a : Nat) (bs : List Byte) : (d.write a bs).jrnNext = d.jrnNext := rfl
@[simp] theorem Dev.write_jrnWait (d : Dev) (a : Nat) (bs : List Byte) : (d.write a bs).jrnWait = d.jrnWait := rfl
@[simp] theorem Dev.write_jrnLow (d : Dev) (a : Nat) (bs : List Byte) : (d.write a bs).jrnLow = d.jrnLow := rfl
@[simp] theorem Dev.write_groups (d : Dev) (a : Nat) (bs : List Byte) : (d.write a bs).groups = d.groups := rfl
@[simp] theorem Dev.write_pend (d : Dev) (a : Nat) (bs : List Byte) : (d.write a bs).pend = d.pend := rfl
@[simp] theorem Dev.write_outHeld (d : Dev) (a : Nat) (bs : List Byte) : (d.write a bs).outHeld = d.outHeld := rfl
@[simp] theorem Dev.write_stew (d : Dev) (a : Nat) (bs : List Byte) : (d.write a bs).stew = d.stew := rfl
@[simp] theorem Dev.write_hbm (d : Dev) (a : Nat) (bs : List Byte) : (d.write a bs).hbm = d.hbm := rfl
@[simp] theorem Dev.write_pulses (d : Dev) (a : Nat) (bs : List Byte) : (d.write a bs).pulses = d.pulses := rfl
@[simp] theorem Dev.write_hbMiss (d : Dev) (a : Nat) (bs : List Byte) : (d.write a bs).hbMiss = d.hbMiss := rfl
@[simp] theorem Dev.write_meas (d : Dev) (a : Nat) (bs : List Byte) : (d.write a bs).meas = d.meas := rfl
@[simp] theorem Dev.write_eth (d : Dev) (a : Nat) (bs : List Byte) : (d.write a bs).eth = d.eth := rfl
@[simp] theorem Dev.write_wire (d : Dev) (a : Nat) (bs : List Byte) : (d.write a bs).wire = d.wire := rfl
@[simp] theorem Dev.write_ing (d : Dev) (a : Nat) (bs : List Byte) : (d.write a bs).ing = d.ing := rfl
@[simp] theorem Dev.write_rly (d : Dev) (a : Nat) (bs : List Byte) : (d.write a bs).rly = d.rly := rfl
@[simp] theorem Dev.write_ppsSeen (d : Dev) (a : Nat) (bs : List Byte) : (d.write a bs).ppsSeen = d.ppsSeen := rfl
@[simp] theorem Dev.write_ppsOut (d : Dev) (a : Nat) (bs : List Byte) : (d.write a bs).ppsOut = d.ppsOut := rfl
@[simp] theorem Dev.write_fcp (d : Dev) (a : Nat) (bs : List Byte) : (d.write a bs).fcp = d.fcp := rfl
@[simp] theorem Dev.write_rst (d : Dev) (a : Nat) (bs : List Byte) : (d.write a bs).rst = d.rst := rfl
@[simp] theorem Dev.write_domQ (d : Dev) (a : Nat) (bs : List Byte) : (d.write a bs).domQ = d.domQ := rfl
@[simp] theorem Dev.write_sec (d : Dev) (a : Nat) (bs : List Byte) : (d.write a bs).sec = d.sec := rfl
@[simp] theorem Dev.write_boot (d : Dev) (a : Nat) (bs : List Byte) : (d.write a bs).boot = d.boot := rfl
@[simp] theorem Dev.write_flash (d : Dev) (a : Nat) (bs : List Byte) : (d.write a bs).flash = d.flash := rfl

/-! ### Dev.setFu -/
@[simp] theorem Dev.setFu_fresh (d : Dev) (k : Nat) (u : Fu) : (d.setFu k u).fresh = d.fresh := rfl
@[simp] theorem Dev.setFu_time (d : Dev) (k : Nat) (u : Fu) : (d.setFu k u).time = d.time := rfl
@[simp] theorem Dev.setFu_frac (d : Dev) (k : Nat) (u : Fu) : (d.setFu k u).frac = d.frac := rfl
@[simp] theorem Dev.setFu_regs (d : Dev) (k : Nat) (u : Fu) : (d.setFu k u).regs = d.regs := rfl
@[simp] theorem Dev.setFu_loHeld (d : Dev) (k : Nat) (u : Fu) : (d.setFu k u).loHeld = d.loHeld := rfl
@[simp] theorem Dev.setFu_hiCap (d : Dev) (k : Nat) (u : Fu) : (d.setFu k u).hiCap = d.hiCap := rfl
@[simp] theorem Dev.setFu_mem (d : Dev) (k : Nat) (u : Fu) : (d.setFu k u).mem = d.mem := rfl
@[simp] theorem Dev.setFu_tiles (d : Dev) (k : Nat) (u : Fu) : (d.setFu k u).tiles = d.tiles := rfl
@[simp] theorem Dev.setFu_regions (d : Dev) (k : Nat) (u : Fu) : (d.setFu k u).regions = d.regions := rfl
@[simp] theorem Dev.setFu_net (d : Dev) (k : Nat) (u : Fu) : (d.setFu k u).net = d.net := rfl
@[simp] theorem Dev.setFu_islands (d : Dev) (k : Nat) (u : Fu) : (d.setFu k u).islands = d.islands := rfl
@[simp] theorem Dev.setFu_graphs (d : Dev) (k : Nat) (u : Fu) : (d.setFu k u).graphs = d.graphs := rfl
@[simp] theorem Dev.setFu_evtQ (d : Dev) (k : Nat) (u : Fu) : (d.setFu k u).evtQ = d.evtQ := rfl
@[simp] theorem Dev.setFu_evtWait (d : Dev) (k : Nat) (u : Fu) : (d.setFu k u).evtWait = d.evtWait := rfl
@[simp] theorem Dev.setFu_jrn (d : Dev) (k : Nat) (u : Fu) : (d.setFu k u).jrn = d.jrn := rfl
@[simp] theorem Dev.setFu_jrnNext (d : Dev) (k : Nat) (u : Fu) : (d.setFu k u).jrnNext = d.jrnNext := rfl
@[simp] theorem Dev.setFu_jrnWait (d : Dev) (k : Nat) (u : Fu) : (d.setFu k u).jrnWait = d.jrnWait := rfl
@[simp] theorem Dev.setFu_jrnLow (d : Dev) (k : Nat) (u : Fu) : (d.setFu k u).jrnLow = d.jrnLow := rfl
@[simp] theorem Dev.setFu_groups (d : Dev) (k : Nat) (u : Fu) : (d.setFu k u).groups = d.groups := rfl
@[simp] theorem Dev.setFu_pend (d : Dev) (k : Nat) (u : Fu) : (d.setFu k u).pend = d.pend := rfl
@[simp] theorem Dev.setFu_outHeld (d : Dev) (k : Nat) (u : Fu) : (d.setFu k u).outHeld = d.outHeld := rfl
@[simp] theorem Dev.setFu_stew (d : Dev) (k : Nat) (u : Fu) : (d.setFu k u).stew = d.stew := rfl
@[simp] theorem Dev.setFu_hbm (d : Dev) (k : Nat) (u : Fu) : (d.setFu k u).hbm = d.hbm := rfl
@[simp] theorem Dev.setFu_pulses (d : Dev) (k : Nat) (u : Fu) : (d.setFu k u).pulses = d.pulses := rfl
@[simp] theorem Dev.setFu_hbMiss (d : Dev) (k : Nat) (u : Fu) : (d.setFu k u).hbMiss = d.hbMiss := rfl
@[simp] theorem Dev.setFu_meas (d : Dev) (k : Nat) (u : Fu) : (d.setFu k u).meas = d.meas := rfl
@[simp] theorem Dev.setFu_eth (d : Dev) (k : Nat) (u : Fu) : (d.setFu k u).eth = d.eth := rfl
@[simp] theorem Dev.setFu_wire (d : Dev) (k : Nat) (u : Fu) : (d.setFu k u).wire = d.wire := rfl
@[simp] theorem Dev.setFu_ing (d : Dev) (k : Nat) (u : Fu) : (d.setFu k u).ing = d.ing := rfl
@[simp] theorem Dev.setFu_rly (d : Dev) (k : Nat) (u : Fu) : (d.setFu k u).rly = d.rly := rfl
@[simp] theorem Dev.setFu_ppsSeen (d : Dev) (k : Nat) (u : Fu) : (d.setFu k u).ppsSeen = d.ppsSeen := rfl
@[simp] theorem Dev.setFu_ppsOut (d : Dev) (k : Nat) (u : Fu) : (d.setFu k u).ppsOut = d.ppsOut := rfl
@[simp] theorem Dev.setFu_fcp (d : Dev) (k : Nat) (u : Fu) : (d.setFu k u).fcp = d.fcp := rfl
@[simp] theorem Dev.setFu_rst (d : Dev) (k : Nat) (u : Fu) : (d.setFu k u).rst = d.rst := rfl
@[simp] theorem Dev.setFu_domQ (d : Dev) (k : Nat) (u : Fu) : (d.setFu k u).domQ = d.domQ := rfl
@[simp] theorem Dev.setFu_sec (d : Dev) (k : Nat) (u : Fu) : (d.setFu k u).sec = d.sec := rfl
@[simp] theorem Dev.setFu_boot (d : Dev) (k : Nat) (u : Fu) : (d.setFu k u).boot = d.boot := rfl
@[simp] theorem Dev.setFu_flash (d : Dev) (k : Nat) (u : Fu) : (d.setFu k u).flash = d.flash := rfl

/-! ### Dev.setTile -/
@[simp] theorem Dev.setTile_fresh (d : Dev) (k : Nat) (t : Tile) : (d.setTile k t).fresh = d.fresh := rfl
@[simp] theorem Dev.setTile_time (d : Dev) (k : Nat) (t : Tile) : (d.setTile k t).time = d.time := rfl
@[simp] theorem Dev.setTile_frac (d : Dev) (k : Nat) (t : Tile) : (d.setTile k t).frac = d.frac := rfl
@[simp] theorem Dev.setTile_regs (d : Dev) (k : Nat) (t : Tile) : (d.setTile k t).regs = d.regs := rfl
@[simp] theorem Dev.setTile_loHeld (d : Dev) (k : Nat) (t : Tile) : (d.setTile k t).loHeld = d.loHeld := rfl
@[simp] theorem Dev.setTile_hiCap (d : Dev) (k : Nat) (t : Tile) : (d.setTile k t).hiCap = d.hiCap := rfl
@[simp] theorem Dev.setTile_mem (d : Dev) (k : Nat) (t : Tile) : (d.setTile k t).mem = d.mem := rfl
@[simp] theorem Dev.setTile_fus (d : Dev) (k : Nat) (t : Tile) : (d.setTile k t).fus = d.fus := rfl
@[simp] theorem Dev.setTile_regions (d : Dev) (k : Nat) (t : Tile) : (d.setTile k t).regions = d.regions := rfl
@[simp] theorem Dev.setTile_net (d : Dev) (k : Nat) (t : Tile) : (d.setTile k t).net = d.net := rfl
@[simp] theorem Dev.setTile_islands (d : Dev) (k : Nat) (t : Tile) : (d.setTile k t).islands = d.islands := rfl
@[simp] theorem Dev.setTile_graphs (d : Dev) (k : Nat) (t : Tile) : (d.setTile k t).graphs = d.graphs := rfl
@[simp] theorem Dev.setTile_evtQ (d : Dev) (k : Nat) (t : Tile) : (d.setTile k t).evtQ = d.evtQ := rfl
@[simp] theorem Dev.setTile_evtWait (d : Dev) (k : Nat) (t : Tile) : (d.setTile k t).evtWait = d.evtWait := rfl
@[simp] theorem Dev.setTile_jrn (d : Dev) (k : Nat) (t : Tile) : (d.setTile k t).jrn = d.jrn := rfl
@[simp] theorem Dev.setTile_jrnNext (d : Dev) (k : Nat) (t : Tile) : (d.setTile k t).jrnNext = d.jrnNext := rfl
@[simp] theorem Dev.setTile_jrnWait (d : Dev) (k : Nat) (t : Tile) : (d.setTile k t).jrnWait = d.jrnWait := rfl
@[simp] theorem Dev.setTile_jrnLow (d : Dev) (k : Nat) (t : Tile) : (d.setTile k t).jrnLow = d.jrnLow := rfl
@[simp] theorem Dev.setTile_groups (d : Dev) (k : Nat) (t : Tile) : (d.setTile k t).groups = d.groups := rfl
@[simp] theorem Dev.setTile_pend (d : Dev) (k : Nat) (t : Tile) : (d.setTile k t).pend = d.pend := rfl
@[simp] theorem Dev.setTile_outHeld (d : Dev) (k : Nat) (t : Tile) : (d.setTile k t).outHeld = d.outHeld := rfl
@[simp] theorem Dev.setTile_stew (d : Dev) (k : Nat) (t : Tile) : (d.setTile k t).stew = d.stew := rfl
@[simp] theorem Dev.setTile_hbm (d : Dev) (k : Nat) (t : Tile) : (d.setTile k t).hbm = d.hbm := rfl
@[simp] theorem Dev.setTile_pulses (d : Dev) (k : Nat) (t : Tile) : (d.setTile k t).pulses = d.pulses := rfl
@[simp] theorem Dev.setTile_hbMiss (d : Dev) (k : Nat) (t : Tile) : (d.setTile k t).hbMiss = d.hbMiss := rfl
@[simp] theorem Dev.setTile_meas (d : Dev) (k : Nat) (t : Tile) : (d.setTile k t).meas = d.meas := rfl
@[simp] theorem Dev.setTile_eth (d : Dev) (k : Nat) (t : Tile) : (d.setTile k t).eth = d.eth := rfl
@[simp] theorem Dev.setTile_wire (d : Dev) (k : Nat) (t : Tile) : (d.setTile k t).wire = d.wire := rfl
@[simp] theorem Dev.setTile_ing (d : Dev) (k : Nat) (t : Tile) : (d.setTile k t).ing = d.ing := rfl
@[simp] theorem Dev.setTile_rly (d : Dev) (k : Nat) (t : Tile) : (d.setTile k t).rly = d.rly := rfl
@[simp] theorem Dev.setTile_ppsSeen (d : Dev) (k : Nat) (t : Tile) : (d.setTile k t).ppsSeen = d.ppsSeen := rfl
@[simp] theorem Dev.setTile_ppsOut (d : Dev) (k : Nat) (t : Tile) : (d.setTile k t).ppsOut = d.ppsOut := rfl
@[simp] theorem Dev.setTile_fcp (d : Dev) (k : Nat) (t : Tile) : (d.setTile k t).fcp = d.fcp := rfl
@[simp] theorem Dev.setTile_rst (d : Dev) (k : Nat) (t : Tile) : (d.setTile k t).rst = d.rst := rfl
@[simp] theorem Dev.setTile_domQ (d : Dev) (k : Nat) (t : Tile) : (d.setTile k t).domQ = d.domQ := rfl
@[simp] theorem Dev.setTile_sec (d : Dev) (k : Nat) (t : Tile) : (d.setTile k t).sec = d.sec := rfl
@[simp] theorem Dev.setTile_boot (d : Dev) (k : Nat) (t : Tile) : (d.setTile k t).boot = d.boot := rfl
@[simp] theorem Dev.setTile_flash (d : Dev) (k : Nat) (t : Tile) : (d.setTile k t).flash = d.flash := rfl

/-! ### Dev.setRegion -/
@[simp] theorem Dev.setRegion_fresh (d : Dev) (g : Nat) (r : Region) : (d.setRegion g r).fresh = d.fresh := rfl
@[simp] theorem Dev.setRegion_time (d : Dev) (g : Nat) (r : Region) : (d.setRegion g r).time = d.time := rfl
@[simp] theorem Dev.setRegion_frac (d : Dev) (g : Nat) (r : Region) : (d.setRegion g r).frac = d.frac := rfl
@[simp] theorem Dev.setRegion_regs (d : Dev) (g : Nat) (r : Region) : (d.setRegion g r).regs = d.regs := rfl
@[simp] theorem Dev.setRegion_loHeld (d : Dev) (g : Nat) (r : Region) : (d.setRegion g r).loHeld = d.loHeld := rfl
@[simp] theorem Dev.setRegion_hiCap (d : Dev) (g : Nat) (r : Region) : (d.setRegion g r).hiCap = d.hiCap := rfl
@[simp] theorem Dev.setRegion_mem (d : Dev) (g : Nat) (r : Region) : (d.setRegion g r).mem = d.mem := rfl
@[simp] theorem Dev.setRegion_fus (d : Dev) (g : Nat) (r : Region) : (d.setRegion g r).fus = d.fus := rfl
@[simp] theorem Dev.setRegion_tiles (d : Dev) (g : Nat) (r : Region) : (d.setRegion g r).tiles = d.tiles := rfl
@[simp] theorem Dev.setRegion_net (d : Dev) (g : Nat) (r : Region) : (d.setRegion g r).net = d.net := rfl
@[simp] theorem Dev.setRegion_islands (d : Dev) (g : Nat) (r : Region) : (d.setRegion g r).islands = d.islands := rfl
@[simp] theorem Dev.setRegion_graphs (d : Dev) (g : Nat) (r : Region) : (d.setRegion g r).graphs = d.graphs := rfl
@[simp] theorem Dev.setRegion_evtQ (d : Dev) (g : Nat) (r : Region) : (d.setRegion g r).evtQ = d.evtQ := rfl
@[simp] theorem Dev.setRegion_evtWait (d : Dev) (g : Nat) (r : Region) : (d.setRegion g r).evtWait = d.evtWait := rfl
@[simp] theorem Dev.setRegion_jrn (d : Dev) (g : Nat) (r : Region) : (d.setRegion g r).jrn = d.jrn := rfl
@[simp] theorem Dev.setRegion_jrnNext (d : Dev) (g : Nat) (r : Region) : (d.setRegion g r).jrnNext = d.jrnNext := rfl
@[simp] theorem Dev.setRegion_jrnWait (d : Dev) (g : Nat) (r : Region) : (d.setRegion g r).jrnWait = d.jrnWait := rfl
@[simp] theorem Dev.setRegion_jrnLow (d : Dev) (g : Nat) (r : Region) : (d.setRegion g r).jrnLow = d.jrnLow := rfl
@[simp] theorem Dev.setRegion_groups (d : Dev) (g : Nat) (r : Region) : (d.setRegion g r).groups = d.groups := rfl
@[simp] theorem Dev.setRegion_pend (d : Dev) (g : Nat) (r : Region) : (d.setRegion g r).pend = d.pend := rfl
@[simp] theorem Dev.setRegion_outHeld (d : Dev) (g : Nat) (r : Region) : (d.setRegion g r).outHeld = d.outHeld := rfl
@[simp] theorem Dev.setRegion_stew (d : Dev) (g : Nat) (r : Region) : (d.setRegion g r).stew = d.stew := rfl
@[simp] theorem Dev.setRegion_hbm (d : Dev) (g : Nat) (r : Region) : (d.setRegion g r).hbm = d.hbm := rfl
@[simp] theorem Dev.setRegion_pulses (d : Dev) (g : Nat) (r : Region) : (d.setRegion g r).pulses = d.pulses := rfl
@[simp] theorem Dev.setRegion_hbMiss (d : Dev) (g : Nat) (r : Region) : (d.setRegion g r).hbMiss = d.hbMiss := rfl
@[simp] theorem Dev.setRegion_meas (d : Dev) (g : Nat) (r : Region) : (d.setRegion g r).meas = d.meas := rfl
@[simp] theorem Dev.setRegion_eth (d : Dev) (g : Nat) (r : Region) : (d.setRegion g r).eth = d.eth := rfl
@[simp] theorem Dev.setRegion_wire (d : Dev) (g : Nat) (r : Region) : (d.setRegion g r).wire = d.wire := rfl
@[simp] theorem Dev.setRegion_ing (d : Dev) (g : Nat) (r : Region) : (d.setRegion g r).ing = d.ing := rfl
@[simp] theorem Dev.setRegion_rly (d : Dev) (g : Nat) (r : Region) : (d.setRegion g r).rly = d.rly := rfl
@[simp] theorem Dev.setRegion_ppsSeen (d : Dev) (g : Nat) (r : Region) : (d.setRegion g r).ppsSeen = d.ppsSeen := rfl
@[simp] theorem Dev.setRegion_ppsOut (d : Dev) (g : Nat) (r : Region) : (d.setRegion g r).ppsOut = d.ppsOut := rfl
@[simp] theorem Dev.setRegion_fcp (d : Dev) (g : Nat) (r : Region) : (d.setRegion g r).fcp = d.fcp := rfl
@[simp] theorem Dev.setRegion_rst (d : Dev) (g : Nat) (r : Region) : (d.setRegion g r).rst = d.rst := rfl
@[simp] theorem Dev.setRegion_domQ (d : Dev) (g : Nat) (r : Region) : (d.setRegion g r).domQ = d.domQ := rfl
@[simp] theorem Dev.setRegion_sec (d : Dev) (g : Nat) (r : Region) : (d.setRegion g r).sec = d.sec := rfl
@[simp] theorem Dev.setRegion_boot (d : Dev) (g : Nat) (r : Region) : (d.setRegion g r).boot = d.boot := rfl
@[simp] theorem Dev.setRegion_flash (d : Dev) (g : Nat) (r : Region) : (d.setRegion g r).flash = d.flash := rfl

/-! ### Dev.setGraph -/
@[simp] theorem Dev.setGraph_fresh (d : Dev) (n : Nat) (x : Graph) : (d.setGraph n x).fresh = d.fresh := rfl
@[simp] theorem Dev.setGraph_time (d : Dev) (n : Nat) (x : Graph) : (d.setGraph n x).time = d.time := rfl
@[simp] theorem Dev.setGraph_frac (d : Dev) (n : Nat) (x : Graph) : (d.setGraph n x).frac = d.frac := rfl
@[simp] theorem Dev.setGraph_regs (d : Dev) (n : Nat) (x : Graph) : (d.setGraph n x).regs = d.regs := rfl
@[simp] theorem Dev.setGraph_loHeld (d : Dev) (n : Nat) (x : Graph) : (d.setGraph n x).loHeld = d.loHeld := rfl
@[simp] theorem Dev.setGraph_hiCap (d : Dev) (n : Nat) (x : Graph) : (d.setGraph n x).hiCap = d.hiCap := rfl
@[simp] theorem Dev.setGraph_mem (d : Dev) (n : Nat) (x : Graph) : (d.setGraph n x).mem = d.mem := rfl
@[simp] theorem Dev.setGraph_fus (d : Dev) (n : Nat) (x : Graph) : (d.setGraph n x).fus = d.fus := rfl
@[simp] theorem Dev.setGraph_tiles (d : Dev) (n : Nat) (x : Graph) : (d.setGraph n x).tiles = d.tiles := rfl
@[simp] theorem Dev.setGraph_regions (d : Dev) (n : Nat) (x : Graph) : (d.setGraph n x).regions = d.regions := rfl
@[simp] theorem Dev.setGraph_net (d : Dev) (n : Nat) (x : Graph) : (d.setGraph n x).net = d.net := rfl
@[simp] theorem Dev.setGraph_islands (d : Dev) (n : Nat) (x : Graph) : (d.setGraph n x).islands = d.islands := rfl
@[simp] theorem Dev.setGraph_evtQ (d : Dev) (n : Nat) (x : Graph) : (d.setGraph n x).evtQ = d.evtQ := rfl
@[simp] theorem Dev.setGraph_evtWait (d : Dev) (n : Nat) (x : Graph) : (d.setGraph n x).evtWait = d.evtWait := rfl
@[simp] theorem Dev.setGraph_jrn (d : Dev) (n : Nat) (x : Graph) : (d.setGraph n x).jrn = d.jrn := rfl
@[simp] theorem Dev.setGraph_jrnNext (d : Dev) (n : Nat) (x : Graph) : (d.setGraph n x).jrnNext = d.jrnNext := rfl
@[simp] theorem Dev.setGraph_jrnWait (d : Dev) (n : Nat) (x : Graph) : (d.setGraph n x).jrnWait = d.jrnWait := rfl
@[simp] theorem Dev.setGraph_jrnLow (d : Dev) (n : Nat) (x : Graph) : (d.setGraph n x).jrnLow = d.jrnLow := rfl
@[simp] theorem Dev.setGraph_groups (d : Dev) (n : Nat) (x : Graph) : (d.setGraph n x).groups = d.groups := rfl
@[simp] theorem Dev.setGraph_pend (d : Dev) (n : Nat) (x : Graph) : (d.setGraph n x).pend = d.pend := rfl
@[simp] theorem Dev.setGraph_outHeld (d : Dev) (n : Nat) (x : Graph) : (d.setGraph n x).outHeld = d.outHeld := rfl
@[simp] theorem Dev.setGraph_stew (d : Dev) (n : Nat) (x : Graph) : (d.setGraph n x).stew = d.stew := rfl
@[simp] theorem Dev.setGraph_hbm (d : Dev) (n : Nat) (x : Graph) : (d.setGraph n x).hbm = d.hbm := rfl
@[simp] theorem Dev.setGraph_pulses (d : Dev) (n : Nat) (x : Graph) : (d.setGraph n x).pulses = d.pulses := rfl
@[simp] theorem Dev.setGraph_hbMiss (d : Dev) (n : Nat) (x : Graph) : (d.setGraph n x).hbMiss = d.hbMiss := rfl
@[simp] theorem Dev.setGraph_meas (d : Dev) (n : Nat) (x : Graph) : (d.setGraph n x).meas = d.meas := rfl
@[simp] theorem Dev.setGraph_eth (d : Dev) (n : Nat) (x : Graph) : (d.setGraph n x).eth = d.eth := rfl
@[simp] theorem Dev.setGraph_wire (d : Dev) (n : Nat) (x : Graph) : (d.setGraph n x).wire = d.wire := rfl
@[simp] theorem Dev.setGraph_ing (d : Dev) (n : Nat) (x : Graph) : (d.setGraph n x).ing = d.ing := rfl
@[simp] theorem Dev.setGraph_rly (d : Dev) (n : Nat) (x : Graph) : (d.setGraph n x).rly = d.rly := rfl
@[simp] theorem Dev.setGraph_ppsSeen (d : Dev) (n : Nat) (x : Graph) : (d.setGraph n x).ppsSeen = d.ppsSeen := rfl
@[simp] theorem Dev.setGraph_ppsOut (d : Dev) (n : Nat) (x : Graph) : (d.setGraph n x).ppsOut = d.ppsOut := rfl
@[simp] theorem Dev.setGraph_fcp (d : Dev) (n : Nat) (x : Graph) : (d.setGraph n x).fcp = d.fcp := rfl
@[simp] theorem Dev.setGraph_rst (d : Dev) (n : Nat) (x : Graph) : (d.setGraph n x).rst = d.rst := rfl
@[simp] theorem Dev.setGraph_domQ (d : Dev) (n : Nat) (x : Graph) : (d.setGraph n x).domQ = d.domQ := rfl
@[simp] theorem Dev.setGraph_sec (d : Dev) (n : Nat) (x : Graph) : (d.setGraph n x).sec = d.sec := rfl
@[simp] theorem Dev.setGraph_boot (d : Dev) (n : Nat) (x : Graph) : (d.setGraph n x).boot = d.boot := rfl
@[simp] theorem Dev.setGraph_flash (d : Dev) (n : Nat) (x : Graph) : (d.setGraph n x).flash = d.flash := rfl

/-! ### Dev.modNet -/
@[simp] theorem Dev.modNet_fresh (d : Dev) (f : Net → Net) : (d.modNet f).fresh = d.fresh := rfl
@[simp] theorem Dev.modNet_time (d : Dev) (f : Net → Net) : (d.modNet f).time = d.time := rfl
@[simp] theorem Dev.modNet_frac (d : Dev) (f : Net → Net) : (d.modNet f).frac = d.frac := rfl
@[simp] theorem Dev.modNet_regs (d : Dev) (f : Net → Net) : (d.modNet f).regs = d.regs := rfl
@[simp] theorem Dev.modNet_loHeld (d : Dev) (f : Net → Net) : (d.modNet f).loHeld = d.loHeld := rfl
@[simp] theorem Dev.modNet_hiCap (d : Dev) (f : Net → Net) : (d.modNet f).hiCap = d.hiCap := rfl
@[simp] theorem Dev.modNet_mem (d : Dev) (f : Net → Net) : (d.modNet f).mem = d.mem := rfl
@[simp] theorem Dev.modNet_fus (d : Dev) (f : Net → Net) : (d.modNet f).fus = d.fus := rfl
@[simp] theorem Dev.modNet_tiles (d : Dev) (f : Net → Net) : (d.modNet f).tiles = d.tiles := rfl
@[simp] theorem Dev.modNet_regions (d : Dev) (f : Net → Net) : (d.modNet f).regions = d.regions := rfl
@[simp] theorem Dev.modNet_islands (d : Dev) (f : Net → Net) : (d.modNet f).islands = d.islands := rfl
@[simp] theorem Dev.modNet_graphs (d : Dev) (f : Net → Net) : (d.modNet f).graphs = d.graphs := rfl
@[simp] theorem Dev.modNet_evtQ (d : Dev) (f : Net → Net) : (d.modNet f).evtQ = d.evtQ := rfl
@[simp] theorem Dev.modNet_evtWait (d : Dev) (f : Net → Net) : (d.modNet f).evtWait = d.evtWait := rfl
@[simp] theorem Dev.modNet_jrn (d : Dev) (f : Net → Net) : (d.modNet f).jrn = d.jrn := rfl
@[simp] theorem Dev.modNet_jrnNext (d : Dev) (f : Net → Net) : (d.modNet f).jrnNext = d.jrnNext := rfl
@[simp] theorem Dev.modNet_jrnWait (d : Dev) (f : Net → Net) : (d.modNet f).jrnWait = d.jrnWait := rfl
@[simp] theorem Dev.modNet_jrnLow (d : Dev) (f : Net → Net) : (d.modNet f).jrnLow = d.jrnLow := rfl
@[simp] theorem Dev.modNet_groups (d : Dev) (f : Net → Net) : (d.modNet f).groups = d.groups := rfl
@[simp] theorem Dev.modNet_pend (d : Dev) (f : Net → Net) : (d.modNet f).pend = d.pend := rfl
@[simp] theorem Dev.modNet_outHeld (d : Dev) (f : Net → Net) : (d.modNet f).outHeld = d.outHeld := rfl
@[simp] theorem Dev.modNet_stew (d : Dev) (f : Net → Net) : (d.modNet f).stew = d.stew := rfl
@[simp] theorem Dev.modNet_hbm (d : Dev) (f : Net → Net) : (d.modNet f).hbm = d.hbm := rfl
@[simp] theorem Dev.modNet_pulses (d : Dev) (f : Net → Net) : (d.modNet f).pulses = d.pulses := rfl
@[simp] theorem Dev.modNet_hbMiss (d : Dev) (f : Net → Net) : (d.modNet f).hbMiss = d.hbMiss := rfl
@[simp] theorem Dev.modNet_meas (d : Dev) (f : Net → Net) : (d.modNet f).meas = d.meas := rfl
@[simp] theorem Dev.modNet_eth (d : Dev) (f : Net → Net) : (d.modNet f).eth = d.eth := rfl
@[simp] theorem Dev.modNet_wire (d : Dev) (f : Net → Net) : (d.modNet f).wire = d.wire := rfl
@[simp] theorem Dev.modNet_ing (d : Dev) (f : Net → Net) : (d.modNet f).ing = d.ing := rfl
@[simp] theorem Dev.modNet_rly (d : Dev) (f : Net → Net) : (d.modNet f).rly = d.rly := rfl
@[simp] theorem Dev.modNet_ppsSeen (d : Dev) (f : Net → Net) : (d.modNet f).ppsSeen = d.ppsSeen := rfl
@[simp] theorem Dev.modNet_ppsOut (d : Dev) (f : Net → Net) : (d.modNet f).ppsOut = d.ppsOut := rfl
@[simp] theorem Dev.modNet_fcp (d : Dev) (f : Net → Net) : (d.modNet f).fcp = d.fcp := rfl
@[simp] theorem Dev.modNet_rst (d : Dev) (f : Net → Net) : (d.modNet f).rst = d.rst := rfl
@[simp] theorem Dev.modNet_domQ (d : Dev) (f : Net → Net) : (d.modNet f).domQ = d.domQ := rfl
@[simp] theorem Dev.modNet_sec (d : Dev) (f : Net → Net) : (d.modNet f).sec = d.sec := rfl
@[simp] theorem Dev.modNet_boot (d : Dev) (f : Net → Net) : (d.modNet f).boot = d.boot := rfl
@[simp] theorem Dev.modNet_flash (d : Dev) (f : Net → Net) : (d.modNet f).flash = d.flash := rfl

/-! ### Dev.setLink -/
@[simp] theorem Dev.setLink_fresh (d : Dev) (l : LinkId) (x : Link) : (d.setLink l x).fresh = d.fresh := rfl
@[simp] theorem Dev.setLink_time (d : Dev) (l : LinkId) (x : Link) : (d.setLink l x).time = d.time := rfl
@[simp] theorem Dev.setLink_frac (d : Dev) (l : LinkId) (x : Link) : (d.setLink l x).frac = d.frac := rfl
@[simp] theorem Dev.setLink_regs (d : Dev) (l : LinkId) (x : Link) : (d.setLink l x).regs = d.regs := rfl
@[simp] theorem Dev.setLink_loHeld (d : Dev) (l : LinkId) (x : Link) : (d.setLink l x).loHeld = d.loHeld := rfl
@[simp] theorem Dev.setLink_hiCap (d : Dev) (l : LinkId) (x : Link) : (d.setLink l x).hiCap = d.hiCap := rfl
@[simp] theorem Dev.setLink_mem (d : Dev) (l : LinkId) (x : Link) : (d.setLink l x).mem = d.mem := rfl
@[simp] theorem Dev.setLink_fus (d : Dev) (l : LinkId) (x : Link) : (d.setLink l x).fus = d.fus := rfl
@[simp] theorem Dev.setLink_tiles (d : Dev) (l : LinkId) (x : Link) : (d.setLink l x).tiles = d.tiles := rfl
@[simp] theorem Dev.setLink_regions (d : Dev) (l : LinkId) (x : Link) : (d.setLink l x).regions = d.regions := rfl
@[simp] theorem Dev.setLink_islands (d : Dev) (l : LinkId) (x : Link) : (d.setLink l x).islands = d.islands := rfl
@[simp] theorem Dev.setLink_graphs (d : Dev) (l : LinkId) (x : Link) : (d.setLink l x).graphs = d.graphs := rfl
@[simp] theorem Dev.setLink_evtQ (d : Dev) (l : LinkId) (x : Link) : (d.setLink l x).evtQ = d.evtQ := rfl
@[simp] theorem Dev.setLink_evtWait (d : Dev) (l : LinkId) (x : Link) : (d.setLink l x).evtWait = d.evtWait := rfl
@[simp] theorem Dev.setLink_jrn (d : Dev) (l : LinkId) (x : Link) : (d.setLink l x).jrn = d.jrn := rfl
@[simp] theorem Dev.setLink_jrnNext (d : Dev) (l : LinkId) (x : Link) : (d.setLink l x).jrnNext = d.jrnNext := rfl
@[simp] theorem Dev.setLink_jrnWait (d : Dev) (l : LinkId) (x : Link) : (d.setLink l x).jrnWait = d.jrnWait := rfl
@[simp] theorem Dev.setLink_jrnLow (d : Dev) (l : LinkId) (x : Link) : (d.setLink l x).jrnLow = d.jrnLow := rfl
@[simp] theorem Dev.setLink_groups (d : Dev) (l : LinkId) (x : Link) : (d.setLink l x).groups = d.groups := rfl
@[simp] theorem Dev.setLink_pend (d : Dev) (l : LinkId) (x : Link) : (d.setLink l x).pend = d.pend := rfl
@[simp] theorem Dev.setLink_outHeld (d : Dev) (l : LinkId) (x : Link) : (d.setLink l x).outHeld = d.outHeld := rfl
@[simp] theorem Dev.setLink_stew (d : Dev) (l : LinkId) (x : Link) : (d.setLink l x).stew = d.stew := rfl
@[simp] theorem Dev.setLink_hbm (d : Dev) (l : LinkId) (x : Link) : (d.setLink l x).hbm = d.hbm := rfl
@[simp] theorem Dev.setLink_pulses (d : Dev) (l : LinkId) (x : Link) : (d.setLink l x).pulses = d.pulses := rfl
@[simp] theorem Dev.setLink_hbMiss (d : Dev) (l : LinkId) (x : Link) : (d.setLink l x).hbMiss = d.hbMiss := rfl
@[simp] theorem Dev.setLink_meas (d : Dev) (l : LinkId) (x : Link) : (d.setLink l x).meas = d.meas := rfl
@[simp] theorem Dev.setLink_eth (d : Dev) (l : LinkId) (x : Link) : (d.setLink l x).eth = d.eth := rfl
@[simp] theorem Dev.setLink_wire (d : Dev) (l : LinkId) (x : Link) : (d.setLink l x).wire = d.wire := rfl
@[simp] theorem Dev.setLink_ing (d : Dev) (l : LinkId) (x : Link) : (d.setLink l x).ing = d.ing := rfl
@[simp] theorem Dev.setLink_rly (d : Dev) (l : LinkId) (x : Link) : (d.setLink l x).rly = d.rly := rfl
@[simp] theorem Dev.setLink_ppsSeen (d : Dev) (l : LinkId) (x : Link) : (d.setLink l x).ppsSeen = d.ppsSeen := rfl
@[simp] theorem Dev.setLink_ppsOut (d : Dev) (l : LinkId) (x : Link) : (d.setLink l x).ppsOut = d.ppsOut := rfl
@[simp] theorem Dev.setLink_fcp (d : Dev) (l : LinkId) (x : Link) : (d.setLink l x).fcp = d.fcp := rfl
@[simp] theorem Dev.setLink_rst (d : Dev) (l : LinkId) (x : Link) : (d.setLink l x).rst = d.rst := rfl
@[simp] theorem Dev.setLink_domQ (d : Dev) (l : LinkId) (x : Link) : (d.setLink l x).domQ = d.domQ := rfl
@[simp] theorem Dev.setLink_sec (d : Dev) (l : LinkId) (x : Link) : (d.setLink l x).sec = d.sec := rfl
@[simp] theorem Dev.setLink_boot (d : Dev) (l : LinkId) (x : Link) : (d.setLink l x).boot = d.boot := rfl
@[simp] theorem Dev.setLink_flash (d : Dev) (l : LinkId) (x : Link) : (d.setLink l x).flash = d.flash := rfl

/-! ### Dev.send -/
@[simp] theorem Dev.send_fresh (d : Dev) (n : Node) (p : Packet) : (d.send n p).fresh = d.fresh := rfl
@[simp] theorem Dev.send_time (d : Dev) (n : Node) (p : Packet) : (d.send n p).time = d.time := rfl
@[simp] theorem Dev.send_frac (d : Dev) (n : Node) (p : Packet) : (d.send n p).frac = d.frac := rfl
@[simp] theorem Dev.send_regs (d : Dev) (n : Node) (p : Packet) : (d.send n p).regs = d.regs := rfl
@[simp] theorem Dev.send_loHeld (d : Dev) (n : Node) (p : Packet) : (d.send n p).loHeld = d.loHeld := rfl
@[simp] theorem Dev.send_hiCap (d : Dev) (n : Node) (p : Packet) : (d.send n p).hiCap = d.hiCap := rfl
@[simp] theorem Dev.send_mem (d : Dev) (n : Node) (p : Packet) : (d.send n p).mem = d.mem := rfl
@[simp] theorem Dev.send_fus (d : Dev) (n : Node) (p : Packet) : (d.send n p).fus = d.fus := rfl
@[simp] theorem Dev.send_tiles (d : Dev) (n : Node) (p : Packet) : (d.send n p).tiles = d.tiles := rfl
@[simp] theorem Dev.send_regions (d : Dev) (n : Node) (p : Packet) : (d.send n p).regions = d.regions := rfl
@[simp] theorem Dev.send_islands (d : Dev) (n : Node) (p : Packet) : (d.send n p).islands = d.islands := rfl
@[simp] theorem Dev.send_graphs (d : Dev) (n : Node) (p : Packet) : (d.send n p).graphs = d.graphs := rfl
@[simp] theorem Dev.send_evtQ (d : Dev) (n : Node) (p : Packet) : (d.send n p).evtQ = d.evtQ := rfl
@[simp] theorem Dev.send_evtWait (d : Dev) (n : Node) (p : Packet) : (d.send n p).evtWait = d.evtWait := rfl
@[simp] theorem Dev.send_jrn (d : Dev) (n : Node) (p : Packet) : (d.send n p).jrn = d.jrn := rfl
@[simp] theorem Dev.send_jrnNext (d : Dev) (n : Node) (p : Packet) : (d.send n p).jrnNext = d.jrnNext := rfl
@[simp] theorem Dev.send_jrnWait (d : Dev) (n : Node) (p : Packet) : (d.send n p).jrnWait = d.jrnWait := rfl
@[simp] theorem Dev.send_jrnLow (d : Dev) (n : Node) (p : Packet) : (d.send n p).jrnLow = d.jrnLow := rfl
@[simp] theorem Dev.send_groups (d : Dev) (n : Node) (p : Packet) : (d.send n p).groups = d.groups := rfl
@[simp] theorem Dev.send_pend (d : Dev) (n : Node) (p : Packet) : (d.send n p).pend = d.pend := rfl
@[simp] theorem Dev.send_outHeld (d : Dev) (n : Node) (p : Packet) : (d.send n p).outHeld = d.outHeld := rfl
@[simp] theorem Dev.send_stew (d : Dev) (n : Node) (p : Packet) : (d.send n p).stew = d.stew := rfl
@[simp] theorem Dev.send_hbm (d : Dev) (n : Node) (p : Packet) : (d.send n p).hbm = d.hbm := rfl
@[simp] theorem Dev.send_pulses (d : Dev) (n : Node) (p : Packet) : (d.send n p).pulses = d.pulses := rfl
@[simp] theorem Dev.send_hbMiss (d : Dev) (n : Node) (p : Packet) : (d.send n p).hbMiss = d.hbMiss := rfl
@[simp] theorem Dev.send_meas (d : Dev) (n : Node) (p : Packet) : (d.send n p).meas = d.meas := rfl
@[simp] theorem Dev.send_eth (d : Dev) (n : Node) (p : Packet) : (d.send n p).eth = d.eth := rfl
@[simp] theorem Dev.send_wire (d : Dev) (n : Node) (p : Packet) : (d.send n p).wire = d.wire := rfl
@[simp] theorem Dev.send_ing (d : Dev) (n : Node) (p : Packet) : (d.send n p).ing = d.ing := rfl
@[simp] theorem Dev.send_rly (d : Dev) (n : Node) (p : Packet) : (d.send n p).rly = d.rly := rfl
@[simp] theorem Dev.send_ppsSeen (d : Dev) (n : Node) (p : Packet) : (d.send n p).ppsSeen = d.ppsSeen := rfl
@[simp] theorem Dev.send_ppsOut (d : Dev) (n : Node) (p : Packet) : (d.send n p).ppsOut = d.ppsOut := rfl
@[simp] theorem Dev.send_fcp (d : Dev) (n : Node) (p : Packet) : (d.send n p).fcp = d.fcp := rfl
@[simp] theorem Dev.send_rst (d : Dev) (n : Node) (p : Packet) : (d.send n p).rst = d.rst := rfl
@[simp] theorem Dev.send_domQ (d : Dev) (n : Node) (p : Packet) : (d.send n p).domQ = d.domQ := rfl
@[simp] theorem Dev.send_sec (d : Dev) (n : Node) (p : Packet) : (d.send n p).sec = d.sec := rfl
@[simp] theorem Dev.send_boot (d : Dev) (n : Node) (p : Packet) : (d.send n p).boot = d.boot := rfl
@[simp] theorem Dev.send_flash (d : Dev) (n : Node) (p : Packet) : (d.send n p).flash = d.flash := rfl

/-! ### Dev.modFcp -/
@[simp] theorem Dev.modFcp_fresh (d : Dev) (f : Fcp → Fcp) : (d.modFcp f).fresh = d.fresh := rfl
@[simp] theorem Dev.modFcp_time (d : Dev) (f : Fcp → Fcp) : (d.modFcp f).time = d.time := rfl
@[simp] theorem Dev.modFcp_frac (d : Dev) (f : Fcp → Fcp) : (d.modFcp f).frac = d.frac := rfl
@[simp] theorem Dev.modFcp_regs (d : Dev) (f : Fcp → Fcp) : (d.modFcp f).regs = d.regs := rfl
@[simp] theorem Dev.modFcp_loHeld (d : Dev) (f : Fcp → Fcp) : (d.modFcp f).loHeld = d.loHeld := rfl
@[simp] theorem Dev.modFcp_hiCap (d : Dev) (f : Fcp → Fcp) : (d.modFcp f).hiCap = d.hiCap := rfl
@[simp] theorem Dev.modFcp_mem (d : Dev) (f : Fcp → Fcp) : (d.modFcp f).mem = d.mem := rfl
@[simp] theorem Dev.modFcp_fus (d : Dev) (f : Fcp → Fcp) : (d.modFcp f).fus = d.fus := rfl
@[simp] theorem Dev.modFcp_tiles (d : Dev) (f : Fcp → Fcp) : (d.modFcp f).tiles = d.tiles := rfl
@[simp] theorem Dev.modFcp_regions (d : Dev) (f : Fcp → Fcp) : (d.modFcp f).regions = d.regions := rfl
@[simp] theorem Dev.modFcp_net (d : Dev) (f : Fcp → Fcp) : (d.modFcp f).net = d.net := rfl
@[simp] theorem Dev.modFcp_islands (d : Dev) (f : Fcp → Fcp) : (d.modFcp f).islands = d.islands := rfl
@[simp] theorem Dev.modFcp_graphs (d : Dev) (f : Fcp → Fcp) : (d.modFcp f).graphs = d.graphs := rfl
@[simp] theorem Dev.modFcp_evtQ (d : Dev) (f : Fcp → Fcp) : (d.modFcp f).evtQ = d.evtQ := rfl
@[simp] theorem Dev.modFcp_evtWait (d : Dev) (f : Fcp → Fcp) : (d.modFcp f).evtWait = d.evtWait := rfl
@[simp] theorem Dev.modFcp_jrn (d : Dev) (f : Fcp → Fcp) : (d.modFcp f).jrn = d.jrn := rfl
@[simp] theorem Dev.modFcp_jrnNext (d : Dev) (f : Fcp → Fcp) : (d.modFcp f).jrnNext = d.jrnNext := rfl
@[simp] theorem Dev.modFcp_jrnWait (d : Dev) (f : Fcp → Fcp) : (d.modFcp f).jrnWait = d.jrnWait := rfl
@[simp] theorem Dev.modFcp_jrnLow (d : Dev) (f : Fcp → Fcp) : (d.modFcp f).jrnLow = d.jrnLow := rfl
@[simp] theorem Dev.modFcp_groups (d : Dev) (f : Fcp → Fcp) : (d.modFcp f).groups = d.groups := rfl
@[simp] theorem Dev.modFcp_pend (d : Dev) (f : Fcp → Fcp) : (d.modFcp f).pend = d.pend := rfl
@[simp] theorem Dev.modFcp_outHeld (d : Dev) (f : Fcp → Fcp) : (d.modFcp f).outHeld = d.outHeld := rfl
@[simp] theorem Dev.modFcp_stew (d : Dev) (f : Fcp → Fcp) : (d.modFcp f).stew = d.stew := rfl
@[simp] theorem Dev.modFcp_hbm (d : Dev) (f : Fcp → Fcp) : (d.modFcp f).hbm = d.hbm := rfl
@[simp] theorem Dev.modFcp_pulses (d : Dev) (f : Fcp → Fcp) : (d.modFcp f).pulses = d.pulses := rfl
@[simp] theorem Dev.modFcp_hbMiss (d : Dev) (f : Fcp → Fcp) : (d.modFcp f).hbMiss = d.hbMiss := rfl
@[simp] theorem Dev.modFcp_meas (d : Dev) (f : Fcp → Fcp) : (d.modFcp f).meas = d.meas := rfl
@[simp] theorem Dev.modFcp_eth (d : Dev) (f : Fcp → Fcp) : (d.modFcp f).eth = d.eth := rfl
@[simp] theorem Dev.modFcp_wire (d : Dev) (f : Fcp → Fcp) : (d.modFcp f).wire = d.wire := rfl
@[simp] theorem Dev.modFcp_ing (d : Dev) (f : Fcp → Fcp) : (d.modFcp f).ing = d.ing := rfl
@[simp] theorem Dev.modFcp_rly (d : Dev) (f : Fcp → Fcp) : (d.modFcp f).rly = d.rly := rfl
@[simp] theorem Dev.modFcp_ppsSeen (d : Dev) (f : Fcp → Fcp) : (d.modFcp f).ppsSeen = d.ppsSeen := rfl
@[simp] theorem Dev.modFcp_ppsOut (d : Dev) (f : Fcp → Fcp) : (d.modFcp f).ppsOut = d.ppsOut := rfl
@[simp] theorem Dev.modFcp_rst (d : Dev) (f : Fcp → Fcp) : (d.modFcp f).rst = d.rst := rfl
@[simp] theorem Dev.modFcp_domQ (d : Dev) (f : Fcp → Fcp) : (d.modFcp f).domQ = d.domQ := rfl
@[simp] theorem Dev.modFcp_sec (d : Dev) (f : Fcp → Fcp) : (d.modFcp f).sec = d.sec := rfl
@[simp] theorem Dev.modFcp_boot (d : Dev) (f : Fcp → Fcp) : (d.modFcp f).boot = d.boot := rfl
@[simp] theorem Dev.modFcp_flash (d : Dev) (f : Fcp → Fcp) : (d.modFcp f).flash = d.flash := rfl

/-! ### Dev.modIng -/
@[simp] theorem Dev.modIng_fresh (d : Dev) (f : Ing → Ing) : (d.modIng f).fresh = d.fresh := rfl
@[simp] theorem Dev.modIng_time (d : Dev) (f : Ing → Ing) : (d.modIng f).time = d.time := rfl
@[simp] theorem Dev.modIng_frac (d : Dev) (f : Ing → Ing) : (d.modIng f).frac = d.frac := rfl
@[simp] theorem Dev.modIng_regs (d : Dev) (f : Ing → Ing) : (d.modIng f).regs = d.regs := rfl
@[simp] theorem Dev.modIng_loHeld (d : Dev) (f : Ing → Ing) : (d.modIng f).loHeld = d.loHeld := rfl
@[simp] theorem Dev.modIng_hiCap (d : Dev) (f : Ing → Ing) : (d.modIng f).hiCap = d.hiCap := rfl
@[simp] theorem Dev.modIng_mem (d : Dev) (f : Ing → Ing) : (d.modIng f).mem = d.mem := rfl
@[simp] theorem Dev.modIng_fus (d : Dev) (f : Ing → Ing) : (d.modIng f).fus = d.fus := rfl
@[simp] theorem Dev.modIng_tiles (d : Dev) (f : Ing → Ing) : (d.modIng f).tiles = d.tiles := rfl
@[simp] theorem Dev.modIng_regions (d : Dev) (f : Ing → Ing) : (d.modIng f).regions = d.regions := rfl
@[simp] theorem Dev.modIng_net (d : Dev) (f : Ing → Ing) : (d.modIng f).net = d.net := rfl
@[simp] theorem Dev.modIng_islands (d : Dev) (f : Ing → Ing) : (d.modIng f).islands = d.islands := rfl
@[simp] theorem Dev.modIng_graphs (d : Dev) (f : Ing → Ing) : (d.modIng f).graphs = d.graphs := rfl
@[simp] theorem Dev.modIng_evtQ (d : Dev) (f : Ing → Ing) : (d.modIng f).evtQ = d.evtQ := rfl
@[simp] theorem Dev.modIng_evtWait (d : Dev) (f : Ing → Ing) : (d.modIng f).evtWait = d.evtWait := rfl
@[simp] theorem Dev.modIng_jrn (d : Dev) (f : Ing → Ing) : (d.modIng f).jrn = d.jrn := rfl
@[simp] theorem Dev.modIng_jrnNext (d : Dev) (f : Ing → Ing) : (d.modIng f).jrnNext = d.jrnNext := rfl
@[simp] theorem Dev.modIng_jrnWait (d : Dev) (f : Ing → Ing) : (d.modIng f).jrnWait = d.jrnWait := rfl
@[simp] theorem Dev.modIng_jrnLow (d : Dev) (f : Ing → Ing) : (d.modIng f).jrnLow = d.jrnLow := rfl
@[simp] theorem Dev.modIng_groups (d : Dev) (f : Ing → Ing) : (d.modIng f).groups = d.groups := rfl
@[simp] theorem Dev.modIng_pend (d : Dev) (f : Ing → Ing) : (d.modIng f).pend = d.pend := rfl
@[simp] theorem Dev.modIng_outHeld (d : Dev) (f : Ing → Ing) : (d.modIng f).outHeld = d.outHeld := rfl
@[simp] theorem Dev.modIng_stew (d : Dev) (f : Ing → Ing) : (d.modIng f).stew = d.stew := rfl
@[simp] theorem Dev.modIng_hbm (d : Dev) (f : Ing → Ing) : (d.modIng f).hbm = d.hbm := rfl
@[simp] theorem Dev.modIng_pulses (d : Dev) (f : Ing → Ing) : (d.modIng f).pulses = d.pulses := rfl
@[simp] theorem Dev.modIng_hbMiss (d : Dev) (f : Ing → Ing) : (d.modIng f).hbMiss = d.hbMiss := rfl
@[simp] theorem Dev.modIng_meas (d : Dev) (f : Ing → Ing) : (d.modIng f).meas = d.meas := rfl
@[simp] theorem Dev.modIng_eth (d : Dev) (f : Ing → Ing) : (d.modIng f).eth = d.eth := rfl
@[simp] theorem Dev.modIng_wire (d : Dev) (f : Ing → Ing) : (d.modIng f).wire = d.wire := rfl
@[simp] theorem Dev.modIng_rly (d : Dev) (f : Ing → Ing) : (d.modIng f).rly = d.rly := rfl
@[simp] theorem Dev.modIng_ppsSeen (d : Dev) (f : Ing → Ing) : (d.modIng f).ppsSeen = d.ppsSeen := rfl
@[simp] theorem Dev.modIng_ppsOut (d : Dev) (f : Ing → Ing) : (d.modIng f).ppsOut = d.ppsOut := rfl
@[simp] theorem Dev.modIng_fcp (d : Dev) (f : Ing → Ing) : (d.modIng f).fcp = d.fcp := rfl
@[simp] theorem Dev.modIng_rst (d : Dev) (f : Ing → Ing) : (d.modIng f).rst = d.rst := rfl
@[simp] theorem Dev.modIng_domQ (d : Dev) (f : Ing → Ing) : (d.modIng f).domQ = d.domQ := rfl
@[simp] theorem Dev.modIng_sec (d : Dev) (f : Ing → Ing) : (d.modIng f).sec = d.sec := rfl
@[simp] theorem Dev.modIng_boot (d : Dev) (f : Ing → Ing) : (d.modIng f).boot = d.boot := rfl
@[simp] theorem Dev.modIng_flash (d : Dev) (f : Ing → Ing) : (d.modIng f).flash = d.flash := rfl

/-! ### Dev.modMeas -/
@[simp] theorem Dev.modMeas_fresh (d : Dev) (f : Meas → Meas) : (d.modMeas f).fresh = d.fresh := rfl
@[simp] theorem Dev.modMeas_time (d : Dev) (f : Meas → Meas) : (d.modMeas f).time = d.time := rfl
@[simp] theorem Dev.modMeas_frac (d : Dev) (f : Meas → Meas) : (d.modMeas f).frac = d.frac := rfl
@[simp] theorem Dev.modMeas_regs (d : Dev) (f : Meas → Meas) : (d.modMeas f).regs = d.regs := rfl
@[simp] theorem Dev.modMeas_loHeld (d : Dev) (f : Meas → Meas) : (d.modMeas f).loHeld = d.loHeld := rfl
@[simp] theorem Dev.modMeas_hiCap (d : Dev) (f : Meas → Meas) : (d.modMeas f).hiCap = d.hiCap := rfl
@[simp] theorem Dev.modMeas_mem (d : Dev) (f : Meas → Meas) : (d.modMeas f).mem = d.mem := rfl
@[simp] theorem Dev.modMeas_fus (d : Dev) (f : Meas → Meas) : (d.modMeas f).fus = d.fus := rfl
@[simp] theorem Dev.modMeas_tiles (d : Dev) (f : Meas → Meas) : (d.modMeas f).tiles = d.tiles := rfl
@[simp] theorem Dev.modMeas_regions (d : Dev) (f : Meas → Meas) : (d.modMeas f).regions = d.regions := rfl
@[simp] theorem Dev.modMeas_net (d : Dev) (f : Meas → Meas) : (d.modMeas f).net = d.net := rfl
@[simp] theorem Dev.modMeas_islands (d : Dev) (f : Meas → Meas) : (d.modMeas f).islands = d.islands := rfl
@[simp] theorem Dev.modMeas_graphs (d : Dev) (f : Meas → Meas) : (d.modMeas f).graphs = d.graphs := rfl
@[simp] theorem Dev.modMeas_evtQ (d : Dev) (f : Meas → Meas) : (d.modMeas f).evtQ = d.evtQ := rfl
@[simp] theorem Dev.modMeas_evtWait (d : Dev) (f : Meas → Meas) : (d.modMeas f).evtWait = d.evtWait := rfl
@[simp] theorem Dev.modMeas_jrn (d : Dev) (f : Meas → Meas) : (d.modMeas f).jrn = d.jrn := rfl
@[simp] theorem Dev.modMeas_jrnNext (d : Dev) (f : Meas → Meas) : (d.modMeas f).jrnNext = d.jrnNext := rfl
@[simp] theorem Dev.modMeas_jrnWait (d : Dev) (f : Meas → Meas) : (d.modMeas f).jrnWait = d.jrnWait := rfl
@[simp] theorem Dev.modMeas_jrnLow (d : Dev) (f : Meas → Meas) : (d.modMeas f).jrnLow = d.jrnLow := rfl
@[simp] theorem Dev.modMeas_groups (d : Dev) (f : Meas → Meas) : (d.modMeas f).groups = d.groups := rfl
@[simp] theorem Dev.modMeas_pend (d : Dev) (f : Meas → Meas) : (d.modMeas f).pend = d.pend := rfl
@[simp] theorem Dev.modMeas_outHeld (d : Dev) (f : Meas → Meas) : (d.modMeas f).outHeld = d.outHeld := rfl
@[simp] theorem Dev.modMeas_stew (d : Dev) (f : Meas → Meas) : (d.modMeas f).stew = d.stew := rfl
@[simp] theorem Dev.modMeas_hbm (d : Dev) (f : Meas → Meas) : (d.modMeas f).hbm = d.hbm := rfl
@[simp] theorem Dev.modMeas_pulses (d : Dev) (f : Meas → Meas) : (d.modMeas f).pulses = d.pulses := rfl
@[simp] theorem Dev.modMeas_hbMiss (d : Dev) (f : Meas → Meas) : (d.modMeas f).hbMiss = d.hbMiss := rfl
@[simp] theorem Dev.modMeas_eth (d : Dev) (f : Meas → Meas) : (d.modMeas f).eth = d.eth := rfl
@[simp] theorem Dev.modMeas_wire (d : Dev) (f : Meas → Meas) : (d.modMeas f).wire = d.wire := rfl
@[simp] theorem Dev.modMeas_ing (d : Dev) (f : Meas → Meas) : (d.modMeas f).ing = d.ing := rfl
@[simp] theorem Dev.modMeas_rly (d : Dev) (f : Meas → Meas) : (d.modMeas f).rly = d.rly := rfl
@[simp] theorem Dev.modMeas_ppsSeen (d : Dev) (f : Meas → Meas) : (d.modMeas f).ppsSeen = d.ppsSeen := rfl
@[simp] theorem Dev.modMeas_ppsOut (d : Dev) (f : Meas → Meas) : (d.modMeas f).ppsOut = d.ppsOut := rfl
@[simp] theorem Dev.modMeas_fcp (d : Dev) (f : Meas → Meas) : (d.modMeas f).fcp = d.fcp := rfl
@[simp] theorem Dev.modMeas_rst (d : Dev) (f : Meas → Meas) : (d.modMeas f).rst = d.rst := rfl
@[simp] theorem Dev.modMeas_domQ (d : Dev) (f : Meas → Meas) : (d.modMeas f).domQ = d.domQ := rfl
@[simp] theorem Dev.modMeas_sec (d : Dev) (f : Meas → Meas) : (d.modMeas f).sec = d.sec := rfl
@[simp] theorem Dev.modMeas_boot (d : Dev) (f : Meas → Meas) : (d.modMeas f).boot = d.boot := rfl
@[simp] theorem Dev.modMeas_flash (d : Dev) (f : Meas → Meas) : (d.modMeas f).flash = d.flash := rfl

/-! ### Dev.modStew -/
@[simp] theorem Dev.modStew_fresh (d : Dev) (f : Steward → Steward) : (d.modStew f).fresh = d.fresh := rfl
@[simp] theorem Dev.modStew_time (d : Dev) (f : Steward → Steward) : (d.modStew f).time = d.time := rfl
@[simp] theorem Dev.modStew_frac (d : Dev) (f : Steward → Steward) : (d.modStew f).frac = d.frac := rfl
@[simp] theorem Dev.modStew_regs (d : Dev) (f : Steward → Steward) : (d.modStew f).regs = d.regs := rfl
@[simp] theorem Dev.modStew_loHeld (d : Dev) (f : Steward → Steward) : (d.modStew f).loHeld = d.loHeld := rfl
@[simp] theorem Dev.modStew_hiCap (d : Dev) (f : Steward → Steward) : (d.modStew f).hiCap = d.hiCap := rfl
@[simp] theorem Dev.modStew_mem (d : Dev) (f : Steward → Steward) : (d.modStew f).mem = d.mem := rfl
@[simp] theorem Dev.modStew_fus (d : Dev) (f : Steward → Steward) : (d.modStew f).fus = d.fus := rfl
@[simp] theorem Dev.modStew_tiles (d : Dev) (f : Steward → Steward) : (d.modStew f).tiles = d.tiles := rfl
@[simp] theorem Dev.modStew_regions (d : Dev) (f : Steward → Steward) : (d.modStew f).regions = d.regions := rfl
@[simp] theorem Dev.modStew_net (d : Dev) (f : Steward → Steward) : (d.modStew f).net = d.net := rfl
@[simp] theorem Dev.modStew_islands (d : Dev) (f : Steward → Steward) : (d.modStew f).islands = d.islands := rfl
@[simp] theorem Dev.modStew_graphs (d : Dev) (f : Steward → Steward) : (d.modStew f).graphs = d.graphs := rfl
@[simp] theorem Dev.modStew_evtQ (d : Dev) (f : Steward → Steward) : (d.modStew f).evtQ = d.evtQ := rfl
@[simp] theorem Dev.modStew_evtWait (d : Dev) (f : Steward → Steward) : (d.modStew f).evtWait = d.evtWait := rfl
@[simp] theorem Dev.modStew_jrn (d : Dev) (f : Steward → Steward) : (d.modStew f).jrn = d.jrn := rfl
@[simp] theorem Dev.modStew_jrnNext (d : Dev) (f : Steward → Steward) : (d.modStew f).jrnNext = d.jrnNext := rfl
@[simp] theorem Dev.modStew_jrnWait (d : Dev) (f : Steward → Steward) : (d.modStew f).jrnWait = d.jrnWait := rfl
@[simp] theorem Dev.modStew_jrnLow (d : Dev) (f : Steward → Steward) : (d.modStew f).jrnLow = d.jrnLow := rfl
@[simp] theorem Dev.modStew_groups (d : Dev) (f : Steward → Steward) : (d.modStew f).groups = d.groups := rfl
@[simp] theorem Dev.modStew_pend (d : Dev) (f : Steward → Steward) : (d.modStew f).pend = d.pend := rfl
@[simp] theorem Dev.modStew_outHeld (d : Dev) (f : Steward → Steward) : (d.modStew f).outHeld = d.outHeld := rfl
@[simp] theorem Dev.modStew_hbm (d : Dev) (f : Steward → Steward) : (d.modStew f).hbm = d.hbm := rfl
@[simp] theorem Dev.modStew_pulses (d : Dev) (f : Steward → Steward) : (d.modStew f).pulses = d.pulses := rfl
@[simp] theorem Dev.modStew_hbMiss (d : Dev) (f : Steward → Steward) : (d.modStew f).hbMiss = d.hbMiss := rfl
@[simp] theorem Dev.modStew_meas (d : Dev) (f : Steward → Steward) : (d.modStew f).meas = d.meas := rfl
@[simp] theorem Dev.modStew_eth (d : Dev) (f : Steward → Steward) : (d.modStew f).eth = d.eth := rfl
@[simp] theorem Dev.modStew_wire (d : Dev) (f : Steward → Steward) : (d.modStew f).wire = d.wire := rfl
@[simp] theorem Dev.modStew_ing (d : Dev) (f : Steward → Steward) : (d.modStew f).ing = d.ing := rfl
@[simp] theorem Dev.modStew_rly (d : Dev) (f : Steward → Steward) : (d.modStew f).rly = d.rly := rfl
@[simp] theorem Dev.modStew_ppsSeen (d : Dev) (f : Steward → Steward) : (d.modStew f).ppsSeen = d.ppsSeen := rfl
@[simp] theorem Dev.modStew_ppsOut (d : Dev) (f : Steward → Steward) : (d.modStew f).ppsOut = d.ppsOut := rfl
@[simp] theorem Dev.modStew_fcp (d : Dev) (f : Steward → Steward) : (d.modStew f).fcp = d.fcp := rfl
@[simp] theorem Dev.modStew_rst (d : Dev) (f : Steward → Steward) : (d.modStew f).rst = d.rst := rfl
@[simp] theorem Dev.modStew_domQ (d : Dev) (f : Steward → Steward) : (d.modStew f).domQ = d.domQ := rfl
@[simp] theorem Dev.modStew_sec (d : Dev) (f : Steward → Steward) : (d.modStew f).sec = d.sec := rfl
@[simp] theorem Dev.modStew_boot (d : Dev) (f : Steward → Steward) : (d.modStew f).boot = d.boot := rfl
@[simp] theorem Dev.modStew_flash (d : Dev) (f : Steward → Steward) : (d.modStew f).flash = d.flash := rfl

end Sys2Proof.Machine
end

