-- ==== Sys2Proof/Laws/Registers.lean ====
section
/-!
SUPPORT. The register file: what a write of one register does to every other, the access codes bit by bit, and the numbers of tiles and FUs.
-/
namespace Sys2Proof.Machine

theorem keysRise_tail {c : Nat × α} {m : SMap α} (h : keysRise (c :: m)) : keysRise m := (List.pairwise_cons.1 h).2

/-- No key below the first entry is listed. -/
theorem mget_below {d : α} : ∀ {m : SMap α} {k : Nat}, (∀ c ∈ m, k < c.1) → mget d m k = d
  | [], _, _ => rfl
  | (i, v) :: m, k, h => by
    have : k < i := h (i, v) (List.mem_cons_self ..)
    have h' : i ≠ k := by omega
    simp [mget, h', this]

theorem mget_mdel_rise_same {d : α} : ∀ {m : SMap α} {k : Nat}, keysRise m → mget d (mdel m k) k = d
  | [], _, _ => rfl
  | (i, v) :: m, k, h => by
    have hm := List.pairwise_cons.1 h
    by_cases h1 : i = k
    · subst h1; simp only [mdel, if_true]; exact mget_below (fun c hc => hm.1 c hc)
    · by_cases h2 : k < i
      · simp [mdel, mget, h1, h2]
      · simp only [mdel, h1, h2, if_false, mget]; exact mget_mdel_rise_same hm.2

theorem mget_mdel_rise_other {d : α} : ∀ {m : SMap α} {k j : Nat}, keysRise m → j ≠ k → mget d (mdel m k) j = mget d m j
  | [], _, _, _, _ => rfl
  | (i, v) :: m, k, j, h, hj => by
    have hm := List.pairwise_cons.1 h
    by_cases h1 : i = k
    · subst h1
      have hji : ¬ i = j := fun e => hj e.symm
      by_cases h2 : j < i
      · rw [mdel, if_pos rfl, mget_below (fun c hc => Nat.lt_trans h2 (hm.1 c hc)), mget, if_neg hji, if_pos h2]
      · rw [mdel, if_pos rfl, mget, if_neg hji, if_neg h2]
    · by_cases h2 : k < i
      · simp [mdel, h1, h2]
      · simp only [mdel, h1, h2, if_false, mget]
        split
        · rfl
        · split
          · rfl
          · exact mget_mdel_rise_other hm.2 hj

theorem mget_mput_rise_other {d : α} : ∀ {m : SMap α} {k j : Nat} {v : α}, keysRise m → j ≠ k → mget d (mput m k v) j = mget d m j
  | [], k, j, v, _, hj => by
    have : ¬ k = j := fun e => hj e.symm
    simp [mput, mget, this]
  | (i, w) :: m, k, j, v, h, hj => by
    have hm := List.pairwise_cons.1 h
    have hkj : ¬ k = j := fun e => hj e.symm
    by_cases h1 : i = k
    · subst h1; simp [mput, mget, hkj]
    · by_cases h2 : k < i
      · simp only [mput, h1, h2, if_false, if_true]
        rw [mget, if_neg hkj]
        by_cases h3 : j < k
        · rw [if_pos h3, mget_below]
          intro c hc
          rcases List.mem_cons.1 hc with rfl | hc
          · show j < i; omega
          · have := hm.1 c hc; omega
        · rw [if_neg h3]
      · simp only [mput, h1, h2, if_false, mget]
        split
        · rfl
        · split
          · rfl
          · exact mget_mput_rise_other hm.2 hj

/-- A table whose keys rise reads back what was written … -/
theorem mget_mset_rise_same [DecidableEq α] {d : α} {m : SMap α} (h : keysRise m) (k : Nat) (v : α) : mget d (mset d m k v) k = v := by
  unfold mset; split
  · next e => rw [e]; exact mget_mdel_rise_same h
  · exact mget_mput_same d m k v

/-- … and every other key as before, whatever its own default is. -/
theorem mget_mset_rise_other [DecidableEq α] {d d' : α} {m : SMap α} (h : keysRise m) {k j : Nat} (v : α) (hj : j ≠ k) :
    mget d' (mset d m k v) j = mget d' m j := by
  unfold mset; split
  · exact mget_mdel_rise_other h hj
  · exact mget_mput_rise_other h hj

theorem keysRise_mdel : ∀ {m : SMap α} {k : Nat}, keysRise m → keysRise (mdel m k)
  | [], _, _ => List.Pairwise.nil
  | (i, v) :: m, k, h => by
    have hm := List.pairwise_cons.1 h
    have sub : ∀ (m : SMap α) (c : Nat × α), c ∈ mdel m k → c ∈ m := by
      intro m; induction m with
      | nil => intro c hc; exact hc
      | cons x xs ih =>
        obtain ⟨y, w⟩ := x
        intro c hc
        simp only [mdel] at hc
        split at hc
        · exact List.mem_cons_of_mem _ hc
        · split at hc
          · exact hc
          · rcases List.mem_cons.1 hc with rfl | hc
            · exact List.mem_cons_self ..
            · exact List.mem_cons_of_mem _ (ih c hc)
    simp only [mdel]
    split
    · exact hm.2
    · split
      · exact h
      · exact List.pairwise_cons.2 ⟨fun c hc => hm.1 c (sub m c hc), keysRise_mdel hm.2⟩

theorem keysRise_mput : ∀ {m : SMap α} {k : Nat} {v : α}, keysRise m → keysRise (mput m k v)
  | [], _, _, _ => List.pairwise_singleton ..
  | (i, w) :: m, k, v, h => by
    have hm := List.pairwise_cons.1 h
    have sup : ∀ (m : SMap α) (c : Nat × α), c ∈ mput m k v → c.1 = k ∨ c ∈ m := by
      intro m; induction m with
      | nil => intro c hc; left; simp [mput] at hc; simp [hc]
      | cons x xs ih =>
        obtain ⟨y, u⟩ := x
        intro c hc
        simp only [mput] at hc
        split at hc
        · rcases List.mem_cons.1 hc with rfl | hc
          · exact Or.inl rfl
          · exact Or.inr (List.mem_cons_of_mem _ hc)
        · split at hc
          · rcases List.mem_cons.1 hc with rfl | hc
            · exact Or.inl rfl
            · exact Or.inr hc
          · rcases List.mem_cons.1 hc with rfl | hc
            · exact Or.inr (List.mem_cons_self ..)
            · rcases ih c hc with e | e
              · exact Or.inl e
              · exact Or.inr (List.mem_cons_of_mem _ e)
    simp only [mput]
    split
    · next e => exact List.pairwise_cons.2 ⟨fun c hc => by have := hm.1 c hc; simp only at this ⊢; omega, hm.2⟩
    · split
      · next e1 e2 =>
        refine List.pairwise_cons.2 ⟨fun c hc => ?_, h⟩
        rcases List.mem_cons.1 hc with rfl | hc
        · exact e2
        · have := hm.1 c hc; simp only at this ⊢; omega
      · next e1 e2 =>
        refine List.pairwise_cons.2 ⟨fun c hc => ?_, keysRise_mput hm.2⟩
        rcases sup m c hc with e | e
        · simp only; omega
        · exact hm.1 c e

theorem keysRise_mset [DecidableEq α] {d : α} {m : SMap α} (k : Nat) (v : α) (h : keysRise m) : keysRise (mset d m k v) := by
  unfold mset; split
  · exact keysRise_mdel h
  · exact keysRise_mput h

/-- A canonical table's keys rise. -/
theorem keysRise_of_mwf [DecidableEq α] {d : α} : ∀ {m : SMap α} {lo : Nat}, mwfFrom d lo m = true → keysRise m ∧ ∀ c ∈ m, lo ≤ c.1
  | [], _, _ => ⟨List.Pairwise.nil, fun _ h => by cases h⟩
  | (i, v) :: m, lo, h => by
    simp only [mwfFrom, Bool.and_eq_true, decide_eq_true_eq] at h
    have ih := keysRise_of_mwf h.2
    refine ⟨List.pairwise_cons.2 ⟨fun c hc => ih.2 c hc, ih.1⟩, fun c hc => ?_⟩
    rcases List.mem_cons.1 hc with rfl | hc
    · exact h.1.1
    · have := ih.2 c hc; omega

/-! ### Registers -/

@[simp] theorem reg_setReg_same (d : Dev) (a : Nat) (v : W32) (h : keysRise d.regs) : (d.setReg a v).reg a = v := mget_mset_rise_same h a v
theorem reg_setReg_other (d : Dev) (a b : Nat) (v : W32) (h : keysRise d.regs) (hb : b ≠ a) : (d.setReg a v).reg b = d.reg b :=
  mget_mset_rise_other h v hb
theorem keysRise_setReg (d : Dev) (a : Nat) (v : W32) (h : keysRise d.regs) : keysRise (d.setReg a v).regs := keysRise_mset a v h

/-- The access codes, bit by bit (R13). -/
theorem accessWrite_bit (l : RegLoc) (boot : Bool) (old v : W32) (i : Nat) (hi : i < 32) :
    (accessWrite { l.spec with rw := l.spec.rw ||| l.spec.wo } boot old v).getLsbD i = bitWritten l boot old v i := by
  unfold accessWrite bitWritten
  cases boot <;> simp only [BitVec.getLsbD_and, BitVec.getLsbD_or, BitVec.getLsbD_not, hi, decide_true, Bool.true_and, if_true, if_false, Bool.false_and, Bool.or_false, Bool.false_eq_true] <;>
    cases v.getLsbD i <;> cases old.getLsbD i <;> cases l.spec.w1c.getLsbD i <;>
    cases l.spec.rw.getLsbD i <;> cases l.spec.wo.getLsbD i <;> cases l.spec.rwb.getLsbD i <;> first | rfl | simp | skip

theorem writeTile_plain (d : Dev) (f : Fuses) (l : RegLoc) (a : Nat) (v : W32) (h : ownWrite l.blk l.off = false) : d.writeTile f l a v = d.plainWrite l a v := by
  unfold ownWrite at h
  unfold Dev.writeTile; dsimp only
  split
  all_goals first
    | (exfalso; rename_i h1 h2; rw [h1, h2] at h; cases h)
    | rfl

theorem writeRegion_plain (d : Dev) (l : RegLoc) (a : Nat) (v : W32) (h : ownWrite l.blk l.off = false) : d.writeRegion l a v = d.plainWrite l a v := by
  unfold ownWrite at h
  unfold Dev.writeRegion; dsimp only
  split
  all_goals first
    | (exfalso; rename_i h1 h2; rw [h1, h2] at h; cases h)
    | rfl

theorem writeDma_plain (d : Dev) (l : RegLoc) (a : Nat) (v : W32) (hb : l.blk = .dmaCh) (h : ownWrite l.blk l.off = false)
    (hc : d.rbit (chCtrl (l.inst / 32) (l.inst % 32)) 2 = false) : d.writeDma l a v = d.plainWrite l a v := by
  simp only [hb, ownWrite, Bool.or_eq_false_iff, beq_eq_false_iff_ne, decide_eq_false_iff_not] at h
  unfold Dev.writeDma; dsimp only
  rw [if_neg h.1, hc, if_neg h.2]; rfl

theorem writeMeas_plain (d : Dev) (l : RegLoc) (a : Nat) (v : W32) (h : ownWrite l.blk l.off = false) : d.writeMeas l a v = d.plainWrite l a v := by
  unfold ownWrite at h
  unfold Dev.writeMeas
  split
  all_goals first
    | (exfalso; rename_i h1 h2; rw [h1, h2] at h; cases h)
    | (have hb : l.blk = .afe := by assumption
       simp [hb] at h)
    | (have hb : l.blk = .trip := by assumption
       simp [hb] at h; rw [if_neg (by omega)])
    | rfl

theorem writeLink_plain (d : Dev) (l : RegLoc) (a : Nat) (v : W32) (h : ownWrite l.blk l.off = false) : d.writeLink l a v = d.plainWrite l a v := by
  unfold ownWrite at h
  unfold Dev.writeLink
  split
  all_goals first
    | (exfalso; rename_i h1 h2; rw [h1, h2] at h; cases h)
    | rfl

theorem writeSys_plain (d : Dev) (f : Fuses) (l : RegLoc) (a : Nat) (v : W32) (h : ownWrite l.blk l.off = false) : d.writeSys f l a v = d.plainWrite l a v := by
  unfold ownWrite at h
  unfold Dev.writeSys
  split
  all_goals first
    | (exfalso; rename_i h1 h2; rw [h1, h2] at h; cases h)
    | (have hb : l.blk = .pwr := by assumption
       simp [hb] at h; rw [if_neg (by omega)])
    | (have hb : l.blk = .sec := by assumption
       simp [hb] at h; rw [if_neg (by omega)])
    | rfl

/-- A register without a write behaviour of its own is written by its access codes. -/
theorem regWrite_plain (d : Dev) (f : Fuses) (a : Nat) (v : W32) (l : RegLoc) (hl : regAt a = some l) (hp : plainRegister l) (hw : d.writable l a) :
    d.regWrite f a v = d.plainWrite l a v := by
  unfold Dev.regWrite
  simp only [hl, hw.1, Bool.false_eq_true, if_false]
  split
  all_goals first
    | exact writeTile_plain d f l a v hp
    | exact writeRegion_plain d l a v hp
    | exact writeMeas_plain d l a v hp
    | exact writeLink_plain d l a v hp
    | exact writeSys_plain d f l a v hp
    | exact writeDma_plain d l a v (by assumption) hp (hw.2 (by assumption))

/-! ### Numbers of tiles and firing units -/

@[simp] theorem tileKey_div (g : Nat) (t : Fin 17) : tileKey g t / 17 = g := by unfold tileKey; omega
@[simp] theorem tileKey_mod (g : Nat) (t : Fin 17) : tileKey g t % 17 = t := by unfold tileKey; omega

end Sys2Proof.Machine
end

