-- ==== Sys2Proof/Machine/Package.lean ====
section
/-!
DEFINITION. The package: its outline, the ball map, rails with their windows and sequence, limits, levels, power and temperatures (19_package_electrical.md;
R2, R41). None of it is state: these are the figures that bind what stands outside, and that the sources of reset are measured against (R471, R474).
Lengths are in µm, voltages in mV, currents in µA, power in µW, temperatures in m°C.
-/
namespace Sys2Proof.Machine

/-! ### Rails (R557 to R561) -/

/-- The supplies. -/
inductive Rail where
  | core | sram | hub | sd09 | sd12 | vddq | vpp | ioF | ioS | ioT | vap15 | van15 | va5 | viepe | vbak
  deriving DecidableEq, Repr

def rails : List Rail := [.core, .sram, .hub, .sd09, .sd12, .vddq, .vpp, .ioF, .ioS, .ioT, .vap15, .van15, .va5, .viepe, .vbak]

/-- The index of a monitored rail, which is the DETAIL of its brown-out (R471). -/
def Rail.index : Rail → Option Nat
  | .core => some 0 | .sram => some 1 | .hub => some 2 | .sd09 => some 3 | .sd12 => some 4 | .vddq => some 5 | .vpp => some 6 | .ioF => some 7
  | .ioS => some 8 | .ioT => some 9 | .vap15 => some 10 | .van15 => some 11 | .va5 => some 12 | .viepe => none | .vbak => none

/-- The recommended range; `hi` says that VDDIO_F runs at 3.3 V. -/
def Rail.window (hi : Bool) : Rail → Int × Int
  | .core | .hub => (720, 780) | .sram => (770, 830) | .sd09 => (873, 927) | .sd12 => (1164, 1236) | .vddq => (1067, 1133) | .vpp => (1710, 1890)
  | .ioF => if hi then (3135, 3465) else (1710, 1890)
  | .ioS | .ioT => (3135, 3465) | .vap15 => (14250, 15750) | .van15 => (-15750, -14250) | .va5 => (4750, 5250) | .viepe => (26000, 30000) | .vbak => (2500, 3600)

/-- The magnitude below which a monitored rail is in brown-out. -/
def Rail.brownOut (hi : Bool) : Rail → Option Int
  | .core | .hub => some 690 | .sram => some 740 | .sd09 => some 840 | .sd12 => some 1120 | .vddq => some 1030 | .vpp => some 1650
  | .ioF => some (if hi then 2970 else 1620) | .ioS | .ioT => some 2970 | .vap15 | .van15 => some 13500 | .va5 => some 4500 | .viepe | .vbak => none

/-- Continuous and peak current, and balls. -/
def Rail.load : Rail → Nat × Nat × Nat
  | .core => (200000000, 240000000, 936) | .sram => (30000000, 36000000, 208) | .hub => (24000000, 30000000, 104) | .sd09 => (14000000, 16000000, 64)
  | .sd12 => (4000000, 5000000, 32) | .vddq => (10000000, 14000000, 88) | .vpp => (800000, 1500000, 16) | .ioF => (300000, 500000, 26)
  | .ioS => (400000, 600000, 26) | .ioT => (500000, 800000, 52) | .vap15 | .van15 => (80000, 120000, 17) | .va5 => (150000, 200000, 17)
  | .viepe => (700000, 700000, 4) | .vbak => (10, 10, 2)

/-- What a monitored rail asks of the reset controller (R471, R561): code 1 where it enters its window from outside, code 3 below its brown-out
threshold, nothing in between. `out` says that it was outside its window. (DESIGN CHOICE, log 93.) -/
def Rail.source (hi out : Bool) (r : Rail) (mv : Int) : Option Nat :=
  match r.brownOut hi with
  | none => none
  | some t =>
    let w := r.window hi
    if (if r = .van15 then -mv else mv) < t then some 3 else if out ∧ w.1 ≤ mv ∧ mv ≤ w.2 then some 1 else none

/-- The step of the supply sequence at which a rail ramps (R559). -/
def Rail.step : Rail → Nat
  | .vbak => 1 | .ioF | .ioS | .ioT | .vpp | .va5 | .vap15 | .van15 => 2 | .sd12 | .vddq => 3 | .sram => 4 | .core | .hub | .sd09 => 5 | .viepe => 6

/-- An order in which the rails may be applied, and in reverse be removed (R559, R560). -/
def supplyOrder (rs : List Rail) : Bool := decide (rs.Pairwise (fun a b => a.step ≤ b.step))

/-- What holds between rails at all times (R559). -/
def railsAgree (mv : Rail → Int) : Bool := decide (mv .vddq - 100 ≤ mv .vpp ∧ mv .core - 50 ≤ mv .sram)

/-! ### The balls (R548 to R556) -/

/-- What a ball carries. -/
inductive Ball where
  | txp (k : Nat) | txn (k : Nat) | rxp (k : Nat) | rxn (k : Nat) | refSysP | refSysN | refEthP | refEthN
  | ainP (n : Nat) | ainN (n : Nat) | aout (m : Nat) | tach (t : Nat) | refDec (k : Nat) | tripOut (l : Nat) | tripRb (l : Nat)
  | segP (s : Nat) | segN (s : Nat) | ospiDq (j : Nat) | ospiClk | ospiDqs | ospiCsN | ospiRstN | rstN | bootsrc (k : Nat) | clkmode (k : Nat)
  | ppsIn | ppsOut | tck | tms | tdi | tdo | trstN | rtcXi | rtcXo | tdiodeP | tdiodeN
  | rail (r : Rail) | vss | agnd
  deriving DecidableEq, Repr

/-- A ball that is neither supply nor ground. -/
def Ball.isSignal : Ball → Bool
  | .rail _ => false | .vss => false | .agnd => false | _ => true

/-- The letters of row `i` (R549). -/
def rowLetters (i : Nat) : List Char :=
  let s := "ABCDEFGHJKLMNPTUVWY".toList
  let p := [s.getD ((i - 1) % 19) 'A']
  match (i - 1) / 19 with | 0 => p | q => s.getD (q - 1) 'A' :: p

/-- The left band (R551). -/
def leftBall (r c : Nat) : Ball :=
  let pair := fun (p n : Ball) => if c = 2 then p else n
  if c = 2 ∨ c = 3 then
    if r = 66 then pair .refSysP .refSysN
    else if r = 68 then pair .refEthP .refEthN
    else if r % 8 = 2 ∧ r < 66 then pair (.txp (r / 8)) (.txn (r / 8))
    else if r % 8 = 6 ∧ r < 64 then pair (.rxp (r / 8)) (.rxn (r / 8)) else .vss
  else if c = 6 ∧ r ≤ 64 then .rail .sd09
  else if c = 7 ∧ r ≤ 64 ∧ r % 2 = 0 then .rail .sd12 else .vss

/-- The right band (R552). -/
def rightBall (r c : Nat) : Ball :=
  if (c = 67 ∨ c = 68) ∧ 3 ≤ r ∧ r ≤ 66 then (if c = 67 then .ainP (r - 3) else .ainN (r - 3))
  else if c = 64 ∧ r % 4 = 0 ∧ r ≤ 64 then .aout (r / 4 - 1)
  else if c = 63 ∧ r % 8 = 6 ∧ r ≤ 62 then .tach (r / 8)
  else if c = 62 ∧ r % 4 ≠ 0 then .rail (if r % 4 = 1 then .vap15 else if r % 4 = 2 then .van15 else .va5)
  else if c = 61 ∧ r ≤ 4 then .rail .viepe
  else if c = 61 ∧ (r = 33 ∨ r = 34) then .refDec (r - 33) else .agnd

/-- The bottom band (R553). -/
def bottomBall (r c : Nat) : Ball :=
  let k := (c - 12) / 3
  if (r = 62 ∨ r = 63 ∨ r = 66 ∨ r = 67) ∧ 12 ≤ c ∧ c % 3 = 0 ∧ k < 16 then
    (if r = 62 then .tripOut k else if r = 63 then .tripRb k else if r = 66 then .tripOut (k + 16) else .tripRb (k + 16))
  else if (r = 64 ∨ r = 68) ∧ c % 2 = 0 then .rail .ioT else .vss

/-- The top band (R554). -/
def topBall (r c : Nat) : Ball :=
  if r = 1 ∧ c % 2 = 0 then .rail .ioS
  else if r = 2 ∧ 12 ≤ c ∧ (c - 12) / 6 < 8 ∧ (c - 12) % 6 < 2 then (if c % 6 = 0 then .segP ((c - 12) / 6) else .segN ((c - 12) / 6))
  else if r = 4 ∧ c % 2 = 0 then .rail .ioF
  else if r = 5 ∧ 12 ≤ c ∧ c ≤ 34 ∧ c % 2 = 0 then
    (if c ≤ 26 then .ospiDq ((c - 12) / 2) else if c = 28 then .ospiClk else if c = 30 then .ospiDqs else if c = 32 then .ospiCsN else .ospiRstN)
  else if r = 7 then
    match c with
    | 12 => .rstN | 14 => .bootsrc 0 | 16 => .bootsrc 1 | 18 => .clkmode 0 | 20 => .clkmode 1 | 22 => .ppsIn | 24 => .ppsOut | 26 => .tck | 28 => .tms
    | 30 => .tdi | 32 => .tdo | 34 => .trstN | 40 => .rtcXi | 42 => .rtcXo | 44 => .rail .vbak | 46 => .rail .vbak | 50 => .tdiodeP | 52 => .tdiodeN | _ => .vss
  else .vss

/-- The inner zone (R555). -/
def innerBall (r c : Nat) : Ball :=
  if (r + c) % 2 = 0 then .vss
  else if r ≤ 12 then .rail .hub
  else if r ≤ 16 ∨ (53 ≤ r ∧ r ≤ 56) then .rail .sram
  else if r ≤ 52 then .rail .core
  else if c ≤ 52 then .rail .vddq else .rail .vpp

/-- The ball at a row and a column, 1 to 68 (R550). (DESIGN CHOICE, log 93.) -/
def ballAt (r c : Nat) : Ball :=
  if c ≤ 8 then leftBall r c else if 61 ≤ c then rightBall r c else if r ≤ 8 then topBall r c else if 61 ≤ r then bottomBall r c else innerBall r c

/-- Balls of the array for which `p` holds. -/
def ballCount (p : Ball → Bool) : Nat :=
  ((List.range 68).map (fun i => ((List.range 68).filter (fun j => p (ballAt (i + 1) (j + 1)))).length)).foldl (· + ·) 0

/-- Body, seated height, balls in a row, pitch, edge to the outer balls, ball, coplanarity, flatness; load on the lid in N, mass in g, moisture level,
reflow peak (R548). -/
def outline : List Nat := [70000, 4600, 68, 1000, 1500, 600, 200, 200]
def outlineOther : List Nat := [450, 78, 4, 250]

/-! ### Limits and levels (R562 to R569) -/

/-- Items that have absolute limits beside the rails. -/
inductive Stress where
  | rail (r : Rail) | digital (vddio : Int) | ain | tachIn | aoutPin | serdes | grounds | junction | storage
  deriving DecidableEq, Repr

/-- The absolute limits of an item (R562). (DESIGN CHOICE, log 93.) -/
def Stress.limits : Stress → Int × Int
  | .rail .core | .rail .hub => (-300, 900) | .rail .sram => (-300, 950) | .rail .sd09 => (-300, 1050) | .rail .sd12 | .rail .vddq => (-300, 1400)
  | .rail .vpp => (-300, 2100) | .rail .ioF | .rail .ioS | .rail .ioT => (-300, 3800) | .rail .vbak => (-300, 4000) | .rail .vap15 => (-300, 17000)
  | .rail .van15 => (-17000, 300) | .rail .va5 => (-300, 6000) | .rail .viepe => (-300, 33000) | .digital v => (-300, min 3800 (v + 300))
  | .ain => (-36000, 36000) | .tachIn => (-60000, 60000) | .aoutPin => (-15000, 15000) | .serdes => (-300, 1300) | .grounds => (-300, 300)
  | .junction => (-55000, 135000) | .storage => (-55000, 125000)

/-- The level that a digital pin reads at `mv`, none between the thresholds (R563); `hi` is a 3.3 V bank at `vddio`. -/
def pinLevel (hi : Bool) (vddio mv : Int) : Option Bool :=
  let ih := if hi then 200000 else 65 * vddio
  let il := if hi then 80000 else 35 * vddio
  if ih ≤ 100 * mv then some true else if 100 * mv ≤ il then some false else none

/-- The least high and the greatest low level that a pin drives at 8 mA (R563); a TRIP_OUT drives at least 2.9 V (R564). -/
def pinDrives (hi : Bool) (vddio : Int) : Int × Int := if hi then (2400, 400) else (vddio - 450, 450)
def tripHigh : Int := 2900

/-- Hysteresis of RST_N, TCK, PPS_IN and TRIP_RB (R563), the weak pull-up's range in Ω (R480, R563), and pin leakage and capacitance in pF. -/
def pinHysteresis (hi : Bool) : Nat := if hi then 200 else 100
def pullUp : Nat × Nat × Nat := (30000, 50000, 80000)
def pinLeak : Nat × Nat := (10, 5)

/-- TRIP_OUT's level (R564, R387): high-impedance without VDDIO_T, which a driver reads as demand. -/
def tripReads (vddioT demand : Bool) : Bool := !vddioT || demand

/-- The operating ranges of AIN_P for a VIEPE, of AIN_N by whether IEPE is on, of TACH_IN's linear range (R565). -/
def ainRange (viepe : Int) : Int × Int := (-27000, viepe)
def ainNRange (iepe : Bool) : Int × Int := if iepe then (-1000, 1000) else (-27000, 27000)
def tachRange : Int × Int := (-30000, 30000)

/-- TACH_IN's threshold accuracy at a setting, in tenths of mV; AOUT's least load in Ω, greatest in nF, its current limit in mA, its offset in mV (R565). -/
def tachAccuracy (mv : Nat) : Nat := 500 + mv / 10
def aoutLoad : List Nat := [2000, 10, 25, 2]

/-- The gain error that a source resistance adds, as a fraction (R566). -/
def sourceError (ohm : Nat) : Nat × Nat := (ohm, ohm + 2000000)

/-- A segment's trunk in m, node connections, stubs in mm, pF a node, termination in Ω (R567). -/
def segmentTrunk : List Nat := [25, 33, 100, 15, 100]

/-- The references' frequencies in Hz, their duty cycle and swing, and jitter in fs (R568); the crystal's frequency in mHz, load in fF and ESR in Ω (R569). -/
def refHz (eth : Bool) : Nat := if eth then 156250000 else 100000000
def refDuty : Nat × Nat := (45, 55)
def refSwing : Nat × Nat := (300, 1200)
def refJitter (eth : Bool) : Nat := if eth then 300 else 1000
def crystal : List Nat := [32768000, 12500, 70000]

/-- A reference is within ±50 ppm of its frequency (R483). -/
def refInTolerance (eth : Bool) (hz : Nat) : Bool := decide ((hz - refHz eth + (refHz eth - hz)) * 1000000 ≤ 50 * refHz eth)

/-! ### Power and temperature (R2, R41, R474, R571, R572) -/

/-- Greatest junction temperature of a variant (R2, R571), its thermal trip and the temperature at which a trip's reset ends (R474). -/
def maxJunction (varE : Bool) : Int := if varE then 115000 else 105000
def minJunction : Int := -40000
def tripTemp (varE : Bool) : Int := maxJunction varE + 15000
def tripEnds (varE : Bool) : Int := maxJunction varE - 10000
def hbmMaxTemp : Int := 95000

/-- Power of a cluster at `f` tenths of GHz with activity `a` in thousandths (R41, R572). -/
def clusterPower (varE : Bool) (f a : Nat) : Nat := (if varE then 100000 else 80000) + 22 * f * a

/-- Greatest power of the device: its powered clusters, powered regions and die fabrics, and the rest (R41). -/
def devicePower (varE : Bool) (clusters : List (Nat × Nat)) (regions fabrics : Nat) : Nat :=
  (clusters.map (fun c => clusterPower varE c.1 c.2)).foldl (· + ·) 0 + regions * 600000 + fabrics * 1500000 + 14000000 + 8000000 + 12000000 + 2300000

/-- Junction temperature above an ambient for a power and a thermal resistance in m°C/W (R571). -/
def junctionAt (ambient : Int) (uw theta : Nat) : Int := ambient + (uw * theta / 1000000 : Nat)

/-- θJC and θJB in m°C/W (R571). -/
def thetaJc : Nat := 50
def thetaJb : Nat := 1100

end Sys2Proof.Machine
end

