-- ==== Sys2Proof/WellFormed.lean ====
section
/-!
DEFINITION. What the operands' types do not say of a command: list lengths and registers that are aligned. Commands outside these limits are not sent.
-/
namespace Sys2Proof

/-- The operands are ones that the device can receive: a register's address is a multiple of 4 (R9), a calibration measures the 16 channels of a group
(R392), a frame on an interface holds at least its Ethernet header (R422), an announcement's entries are of 16 words (R411). -/
def Instr.wf : Instr → Bool
  | .registerWrite a _ | .pairLoRead a | .pairHiWrite a _ => a.toNat % 4 == 0
  | .calEnd co => co.length == 16
  | .ethFrameReceive _ _ bs _ => decide (14 ≤ bs.length)
  | .announce _ _ ents => ents.all (fun e => e.length == 16)
  | _ => true

end Sys2Proof
end

