-- ==== Sys2Proof/Tests/Slice0.lean ====
section
/-!
SUPPORT. Small tests: ill-formed commands are refused by `Instr.wf`, worked values of the spec, and for each statement with hypotheses states that meet them.
-/
namespace Sys2Proof.Tests
open Sys2Proof.Machine
set_option Elab.async false

/-! ### Ill-formed commands (Instr.wf) -/

theorem test_wf_refuses_misaligned_write : (Instr.registerWrite 0x4000000002 0).wf = false := by decide
theorem test_wf_refuses_misaligned_pair_read : (Instr.pairLoRead 1).wf = false := by decide
theorem test_wf_refuses_misaligned_pair_write : (Instr.pairHiWrite 3 0).wf = false := by decide
theorem test_wf_refuses_short_calibration : (Instr.calEnd []).wf = false := by decide
theorem test_wf_refuses_short_frame : (Instr.ethFrameReceive 0 0 [1, 2, 3] true).wf = false := by decide
theorem test_wf_accepts_aligned_write : (Instr.registerWrite 0x4000000004 0).wf = true := by decide

/-! ### States -/

/-- A device out of reset with every island released and nothing in it. -/
def live : Dev := { Dev.init with
  rst := { phase := 0, cold := false }
  islands := List.range 307 }
def st (d : Dev) : State := { dev := d }
/-- One FU with a state of its own: FU 0 of tile 0 of region 0. -/
def oneFu (u : Fu) : Dev := { live with fus := [(0, u)] }
/-- One region with a state of its own: region 0. -/
def oneRegion (r : Region) : Dev := { live with regions := [(0, r)] }
/-- A token at node slot 5, port 0, with a good TCRC. -/
def tok : Token := { tag := Tag.seal { node := 5 } }
theorem live_regs : keysRise live.regs := List.Pairwise.nil

/-! ### Witnesses: the hypotheses of each statement are met together -/

theorem wit_IdleStepIsOneTick : State.reset.pending = [] ∧ State.reset.dev.inColdReset ∧ (st live).pending = [] ∧ ¬ live.inColdReset ∧ live.reg (ptpReg 0x10) = 0 :=
  ⟨rfl, ⟨by decide, rfl⟩, rfl, fun h => absurd h.1 (by decide), by decide +kernel⟩

theorem wit_RegisterWriteByAccessCode :
    (∃ l, regAt (rstReg 0x1C) = some l ∧ plainRegister l ∧ live.writable l (rstReg 0x1C) ∧ keysRise live.regs ∧ l.isLo = false ∧ l.isHi = false) ∧
    (∃ l, regAt (flashReg 8) = some l ∧ plainRegister l ∧ live.writable l (flashReg 8) ∧ l.isLo = true ∧ l.spec.rw ||| l.spec.rwb ||| l.spec.wo ≠ 0) ∧
    (∃ l, regAt (dmaChReg 0 0 4) = some l ∧ (live.setBit (dmaReg 0 0xC) 0 true).heldInReset l (dmaChReg 0 0 4) = true) ∧ regAt 0 = none ∧ regAt (2 ^ 48 - 4) = none :=
  ⟨⟨_, rfl, rfl, ⟨by decide +kernel, by decide⟩, live_regs, by decide, by decide⟩, ⟨_, rfl, rfl, ⟨by decide +kernel, by decide⟩, by decide, by decide⟩,
   ⟨_, rfl, by decide +kernel⟩, by decide +kernel, by decide +kernel⟩

theorem wit_PairsActTogether :
    (∃ l, regAt (flashReg 8) = some l ∧ l.isLo = true ∧ ∃ h, regAt (flashReg 8 + 4) = some h ∧ h.isLo = false ∧ h.isHi = true) ∧
    (let d : Dev := { live with loHeld := [(flashReg 8, 7)] }
     ∃ l lo, regAt (flashReg 0xC) = some l ∧ plainRegister l ∧ d.writable l (flashReg 0xC) ∧ keysRise d.regs ∧ keysRise d.loHeld ∧ l.isLo = false ∧ l.isHi = true ∧
       regAt (flashReg 0xC - 4) = some lo ∧ (d.loHeld.find? (fun c => c.1 == flashReg 0xC - 4)).map (·.2) = some 7 ∧ 4 ≤ d.regKey l (flashReg 0xC)) ∧
    live.loHeld.find? (fun c => c.1 == flashReg 0xC - 4) = none :=
  ⟨⟨_, rfl, by decide, _, rfl, by decide, by decide⟩,
   ⟨_, _, rfl, rfl, ⟨by decide +kernel, by decide⟩, live_regs, List.pairwise_singleton _ _, by decide, by decide, rfl, by decide +kernel, by decide +kernel⟩, by decide +kernel⟩

theorem wit_TileAndMapControl_tiles :
    live.resetting = false ∧ Dev.init.resetting = true ∧ (live.tile (tileKey 0 0)).stride.run = none ∧ live.rbit (seStatusReg (tileKey 0 0)) 8 = false ∧
    (({ live with tiles := [(0, { stride := { run := some {} } })] } : Dev).tile (tileKey 0 0)).stride.run ≠ none ∧
    (live.setBit (seStatusReg (tileKey 15 16)) 8 true).rbit (seStatusReg (tileKey 15 16)) 8 = true ∧
    live.rbit (rgnReg 15 0x34) 16 = true ∧ (live.setBit (rgnReg 0 0x34) 0 false).rbit (rgnReg 0 0x34) 0 = false ∧
    fld (3#32) 4 0 < 4 ∧ 20 < fld (21#32) 4 0 ∧ fld (20#32) 4 0 ≤ live.fmax (st live).fuses ∧
    (let d := live.setFld (cluReg 0 0 4) 4 0 20; d.tileHeld (tileKey 0 0) = false ∧ 4 < d.rfld (cluReg 0 0 4) 4 0 ∧ d.rfld (cluReg 0 0 8) 10 6 ≠ d.rfld (cluReg 0 0 4) 4 0) ∧
    (let d := live.setFld (cluReg 0 0 4) 4 0 4; d.tileHeld (tileKey 0 0) = false ∧ d.rfld (cluReg 0 0 4) 4 0 ≤ 4) ∧
    (live.setFld (cluReg 0 16 4) 4 0 5).tileHeld (tileKey 0 16) = true ∧
    live.fmax { (st live).fuses with varE := true } < fld (20#32) 4 0 ∧
    (({ live with tiles := [(0, { pll := some 9 })] } : Dev).tile (tileKey 0 0)).pll = some 9 ∧ (live.tile (tileKey 0 0)).pll = none := by decide +kernel

theorem wit_TileAndMapControl_maps :
    (live.setBit (rgnReg 0 0x30) 1 true).rbit (rgnReg 0 0x30) 1 = true ∧ live.rbit (rgnReg 0 0x30) 1 = false ∧
    (live.setFld (rgnReg 0 0x20) 4 0 1).mapOk 0 ((live.setFld (rgnReg 0 0x20) 4 0 1).mapShadow 0) = false ∧
    live.mapOk 0 (live.mapShadow 0) = true ∧ live.mapShadow 0 = live.map 0 ∧
    (live.dom 0).flip = false ∧ (live.setDom 16 { flip := true }).oldGone 16 = true ∧ ((live.setDom 16 { flip := true }).dom 16).held = [] := by decide +kernel

/-- The shadow moves cluster 0 to the reserve tile 16. -/
def moving : Dev := live.setFld (rgnReg 0 0x20) 4 0 16

theorem wit_CommittedMapBecomesActive :
    (1#32).getLsbD 0 = true ∧ (1#32).getLsbD 2 = false ∧ moving.rbit (rgnReg 0 0x30) 1 = false ∧ moving.regHeld (rgnReg 0 0x30) = false ∧ moving.mapOk 0 (moving.mapShadow 0) = true ∧
    (List.range 16).filter (fun i => (moving.map 0).getD i 31 != (moving.mapShadow 0).getD i 31) = [0] ∧ moving.mapShadow 0 ≠ moving.map 0 ∧ (moving.mapShadow 0).length = 16 ∧ Memory.wf moving.mem = true := by decide +kernel
theorem wit_CommittedMapBecomesActive_keys : keysRise moving.regs := by unfold keysRise; decide +kernel

theorem wit_RouteAndIsolationControl :
    (live.setBit (nocReg 0 0x20) 1 true).rbit (nocReg 0 0x20) 1 = true ∧
    (let d := live.setReg (nocReg 0 0) 7; ∃ i, i < 24 ∧ badEntry 0 i ((d.nocShadow 0).getD i 15) = true) ∧
    (∀ i, i < 24 → badEntry 0 i ((live.nocShadow 0).getD i 15) = false) ∧ live.nocShadow 0 = live.nocActive 0 ∧ live.regHeld (nocReg 0 0x20) = false ∧
    (let d := live.setReg (nocReg 0 0) (live.reg (nocReg 0 0) ^^^ 0x10000); d.nocShadow 0 ≠ d.nocActive 0 ∧ ∀ i, i < 24 → badEntry 0 i ((d.nocShadow 0).getD i 15) = false) ∧
    (live.link ⟨.hub, .meas⟩).down = false ∧
    (List.range 17).filter (fun i => (0x10000#32).getLsbD i) = [16] ∧ (List.range 16).filter (fun i => (0x8000#32).getLsbD i) = [15] ∧
    live.rbit (nocReg 4 0x54) 15 = false ∧ mget 0 live.hbMiss 308 < 2 ∧ 2 ≤ mget 0 ({ live with hbMiss := [(271, 2)] } : Dev).hbMiss 271 := by decide +kernel

/-- A link into a tile unit with one flit in its queue. -/
def linkA : LinkId := ⟨.tile 0 0, .tileUnit 0 0 8⟩
def flitA : QFlit := { pkt := { dest := { tile := 0, unit := 8 }, body := .token tok }, n := 1 }
def withFlit (f : QFlit) : Dev := live.setLink linkA { q := [f] }

/-- Device time passes a link whose two ends are out of reset; a hop credit that the unit at its end owes waits for the way back. -/
def owing : Dev := live.setLink linkA { used := [(0, 1)], owed := [(0, 1)] }

theorem wit_LinksCarryFlits_empty : live.linkOpen linkA = true ∧ live.arbitrate linkA = none ∧ (live.setLink linkA { down := true }).linkOpen linkA = false ∧
    Node.router .hub = .hub := by decide +kernel
theorem wit_LinksCarryFlits_flit :
    let d := withFlit flitA
    let again := live.setLink linkA { q := [], resend := some (some (flitA, false)), fails := 1 }
    d.linkOpen linkA = true ∧ d.arbitrate linkA = some (.flit flitA false) ∧ flitA.pkt.ends = none ∧ flitA.idx = 0 ∧ flitA.n = 1 ∧ flitA.via = none ∧ (d.link linkA).resend = none ∧
    (d.link linkA).q.contains flitA = true ∧ d.behindMarsh linkA flitA = false ∧ e2eKey linkA flitA.pkt = none ∧
    again.linkOpen linkA = true ∧ again.arbitrate linkA = some (.flit flitA false) ∧ (again.link linkA).resend = some (some (flitA, false)) ∧
    (d.link linkA).q[0]? = some flitA ∧ flitA.pkt.age.toNat < 15 ∧ (withFlit { flitA with pkt := { flitA.pkt with age := 15 } } |>.link linkA).q[0]?.map (fun f => f.pkt.age) = some 15 ∧
    ({ flitA with via := some linkA, n := 2 } : QFlit).via = some linkA := by decide +kernel
theorem wit_LinksCarryFlits_check : flitOk (flitBits flitA.pkt 0 flitA.n ^^^ 0) = true ∧ flitOk (flitBits flitA.pkt 0 flitA.n ^^^ (1#256 <<< 200)) = false ∧
    flitOk (owing.creditBits (LinkId.back linkA) ^^^ 0) = true ∧ flitOk (owing.creditBits (LinkId.back linkA) ^^^ (1#256 <<< 200)) = false :=
  ⟨by simpa using flitOk_flitBits flitA.pkt 0 flitA.n, flitOk_lcrc_error .., by simpa using flitOk_creditBits owing _, flitOk_credit_error ..⟩
theorem wit_LinksCarryFlits_credits :
    let b := LinkId.back linkA
    let e := live.setLink linkA { wait := true }
    owing.linkOpen b = true ∧ owing.arbitrate b = some .credit ∧ b.src ≠ b.dst ∧ (owing.link (LinkId.back b)).wait = false ∧
    (∀ k, k < 5 → mget 0 (owing.link (LinkId.back b)).owed k ≤ mget 0 (owing.link (LinkId.back b)).used k) ∧ owing.nextE2e b = none ∧
    e.linkOpen b = true ∧ e.arbitrate b = some .credit ∧ (e.link (LinkId.back b)).wait = true ∧ e.nextE2e b = none ∧ e.drained (LinkId.back b) = true ∧
    live.arbitrate linkA ≠ some .credit := by decide +kernel
theorem wit_LinksCarryFlits_e2e :
    let l : LinkId := ⟨.die 0, .gw 0⟩
    let d := live.modNet (fun n => { n with acc := [(accKey (.die 0) 0 5, 3)] })
    d.linkOpen l = true ∧ d.arbitrate l = some .credit ∧ d.nextE2e l = some (0, 5, 3) ∧ l.src ≠ l.dst ∧ (d.link (LinkId.back l)).wait = false := by decide +kernel
theorem wit_LinksCarryFlits_links : (live.link linkA).fails < 8 ∧ 8 ≤ ((live.setLink ⟨.die 0, .die 1⟩ { fails := 8 }).link ⟨.die 0, .die 1⟩).fails ∧
    dieLinkBits ⟨.die 0, .die 1⟩ = [(0, 0), (1, 1)] ∧ (let d := (live.setBit (diefReg 0 4) 0 true).setBit (diefReg 1 4) 1 true; ∀ c ∈ dieLinkBits ⟨.die 0, .die 1⟩, d.rbit (diefReg c.1 4) c.2 = true) ∧ dieLinkBits linkA = [] ∧
    hopsToGw 1 ≠ hopsToGw 0 ∧ (∃ t : Fin 16, ∃ u : Fin 16, t ≠ u ∧ hopsToGw t = hopsToGw u) := by decide +kernel

theorem wit_TagCheckOfATokenInOrder :
    let p : Packet := { body := .token tok }
    let d := live.setInbox (fuNode 0) 0 [p]
    let m := live.setInbox (fuNode 0) 4 [p]
    let e := ({ live with fus := [(0, { tombs := [(0, 1)] })], tiles := [(0, { masks := [(5, 0x11)] })] } : Dev)
    (d.fu 0).held = none ∧ (d.fu 0).heldM = none ∧ (d.inbox (fuNode 0) 4).find? isToken = none ∧ d.inbox (fuNode 0) 0 = [p] ∧ m.inbox (fuNode 0) 4 = [p] ∧ infieldBlock p = none ∧
    ((oneFu { heldM := some tok }).fu 0).heldM ≠ none ∧
    Tag.crcOk tok.tag = true ∧ Tag.crcOk { tok.tag with tcrc := tok.tag.tcrc + 1 } = false ∧
    ((e.tookToken 0 0 []).fu 0).tombs.any (fun y => y.1 == tok.tag.ctx) = true ∧ e.isMarkAt 0 tok = false ∧ (live.fu 0).tombs.any (fun y => y.1 == tok.tag.ctx) = false ∧
    live.addressed 0 tok.tag = true ∧ live.addressed 2175 tok.tag = false ∧ tok.tag.cls = 0 ∧ tok.tag.port ≠ 3 ∧
    ¬ (({ tok.tag with cls := 4, graph := 1 } : Tag).cls = 4 ∧ (1 : BitVec 12) = 0) ∧
    (maskPorts (e.maskOf 0 5) 0).contains 0 = true ∧ (maskPorts (live.maskOf 0 5) 0).contains 0 = false ∧
    Token.ptype tok ≤ 8 ∧ 8 < Token.ptype { tok with ty := 9 } ∧ ((e.tookToken 0 0 []).matchTok 0 tok false []).2 = true := by decide +kernel
theorem wit_TagCheckOfATokenInOrder_held :
    let e := ({ live with fus := [(0, { issue := List.replicate 32 {} })], tiles := [(0, { masks := [(5, 0x11)] })] } : Dev).setInbox (fuNode 0) 4 [{ body := .token tok }]
    ((e.tookToken 0 4 []).matchTok 0 tok false []).2 = false := by decide +kernel

/-- A held token at FU 0 whose node's mask is `m`, beside waiting tokens. -/
def holding (m : Nat) (u : Fu) : Dev := { live with fus := [(0, { u with held := some tok })], tiles := [(0, { masks := [(5, m)] })] }
def tokSet : Nat := live.setOf 0 (keyOf tok.tag)
def partner : SMap Entry := [(8 * tokSet, { tok := { tok with tag := Tag.seal { node := 5, port := 1 } } })]
def sameport : SMap Entry := [(8 * tokSet, { tok := tok })]
/-- A token of the same set under another key. -/
def other (n : Nat) : Token := { tok with tag := Tag.seal { node := 6, ctx := BitVec.ofNat 22 n } }
/-- What a match test asks of the entries that wait with the held token. -/
def waits (d : Dev) : List (Loc × Token) := (d.fu 0).waiting tokSet (keyOf tok.tag)
def ports (d : Dev) : List Nat := maskPorts (d.maskOf 0 5) 0

theorem wit_MatchFiresOrWaits_alone :
    let d := holding 0x11 {}
    (d.fu 0).held = some tok ∧ (d.fu 0).heldM = none ∧ (d.fu 0).fills.all (fun f => !f.ret) = true ∧ (ports d).all (· == tok.tag.port.toNat) = true ∧ tok.tag.flow = 0 ∧
    d.fireRoom 0 (firingOf 5 [tok]) = true := by decide +kernel
theorem wit_MatchFiresOrWaits_no_room :
    let d := holding 0x11 { issue := List.replicate 32 {} }
    (ports d).all (· == tok.tag.port.toNat) = true ∧ d.fireRoom 0 (firingOf 5 [tok]) = false := by decide +kernel
theorem wit_MatchFiresOrWaits_fill :
    let d := holding 0x13 { fills := [{ key := keyOf tok.tag }], fillW := List.replicate 15 {} }
    (ports d).all (· == tok.tag.port.toNat) = false ∧ (d.fu 0).fills.all (fun f => !f.ret) = true ∧ (d.fu 0).fills.any (fun f => f.key == keyOf tok.tag) = true ∧
    (d.fu 0).fillW.length < 16 := by decide +kernel
theorem wit_MatchFiresOrWaits_partner :
    let d := holding 0x13 { slice := partner }
    (d.fu 0).fills.any (fun f => f.key == keyOf tok.tag) = false ∧ (waits d).any (fun e => e.2.tag.port == tok.tag.port) = false ∧
    (ports d).all (fun p => p == tok.tag.port.toNat || (waits d).any (fun e => e.2.tag.port.toNat == p)) = true ∧
    d.fireRoom 0 (firingOf 5 ((waits d).map (·.2) ++ [tok])) = true ∧
    (let e := holding 0x13 { slice := partner, issue := List.replicate 32 {} }; e.fireRoom 0 (firingOf 5 ((waits e).map (·.2) ++ [tok])) = false) := by decide +kernel
theorem wit_MatchFiresOrWaits_duplicate :
    let d := holding 0x13 { slice := sameport }
    (waits d).any (fun e => e.2.tag.port == tok.tag.port) = true ∧ (ports d).all (· == tok.tag.port.toNat) = false := by decide +kernel
theorem wit_MatchFiresOrWaits_missing :
    let d := holding 0x17 { slice := partner }
    (ports d).all (fun p => p == tok.tag.port.toNat || (waits d).any (fun e => e.2.tag.port.toNat == p)) = false ∧ d.filterMaybe 0 (keyOf tok.tag) = false ∧ tok.tag.prio ≠ 15 ∧
    ((d.fu 0).emptySlot ((List.range 8).map (· + 8 * tokSet))).isSome = true ∧ ((d.fu 0).emptySlot ((List.range 64).map (· + 1984))).isSome = true := by decide +kernel
theorem wit_MatchFiresOrWaits_evicts :
    let full : SMap Entry := (List.range 8).map (fun i => (8 * tokSet + i, { tok := other i, age := i }))
    let d := holding 0x13 { slice := full }
    (ports d).all (fun p => p == tok.tag.port.toNat || (waits d).any (fun e => e.2.tag.port.toNat == p)) = false ∧
    (d.fu 0).emptySlot ((List.range 8).map (· + 8 * tokSet)) = none ∧ (match (d.fu 0).victim tokSet with | some (_, e) => (match d.toSpill 0 e with | .ok _ => true | _ => false) | none => false) = true := by decide +kernel
/-- A spill entry not yet issued, and one issued. -/
def spillEnt : SpillEnt := { ent := { tok := tok }, slot := 3 }
def respAt (n : Node) (op : BitVec 4) (fu : Fu) : Dev := ({ live with fus := [(0, fu)] } : Dev).setInbox n 2 [{ body := .resp { op := op, rtag := 7 } }]

theorem wit_ScrubAndRebuild :
    (({ slice := [(0, { tok := tok })] } : Fu).slice.find? (fun c => c.1 == 0)).isSome = true ∧ (live.fu 0).slice.find? (fun c => c.1 == 2047) = none ∧
    (2#32).getLsbD 1 = true ∧ (1#32).getLsbD 1 = false ∧
    ((oneFu { rebuild := true }).fu (fuKey 0 0 0)).rebuild = true ∧ ((oneFu { rebuild := true }).fu 0).bitmap = [] ∧ ((oneFu { rebuild := true }).fu 0).spill = [] ∧
    (live.fu (fuKey 15 16 7)).rebuild = false ∧ (live.fu 0).spill.find? (fun e => !e.issued) = none ∧
    ((oneFu { spill := [spillEnt] }).fu 0).spill.find? (fun e => !e.issued) = some spillEnt ∧
    (oneFu { spill := [spillEnt] }).l1Credit (fuNode (fuKey 0 0 0)) = true ∧ (oneFu { spill := [spillEnt] }).respRoom (fuKey 0 0 0) = true := by decide +kernel
theorem respRoom_full (n : Nat) (h : 4096 ≤ n) : (oneFu { out := List.replicate n {} }).respRoom 0 = false := by
  have e : ((oneFu { out := List.replicate n {} }).fu 0).outstanding = n := by
    show (List.replicate n ({} : OutOp)).length + 0 + 0 + 0 = n
    rw [List.length_replicate]; rfl
  rw [Dev.respRoom, e]
  exact decide_eq_false (Nat.not_lt.2 h)
theorem wit_ScrubAndRebuild_no_room : (oneFu { out := List.replicate 4096 {} }).respRoom 0 = false := respRoom_full 4096 (Nat.le_refl _)
/-- A bucket whose first entry is waiting and is of key `keyOf tok.tag`. -/
def bucketOf : List Byte := entryBytes { tok := tok, st := 1 } ++ List.replicate 224 0
def bucketEnts : List (Nat × Entry) := (List.range 8).map (fun i => (i, entryOfBytes ((bucketOf.drop (32 * i)).take 32)))
theorem wit_ScrubAndRebuild_responses :
    let e : SpillEnt := { spillEnt with issued := true, tag := 7 }
    let f : Fill := { key := 1, buckets := [1, 2], tag := 7 }
    ((respAt (fuNode 0) 6 { spill := [e] }).takeResp (fuNode 0) (fun r => r.op == 6)).isSome = true ∧ ([e].find? (fun e => e.issued && e.tag == 7)) = some e ∧
    ((respAt (fuNode 0) 7 { fills := [f] }).takeResp (fuNode 0) (fun r => r.op == 7)).isSome = true ∧ f.buckets.tail = [2] ∧ [f].find? (fun f => f.tag == 7 && !f.ret) = some f ∧
    (((List.range 8).map (fun i => (i, entryOfBytes ((([] : List Byte).drop (32 * i)).take 32)))).filter (fun x => x.2.st == 1 && keyOf x.2.tok.tag == f.key)).take 2 = [] ∧
    (bucketEnts.filter (fun x => x.2.st == 1 && keyOf x.2.tok.tag == keyOf tok.tag)).take 2 ≠ [] ∧
    ((respAt (fuNode 0) 8 { dels := [(7, 1)] }).takeResp (fuNode 0) (fun r => r.op == 8)).isSome = true ∧ [((7 : Nat), (1 : W64))].find? (fun x => x.1 % 4096 == 7) = some (7, 1) := by
  decide +kernel
theorem wit_ScrubAndRebuild_none : ∀ op : BitVec 4, live.takeResp (fuNode 0) (fun r => r.op == op) = none := fun _ => by
  have h : live.inbox (fuNode 0) 2 = [] := rfl
  have i : live.inbox (fuNode 0) ownLane = [] := rfl
  simp [Dev.takeResp, Dev.popInbox, h, i]

/-- Context 0 of region 0 active; a sweep of it. -/
def ctxActive : W64 := BitVec.ofNat 64 (2 ^ 61)
def mgmtAt (n : Node) (m : Mgmt) : Dev := live.setInbox n 4 [{ body := .mgmt m }]

theorem wit_ContextsFaultAndSweep :
    let w : Pool := { wait := [{}] }
    let ctx : BitVec 22 := BitVec.ofNat 22 (0 * 2 ^ 18 + 0)
    ((oneRegion { pool := w }).region 0).pool.wait ≠ [] ∧ ((oneRegion { pool := w }).region 0).pool.starved = false ∧ (live.region 15).pool.wait = [] ∧
    ((mgmtAt (poolNode 0) (.fault 0)).takeMgmt (poolNode 0) isFaultMsg).isSome = true ∧ ((mgmtAt (poolNode 0) (.flags 0 1)).takeMgmt (poolNode 0) isFlagsMsg).isSome = true ∧
    live.takeMgmt (poolNode 0) isFaultMsg = none ∧ live.takeMgmt (poolNode 0) isFlagsMsg = none ∧ live.takeMgmt (fuNode (fuKey 0 0 0)) (isSweep 0) = none ∧
    cdState ctxActive = 1 ∧ cdState (BitVec.ofNat 64 (3 * 2 ^ 61)) = 3 ∧ cdState 0 = 0 ∧ cdState (BitVec.ofNat 64 (2 * 2 ^ 61)) = 2 ∧
    ((oneRegion { pool := { sweeps := [{}] } }).region 0).pool.sweeps.find? (fun x => x.ctx == ctx) = some {} ∧
    ((oneRegion { pool := { sweeps := [{ guard := true }] } }).region 0).pool.sweeps.find? (fun x => x.ctx == ctx) = some { guard := true } ∧
    live.sweepers.all (fun k => ({} : Sweep).acked.contains k) = false ∧
    (oneFu { tombs := [(ctx, 1)] }).fus.all (fun u => u.2.tombs.all (fun x => x.1 != ctx)) = false ∧ live.fus.all (fun u => u.2.tombs.all (fun x => x.1 != ctx)) = true ∧
    ({ sweeps := [{}] } : Fu).sweeps.find? (fun x => !x.ofl) = some {} ∧ ({ sweeps := [{}] } : Fu).sweeps.find? (fun x => !x.tomb) = some {} ∧
    ({ tombs := [(4, 3), (5, 2)] } : Fu).tombs.find? (fun x => x.1 == 5) = some (5, 2) ∧
    (({ tombs := [(4, 3), (5, 2)] } : Fu).tombs.takeWhile (fun y => y != (5, 2))).any (fun y => y.2 ≤ 2) = false ∧
    (live.fu 0).tombs.find? (fun x => x.1 == 5) = none ∧ (live.fu 0).sweeps.find? (fun x => !x.tomb) = none := by decide +kernel

theorem wit_ContextsFaultAndSweep_acked : live.sweepers.all (fun k => live.sweepers.contains k) = true := by
  simp

theorem wit_SweepRemovesTheContext :
    let d := mgmtAt (fuNode (fuKey 0 0 0)) (.sweep 3 5 0)
    mwf {} d.fus = true ∧ mwf {} d.tiles = true ∧ mwf {} d.regions = true ∧ (d.takeMgmt (fuNode (fuKey 0 0 0)) (isSweep 3)).isSome = true ∧
    (d.fu (fuKey 0 0 0)).tombs.length < 32 := by decide +kernel

theorem wit_HighWaterAndConfiguration :
    (1#32).getLsbD 0 = true ∧ (live.fu 0).slice = [] ∧ live.rfld (fuRegK 0 0xC) 17 0 = 0 ∧ ((oneFu { slice := [(0, {})] }).fu 0).slice ≠ [] ∧
    live.regionOpen 15 = false ∧ (live.setBit (pwrReg 4) 0 true).regionOpen 0 = true := by decide +kernel
theorem wit_HighWaterAndConfiguration_spilled : live.noneSpilled 0 = true ∧ (live.setFld (fuRegK 135 0xC) 17 0 1).noneSpilled 0 = false := by decide +kernel

theorem wit_NodeMemoryWrites :
    let d : Dev := { live with tiles := [(0, { held := [(0, 1), (1, 2), (2, 3)] })] }
    Memory.wf d.mem = true ∧ mwf {} d.tiles = true ∧
    ((d.tile (d.tileOfCluster 0)).held.find? (fun x => x.1 == 0 * 4 + 2)).map (·.2) = some 3 ∧ ((d.tile 0).held.find? (fun x => x.1 == 0)).map (·.2) = some 1 := by decide +kernel

/-! ### Firings -/

/-- A descriptor of an opcode, TYPE, IMM and number of destinations. -/
def descOf (o ty imm ndst : Nat) : BitVec 128 := BitVec.ofNat 128 (o * 2 ^ 118 + ty * 2 ^ 114 + imm * 2 ^ 71 + ndst * 2 ^ 11)
/-- A firing of an opcode with a token of a payload type at each of its ports. -/
def firOf (o pt : Nat) : Firing := { toks := (opPorts o).map (fun p => (p, { tag := Tag.seal { port := BitVec.ofNat 2 p }, pay := 6, ty := BitVec.ofNat 8 pt })) }
/-- FU 0 holds such a firing at its fetch stage. -/
def fetched (o : Nat) (fr : Firing) (desc : BitVec 128) (ext : List (BitVec 128)) : Dev := { live with
  fus := [(0, { fetch := some { fir := fr, desc := some desc, ext := ext } })]
  tiles := [(0, { masks := [(0, 16 + ((opPorts o).map (2 ^ ·)).sum)] })] }
def canFire (o : Nat) (fr : Firing) (desc : BitVec 128) (ext : List (BitVec 128)) : Bool :=
  dOpc desc == o && descOk desc ext (maskPorts ((fetched o fr desc ext).maskOf 0 fr.slot.toNat) ((fr.toks.headD (0, {})).1))
def isClean (fr : Firing) (desc : BitVec 128) : Bool := fr.errTok.isNone && (mismatch fr desc).isNone

theorem fetched_fires {o : Nat} {fr : Firing} {desc : BitVec 128} {ext : List (BitVec 128)} (h : canFire o fr desc ext = true) :
    (fetched o fr desc ext).firesAt 0 o fr desc ext := by
  have h' := Bool.and_eq_true_iff.1 h
  exact ⟨⟨_, rfl, rfl, rfl, rfl⟩, eq_of_beq h'.1, h'.2⟩
theorem isClean_clean {fr : Firing} {desc : BitVec 128} (h : isClean fr desc = true) : cleanFiring fr desc := by
  have h' := Bool.and_eq_true_iff.1 h
  exact ⟨Option.isNone_iff_eq_none.1 h'.1, Option.isNone_iff_eq_none.1 h'.2⟩

theorem wit_IntegerResultsAreExact : ∀ c ∈ intCommands, ∀ ty ∈ [0, 2], canFire c.1 (firOf c.1 0) (descOf c.1 ty 0 2) [] = true ∧ isClean (firOf c.1 0) (descOf c.1 ty 0 2) = true := by
  decide +kernel
/-- TYPE, payload type and IMM that fit a floating-point opcode. -/
def fpCase (o : Nat) : Nat × Nat × Nat := if o = 0x11A then (0, 0, 4) else if o = 0x118 then (4, 2, 5) else (4, 2, 0)
theorem wit_FloatingPointHandsOn : ∀ c ∈ fpCommands, canFire c.1 (firOf c.1 (fpCase c.1).2.1) (descOf c.1 (fpCase c.1).1 (fpCase c.1).2.2 1) [] = true ∧
    isClean (firOf c.1 (fpCase c.1).2.1) (descOf c.1 (fpCase c.1).1 (fpCase c.1).2.2 1) = true := by decide +kernel
theorem wit_ArithmeticDependsOnOperandsOnly : (fetched 1 (firOf 1 0) (descOf 1 0 0 2) []).firesAt (fuKey 0 0 0) 1 (firOf 1 0) (descOf 1 0 0 2) [] ∧
    cleanFiring (firOf 1 0) (descOf 1 0 0 2) :=
  ⟨fetched_fires (by decide +kernel), isClean_clean (by decide +kernel)⟩
theorem wit_ErrorTokensPassThroughArithmetic :
    let e : Token := { pay := 1, ty := 0x26 }
    ∀ c ∈ intCommands, (({ firOf c.1 0 with toks := (firOf c.1 0).toks.map (fun (p : Nat × Token) => (p.1, e)) }).errTok).isSome = true ∧
      (mismatch (firOf c.1 5) (descOf c.1 0 0 1)).isSome = true ∧ (firOf c.1 5).errTok = none ∧ descOk (descOf c.1 0 0 3) [] [0] = false ∧
      dOpc (descOf c.1 0 0 3) = c.1 ∧ (live.fu 0).fetch = none := by decide +kernel

theorem wit_OutputTokensAreFormed : (firOf 1 0).toks ≠ [] ∧ dItop (descOf 1 0 0 2) ≤ 2 := by decide +kernel
theorem wit_ExecuteStageKeepsOrder : mwf {} (fetched 1 (firOf 1 0) (descOf 1 0 0 2) []).fus = true ∧ ((fetched 1 (firOf 1 0) (descOf 1 0 0 2) []).fu 0).fetch.isSome = true ∧
    ((oneFu { results := [{}] }).fu (fuKey 0 0 0)).results = {} :: [] ∧ ({} : Result).flags = 0 ∧ ({} : Result).fault = false ∧ (live.fu (fuKey 15 16 7)).results = [] := by decide +kernel
theorem wit_DispatchAndUndefinedFirings :
    let it : Item := { fir := firOf 1 0 }
    ((oneFu { issue := [it] }).fu 0).fetch = none ∧ topItem ((oneFu { issue := [it] }).fu 0).issue = some it ∧ dOpc ((oneFu { issue := [it] }).descAt 0 0) ≠ 0x203 ∧
    topItem (live.fu 0).issue = none ∧ opDefined (dOpc (descOf 0x3FF 0 0 0)) = false ∧ dOpc (descOf 0x3FF 0 0 0) ≠ 0x27F ∧ opDefined 1 = true := by decide +kernel

/-- TYPE, payload type, IMM and destinations with which each opcode above the arithmetic ones fires. -/
def opCases : List (Nat × Nat × Nat × Nat × Nat) :=
  [(0x200, 9, 0, 0, 2), (0x201, 9, 0, 0, 1), (0x202, 9, 0, 0, 1), (0x203, 9, 0, 0, 1), (0x204, 9, 0, 0, 1), (0x210, 9, 0, 0, 2), (0x211, 9, 0, 0, 1), (0x212, 9, 0, 1, 1),
   (0x213, 9, 0, 1, 1), (0x280, 0, 0, 0, 1), (0x281, 0, 0, 0, 1), (0x282, 0, 0, 0, 1), (0x283, 0, 0, 0, 1), (0x300, 9, 0, 31, 1), (0x301, 9, 0, 0, 0), (0x302, 9, 0, 0, 1),
   (0x303, 9, 0, 0, 2), (0x304, 9, 0, 0, 0), (0x310, 9, 0, 4095, 1), (0x320, 9, 0, 0, 1), (0x321, 9, 0, 0, 1), (0x340, 9, 0, 4095, 1), (0x341, 9, 0, 1000000, 1), (0x342, 9, 0, 0, 1),
   (0x343, 9, 0, 2 ^ 24 - 1, 1), (0x380, 9, 0, 0, 1), (0x392, 9, 0, 0, 1), (0x3C0, 9, 0, 65535, 1), (0x3C1, 9, 0, 0, 1), (0x3C2, 9, 0, 0, 1), (0x3E0, 9, 0, 0, 1),
   (0x3E1, 9, 0, 4095, 1), (0x3E2, 9, 0, 31, 1), (0x3E3, 5, 3, 15, 1), (0x3E4, 9, 0, 1023, 1)]
/-- SWITCH, MERGE, GATE, SELECT, FANOUT, the loop, memory, context, call, synchronisation, dispatch and output nodes can fire. -/
theorem wit_nodes_fire : ∀ c ∈ opCases, canFire c.1 (firOf c.1 c.2.2.1) (descOf c.1 c.2.1 c.2.2.2.1 c.2.2.2.2) [] = true ∧
    isClean (firOf c.1 c.2.2.1) (descOf c.1 c.2.1 c.2.2.2.1 c.2.2.2.2) = true := by decide +kernel

theorem wit_SteeringPassesTokens : (mismatch (firOf 0x200 5) (descOf 0x200 0 0 2)).isSome = true ∧ Token.err ({ ty := 0x26 } : Token) = true ∧
    (mismatch (firOf 0x204 5) (descOf 0x204 0 0 1)).isSome = true ∧ (firOf 0x204 5).errTok = none ∧
    (({ firOf 0x203 0 with toks := [(0, { ty := 0x26 })] } : Firing).errTok).isSome = true ∧ ((firOf 0x200 0).port 0).isSome = true ∧ ((firOf 0x200 0).port 2).isSome = true ∧
    ((firOf 0x204 0).port 1).isSome = true := by decide +kernel
theorem wit_LoopNodesCarryPermits :
    let drain := fun (n : Nat) => ({ pay := status stLOOP_DRAIN 0 n, ty := 6 } : Token)
    Token.ptype (drain 2) = 6 ∧ statusCode (drain 2).pay = stLOOP_DRAIN ∧ 1 < statusDetail (drain 2).pay % 256 ∧ statusDetail (drain 1).pay % 256 ≤ 1 ∧
    ((firOf 0x211 0).port 1).isSome = true ∧ ¬ (Token.ptype (drain 2 |> fun t => { t with ty := 0 }) = 6 ∧ True) := by decide +kernel
theorem wit_MemoryNodesIssueOneAccess :
    let d := live.setReg (spmReg 0 0 0) 0xAA
    (live.setBit (pwrReg 4) 0 true).accessError 0 lockBase 8 true false true = none ∧ lockBase ≤ lockBase ∧ live.respRoom 0 = true ∧
    d.accessError 0 (bankAddr 0 0 8) 8 true false true = none ∧ bankAddr 0 0 8 < lockBase ∧ d.accessError 0 (bankAddr 0 0 1) 8 true false true = some stMISALIGNED ∧ 1 % 8 ≠ 0 := by
  decide +kernel
theorem wit_ContextAndCallNodes :
    let d := oneRegion { pool := { desc := [(0, ctxActive), (1, ctxActive ||| BitVec.ofNat 64 (2 ^ 55))], root := [(0, 1, 0)] } }
    cdState (d.ctxDesc 0) = 1 ∧ cdFault (d.ctxDesc 0) = false ∧ d.rootOf 0 = some 1 ∧ cdFault (d.ctxDesc 1) = true ∧ cdState (d.ctxDesc 2) = 0 ∧
    live.atPool 0 0 = true ∧ live.atPool 0 15 = false ∧ cdState (BitVec.ofNat 64 (2 * 2 ^ 61)) = 2 ∧
    (fetched 0x300 (firOf 0x300 9) (descOf 0x300 9 31 1) []).atPool 0 (allocRegion 0 (descOf 0x300 9 31 1)) = true ∧
    (fetched 0x300 (firOf 0x300 9) (descOf 0x300 9 5 1) []).atPool 0 (allocRegion 0 (descOf 0x300 9 5 1)) = false ∧
    ((fetched 0x300 (firOf 0x300 9) (descOf 0x300 9 31 1) []).fu 0).fetch.any (fun y => y.asked.isSome) = false ∧
    ((oneFu { fetch := some { asked := some 3 } }).fu 0).fetch.any (fun y => y.asked.isSome) = true := by decide +kernel
theorem wit_SynchronisationAndDispatchNodes :
    (dImm (descOf 0x343 9 0 1)).toNat = 0 ∧ (dImm (descOf 0x343 9 1 1)).toNat ≠ 0 ∧ (live.region 0).pacer.length < 65536 ∧
    operand ({ toks := [(0, { pay := 4 })] } : Firing) (descOf 0x341 9 0 1) 0 % 8 ≠ 0 ∧ operand ({ toks := [(0, { pay := 8 })] } : Firing) (descOf 0x341 9 0 1) 0 % 8 = 0 ∧
    mwf {} live.regions = true ∧
    live.sendTakes 0 { toks := [tok], delay := some 1 } = true ∧ live.permits 8 (live.graphBits 0 true false) = true ∧ (8 : Nat) < hbmSize ∧ ¬ ((lockBase : Nat) < hbmSize ∨ (spmBase ≤ lockBase ∧ lockBase < spmEnd)) ∧
    queueRoom (live.tile 0).sched.runQ 64 8 0 = true ∧ queueRoom (List.replicate 64 ({} : Item)) 64 8 0 = false ∧ queueRoom (List.replicate 32 ({} : Item)) 32 4 0 = false := by decide +kernel
theorem wit_SynchronisationAndDispatchNodes_full : 65536 ≤ ((oneRegion { pacer := List.replicate 65536 {} }).region 0).pacer.length := by
  show 65536 ≤ (List.replicate 65536 ({} : PacEnt)).length
  exact Nat.le_of_eq (List.length_replicate ..).symm

theorem wit_OutputNodesSendRequests : ∀ c ∈ outputCommands, ∀ x ∈ opCases, x.1 = c.1 →
    canFire c.1 (firOf c.1 x.2.2.1) (descOf c.1 x.2.1 x.2.2.2.1 x.2.2.2.2) [] = true ∧ mismatch (firOf c.1 x.2.2.1) (descOf c.1 x.2.1 x.2.2.2.1 x.2.2.2.2) = none ∧
    (firOf c.1 x.2.2.1).errTok = none ∧ (firOf c.1 0x26).errTok.isSome = true := by decide +kernel

/-- A request at the banks of tile 0 and at the HBM and lock units. -/
def bankReq (op : BitVec 4) : BankReq := { fu := 16, cls := 4, req := { op := op, size := 3, addr := BitVec.ofNat 48 (bankAddr 0 0 0) } }
def oneBank (b : Bank) : Dev := { live with tiles := [(0, { banks := [(0, b)] })] }
def reqAt (n : Node) (r : MemReq) : Dev := live.setInbox n 1 [{ body := .req r }]

theorem wit_BanksServeTheirRequests :
    let d := (oneBank { reqs := [bankReq 0] }).portFill (tileKey 0 0)
    let held := (oneBank { state := 0, target := some 2, reqs := [bankReq 0] }).portFill (tileKey 0 0)
    let off := (oneBank { state := 0, reqs := [bankReq 0] }).portFill (tileKey 0 0)
    let second := (oneBank { second := [(0, bankReq 2)] }).portFill (tileKey 0 0)
    (d.bank (tileKey 0 0) 0).second.find? (fun c => c.1 == 0) = none ∧ (d.bank 0 0).target = none ∧ (d.bank 0 0).state = 2 ∧ d.competing 0 0 0 = [bankReq 0] ∧
    accessBytes 3 = 8 ∧ accessBytes 2 = 4 ∧ 8 < accessBytes 6 ∧ (bankReq 0).pos = 0 ∧
    (second.bank 0 0).second.find? (fun c => c.1 == 0) = some (0, bankReq 2) ∧
    (held.bank 0 0).target = some 2 ∧ held.competing 0 0 0 = [bankReq 0] ∧ (off.bank 0 0).target = none ∧ (off.bank 0 0).state ≠ 2 ∧ off.competing 0 0 0 = [bankReq 0] ∧
    fld (0xBF#32) 7 6 ≠ 3 ∧
    (let x := (oneBank { target := some 0 }).bank 0 0; x.target = some 0 ∧ x.second = [] ∧ x.next = none) ∧ (oneBank { target := some 0 }).burstAt 0 0 = false ∧
    (oneBank { input := [{ bankReq 0 with pos := 8 }] }).burstAt 0 0 = true := by decide +kernel
theorem wit_BanksServeTheirRequests_power : (∀ j < 4, fld (0xFF#32) (2 * j + 1) (2 * j) = 3) ∧ (∀ j < 4, j ≠ 3 → fld (0xBF#32) (2 * j + 1) (2 * j) = 3) := by decide +kernel
theorem wit_HbmServesInOrder :
    let r : MemReq := { size := 3, addr := BitVec.ofNat 48 (stackBase 1) }
    let waits := ({ live with hbm := [(1, { held := [r] })] } : Dev)
    (live.setBit (hbmReg 1 0) 0 true).rbit (hbmReg 1 0) 0 = true ∧ ((reqAt (hbmNode 1) r).takeInbox (hbmNode 1) 1).isSome = true ∧
    (waits.hbmOf 1).held.find? (fun r => !waits.rowCopies 1 r.addr.toNat) = some r ∧ (live.hbmOf 1).held.find? (fun r => !live.rowCopies 1 r.addr.toNat) = none ∧
    live.rowCopies 1 r.addr.toNat = false ∧ stackBase 1 ≤ r.addr.toNat ∧ r.addr.toNat + accessBytes r.size ≤ stackBase 2 ∧
    stackBase 2 < (stackBase 2 - 4) + accessBytes r.size ∧ live.rbit (hbmReg 0 0) 0 = false ∧ accessBytes 4 = 32 ∧
    (live.setFld (hbmReg 0 0x14) 7 0 1).rfld (hbmReg 0 0x14) 7 0 ≠ 0 ∧ (live.setBit (hbmReg 0 0) 1 true).rbit (hbmReg 0 0) 1 = true ∧
    live.rfld (pwrReg (0x100 + 4 * 39)) 3 2 ≠ 0 ∧ live.islands.contains 303 = true := by decide +kernel
theorem wit_HbmServesInOrder_copying : ∀ a, ({ live with hbm := [(1, { copying := [Config.hbmRow a] })] } : Dev).rowCopies 1 a = true := by
  intro a; simp [Dev.rowCopies, Dev.hbmOf, mget]

def lease : Lease := { addr := 8, owner := 3, seq := 1 }
def lockDev (u : LockUnit) (r : MemReq) : Dev := ({ (live.setBit (pwrReg 4) 0 true) with regions := [(0, { lck := u })] } : Dev).setInbox (lckNode 0) 1 [{ body := .req r }]
theorem wit_LockLeases :
    let acq : MemReq := { op := 4, addr := 8, ctx := 3 }
    let d := lockDev {} acq
    d.inbox (lckNode 0) 1 = [{ body := .req acq }] ∧ d.regionOpen 0 = true ∧ (d.lck 0).leaseOn 8 = none ∧ (d.lck 0).leases.length < 4096 ∧
    ((lockDev { leases := [lease] } acq).lck 0).leaseOn 8 = some lease ∧ lease.owner = acq.ctx ∧ lease.owner ≠ (4 : BitVec 22) ∧
    (BitVec.ofNat 64 (3 * 2 ^ 39 + 2 ^ 32) : W64).extractLsb' 39 22 = lease.owner ∧ (BitVec.ofNat 64 (3 * 2 ^ 39 + 2 ^ 32) : W64).extractLsb' 32 7 = lease.seq ∧
    ({ wait := [({} : LockWait)] } : LockUnit).wait[0]? = some ({} : LockWait) ∧ ((mgmtAt (lckNode 0) (.ownerReset 3)).takeMgmt (lckNode 0) isOwnerReset).isSome = true := by decide +kernel
theorem wit_LockLeases_force : let d := (lockDev { leases := [lease] } {}).pairWrite (lckReg 0 0x18) 0
    ((({ lockDev { leases := [lease] } {} with loHeld := [(lckReg 0 0x18, 8)] } : Dev).pairWrite (lckReg 0 0x18) 0).lck 0).leaseOn
      ((({ lockDev { leases := [lease] } {} with loHeld := [(lckReg 0 0x18, 8)] } : Dev).pairWrite (lckReg 0 0x18) 0).pair (lckReg 0 0x18)) = some lease ∧
    (d.lck 0).leaseOn (d.pair (lckReg 0 0x18)) = none := by decide +kernel

/-- A block operation on tile 0 of region 0: X and Y of one binary32 element in bank A. -/
def frameX : Frame := { bank := 0, off := 0, n := 16 }
def frameY : Frame := { bank := 0, off := 64, n := 16 }
def blockItem (o : Nat) (ty : Byte) : Item :=
  { desc := descOf o 9 0 1, fir := { toks := [(0, { pay := frameX.toBits, ty := ty }), (1, { pay := frameY.toBits, ty := 5 })] } }
def blockOp (o : Nat) (done : Bool) (ty : Byte) : Dev := { live with tiles := [(0, { stride := { done := done, run := some (blockItem o ty) } })] }
theorem wit_BlockOperationsCompute_runs : ∀ op ∈ strideCommands,
    ((blockOp op.1.1 false 5).tile (tileKey 0 0)).stride.run = some (blockItem op.1.1 5) ∧ ((blockOp op.1.1 false 5).tile (tileKey 0 0)).stride.done = false ∧
    dOpc (blockItem op.1.1 5).desc = op.1.1 ∧ ((blockItem op.1.1 5).fir.port 0).isSome = true ∧ (blockItem op.1.1 5).fir.errTok = none ∧
    (∀ p ∈ (blockItem op.1.1 5).fir.toks, Token.ptype p.2 = 5) ∧ (blockItem op.1.1 0x26).fir.errTok.isSome = true := by decide +kernel
theorem wit_BlockOperationsCompute_checks :
    seCheck 0 frameX (some frameY) 0 (specWindow 0 frameX (fun _ => 0)) 0 none = none ∧ (seCheck 1 frameX (some frameX) 65535 (specWindow 0 frameX (fun _ => 0)) 0 none).isSome = true ∧
    (mget {} ((blockOp 0x380 false 5).tile 0).banks 0).state = 2 ∧ (mget {} (live.tile 16).banks 0).state ≠ 2 ∧ Token.ptype ({ ty := 6 } : Token) = 6 := by decide +kernel
theorem wit_BlockOperationsCompute_ends :
    ((blockOp 0x380 true 5).tile (tileKey 0 0)).stride.done = true ∧ (live.tile (tileKey 15 16)).stride.run = none ∧ (Frame.ofBits frameY.toBits).placed 0 = true ∧
    (firOf 0x38F 5).port 1 = none := by decide +kernel

/-! ### Cores -/

/-- A word of major `m` with the fields rd, ra, rb and bits 10:0 (R270, R272). -/
def word (m rd ra rb fn : Nat) : W32 := BitVec.ofNat 32 (m * 2 ^ 26 + rd * 2 ^ 21 + ra * 2 ^ 16 + rb * 2 ^ 11 + fn)
/-- Tile 0's Runner with a firing, and the Steward, each with a word at its PC. -/
def coreDev (w : W32) : Dev := ({ live with tiles := [(0, { runner := { item := some { desc := descOf 0x3C0 9 0 2 } } })] } : Dev).writeLe (bankAddr 0 1 0) 4 w.toNat
def stewDev (w : W32) : Dev := ({ live with stew := { on := true } } : Dev).writeLe romBase 4 w.toNat
def runs (d : Dev) (n : Nat) (k : RcKind) : Bool :=
  d.coreRuns n && d.stew.fatal.isNone && decide (d.rcFetch n .ok = .word) &&
  decide ((rcDecode ((d.awake n .ok).codeWord n)).kind = k) && ((d.awake n .ok).rcRefuses n (rcDecode ((d.awake n .ok).codeWord n))).isNone
/-- One word of each kind that a Runner executes, from the formats of R272 to R278. -/
def coreWords : List (RcKind × W32) :=
  [(.intOp, word 0 5 1 2 1), (.fpOp, word 1 5 1 2 0), (.waitw, word 2 0 0 0 0), (.ret, word 2 0 0 0 1), (.jr, word 2 0 1 0 2), (.mfs, word 2 5 0 4 3), (.mts, word 2 0 1 2 4), (.fence, word 2 0 0 0 5),
   (.addi, word 4 5 1 0 1), (.andi, word 5 5 1 0 1), (.ori, word 6 5 1 0 1), (.xori, word 7 5 1 0 1), (.slti, word 8 5 1 0 1), (.sltiu, word 9 5 1 0 1), (.shli, word 0xA 5 1 0 127),
   (.shri, word 0xB 5 1 0 63), (.srai, word 0xC 5 1 0 63), (.shori, word 0xD 5 1 31 2047), (.ld, word 0x10 5 1 0 8), (.lw, word 0x11 5 1 0 4), (.lwu, word 0x12 5 1 0 4), (.lh, word 0x13 5 1 0 2),
   (.lhu, word 0x14 5 1 0 2), (.lb, word 0x15 5 1 0 1), (.lbu, word 0x16 5 1 0 1), (.sd, word 0x18 5 1 0 8), (.sw, word 0x19 5 1 0 4), (.sh, word 0x1A 5 1 0 2), (.sb, word 0x1B 5 1 0 1),
   (.aadd, word 0x1C 5 1 2 1), (.swap, word 0x1D 5 1 2 0), (.lockrel, word 0x1E 0 1 2 0), (.emit, word 0x20 5 1 0 0), (.bz, word 0x30 1 0 0 1), (.bnz, word 0x31 1 0 0 1), (.j, word 0x32 0 0 0 1),
   (.call, word 0x38 0 4 0 1), (.callr, word 0x39 0 1 0 255)]
theorem wit_Core_runner : ∀ c ∈ coreWords, runs (coreDev c.2) 0 c.1 = true := by decide +kernel
theorem wit_Core_steward : ∀ c ∈ [(RcKind.mfc, word 2 5 0 12 8), (.mtc, word 2 0 1 12 9), (.mbPop, word 2 0 1 11 9), (.eret, word 2 0 0 0 10), (.wfi, word 2 0 0 0 11), (.evack, word 2 0 1 0 12),
    (.tsend, word 2 0 4 0 13), (.addi, word 4 5 1 0 1), (.ld, word 0x10 5 1 0 8)], runs (stewDev c.2) 272 c.1 = true := by decide +kernel
theorem runs_executes {d : Dev} {n : Nat} {k : RcKind} (h : runs d n k = true) : ∃ i, d.executes n .ok i ∧ i.kind = k := by
  simp only [runs, Bool.and_eq_true, decide_eq_true_eq, Option.isNone_iff_eq_none] at h
  obtain ⟨⟨⟨⟨h1, h2⟩, h3⟩, h4⟩, h5⟩ := h
  exact ⟨_, ⟨h1, h2, h3, rfl, h5⟩, h4⟩
/-- CALL at the last code word of the range goes out of it; a word outside every format is illegal (R278). -/
theorem test_core_illegal : (rcDecode (word 0x3F 0 0 0 0)).kind = .illegal ∧ (rcDecode (word 0xA 5 1 0 128)).kind = .illegal ∧ pcValid 0 65535 = true ∧ pcValid 0 65536 = false := by decide

theorem wit_CoreMemoryInstructions :
    let d := live.setFld (spmReg 0 0 0) 7 0 0xAA
    let b := bankAddr 0 1 0
    d.rcTest 0 b 8 0 = none ∧ d.rcTest 0 (b + 0x3FFF8) 8 1 = none ∧ d.rcTest 0 b 8 2 = none ∧ d.rcCluster 0 = 0 ∧ isSpm b = true ∧ d.tileOfCluster (spmCluster b) = 0 ∧
    (d.isoTiles 0).contains 0 = false ∧ (d.bank 0 1).state = 2 ∧ (d.bank 0 1).target = none ∧ d.rcTest 0 (bankAddr 1 0 0) 8 0 = none ∧ d.acts 0 (bankAddr 1 0 0) = false ∧
    (d.bank 0 1).second.any (fun c => c.1 == subOf b) = false ∧ bankAddr 0 1 0 ≤ b + 0x3FFF8 ∧ b + 0x3FFF8 < bankAddr 0 1 0x40000 ∧
    (live.setBit (pwrReg 4) 0 true).rcTest 0 lockBase 8 0 = none ∧ lockBase < lockEnd ∧ isNode (slotAddr 0 0) = true ∧ d.rcTest stewCore (slotAddr 0 0) 8 0 = none ∧
    d.rcTest stewCore 0x4F00000000 8 0 = none ∧ isSpm 0x4F00000000 = false ∧ isNode 0x4F00000000 = false ∧ isConfig 0x4F00000000 = false ∧ isLocal 0x4F00000000 = false ∧
    hbmSize ≤ 0x4F00000000 ∧ isLocal romBase = true ∧ 1 % 8 ≠ 0 ∧
    bankAddr 1 0 0 < lockBase ∧ d.rcTest stewCore romBase 8 0 = none ∧ d.rcTest stewCore sramBase 8 1 = none := by decide +kernel
/-- A Runner with its stack pointer at the top of bank B; and the same with a frame of no registers at the top, returning to word 7. -/
def stackDev : Dev := { live with tiles := [(0, { runner := { g := [(30, BitVec.ofNat 64 (bankAddr 0 1 0x40000))], item := some {} } })] }
def framed : Dev := ({ live with tiles := [(0, { runner := { g := [(30, BitVec.ofNat 64 (bankAddr 0 1 0x3FFF8))], item := some {} } })] } : Dev).writeLe
  (bankAddr 0 1 0x3FFF8) 8 (0xC1 * 2 ^ 40 + 7)
def frameWritten (d : Dev) (n : Nat) (ws : List (Nat × Nat)) : Bool := match d.frameWrite {} n ws with | .ok y => !y.stall && y.d.stew.fatal.isNone | .error _ => false
def frameStalls (d : Dev) (n : Nat) (ws : List (Nat × Nat)) : Bool := match d.frameWrite {} n ws with | .ok y => y.stall | .error _ => false
def frameIs (d : Dev) (n : Nat) (as vs : List Nat) : Bool := match d.frameRead {} n .ok as with | .ok y => y.1 == vs && !y.2.1 && y.2.2.stew.fatal.isNone | .error _ => false
theorem wit_CoreControlFlow :
    let n := 0
    let d := coreDev (word 0x38 0 0 0 1)
    let top := bankAddr 0 1 0x40000
    let busy : Dev := { stackDev with tiles := [(0, { runner := { g := [(30, BitVec.ofNat 64 top)], item := some {} }, banks := [(1, { second := [(subOf (top - 8), {})] })] })] }
    ((d.core n).get 1 = 0) ∧ (stackDev.core n).get 30 ≠ 0 ∧ pcValid n 2 = true ∧ ((d.core n).get 30).toNat < bankAddr (d.rcCluster n) 1 (8 * (d.core n).limit) + 8 ∧
    pcValid 272 0x5FFFFF = true ∧ pcValid 272 0x600000 = false ∧ bankAddr (stackDev.rcCluster n) 1 (8 * (stackDev.core n).limit) + 8 ≤ ((stackDev.core n).get 30).toNat ∧
    frameWritten stackDev n [(top - 8, 0xC1 * 2 ^ 40 + 1)] = true ∧ frameStalls busy n [(top - 8, 0xC1 * 2 ^ 40 + 1)] = true ∧ live.stew.stklim.toNat = 0 ∧
    frameIs framed n [top - 8] [0xC1 * 2 ^ 40 + 7] = true ∧ frameIs framed n [] [] = true ∧ framed.stackMode n = false ∧ pcValid n 7 = true ∧
    frameIs stackDev n [top - 8] [0] = true := by decide +kernel
theorem wit_RunnersSendAndEnd :
    let it : Item := { desc := descOf 0x3C0 9 0 2 }
    let ended : Dev := { live with tiles := [(0, { runner := { item := some it, ending := true } })] }
    (coreDev 0).stew.fatal = none ∧ ((coreDev 0).core 0).item = some it ∧ 1 ≤ dNdst it.desc ∧ dNdst (descOf 0x3C0 9 0 1) < 2 ∧
    (coreDev 0).sendRoom (fuNode it.fu) = true ∧ ((coreDev 0).core 0).stores = [] ∧ (({ stores := [(1, 8)] } : Runner)).stores ≠ [] ∧
    (live.tile 0).runner.item = none ∧ live.rbit (rcReg 0 0 0x1C) 0 = false ∧ topItem [({} : Item)] = some {} ∧
    ((coreDev 0).tile 0).runner.item ≠ none ∧ ((coreDev 0).tile 0).runner.ending = false ∧ ((coreDev 0).tile 0).runner.wait = none ∧ (ended.tile 0).runner.ending = true ∧
    (live.setReg (schReg 0 0 4) 5).rfld (schReg 0 0 4) 31 0 ≠ 0 ∧ live.rst.phase = 0 ∧ Dev.init.rst.phase ≠ 0 ∧
    ((live.setInbox (rcNode 0) 2 [{ body := .resp { op := 0, rtag := 3 } }]).takeResp (rcNode 0) (fun _ => true)).isSome = true ∧
    (live.core 0).gone.find? (fun x => x.1 == 3) = none ∧ (live.core 0).ending = false := by decide +kernel
/-- The send stage of FU 0 is full: 64 flits wait on its own link. -/
theorem wit_RunnersSendAndEnd_full : ((live.setLink ⟨fuNode 0, .tile 0 0⟩ { q := List.replicate 64 { pkt := { body := .token tok } } }).sendRoom (fuNode 0)) = false := by decide +kernel
theorem wit_StewardInstructions :
    let d : Dev := { live with stew := { on := true, sstat := 1, mbox := [({}, none), ({}, some 3)] } }
    let m : Token := { tag := Tag.seal { die := 4 } }
    d.stew.on = true ∧ d.stew.core.wait = none ∧ d.stew.sstat.getLsbD 0 = true ∧ d.stew.mbox.length < 1024 ∧ d.sendRoom (.hubUnit 0) = true ∧
    (d.setLink ⟨.hubUnit 0, .hub⟩ { q := List.replicate 64 { pkt := { body := .token tok } } }).sendRoom (.hubUnit 0) = false ∧
    (live.blockTag (.hubUnit 0) m (infieldIs m.tag 0 0 0 && m.tag.graph == 0)).1.isSome = true := by decide +kernel

theorem wit_StewardInstructions_irq : ({ live with stew := { on := true, mbox := [({}, none)] } } : Dev).stewIrq = true := by simp [Dev.stewIrq]

/-! ### Flows, hurdles, DMA -/

theorem wit_FlowsAreServedOneAtATime :
    let n := schedNode 0
    let w : FlowWait := { fir := { toks := [(0, { tag := { flow := 5 } })] } }
    ((mgmtAt n (.flowReq 5 0 14 0)).takeMgmt n isFlowReq).isSome = true ∧ ((mgmtAt n (.flowRel 5 0)).takeMgmt n isFlowRel).isSome = true ∧
    ((mgmtAt n (.flowCancel 5 0 0)).takeMgmt n isFlowCancel).isSome = true ∧ ((mgmtAt n (.flowGrant 5 0)).takeMgmt n isFlowGrant).isSome = true ∧
    ((mgmtAt n (.flowRefuse 5 0)).takeMgmt n isFlowRefuse).isSome = true ∧ inService [] 5 = false ∧ inService [((5 : BitVec 20), 0, false)] 5 = true ∧
    serviceRoom [] 0 = true ∧ (live.tile 0).sched.pend.length < 256 ∧ [((5 : BitVec 20), 0, false)].any (fun e => e.1 == 5 && e.2.1 == 0) = true ∧
    (bestRequest { pend := [{ flow := 6 }] }).isSome = true ∧ Firing.flow w.fir = 5 ∧ w.asked = false ∧ w.granted = false ∧ ({ w with asked := true } : FlowWait).asked = true ∧
    live.rfld (schReg 0 0 0) 19 0 ≠ 0 ∧ (live.setReg (schReg 0 0 0) 0).rfld (schReg 0 0 0) 19 0 = 0 ∧
    ((mgmtAt (poolNode 15) (.boost 0 1 2)).takeMgmt (poolNode 15) isBoost).isSome = true ∧ ((mgmtAt n (.boost 0 1 2)).takeMgmt n isBoost).isSome = true ∧
    cdState (BitVec.ofNat 64 (2 * 2 ^ 61)) = 2 ∧ (let d := { oneRegion { pool := { desc := [(0, ctxActive)] } } with graphs := [(0, { st := 2 })] }
      cdState (d.ctxDesc 0) = 1 ∧ (d.graph (cdGraph (d.ctxDesc 0))).st = 2) := by decide +kernel
theorem wit_FlowsAreServedOneAtATime_full : serviceRoom (List.replicate 1024 ((7 : BitVec 20), 0, false)) 0 = false := by
  simp only [serviceRoom, List.length_replicate]; decide
theorem wit_FlowsAreServedOneAtATime_pacer :
    let e : PacEnt := { deadline := 0, toks := [tok] }
    pacerNext 0 [e] = some e ∧ reached 0 1 = false ∧ reached 0 0 = true := by decide +kernel

def hurd : Hurdle := { graph := 3, nsrc := 1, slots := [5], maxper := 4, ahead := 2, waitus := 1 }
def arr (e : BitVec 8) (pay : W64) (ty : Byte) : HrdArr := { fu := 0, slot := 5, tok := { tag := { graph := 3, epoch := e }, pay := pay, ty := ty } }
def hurdDev (h : Hurdle) (a : List HrdArr) : Dev := oneRegion { hurdles := [(0, h)], hrdIn := a }
theorem wit_HurdlesJudgeArrivals :
    let d := hurdDev hurd [arr 0 0 0]
    (d.region 0).hrdIn = [arr 0 0 0] ∧ (arr 0 0 0).rep = false ∧ live.hurdleOf 0 3 0 = none ∧ d.hurdleOf 0 3 0 = some (0, hurd) ∧ hurd.slots.contains 5 = true ∧
    hurd.fu / 8 = d.originOf 0 / 8 ∧ isRetire (arr 0 (status stSOURCE_RETIRE 0 0) 6).tok = true ∧ isClose (arr 0 (status stEPOCH_CLOSE 0 4) 6).tok = true ∧
    statusDetail (status stEPOCH_CLOSE 0 4) % 65536 ≤ hurd.maxper ∧ isClose (arr 0 0 0).tok = false ∧ isRetire (arr 0 0 0).tok = false ∧
    hurd.retired.contains 0 = false ∧ (2 - hurd.e).toNat ≤ hurd.ahead ∧ 128 ≤ ((255 : BitVec 8) - hurd.e).toNat ∧ hurd.ahead < ((3 : BitVec 8) - hurd.e).toNat ∧
    mget 0 hurd.cnt (srcKey 0 0) < hurd.maxper ∧ hurd.passed = false ∧ ({ hurd with passed := true } : Hurdle).passed = true ∧
    ({ arr 0 0 0 with gone := true } : HrdArr).gone = true ∧ (arr 0 0 0).gone = false ∧ mget 0 hurd.cls (srcKey 0 0) = 0 ∧
    (let h := { hurd with cls := [(srcKey 0 0, 1)] }; ¬ (mget 0 h.cls (srcKey 0 0) = 0 ∨ mget 0 h.cnt (srcKey 0 0) + 2 ≤ mget 0 h.cls (srcKey 0 0))) ∧
    ({ hurd with cls := [(srcKey 0 0, 1)] } : Hurdle).cls ≠ [] ∧ hurd.maxper < statusDetail (status stEPOCH_CLOSE 0 5) % 65536 ∧ Token.replay (arr 255 0 0).tok = false ∧ ({ hurd with retired := [0] } : Hurdle).retired.contains 0 = true := by decide +kernel
theorem wit_HurdlesReleaseEpochs :
    let done : Hurdle := { hurd with cls := [(srcKey 0 0, 1)] }
    let d := hurdDev done []
    let on := (live.setBit (stwReg 0 0) 0 true).setBit (pwrReg 4) 0 true
    done.complete = true ∧ d.hrdStopped 0 0 = false ∧ done.beyond = false ∧ hurd.complete = false ∧ hurd.nsrc ≠ 0 ∧ hurd.waitus ≠ 0 ∧ hurd.late = false ∧
    hurd.passed = false ∧ hurd.old = none ∧ live.hrdSel 0 = 0 ∧ live.regionOpen 0 = false ∧ live.holdUsed 0 = 0 ∧ on.regionOpen 0 = true ∧
    (let x := d.setReg (hrdStop 0 0) 0x100; (x.reg (hrdStop 0 0)).getLsbD 8 = true ∧ (x.reg (hrdStop 0 0)).extractLsb' 0 8 = (x.hurdle 0 0).e) ∧
    (let x := (hurdDev { hurd with e := 1 } []).setReg (hrdStop 0 0) 0x100; x.hrdStopped 0 0 = true) ∧
    (live.region 0).stw.progress = false ∧ (live.region 0).stw.stage = 0 ∧ live.heldWork 0 = false ∧ on.rbit (stwReg 0 0) 0 = true ∧
    ((oneRegion { stw := { stage := 1, forceFail := true } }).region 0).stw.stage ≠ 0 ∧ ((oneRegion { stw := { progress := true } }).region 0).stw.progress = true ∧
    (oneRegion { pool := { wait := [{}] } }).heldWork 0 = true ∧ (regionFus 0).any (fun k => ((oneFu { oflFull := true }).fu k).oflFull) = true := by decide +kernel
/-- Channel 31 of DMA engine 0, enabled, with a descriptor of one unit in a mode. -/
def dmaRunning (mode : Nat) : Dev :=
  ((live.setBit (chCtrl 0 31) 0 true).setBit (pwrReg 4) 0 true).modDma 0 31 (fun x => { x with busy := true, set := [(0x3C, 64), (0x48, BitVec.ofNat 32 mode)] })
theorem wit_DmaTransfersProceed :
    let d := (live.setBit (chCtrl 0 31) 0 true).setBit (chCtrl 0 31) 3 true
    (d.dmaCh 0 31).busy = false ∧ d.dmaFree 0 31 = true ∧ d.rbit (chCtrl 0 31) 0 = true ∧ d.rbit (chCtrl 0 31) 3 = true ∧ live.rbit (chCtrl 0 0) 0 = false ∧
    live.dmaOutstanding 0 < 64 ∧ live.dmaPick 0 = none ∧ live.pulses = [] ∧ live.pacedBy 0 0 4 0 0 = false ∧
    (dmaRunning 0).dmaPick 0 = some 31 ∧ ((dmaRunning 0).dmaCh 0 31).mode = 0 ∧ (dmaRunning 1).dmaPick 0 = some 31 ∧ ((dmaRunning 1).dmaCh 0 31).mode = 1 ∧
    ((dmaRunning 0).dmaCh 0 31).bursts = [] ∧ ((dmaRunning 0).dmaCh 0 31).err = 0 ∧ ((dmaRunning 0).dmaCh 0 31).r 0x48 / 16 % 2 = 0 ∧ (live.dmaCh 0 31).total ≤ (live.dmaCh 0 31).issued ∧
    (live.setBit (dmaReg 0 0xC) 0 true).dmaFree 0 0 = false ∧ live.resetting = false ∧ live.dmaHeld 0 = false ∧ live.rbit (rstReg 0x10) 0 = false ∧
    live.dmaPermits 0 true = true ∧ live.dmaPermits 0 false = true ∧ (live.dmaCh 0 0).gone.contains 4 = false ∧ ({ gone := [4] } : DmaCh).gone.contains 4 = true ∧
    ((live.setInbox (dmaNode 0) 2 [{ body := .resp { op := 0, rtag := 3 } }]).takeResp (dmaNode 0) (fun r => r.op == 0)).isSome = true ∧
    ((live.setInbox (dmaNode 0) 2 [{ body := .resp { op := 1, rtag := 3 } }]).takeResp (dmaNode 0) (fun r => r.op == 1)).isSome = true ∧
    ({ live with pulses := [(4, 0, 0)] } : Dev).pulses = (4, 0, 0) :: [] ∧ (regLoc (dmaChReg 0 0 0x30)).isSome = true := by decide +kernel

/-! ### Measurement die -/

/-- Channel `n` with a register `o` at `v`. -/
def chan (n o : Nat) (v : W32) : Dev := live.setReg (afeReg n o) v
theorem wit_ChannelsDeliverSamples :
    let d := (chan 0 0 0x88600000).setBit (afeReg 0 0x48) 31 true
    let c := ({ live with meas := { ch := [(63, { settle := true })], cal := some 3 } } : Dev).setReg (afeReg 63 0) 0x80000000
    live.afeOn 0 = false ∧ d.afeOn 0 = true ∧ d.afeValid 0 = true ∧ d.rfld (afeReg 0 0x28) 31 16 = 0 ∧ fld (d.reg (afeReg 0 0)) 18 17 ≠ 2 ∧
    (-8388607 ≤ (0x800001#32 ||| 0xFF000000#32).toInt) ∧ (0x7FFFFF#32).toInt ≤ 8388607 ∧ live.afeWritten 63 = none ∧ (live.afe 63).full = false ∧ live.afeRoom 63 = true ∧
    (c.afe 63).settle = true ∧ c.afeOn 63 = true ∧ ((c.setFld (pwrReg (0x100 + 4 * 47)) 3 2 2).domOn (44 + 63 / 16)) = true ∧ c.meas.cal = some (63 / 16) ∧
    live.meas.cal ≠ some (63 / 16) ∧
    (let v := d.reg (afeReg 0 0) &&& 0x7FFFFF00#32; fld v 27 25 ≠ 0 ∧ fld v 30 29 ≠ 3 ∧ fld v 27 25 < 6 ∧ fld v 24 21 < 10 ∧ fld v 18 17 ≠ 3) ∧
    (let f := { live with meas := { ch := [(0, { full := true })] } }; (f.afe 0).full = true ∧ f.afeRoom 0 = true) ∧
    (let v : W32 := 0x08600000; v.getLsbD 31 = false ∧ fld v 27 25 ≠ 0 ∧ fld v 30 29 ≠ 3 ∧ fld v 27 25 < 6 ∧ fld v 24 21 < 10 ∧ fld v 18 17 ≠ 3) := by decide +kernel
/-- The response to the last write of a block completes it. -/
theorem wit_ChannelsDeliverSamples_block :
    let d := ({ live with meas := { ch := [(0, { writes := [(5, 0, true)], blks := [{ j := 0 }] })] } } : Dev).setReg (afeReg 0 0) 0 |>.setInbox measNode 2 [{ body := .resp { op := 1, rtag := 5 } }]
    (d.afeWritten 0).map (·.1) = some true := by decide +kernel

theorem wit_SensorsLimitsAndTachometers :
    let d := chan 0 0 0x02000000
    let l := (((chan 0 0x38 0x10).setBit (afeReg 0 0x48) 31 true).setReg (afeReg 0 0x30) 5)
    let on := l.setBit (afeReg 0 0x48) 28 true
    d.rfld (afeReg 0 0) 27 25 ≠ 0 ∧ live.rfld (afeReg 63 0) 27 25 = 0 ∧ (({ d with meas := { ch := [(0, { cls := 4 })] } } : Dev).afe 0).cls ≠ d.rfld (afeReg 0 0x48) 27 25 ∧
    l.rbit (afeReg 0 0x38) 4 = true ∧ l.afeValid 0 = true ∧ l.rbit (afeReg 0 0x48) 28 = false ∧ lastRun (l.rfld (afeReg 0 0x38) 3 0) [6] (l.beyond 0) = true ∧
    lastRun 0 [5] (l.beyond 0) = false ∧ on.rbit (afeReg 0 0x48) 28 = true ∧ lastRun 0 [5] (fun c => !on.beyond 0 c) = true ∧
    (0x80000003#32).getLsbD 31 = true ∧ live.meas.cal = none ∧ ((live.setFld (pwrReg (0x100 + 4 * 47)) 3 2 2).domOn (44 + fld (0x80000003#32) 1 0)) = true ∧
    (live.setBit (afeCtlReg 4) 2 true).rbit (afeCtlReg 4) 2 = true ∧ live.domOn 44 = false ∧
    ({ live with meas := { cal := some 3 } } : Dev).meas.cal = some 3 := by decide +kernel
theorem wit_SensorsLimitsAndTachometers_tach :
    let d := (((live.setReg (tchReg 0 0) 0x80010000).setReg (tchReg 0 0xC) 7).setReg (tchReg 0 8) 5).setReg (tchReg 0 0x30) 0
    d.rbit (tchReg 0 0) 31 = true ∧ live.rbit (tchReg 7 0) 31 = false ∧ (4 : W16).toNat < (live.setReg (tchReg 0 8) 5).rfld (tchReg 0 8) 15 0 ∧ d.rfld (tchReg 0 8) 15 0 ≤ (5 : W16).toNat ∧
    ((mget {} d.meas.tach 0 : Tach).edges < d.rfld (tchReg 0 0) 23 16) ∧ live.rfld (tchReg 7 0) 23 16 ≤ (mget {} live.meas.tach 7 : Tach).edges ∧ live.rbit (tchReg 7 0x18) 7 = false ∧
    (mget {} live.meas.tach 7 : Tach).due = false ∧ (mget {} ({ live with meas := { tach := [(7, { due := true })] } } : Dev).meas.tach 7 : Tach).due = true ∧
    (d.setBit (tchReg 0 0x30) 2 true).rbit (tchReg 0 0x30) 2 = true ∧ d.rfld (tchReg 0 0xC) 15 0 ≠ 0 ∧ d.rbit (tchReg 0 0x30) 2 = false := by decide +kernel

/-- A token for a unit of the die that the hub serves. -/
def unitTok (die rgn clu fu node : Nat) : Token :=
  { tag := Tag.seal { die := BitVec.ofNat 3 die, rgn := BitVec.ofNat 2 rgn, clu := BitVec.ofNat 4 clu, fu := BitVec.ofNat 3 fu, node := BitVec.ofNat 15 node, graph := 1 } }
def tokAt (n : Node) (t : Token) : Dev := live.setInbox n 0 [{ body := .token t }]
theorem wit_TripsAndOutputsAct :
    let d := (live.setReg (tripReg 0x100) 1).setReg (tripReg 0x104) 0x10001
    copyOf (d.reg (tripReg 0x100)) (d.reg (tripReg 0x104)) (unitTok 4 1 0 0 0).tag = some false ∧ copyOf 1 0x10000 (unitTok 4 1 0 0 0).tag = some true ∧
    copyOf 1 0 (unitTok 4 1 0 0 0).tag = none ∧ copyOf 2 1 (unitTok 4 1 0 0 0).tag = none ∧ d.boundA.getLsbD 0 = true ∧ d.boundB.getLsbD 0 = true ∧ d.boundA.getLsbD 31 = false ∧
    (live.setReg (tripReg 0x24) 0).rfld (tripReg 0x24) 15 0 = 0 ∧ (d.setReg (tripReg 0x24) 9).rfld (tripReg 0x24) 15 0 ≠ 0 ∧ (d.graph (d.rfld (tripReg 0x100) 11 0)).dup = false ∧
    (d.boundA &&& d.boundB).getLsbD 0 = true ∧ ({ latA := 0xFFFFFFFE } : Trip).latA.getLsbD 0 ≠ ({} : Trip).latB.getLsbD 0 ∧ (47 : Fin 48).val ≥ 32 ∧
    mwf 0 live.regs = true ∧ (live.reg (tripReg 0)).getLsbD 31 = false := by decide +kernel
theorem wit_TripsAndOutputsAct_requests :
    ((tokAt measNode (unitTok 4 1 0 0 31)).takeTok measNode (fun t => t.tag.clu != 1)).isSome = true ∧ (live.blockTag measNode (unitTok 4 1 0 0 31) (infieldIs (unitTok 4 1 0 0 31).tag 1 0 0)).1 = some (unitTok 4 1 0 0 31) ∧
    ((tokAt measNode (unitTok 4 1 1 0 15)).takeTok measNode (fun t => t.tag.clu == 1)).isSome = true ∧ (live.blockTag measNode (unitTok 4 1 1 0 15) (infieldIs (unitTok 4 1 1 0 15).tag 1 1 0)).1 = some (unitTok 4 1 1 0 15) ∧
    (live.setBit (aoutReg 15 0) 31 true).rbit (aoutReg 15 0) 31 = true ∧ live.rbit (aoutReg 15 0x14) 7 = false ∧ live.rbit (aoutReg 0 0) 31 = false ∧
    (mget {} ({ live with meas := { aout := [(15, { a := some (0, true) })] } } : Dev).meas.aout 15 : Aout).a = some (0, true) ∧ (mget {} live.meas.aout 15 : Aout).b = none ∧
    (mget {} live.meas.aout 15 : Aout).a = none ∧ live.takeTok measNode (fun _ => true) = none ∧ (live.hwDemand).getLsbD 5 = false := by decide +kernel

/-! ### Streams, ports, time, relay -/

def goodEntry : List W32 := 0x80000000 :: 0 :: 0 :: 0x02010000 :: List.replicate 12 0
def streamDev (x : Stream) : Dev := { live with ing := { streams := [(0, x)], data := [{}] } }
theorem wit_StreamsAndCallRoom :
    let x : Stream := { flow := 7, ent := goodEntry }
    let d := streamDev x
    ((({ live with eth := [(1, { rx := [{}] })] } : Dev).ethPort 1).rx = [{}]) ∧ live.segOn 0 = false ∧
    entOk goodEntry = true ∧ entOk (goodEntry.set 15 1) = false ∧ live.flowBound 7 = false ∧ d.flowBound 7 = true ∧ Memory.wf live.mem = true ∧
    fld (0 : W64) 63 33 = 0 ∧ (0 : W64).getLsbD 20 = false ∧ (live.ftWord 5 0).getLsbD 31 = false ∧ ((live.ftStore 5 goodEntry).ftWord 5 0).getLsbD 31 = true ∧
    d.ing.streams.find? (fun c => c.2.flow == 5) = none ∧ lowestFree (d.ing.streams.map (·.1)) 0 < 65536 ∧
    d.ing.data = {} :: [] ∧ live.boundSlot (fun x => !x.going && x.source == 0 && x.id == 0) = none ∧ d.boundSlot (fun x => !x.going && x.source == 0 && x.id == 0) = some 0 ∧
    (let p : StrPkt := { fmt := fld x.cfg 31 28, rate := fld x.cfg 27 24, nsamp := 1, len := strElemSize (fld x.cfg 31 28) }; p.nsamp ≠ 0 ∧ p.len = p.nsamp * strElemSize p.fmt ∧ p.sstat % 8 = 0) ∧
    (0 : Nat) + 1 ≤ 1 ∧ live.strRoom 65535 = true := by decide +kernel
theorem wit_StreamsAndCallRoom_bind :
    ((tokAt ingNode (unitTok 4 0 2 0 0)).takeTok ingNode (fun _ => true)).isSome = true ∧ (live.blockTag ingNode (unitTok 4 0 2 0 0) (infieldIs (unitTok 4 0 2 0 0).tag 0 2 0)).1 = some (unitTok 4 0 2 0 0) := by
  decide +kernel
theorem wit_StreamsAndCallRoom_calls :
    let retire : CrPkt := { bytes := 4 :: List.replicate 11 0 }
    let announce : CrPkt := { bytes := 1 :: List.replicate 33 0 }
    let d := fun c => ({ live with ing := { cr := [c], rel := [9], nodes := [{ source := 3 }] } } : Dev)
    live.ing.cr = [] ∧ ((d retire).takeCr 4).isSome = true ∧ ((d announce).takeCr 1).isSome = true ∧ be (announce.bytes.drop 32) 0 1 = 0 ∧
    (d retire).ing.nodes.find? (fun n => n.source == 3) = some { source := 3 } ∧ (d retire).ing.rel.contains (9 : BitVec 20).toNat = true ∧ live.crBusy = false ∧
    (0x7FFFFFFF#32).getLsbD 31 = false ∧ ((mgmtAt ingNode (.horizon 0 0 0)).takeMgmt ingNode isHorizon).isSome = true ∧
    ((mgmtAt measNode (.horizon 15 255 255)).takeMgmt measNode isHorizon).isSome = true := by decide +kernel
/-- One stream of a port's node is admitted under the flow numbers that firmware gave ingest. -/
theorem wit_StreamsAndCallRoom_admitted : (((live.setReg (ingReg 0x1C) 5).setReg (ingReg 0x20) 6).admitStream 7 0 [] 3 0 2 1 (List.replicate 3 0 ++ [0x02010000] ++ List.replicate 12 0)).1 = 0 := by
  decide +kernel
theorem wit_StreamsAndCallRoom_gone :
    let d := ({ live with ing := { streams := [(3, { full := true, flow := 7 })], rel := [9] } } : Dev)
    let w := ({ live with ing := { streams := [(3, { writes := [(5, 0, true)], blks := [{ j := 0 }] })] } } : Dev).setInbox ingNode 2 [{ body := .resp { op := 1, rtag := 5 } }]
    (d.str 3).full = true ∧ d.strRoom 3 = true ∧ (d.ing.streams.find? (fun c => c.1 == 3)).isSome = true ∧ (d.str 3).going = false ∧ d.flowBound 9 = false ∧
    w.ing.late = [] ∧ (w.strWritten 3).map (·.1) = some true ∧ live.segOn 7 = false := by decide +kernel
theorem wit_StreamsAndCallRoom_busy :
    live.crBusy = false ∧ ({ live with eth := [(0, { txq := [{ mark := 2 }] })] } : Dev).crBusy = true ∧ (0x80000040#32).getLsbD 31 = true := by decide +kernel
theorem wit_StreamsAndCallRoom_segment : ((((live.setBit (segReg 7 0) 31 true).setFld (pwrReg (0x100 + 4 * 42)) 3 2 2).setReg (rstReg 0xC) 0).segOn 7) = true := by decide +kernel

def portUp (p sub : Nat) : Dev := (live.setBit (ethReg p 4) sub true).setReg (ethReg p 0xC) 1518
theorem wit_PortsSendAndReceive :
    let d := portUp 1 3
    let bs : List Byte := List.replicate 60 0
    live.subUp 0 0 = false ∧ d.subUp 1 3 = true ∧ 64 ≤ bs.length + 4 ∧ bs.length + 4 ≤ d.rfld (ethReg 1 0xC) 13 0 ∧ (bs.drop 1).length + 4 < 64 ∧
    d.rfld (ethReg 1 0xC) 13 0 < 1519 ∧ ((d.ethCount 1 3 0).msecReceive 1 3 bs).1 = some bs ∧ (d.ethPort 1).used (fun _ => true) + 64 ≤ 0x3C0000 ∧
    d.pfcOn 1 (pcpOf bs) = false ∧ ((d.setReg (ethReg 1 8) 0x8000).pfcOn 1 7) = true ∧ (({ xoff := [7] } : EthPort).xoff.contains 7) = true ∧
    ({} : EthPort).used (· == 7) < 0x40000 ∧ (d.ethPort 1).busy = false ∧ (({ live with eth := [(0, { busy := true })] } : Dev).ethPort 0).busy = true ∧
    (let e := (live.setFld (ethReg 1 0) 2 0 3).setFld (pwrReg (0x100 + 4 * 38)) 3 2 2; e.subUp 1 3 = false ∧ 3 < subports (e.rfld (ethReg 1 0) 2 0) ∧ e.domOn (37 + 1) = true ∧
      e.islands.contains (301 + 1) = true ∧ e.rbit (rstReg 0xC) (12 + 1) = false) ∧ ({} : EthPort).xoff.contains 7 = false ∧ live.regHeld (ethReg 0 0x44) = false ∧
    ({} : EthPort).txq.any (fun f => f.mark == 1) = false ∧ fld (0x36#32) 2 0 ≥ 6 ∧ fld (0x36#32) 5 4 = 3 ∧ fld (0x26#32) 5 4 ≠ 3 := by decide +kernel
/-- A frame that MACsec refuses: control bit 0 is set, bit 1 too, and the frame is not protected (R425). -/
theorem wit_PortsSendAndReceive_macsec : (((portUp 0 0).setReg (ethReg 0 0x60) 3).msecReceive 0 0 (List.replicate 60 0)).1 = none := by decide +kernel
theorem wit_PortsSendAndReceive_overflow : 0x400000 < (({ rx := [{ bytes := [] }] } : EthPort).used (fun _ => true)) + 0x400001 := by simp [EthPort.used]

theorem wit_DeviceTimeIsKept :
    (live.rst.phase = 0 ∨ live.rst.cold = false) ∧ live.reg (ptpReg 0x10) = 0 ∧ (0x7FFFFFFFFFFFFFFF#64).msb = false ∧
    (∀ e ∈ ((oneRegion { pacer := [{ deadline := 10 }] }).region 0).pacer, reached 9 e.deadline = true ∨ reached (9 + 0) e.deadline = false) ∧
    ({ live with ppsSeen := true } : Dev).ppsSeen = true ∧ ((live.setReg (ptpReg 0x24) 0xA0).rbit (ptpReg 0x24) 7 = true ∧ (live.setReg (ptpReg 0x24) 0xA0).rbit (ptpReg 0x24) 5 = true) ∧
    live.rbit (ptpReg 0x24) 7 = false ∧ live.ppsSeen = false := by decide +kernel

def relayDev (x : Peer) (rx : List RelayRx) : Dev := { live with rly := { peers := [(0, x)], rx := rx } }
def relayHdr (kind cnt : Nat) : List Byte := BitVec.ofNat 8 (16 + kind) :: List.replicate 6 0 ++ [BitVec.ofNat 8 cnt] ++ List.replicate 20 0
def farTok : Token := { tag := Tag.seal { dev := 5 } }
theorem wit_RelayLinkKeepsOrder :
    let d := (relayDev { st := 2, rq := 1, q := [.token farTok] } []).setReg (banked (rlyReg 0x48) 5) 0x80000000
    let r := takeRecs (d.frameRecs 0) ((d.peer 0).rq - 0) (d.peer 0).q
    ((tokAt rlyNode farTok).takeTok rlyNode (fun _ => true)).isSome = true ∧ farTok.tag.dev ≠ live.devNo ∧ tok.tag.dev = live.devNo ∧ live.routeOf 5 = none ∧
    d.routeOf 5 = some 0 ∧ d.rly.moves.any (fun m => m.1 == 5) = false ∧ (d.peer 0).ring.length < d.ringRecs ∧ (d.peer 0).frames.length < d.peerWin 0 ∧ r.1 = [.token farTok] ∧
    (live.peer 255).st ≠ 2 ∧ (live.peer 255).st ≠ 3 ∧ (live.peerCfg 255).getLsbD 31 = false ∧ max 1 ((relayDev { st := 2, frames := [(0, [])], tries := 15 } []).rfld (rlyReg 0x10) 31 24) ≤ 15 + 1 ∧
    (0 : Nat) + 1 < max 1 ((live.setReg (rlyReg 0x10) 0x02000000).rfld (rlyReg 0x10) 31 24) ∧ ((portUp 0 0).setReg (banked (rlyReg 0x30) 0) 0x80000000).subUp (peerPort 0x80000000) (peerSub 0x80000000) = true ∧
    Tag.crcOk tok.tag = true ∧ live.hubCredit tok = true ∧ mget [] live.rly.side (regionOf tok.tag.die.toNat tok.tag.rgn.toNat) = [] ∧
    Tag.crcOk { tok.tag with tcrc := tok.tag.tcrc + 1 } = false := by decide +kernel
theorem wit_RelayLinkKeepsOrder_frames :
    let f := fun k : Nat => ({ bytes := relayHdr k 0 } : RelayRx)
    let d := fun k => relayDev { st := 2 } [f k]
    let data : RelayRx := { bytes := relayHdr 0 1 ++ recBytes (.token farTok) }
    let e := relayDev { st := 2 } [data]
    let sync : RelayRx := { bytes := (relayHdr 3 1).set 23 9 ++ (List.replicate 25 0 ++ [2] ++ List.replicate 6 0) }
    ((d 1).relayFront 1).isSome = true ∧ ((d 2).relayFront 2).isSome = true ∧ (e.relayFront 0).map (·.1) = some data ∧ relayHdrOk data.bytes (e.frameRecs 0) = true ∧
    (recsOf data.bytes (be data.bytes 6 2)).isSome = true ∧ ({ nak := true } : Peer).nak = true ∧ (e.peer 0).nak = false ∧
    (let good : RelayRx := { sync with bytes := sync.bytes.set 3 5 }; let k := (relayDev {} [good]).setReg (rlyReg 4) (BitVec.ofNat 32 (be good.bytes 20 4))
      (k.relayFront 3).isSome = true ∧ be good.bytes 20 4 = (k.reg (rlyReg 4)).toNat ∧ be good.bytes 2 2 ≠ k.devNo.toNat ∧ relayHdrOk good.bytes 1 = true) ∧ be data.bytes 8 4 = (e.peer 0).expect.toNat ∧ be data.bytes 8 4 ≠ ({ expect := 1 } : Peer).expect.toNat ∧
    relayHdrOk (f 1).bytes 0 = true ∧ be (f 1).bytes 8 4 = 0 ∧ ((relayDev {} [sync]).relayFront 3).isSome = true ∧ relayHdrOk sync.bytes 1 = true ∧ be sync.bytes 6 2 = 1 ∧
    be ((sync.bytes.drop 28).take 32) 25 1 = 2 ∧ be ((sync.bytes.drop 28).take 32) 26 6 = 0 ∧ be ((sync.bytes.drop 28).take 32) 12 13 = 0 ∧ be sync.bytes 20 4 ≠ (live.reg (rlyReg 4)).toNat := by
  decide +kernel
theorem wit_RelayLinkKeepsOrder_acks :
    let x : Peer := { seq := 3, frames := [(1, []), (2, [])] }
    (x.frames.head?.map (·.1)).getD x.seq = 1 ∧ (2 - 1#32).msb = false ∧ (2 - 1#32).toNat ≤ x.frames.length ∧ (3 - 1#32).toNat ≤ x.frames.length ∧ (4 - 1#32).msb = false ∧ x.frames.length < (4 - 1#32).toNat ∧
    (0 - 1#32).msb = true := by decide +kernel

/-! ### Host commands -/

def fcpBytes (session flags len : Nat) : List Byte :=
  beBytes 4 0x46455257 ++ [1, BitVec.ofNat 8 flags] ++ beBytes 2 session ++ beBytes 4 1 ++ beBytes 4 0 ++ beBytes 4 len ++ beBytes 4 0 ++ beBytes 4 0 ++ beBytes 4 len
/-- The interpreter served, with a session that runs a command. -/
def served (x : FcpSess) : Dev := { (live.setBit (bootReg 4) 0 true) with stew := { on := true }, fcp := { sess := [(1, x)] } }
def running (o stage : Nat) (par : List Byte) : Dev := served { st := 2, roles := 7, run := some { seq := 1, op := o, par := par, stage := stage } }
def ran (o stage : Nat) (par : List Byte) : Bool := decide ((running o stage par).fcpRun 1 o = some { seq := 1, op := o, par := par, stage := stage })
theorem wit_FcpPacketsAreTested :
    let b := fcpBytes 0 0 0
    let e := fcpBytes 1 2 0 ++ List.replicate 16 0
    ({ live with fcp := { rx := [{ bytes := b }] } } : Dev).fcp.rx = { bytes := b } :: [] ∧ live.fcpServed = false ∧ (served {}).fcpServed = true ∧
    (b.drop 1).length < 32 ∧ (∀ x ∈ [b, e], 32 ≤ x.length ∧ be x 0 4 = 0x46455257 ∧ be x 4 1 = 1 ∧ be x 16 4 ≤ 8192 ∧ be x 24 4 + be x 16 4 ≤ be x 28 4 ∧ be x 28 4 ≤ 65536) ∧
    be b 5 1 = 0 ∧ be b 6 2 = 0 ∧ 32 + be b 16 4 ≤ b.length ∧ be e 5 1 = 2 ∧ be e 6 2 ≠ 0 ∧ 48 + be e 16 4 ≤ e.length ∧ (live.sess 1).st = 0 ∧ ((running 1 0 []).sess 1).st ≠ 0 ∧
    (be (fcpBytes 65 2 0) 6 2 > 64) := by decide +kernel
theorem wit_FcpPacketsAreTested_requests :
    let d := served { st := 2, last := 5, reply := some ({}, 0, []) }
    ((running 1 0 []).sess 1).run.isSome = true ∧ (d.sess 1).run = none ∧ (d.sess 1).close = none ∧ (d.sess 1).reply = some ({}, 0, []) ∧ (d.sess 1).last = 5 ∧
    ((served { last := 0xFFFFFFFF }).sess 1).last.toNat = 2 ^ 32 - 1 ∧ (served { st := 2, roles := 7 }).opcodeTest 1 0x02 = none ∧
    ((served { st := 2, roles := 7 }).modSess 1 (fun x => { x with last := 1, reply := none })).opcodeTest 1 0x02 = none ∧ ((served { st := 1 }).sess 1).st = 1 ∧
    (d.setReg (cmdReg 0x10) 60).rfld (cmdReg 0x10) 15 0 ≠ 0 := by decide +kernel
theorem wit_FcpPacketsAreTested_handshake :
    let d := { running 0x10 0 (List.replicate 1220 0) with sec := { keys := [(0, { typ := 1, roles := 1 })] } }
    (d.fcpRun 1 0x10).isSome = true ∧ (List.replicate 1220 (0 : Byte)).length = 1220 ∧ be (List.replicate 1220 0) 1 3 = 0 ∧ d.fuseBad = false ∧ d.sessCount 1 + d.sessCount 2 < 64 ∧ d.sessCount 1 < 4 ∧
    (d.keySlot 0).typ = 1 ∧ (d.keySlot 0).roles ≠ 0 ∧ (d.keySlot 63).typ ≠ 1 ∧ d.freeSession = some 2 ∧ ran 0x11 0 (beBytes 4 2 ++ [0, 0]) = true ∧ ran 0x12 0 [] = true ∧
    ((running 0x12 0 []).sess 1).close = none := by decide +kernel

/-- A command with its parameters that each host statement runs. -/
def hostCases : List (Nat × List Byte) :=
  [(0x01, List.replicate 1024 0), (0x02, []), (0x20, beBytes 4 0x10000 ++ beBytes 8 sramBase), (0x21, beBytes 4 0x10000 ++ beBytes 8 sramBase ++ beBytes 4 1), (0x30, beBytes 4 0),
   (0x50, List.replicate 16 0), (0x51, List.replicate 8 0), (0x52, List.replicate 16 0), (0x53, List.replicate 16 0), (0x60, beBytes 4 0), (0x61, beBytes 4 0), (0x70, [7, 0, 0, 0]),
   (0x71, List.replicate 32 0), (0x72, [47, 2, 0, 0]), (0x73, [15, 15, 16, 0]), (0x74, [2, 0, 1, 0]), (0x31, beBytes 4 0 ++ List.replicate 32 0), (0x32, [0, 1, 0, 0]), (0x33, [0, 1, 0, 0]),
   (0x34, List.replicate 12 0), (0x35, [0, 1, 0, 0]), (0x36, [0, 1, 0, 0]), (0x40, beBytes 2 1 ++ List.replicate 34 0)]
theorem wit_HostCommandsReply : (∀ c ∈ hostCases, ran c.1 0 c.2 = true) ∧ (∀ c ∈ hostCases, (running c.1 0 c.2).fcpAny 1 c.1 = (running c.1 0 c.2).fcpRun 1 c.1) := by decide +kernel
theorem wit_HostCommandsReply_fields :
    (running 0 0 []).fcpBarred sramBase false = false ∧ live.fcpBarred sramBase true = false ∧ (live.setBit (hbmReg 0 0) 0 true).hbmReady (live.stageBase 1) 0 = true ∧ quietBad (List.replicate 16 0) = false ∧
    live.ing.quiesce = [] ∧ live.boot.staged = none ∧ ({ live with fcp := { acts := [(7, 0)] } } : Dev).fcp.acts[0]? = some (7, 0) ∧ live.fcp.acts[0]? = none ∧
    (live.map 0).contains 20 = false ∧ live.regionOpen 0 = false ∧ (live.setBit (pwrReg 4) 0 true).regionOpen 0 = true ∧ (live.graph 1).st = 0 ∧ live.inWarmup = false ∧
    (live.setBit (bootReg 8) 7 true).inWarmup = true ∧ (live.setReg (bootReg 0x14) 1).rfld (bootReg 0x14) 15 0 ≠ 0 ∧ (portUp 0 0).subUp 0 0 = true ∧ 1024 < (1025 : Nat) := by decide +kernel

def withGraph (n : Nat) (x : Graph) : Dev := { live with graphs := [(n, x)] }
theorem wit_GraphCommandsReply :
    (withGraph 1 { st := 1 }).graphThere 1 = true ∧ (withGraph 4095 { st := 2 }).graphThere 4095 = true ∧ live.graphThere 1 = false ∧ live.allHurdles = [] ∧ live.armedNew 1 = false ∧
    live.loadReason [] 0 [] [] ≠ 0 ∧ ((running 0x40 0 []).recBad 7 (recToken (List.replicate 36 0) 0) ≠ 0) ∧ (live.fcp.sess.isEmpty = true) ∧
    ((hurdDev { hurd with armed := some {} } []).hurdle 0 0).armed = some {} ∧ (hurdDev hurd []).hrdStopped 0 0 = false ∧
    (((hurdDev hurd []).setReg (hrdStop 0 0) 0x80000000).hrdStopped 0 0) = ((hurdDev hurd []).setReg (hrdStop 0 0) 0x80000000).hrdStopped 0 0 ∧
    (∀ o ∈ [0x32, 0x33, 0x40, 0x60, 0x72, 0x73], ((running o 1 []).sess 1).run = some { seq := 1, op := o, stage := 1 } ∧ (running o 1 []).fcpServed = true) ∧ (live.sess 64).run = none := by
  decide +kernel

/-! ### Reset, power, boot, health -/

theorem wit_ResetsReachTheirState :
    fld (0x5A170001#32) 31 16 = 0x5A17 ∧ fld (0x5A170001#32) 1 0 = 1 ∧ fld (0x5A170002#32) 1 0 = 2 ∧ fld (0x5A170003#32) 1 0 = 3 ∧ fld (0x4B1C#32) 15 0 = 0x4B1C ∧ live.debugLocked = false ∧
    (live.setFld (secReg 4) 3 2 2).debugLocked = true ∧ (live.setBit (rstReg 0x14) 31 true).rbit (rstReg 0x14) 31 = true ∧ live.rst.half = false ∧ (live.setReg (rstReg 0x14) 0).rbit (rstReg 0x14) 31 = false ∧
    live.rst.warned = false ∧ ((live.reg (rstReg 0x1C)).extractLsb' 0 8).toInt * 64 < (0x7FFF#16).toInt ∧ (0x8000#16).toInt ≤ ((live.reg (rstReg 0x1C)).extractLsb' 0 8).toInt * 64 - 320 ∧
    ({ live with stew := { hold := true } } : Dev).stew.hold = true ∧ live.rst.phase = 0 ∧ Dev.init.rst.phase ≠ 0 ∧ Dev.init.rst.cold = true ∧ Memory.wf live.mem = true ∧ keysRise live.regs ∧
    live.inbox (hbmNode 1) 1 = [] := ⟨by decide, by decide, by decide, by decide, by decide, by decide +kernel, by decide +kernel, by decide +kernel, rfl, by decide +kernel, rfl,
      by decide +kernel, by decide +kernel, rfl, rfl, by decide, rfl, rfl, live_regs, rfl⟩

/-- Nothing released yet: phase 4 of the release sequence with every domain's power up. -/
def releasing (cold : Bool) : Dev := { Dev.init with rst := { phase := 4, cold := cold } }
theorem wit_ReleaseAndBlockResets :
    Dev.init.rst.phase = 1 ∧ Dev.init.rst.hot = false ∧ ({ phase := 2 } : Rst).phase = 2 ∧ ({ phase := 3, fails := 2 } : Rst).fails = 2 ∧
    (releasing true).islands.contains 300 = false ∧ (releasing true).rst.noclk.contains 300 = false ∧ (releasing true).islandPowered 300 = true ∧ (releasing false).rst.hist = [] ∧
    (BitVec.toNat (11 : BitVec 4)) / 4 ≠ 3 ∧ ((releasing false).setFld (pwrReg 0x100) 3 2 2).islandPowered 0 = true ∧ live.islands.contains 0 = true ∧
    live.regionOpen 15 = false ∧ (live.setBit (pwrReg 4) 15 true).regionOpen 15 = true ∧ (live.setBit (rstReg 0xC) 2 true).rbit (rstReg 0xC) 2 = true := by decide +kernel
theorem wit_ReleaseAndBlockResets_regs : Memory.wf live.mem = true ∧ keysRise live.regs ∧ keysRise live.sec.keys := ⟨rfl, live_regs, List.Pairwise.nil⟩

theorem wit_DomainsAndRegionsSwitch :
    let off := live.setReg (domReg 44) 0
    let up := live.setFld (domReg 43) 3 2 2
    (1#32).getLsbD 1 = false ∧ true ≠ off.domOn 44 ∧ false = off.domOn 44 ∧ off.domMay 44 true = off.domOn 43 ∧ (up.setReg (domReg 44) 0).domMay 44 true = true ∧
    (live.setReg (domReg 43) 0).domMay 44 true = false ∧ live.domQ = [] ∧ ({ live with domQ := [(3, true)] } : Dev).domQ = (3, true) :: [] ∧
    [((3 : Nat), true)].any (fun x => x.1 == 44) = false ∧ Memory.wf live.mem = true ∧
    (let d := (live.setBit (pwrReg 4) 0 true).setBit (pwrReg 4) 16 true; d.regionOpen 0 = true ∧ d.closing 0 = true ∧ d.creditsHome 0 = true ∧ d.requestsDone 0 = true) ∧
    live.closing 0 = false ∧ live.rbit (bakReg 0) 1 = false ∧ (live.setFld (domReg 43) 3 2 2).domOn 43 = true := by decide +kernel
theorem wit_DomainsAndRegionsSwitch_opens :
    let d := ((live.setBit (pwrReg 0) 15 true).setFld (domReg 30) 3 2 2).setFld (domReg 31) 3 2 2
    d.rbit (pwrReg 0) 15 = true ∧ d.regionOpen 15 = false ∧ d.closing 15 = false ∧ d.domOn 30 = true ∧ d.domOn 31 = true ∧ (∀ k ∈ regionFus 15, (d.fu k).rebuild = false) ∧
    (d.parkSet 15 true).parked 15 = true ∧ d.parked 15 = false := by decide +kernel

theorem wit_BootAndTrust :
    let d : Dev := { live with stew := { on := true } }
    let f := (st live).fuses
    d.stew.on = true ∧ d.stew.core.pc = 0 ∧ d.rbit (bootReg 4) 0 = false ∧ d.boot.entry = none ∧ d.rbit (bootReg 8) 7 = false ∧
    (d.identity f).rbit (rstReg 4) 1 = false ∧ (d.identity f).rfld (bakReg 8) 3 0 < (d.identity f).fsLimit ∧ (d.identity f).currentRec = none ∧
    ((d.setReg (bootReg 0) 1).identity f).rfld (bootReg 0) 1 0 = 1 ∧ ((d.setBit (rstReg 4) 1 true).identity f).rbit (rstReg 4) 1 = true ∧
    ((d.setFld (bakReg 8) 3 0 15).identity f).fsLimit ≤ ((d.setFld (bakReg 8) 3 0 15).identity f).rfld (bakReg 8) 3 0 ∧
    imageCheck (d.shadows f) d.secMin (d.slotRead 0) none 6 ≠ 0 ∧ (live.setBit (bootReg 8) 1 true).rbit (bootReg 8) 1 = true ∧ (1#32).getLsbD 0 = true ∧ (2#32).getLsbD 1 = true := by
  decide +kernel
theorem wit_BootAndTrust_flash :
    live.flashRefuses 0 0 1 = false ∧ live.flashRefuses 1 0x3FFFFFF 2 = true ∧ bufOk sramBase 0x800000 = true ∧ bufOk (sramBase + 1) 0x800000 = false ∧
    fld (0x80000002#32) 1 0 = 2 ∧ (0x80000002#32).getLsbD 31 = true ∧ live.rbit (flashReg 0x14) 0 = false ∧ live.boot.flash = none ∧ mwf 0xFF live.flash = true ∧
    ({ flash := some (1, 0, 0x10000, sramBase) } : Boot).flash = some (1, 0, 0x10000, sramBase) ∧ live.rfld (secReg 0x40) 7 0 < 64 ∧ live.locked = false ∧ live.sec.log.length < 1024 ∧
    (live.setBit (bootReg 8) 2 true).rbit (bootReg 8) 2 = true ∧ fld (1#32) 6 0 ≤ ({ secver := 1 } : Sec).secver ∧ live.secMin < fld (1#32) 6 0 := by decide +kernel

/-- An event source enabled, with its token. -/
def eventDev (n : Nat) (cfg : W32) : Dev := { (live.setReg (banked (evtReg 4) n) cfg) with graphs := [(0, { st := 2 })] }
theorem wit_EventsJournalAndReplay :
    (703 : BitVec 10).toNat < 704 ∧ (eventDev 703 0xC0000000).rbit (banked (evtReg 4) 703) 31 = true ∧ (eventDev 703 0xC0000000).rbit (banked (evtReg 4) 703) 30 = true ∧
    (eventDev 0 0).rbit (banked (evtReg 4) 0) 31 = false ∧ (withGraph 1 { st := 2 }).running 1 = true ∧ live.running 1 = false ∧ live.evtPending 703 = false ∧ live.evtQ.length < 64 ∧ 704 ≤ (1023 : BitVec 10).toNat ∧
    ((tokAt eventNode (unitTok 4 0 3 0 1023)).takeTok eventNode (fun _ => true)).isSome = true ∧ Tag.crcOk (unitTok 4 0 3 0 1023).tag = true ∧
    infieldIs (unitTok 4 0 3 0 1023).tag 0 3 0 = true ∧ (unitTok 4 0 3 0 1023).tag.dev = live.devNo ∧ Token.ptype (unitTok 4 0 3 0 1023) ≤ 8 ∧ (unitTok 4 0 3 0 703).tag.node.toNat < 704 ∧
    (BitVec.toNat (unitTok 4 0 3 0 1023).tag.node < 1024) ∧ live.hubCredit tok = true ∧ live.jrnWait.length ≤ 0 ∧ [({ written := true } : JWait)][0]? = some { written := true } ∧
    live.jrnUsed < live.jrnCap ∧ live.expired 15 = [] ∧ live.hbmLost = false ∧ live.replayNext = none ∧ (1#32).getLsbD 0 = true ∧ live.healthCause.1 = 0 ∧
    (live.setReg (hltReg 0) 2).rfld (hltReg 0) 1 0 ≠ 0 := by decide +kernel
theorem wit_EventsJournalAndReplay_replay :
    let d := { live.setBit (pwrReg 4) 0 true with graphs := [(1, { st := 2, actmax := 4, prot := true })], groups := [{ graph := 1, hold := true, recs := [3] }] }
    d.replayNext = some { graph := 1, hold := true, recs := [3] } ∧ d.regionOpen 0 = true ∧ d.running 1 = true ∧ d.mayTake 0 0 1 false = true ∧ (d.takeCtx 0 0 1 (some none)).isSome = true ∧
    ({ d with graphs := [(1, { st := 2, actmax := 0, prot := true })] } : Dev).replayNext.isSome = true ∧ d.loseStranded = d := by decide +kernel
theorem wit_EventsJournalAndReplay_stranded :
    let d := { live with groups := [{ graph := 1, hold := true, recs := [3] }], rst := { live.rst with noclk := [272] } }
    d.groups.filter d.stranded = [{ graph := 1, hold := true, recs := [3] }] ∧ d.loseStranded.groups = [] := by decide +kernel

def protDev : Dev := { live with regions := [(0, { pool := { desc := [(0, ctxActive), (1, ctxActive ||| BitVec.ofNat 64 (2 ^ 53))] } })] }
theorem wit_OutputsAreHeldAndReleased :
    live.pend.length < 65536 ∧ ((tokAt healthNode (unitTok 4 0 4 0 4095)).takeTok healthNode (fun _ => true)).isSome = true ∧ live.takeTok healthNode (fun _ => true) = none ∧
    (live.blockTag healthNode (unitTok 4 0 4 0 4095) (infieldIs (unitTok 4 0 4 0 4095).tag 0 4 0)).1 = some (unitTok 4 0 4 0 4095) ∧ (unitTok 4 0 4 0 4095).tag.node.toNat < 4096 ∧
    cdState (protDev.ctxDesc 0) = 1 ∧ cdFault (protDev.ctxDesc 0) = false ∧ cdCommit (protDev.ctxDesc 0) = 0 ∧ cdCommit (protDev.ctxDesc 1) = 2 ∧ cdState (protDev.ctxDesc 1) = 1 ∧
    ([({ root := 1 } : Pend)].filter (fun p => p.root == 1)) ≠ [] ∧ live.hbmLost = false ∧ live.jrnUsed < live.jrnCap ∧ live.outHeld.contains 0 = false ∧
    live.rbit (outReg 0x34 4095) 31 = false ∧ ({ lost := true } : Pend).lost = true ∧ live.graphLost 1 = false ∧ (withGraph 1 { dup := true }).graph 1 = { dup := true } ∧
    ({ dup := true } : Graph).aliveA = true := by decide +kernel

theorem wit_FusesOnlyBurnSecver :
    let s : State := { st live with pending := [.powerOn] }
    s.fuses = { s.fuses with secver := s.fuses.secver } ∧ s.fuses.secver ≤ s.fuses.secver ∧ ∃ s', Sys2Proof.Machine.step s = .next s' := ⟨rfl, Nat.le_refl _, _, rfl⟩

/-! ### More states of the statements on host commands, resets, power, boot and events -/

def withGraphs (x : Dev) (gs : List (Nat × Graph)) : Dev := { x with graphs := gs }
def closingSess : FcpSess := { st := 2, run := some { op := 2 }, close := some { op := 0x12 } }
theorem wit_FcpPacketsAreTested_close :
    ((served closingSess).sess 1).close = some { op := 0x12 } ∧ (served closingSess).fcpServed = true ∧
    (served { st := 2, run := some { op := 2, long := true } }).sess 1 = { st := 2, run := some { op := 2, long := true } } ∧ live.fuseBad = false := by decide +kernel
theorem wit_HostCommandsReply_kinds :
    (∀ p ∈ [[2, 3, 3, 16], [4, 0, 0, 0], [5, 3, 3, 0], [6, 3, 0, 0], [7, 0, 0, 0], [0, 0, 0, 0], [1, 0, 0, 0]], ran 0x70 0 p = true) ∧
    (∀ p ∈ [[47, 0, 0, 0], [47, 1, 0, 0], [47, 2, 0, 0]], ran 0x72 0 p = true) ∧ live.powerHeld { op := 0x72 } 47 = false ∧ live.powerHeld { op := 0x72 } 36 = true ∧
    (live.setBit (pwrReg 4) 0 true).powerHeld { op := 0x72 } 1 = true ∧
    ({ live with boot := { staged := some (1, []) } } : Dev).boot.staged = some (1, []) ∧
    (∀ k ∈ [0, 1, 2, 3, 4, 5, 6, 7], ({ live with fcp := { acts := [(k, 0)] } } : Dev).fcp.acts[0]? = some (k, 0)) := by decide +kernel
/-- Graph 1 runs and feeds hurdle 0 of region 0; graph 2 is only loaded. -/
def swapDev : Dev := withGraphs (oneRegion { hurdles := [(0, { hurd with graph := 1 }), (1, { hurd with graph := 2 })] }) [(1, { st := 2 }), (2, { st := 1 })]
theorem wit_GraphCommandsReply_swap :
    swapDev.graphThere 1 = true ∧ swapDev.graphThere 2 = true ∧ (swapDev.graph 2).st = 1 ∧ swapDev.graphThere 3 = false ∧ (swapDev.graph 1).st ≠ 1 ∧
    (let hos := swapDev.entryHurdles 1 0; hos.isEmpty = false ∧ hos.any (fun x => (swapDev.entryOf 2 0 x.2.2.copyB).map (·.nsrc) != some x.2.2.nsrc) = false ∧
      hos.any (fun x => x.2.2.armed.isSome || swapDev.rbit (hrdStop x.1 x.2.1) 8) = false ∧ hos.any (fun x => decide (128 ≤ ((5 : BitVec 8) - x.2.2.e).toNat)) = false) ∧
    (hurdDev { hurd with armed := some { new := 2 } } []).hrdStopped 0 0 = false ∧
    ((hurdDev { hurd with armed := some { new := 2 }, e := 6 } []).setReg (hrdStop 0 0) 0x105).hrdStopped 0 0 = true ∧ ({ new := 2 } : Armed).token = false := by decide +kernel
theorem wit_ResetsReachTheirState_absorbed :
    ({ phase := 3, cold := true } : Rst).phase ≠ 0 ∧ (releasing true).rst.cold = true ∧ (releasing true).rst.phase ≠ 3 ∧ (releasing false).rst.cold = false := by decide
theorem wit_ReleaseAndBlockResets_held :
    (releasing true).resetting = true ∧ live.resetting = false ∧ (live.setBit (rstReg 0x10) 15 true).rbit (rstReg 0x10) 15 = true ∧ (1#32).getLsbD 1 = false ∧
    (releasing false).islands.contains 271 = false ∧ ((releasing false).setFld (domReg 30) 3 2 2).islandPowered 271 = true ∧ (releasing false).rst.noclk.contains 271 = false ∧
    ((releasing true).setFld (domReg 36) 3 2 2).islandPowered 292 = true := by decide +kernel
theorem wit_DomainsAndRegionsSwitch_queue :
    let d := ({ live with domQ := [(3, true), (4, false)] } : Dev)
    d.domQ = (3, true) :: [(4, false)] ∧ (4 : Nat) ≠ 3 ∧ ([((4 : Nat), false)]).any (fun x => x.1 == 44) = false ∧
    ({ live with domQ := [(5, false)] } : Dev).domQ = (5, false) :: [] ∧
    ((live.setBit (pwrReg 4) 15 true).parkSet 15 true).parked 15 = true ∧ (live.setBit (pwrReg 4) 15 true).parked 15 = false ∧ (live.setBit (pwrReg 4) 15 true).regionOpen 15 = true := by decide +kernel
theorem wit_BootAndTrust_locked :
    (live.setBit (secReg 0) 0 true).locked = true ∧ 64 ≤ (live.setReg (secReg 0x40) 64).rfld (secReg 0x40) 7 0 ∧ (live.setReg (secReg 0x40) 63).rfld (secReg 0x40) 7 0 < 64 ∧
    live.regHeld (secReg 0xA4) = false := by decide +kernel
theorem wit_BootAndTrust_log : 1024 ≤ ({ log := List.replicate 1024 (0, 0, []) } : Sec).log.length := Nat.le_of_eq (List.length_replicate (n := 1024)).symm
theorem wit_BootAndTrust_flashDone :
    (∀ o ∈ [0, 1, 2, 3], ({ live with boot := { flash := some (o, 0, 1, sramBase) } } : Dev).boot.flash = some (o, 0, 1, sramBase)) ∧
    live.flashRefuses 2 0 1 = live.flashRefuses 2 0 1 ∧ bufOk sramBase 1 = true ∧ (∀ i, i < 1 → live.flashByte (0 + i) ≠ 0) := by
  refine ⟨by decide +kernel, rfl, by decide +kernel, fun i hi => ?_⟩; have : i = 0 := by omega
  subst this; decide +kernel
theorem wit_EventsJournalAndReplay_waits :
    let w := ({ root := some 1, src := eventNode, tok := tok } : JWait)
    ({ live with jrnWait := [{ w with written := true }] } : Dev).jrnWait[0]? = some { w with written := true } ∧ ({ live with jrnWait := [w] } : Dev).jrnWait = [w] ∧ w.written = false ∧ w.root = some 1 ∧
    live.jrnUsed < live.jrnCap ∧ jrnReady eventNode [{ w with done := true }] = [{ w with done := true }] ∧ jrnReady healthNode [{ w with done := true }] = [] ∧
    (live.blockTag eventNode (unitTok 4 0 3 0 5) (infieldIs (unitTok 4 0 3 0 5).tag 0 3 0)).1 = some (unitTok 4 0 3 0 5) ∧
    (live.blockTag eventNode (unitTok 5 0 3 0 5) false).1 = none := by decide +kernel
theorem wit_EventsJournalAndReplay_life :
    let d := { live with regions := [(0, { pool := { desc := [(0, putFld 0 63 61 3)] } })] }
    cdLive (d.ctxDesc 0) = true ∧ cdLive (protDev.ctxDesc 0) = true ∧ cdFault (protDev.ctxDesc 0) = false := by decide +kernel

/-! ### Values of the spec -/

/-- The power-on reset cause and history of R470 and R475: code 1, and the reset value of a register with the code added. -/
theorem test_power_on_cause : (Dev.init.reg (rstReg 0)).toNat % 256 = 1 ∧ State.reset.dev.rst.hist = [(1, 2, 0)] := by decide +kernel
/-- R52: the TCRC of a tag of zeros, bit by bit by R51. -/
theorem test_tcrc_of_zeros : (Tag.seal {}).tcrc = 0xFA := by decide +kernel

/-! ### The package (19_package_electrical.md) -/

/-- The counts of R555, and of the rails in R557. -/
theorem test_ball_counts : ballCount Ball.isSignal = 298 ∧ ballCount (· == .vss) = 2382 ∧ ballCount (· == .agnd) = 335 := by decide +kernel
theorem test_rail_balls : rails.all (fun r => ballCount (· == .rail r) == r.load.2.2) = true := by decide +kernel
/-- The examples of R549 and R551 to R553. -/
theorem test_row_letters : [16, 22, 42, 43, 62, 68].map rowLetters = [['U'], ['A', 'C'], ['B', 'D'], ['B', 'E'], ['C', 'E'], ['C', 'L']] := by decide +kernel
theorem test_ball_examples :
    ballAt 42 2 = .txp 5 ∧ ballAt 62 3 = .rxn 7 ∧ ballAt 43 67 = .ainP 40 ∧ ballAt 16 64 = .aout 3 ∧ ballAt 22 63 = .tach 2 ∧
    ballAt 62 33 = .tripOut 7 ∧ ballAt 63 33 = .tripRb 7 ∧ ballAt 66 24 = .tripOut 20 := by decide +kernel
/-- R558: no ball carries more than 0.4 A continuous. R566: 40 Ω stays within 0.002 %. -/
theorem test_ball_current : rails.all (fun r => decide (r.load.1 ≤ 400000 * r.load.2.2)) = true := by decide +kernel
theorem test_source_error : (sourceError 40).1 * 100000 ≤ 2 * (sourceError 40).2 ∧ ¬ (sourceError 41).1 * 100000 ≤ 2 * (sourceError 41).2 := by decide +kernel
/-- The greatest powers of R41 and R572, and the temperatures of R474 and of the cooling example after R572. -/
theorem test_power :
    devicePower false (List.replicate 256 (20, 1000)) 16 4 = 185020000 ∧ devicePower true (List.replicate 256 (16, 1000)) 16 4 = 167612000 ∧
    tripTemp false = 120000 ∧ tripTemp true = 130000 ∧ junctionAt 50000 95570000 500 = 97785 ∧ junctionAt 50000 110000000 500 = 105000 := by decide +kernel
/-- R471, R557: a rail at its brown-out threshold asks for nothing, below it for a brown-out, and back in its window for a power-on. -/
theorem test_rail_source :
    Rail.source false true .core 690 = none ∧ Rail.source false true .core 689 = some 3 ∧ Rail.source false true .core 720 = some 1 ∧
    Rail.source false false .core 780 = none ∧ Rail.source true true .van15 (-13499) = some 3 ∧ supplyOrder [.vbak, .vpp, .vddq, .sram, .core, .viepe] = true ∧
    supplyOrder [.core, .sram] = false := by decide +kernel

/-- A row of R149: opcode, TYPE, operands, result, flags (OF 4, DZ 8). -/
def intRow (r : Nat × Nat × Nat × Nat × Nat × BitVec 5) : Bool := intOp r.1 r.2.1 r.2.2.1 r.2.2.2.1 == (r.2.2.2.2.1, r.2.2.2.2.2)
def max64 : Nat := 0x7FFFFFFFFFFFFFFF
def min64 : Nat := 0x8000000000000000
def ones : Nat := 0xFFFFFFFFFFFFFFFF
/-- R149, additive and multiplying operations. -/
theorem test_r149_sums : ∀ r ∈ [(1, 0, max64, 1, min64, 4), (1, 1, ones, 1, 0, 4), (2, 0, min64, 1, max64, 4), (2, 1, 0, 1, ones, 4), (3, 0, min64, 0, min64, 4), (4, 0, min64, 0, min64, 4),
    (3, 2, 0x80000000, 0, 0xFFFFFFFF80000000, 4), (3, 0, 0, 0, 0, 0), (8, 0, min64, ones, min64, 4), (9, 0, min64, ones, 0, 0), (8, 0, max64, max64, 1, 4),
    (9, 0, max64, max64, 0x3FFFFFFFFFFFFFFF, 0), (9, 1, ones, 2, 1, 0)], intRow r = true := by decide +kernel
/-- R149, quotients and remainders. -/
theorem test_r149_quotients : ∀ r ∈ [(0xA, 0, min64, ones, min64, 4), (0xB, 0, min64, ones, 0, 4), (0xA, 2, 0x80000000, ones, 0xFFFFFFFF80000000, 4), (0xB, 2, 0x80000000, ones, 0, 4),
    (0xA, 0, 7, 0, ones, 8), (0xB, 0, 7, 0, 7, 8), (0xA, 0, 0, 0, ones, 8), (0xA, 3, 5, 0, 0xFFFFFFFF, 8), (0xB, 3, 5, 0, 5, 8), (0xA, 0, 7, ones - 1, ones - 2, 0), (0xB, 0, 7, ones - 1, 1, 0),
    (0xA, 0, ones - 6, 2, ones - 2, 0), (0xB, 0, ones - 6, 2, ones, 0), (0xA, 1, ones, 2, max64, 0), (0xB, 1, ones, 2, 1, 0)], intRow r = true := by decide +kernel
/-- R149, shifts, counts and comparisons. -/
theorem test_r149_shifts : ∀ r ∈ [(0x18, 0, 1, 63, min64, 0), (0x18, 0, 1, 64, 0, 0), (0x19, 0, 1, 64, 0, 0), (0x1A, 0, ones - 7, 64, ones, 0), (0x1A, 0, 8, ones, 0, 0),
    (0x1A, 3, 0x80000000, 4, 0xF8000000, 0), (0x19, 2, 0x80000000, 4, 0x08000000, 0), (0x1C, 0, 0, 0, 64, 0), (0x1D, 0, 0, 0, 64, 0), (0x1C, 2, 0, 0, 32, 0), (0x1E, 2, ones, 0, 32, 0),
    (0x22, 0, ones, 0, 1, 0), (0x22, 1, ones, 0, 0, 0)], intRow r = true := by decide +kernel

/-- A row of R162 or R163 in binary32: opcode, RM, NCAN, IMM, operands, result, flags (NV 16, DZ 8, OF 4, UF 2, NX 1). -/
def fpRow (r : Nat × Nat × Bool × Nat × Nat × Nat × Nat × Nat × BitVec 5) : Bool :=
  let x := fpLane r.1 f32 r.2.1 r.2.2.1 r.2.2.2.1 r.2.2.2.2.1 r.2.2.2.2.2.1 r.2.2.2.2.2.2.1
  x.bits == r.2.2.2.2.2.2.2.1 && x.fl == r.2.2.2.2.2.2.2.2
/-- R162, sums and products. -/
theorem test_r162_sums : ∀ r ∈ [(0x100, 0, false, 0, 0x7F7FFFFF, 0x7F7FFFFF, 0, 0x7F800000, 5), (0x100, 1, false, 0, 0x7F7FFFFF, 0x7F7FFFFF, 0, 0x7F7FFFFF, 5), (0x100, 2, false, 0, 0xFF7FFFFF, 0xFF7FFFFF, 0, 0xFF7FFFFF, 5),
    (0x100, 0, false, 0, 0x7F800000, 0xFF800000, 0, 0x7FC00000, 16), (0x100, 0, false, 0, 0, 0x80000000, 0, 0, 0), (0x100, 3, false, 0, 0, 0x80000000, 0, 0x80000000, 0),
    (0x101, 3, false, 0, 0x3F800000, 0x3F800000, 0, 0x80000000, 0), (0x100, 0, false, 0, 0x7FFFFF, 1, 0, 0x800000, 0), (0x102, 0, false, 0, 1, 0x3F000000, 0, 0, 3), (0x102, 4, false, 0, 1, 0x3F000000, 0, 1, 3),
    (0x102, 2, false, 0, 1, 1, 0, 1, 3), (0x102, 0, false, 0, 0, 0x7F800000, 0, 0x7FC00000, 16), (0x102, 0, false, 0, 0x80000000, 0x40A00000, 0, 0x80000000, 0)], fpRow r = true := by decide +kernel
/-- R162, quotients, roots and fused products. -/
theorem test_r162_quotients : ∀ r ∈ [(0x103, 0, false, 0, 0x3F800000, 0x80000000, 0, 0xFF800000, 8), (0x103, 0, false, 0, 0x7F800000, 0, 0, 0x7F800000, 0), (0x103, 0, false, 0, 0, 0, 0, 0x7FC00000, 16),
    (0x103, 0, false, 0, 0x3F800000, 0x7F800000, 0, 0, 0), (0x103, 0, false, 0, 0x7F7FFFFF, 1, 0, 0x7F800000, 5), (0x103, 0, false, 0, 1, 0x40000000, 0, 0, 3), (0x104, 0, false, 0, 0x80000000, 0, 0, 0x80000000, 0),
    (0x104, 0, false, 0, 0x80000001, 0, 0, 0x7FC00000, 16), (0x104, 0, false, 0, 1, 0, 0, 0x1A3504F3, 1), (0x105, 0, false, 0, 0x3F800001, 0x3F7FFFFE, 0xBF800000, 0xA8800000, 0),
    (0x105, 0, false, 0, 0x7F7FFFFF, 0x40000000, 0xFF800000, 0xFF800000, 0), (0x105, 0, true, 0, 0, 0x7F800000, 0x7FC01234, 0x7FC00000, 16)], fpRow r = true := by decide +kernel
/-- R162, NaNs, and R163. -/
theorem test_r162_nans : ∀ r ∈ [(0x100, 0, false, 0, 0x7F800042, 0x7FC01234, 0, 0x7FC00042, 16), (0x100, 0, true, 0, 0x7FC01234, 0x7F800042, 0, 0x7FC00000, 16), (0x100, 0, false, 0, 0x3F800000, 0xFFC00005, 0, 0xFFC00005, 0),
    (0x108, 0, false, 0, 0x7F800042, 0x40400000, 0, 0x40400000, 16), (0x108, 0, false, 0, 0x80000000, 0, 0, 0x80000000, 0), (0x109, 0, false, 0, 0x80000000, 0, 0, 0, 0), (0x109, 0, false, 0, 0x7FC01234, 0xFFC00005, 0, 0x7FC01234, 0),
    (0x106, 0, false, 0, 0x7F800042, 0, 0, 0xFF800042, 0), (0x107, 0, false, 0, 0xFFC00005, 0, 0, 0x7FC00005, 0), (0x110, 0, false, 0, 0x7FC01234, 0x7FC01234, 0, 0, 0), (0x110, 0, false, 0, 0, 0x80000000, 0, 1, 0),
    (0x111, 0, false, 0, 0x7FC01234, 0x3F800000, 0, 0, 16), (0x112, 0, false, 0, 0xFF800000, 0xFF800000, 0, 1, 0), (0x113, 0, false, 0, 0x7F800042, 0x3F800000, 0, 1, 16)], fpRow r = true := by decide +kernel
theorem test_r163_conversions : ∀ r ∈ [(0x119, 4, false, 2, 0x40200000, 0, 0, 3, 1), (0x119, 4, false, 2, 0xC0200000, 0, 0, ones - 2, 1), (0x119, 0, false, 2, 0x4F000000, 0, 0, 0x7FFFFFFF, 16),
    (0x119, 0, false, 2, 0xCF000000, 0, 0, 0xFFFFFFFF80000000, 0), (0x119, 0, false, 3, 0xBF000000, 0, 0, 0, 1), (0x119, 0, false, 3, 0xBF800000, 0, 0, 0, 16), (0x119, 0, false, 0, 0x7FC01234, 0, 0, max64, 16),
    (0x119, 0, false, 0, 0xFF800000, 0, 0, min64, 16), (0x119, 2, false, 0, 1, 0, 0, 1, 1), (0x118, 0, false, 6, 0x477FF000, 0, 0, 0x7C00, 5), (0x118, 1, false, 6, 0x477FF000, 0, 0, 0x7BFF, 1),
    (0x118, 2, false, 6, 0x33000000, 0, 0, 1, 3), (0x11B, 0, false, 0, 0xBECCCCCD, 0, 0, 0x80000000, 1), (0x11B, 0, false, 0, 0x4B800001, 0, 0, 0x4B800001, 0), (0x11C, 0, false, 0, 1, 0, 0, 16, 0),
    (0x11C, 0, false, 0, 0xFFC00005, 0, 0, 1, 0)], fpRow r = true := by decide +kernel
/-- R163, conversions from binary64, binary16 and int64. -/
theorem test_r163_formats : (fCvt f64 f32 0 false 0x7FEFFFFFFFFFFFFF).bits = 0x7F800000 ∧ (fCvt f64 f32 0 false 0x7FF0000000000001).bits = 0x7FC00000 ∧ (fCvt f64 f32 0 false 0x7FF8000020000000).bits = 0x7FC00001 ∧
    (fCvt f16 f32 0 false 0x7D01).bits = 0x7FE02000 ∧ (fCvt f16 f64 0 false 1).bits = 0x3E70000000000000 ∧ fOfInt f32 0 max64 = { bits := 0x5F000000, fl := 1 } ∧ (fOfInt f32 1 max64).bits = 0x5EFFFFFF ∧
    fOfInt f32 0 (-(2 ^ 63)) = { bits := 0xDF000000 } ∧ fOfInt f32 2 16777217 = { bits := 0x4B800001, fl := 1 } := by decide +kernel

end Sys2Proof.Tests
end

/-! ### Arithmetic: what a clean firing hands on (R140, R145, R159, R166) -/

namespace Sys2Proof.Machine

/-- Each arithmetic command computes the firing of its opcode at its FU. -/
theorem exec_arithmetic : ∀ c ∈ intCommands ++ fpCommands, ∀ (g : Fin 16) (t : Fin 17) (f : Fin 8) (s : State),
    exec (c.2 g t f) s = .next (s.withDev (s.dev.compute (fuKey g t f) c.1)) := by
  simp only [intCommands, fpCommands, List.forall_mem_append, List.forall_mem_cons, List.not_mem_nil, false_imp_iff, implies_true, and_true]
  and_intros <;> exact fun _ _ _ _ => rfl

/-- What the operation `o` of a firing with descriptor `desc` computes from the firing's operands. -/
def arithRes (o : Nat) (f : Firing) (desc : BitVec 128) : OpRes :=
  if o < 0x100 then intRes o (dType desc) (dCt desc) (operand f desc 0) (operand f desc 1)
  else fpRes o (dType desc) (dRm desc) (dCt desc) (dNcan desc) (dImm desc).toNat (operand f desc 0) (operand f desc 1) (operand f desc 2)

/-- What a firing without ERR or unaccepted tokens hands on: the value of `arithRes` to every destination, and its flags where STICKY is set. -/
def Dev.arithResult (d : Dev) (o : Nat) (f : Firing) (desc : BitVec 128) : Result :=
  { toks := d.outAll f desc (arithRes o f desc).pay (arithRes o f desc).ptype false, flags := keptFlags desc (arithRes o f desc).fl }

theorem compute_of_firesAt {d : Dev} {k o : Nat} {f : Firing} {desc : BitVec 128} {ext : List (BitVec 128)}
    (h : d.firesAt k o f desc ext) (hc : cleanFiring f desc) :
    d.compute k o = d.finish k (arithRes o f desc).lat (arithRes o f desc).occ (d.arithResult o f desc) := by
  unfold Dev.compute
  rw [ready_of_firesAt h hc]
  rfl

theorem exec_of_firesAt {c : Nat × (Fin 16 → Fin 17 → Fin 8 → Instr)} (hc : c ∈ intCommands ++ fpCommands) {g : Fin 16} {t : Fin 17} {f : Fin 8}
    {s : State} {fr : Firing} {desc : BitVec 128} {ext : List (BitVec 128)} (h : s.dev.firesAt (fuKey g t f) c.1 fr desc ext)
    (hclean : cleanFiring fr desc) :
    exec (c.2 g t f) s = .next (s.withDev (s.dev.finish (fuKey g t f) (arithRes c.1 fr desc).lat (arithRes c.1 fr desc).occ
      (s.dev.arithResult c.1 fr desc))) := by
  rw [exec_arithmetic c hc, compute_of_firesAt h hclean]

/-! ### Values without times (R140) -/

/-- Payload, payload type and flags of a result: all but its times. -/
def OpRes.value (r : OpRes) : Nat × Nat × BitVec 5 := (r.pay, r.ptype, r.fl)

/-- CT changes the times of an integer operation only (R148). -/
theorem intRes_value_ct (o ty : Nat) (ct ct' : Bool) (a b : Nat) : (intRes o ty ct a b).value = (intRes o ty ct' a b).value := rfl

/-- CT changes the times of a floating-point operation only (R165). -/
theorem fpRes_value_ct (o ty rm : Nat) (ct ct' ncan : Bool) (imm a b c : Nat) :
    (fpRes o ty rm ct ncan imm a b c).value = (fpRes o ty rm ct' ncan imm a b c).value := by
  unfold fpRes
  split <;> rfl

/-- IMM32 enters a lane of FCVT and FTOI only. -/
theorem fpLane_imm {o : Nat} (hcvt : o ≠ 0x118) (hftoi : o ≠ 0x119) (f : Fmt) (rm : Nat) (ncan : Bool) (imm imm' a b c : Nat) :
    fpLane o f rm ncan imm a b c = fpLane o f rm ncan imm' a b c := by
  unfold fpLane
  split
  case h_15 => exact absurd rfl hcvt
  case h_16 => exact absurd rfl hftoi
  all_goals rfl

/-- IMM32 is no parameter of a floating-point operation but FCVT, FTOI and ITOF (R99). -/
theorem fpRes_imm {o : Nat} (hcvt : o ≠ 0x118) (hftoi : o ≠ 0x119) (hitof : o ≠ 0x11A) (ty rm : Nat) (ct ncan : Bool) (imm imm' a b c : Nat) :
    fpRes o ty rm ct ncan imm a b c = fpRes o ty rm ct ncan imm' a b c := by
  simp only [fpRes, fpLanes, hcvt, hftoi, hitof, if_false, fpLane_imm hcvt hftoi _ rm ncan imm imm']

theorem opParam_isSome_of_conversion {o : Nat} (h : o = 0x118 ∨ o = 0x119 ∨ o = 0x11A) (n : Nat) : (opParam o n).isSome = true := by
  rcases h with rfl | rfl | rfl <;> rfl

/-- An IMM32 that agrees where it is a parameter gives the same floating-point result. -/
theorem fpRes_param {o : Nat} {imm imm' : W32} (h : (opParam o imm.toNat).isSome = true → imm = imm') (ty rm : Nat) (ct ncan : Bool) (a b c : Nat) :
    fpRes o ty rm ct ncan imm.toNat a b c = fpRes o ty rm ct ncan imm'.toNat a b c := by
  by_cases hp : o = 0x118 ∨ o = 0x119 ∨ o = 0x11A
  · rw [h (opParam_isSome_of_conversion hp _)]
  · obtain ⟨hcvt, hftoi, hitof⟩ : o ≠ 0x118 ∧ o ≠ 0x119 ∧ o ≠ 0x11A := by simpa only [not_or] using hp
    exact fpRes_imm hcvt hftoi hitof ty rm ct ncan _ _ a b c

/-- Operands, TYPE, RM, NCAN and parameter fix the value that an operation hands on. -/
theorem arithRes_value_eq {o : Nat} {f f' : Firing} {desc desc' : BitVec 128} (hty : dType desc = dType desc') (hrm : dRm desc = dRm desc')
    (hncan : dNcan desc = dNcan desc') (himm : (opParam o (dImm desc).toNat).isSome = true → dImm desc = dImm desc')
    (hops : ∀ p, p < 3 → operand f desc p = operand f' desc' p) :
    (arithRes o f desc).value = (arithRes o f' desc').value := by
  unfold arithRes
  rw [hty, hrm, hncan, hops 0 (by decide), hops 1 (by decide), hops 2 (by decide)]
  split
  · exact intRes_value_ct o _ _ _ _ _
  · rw [fpRes_param himm]
    exact fpRes_value_ct o _ _ _ _ _ _ _ _ _

/-- Settles O19: only the times of `arithRes` read CT, and nothing of it reads the device. -/
theorem arithmeticDependsOnOperandsOnly : Obligations.ArithmeticDependsOnOperandsOnly := by
  intro c hc g g' t t' f f' s s' fr fr' desc desc' ext ext' hfires hclean hfires' hclean' hty hrm hncan himm hops
  have hvalue := arithRes_value_eq (o := c.1) hty hrm hncan himm hops
  simp only [OpRes.value, Prod.mk.injEq] at hvalue
  obtain ⟨hpay, hptype, hfl⟩ := hvalue
  refine ⟨_, _, _, _, (arithRes c.1 fr' desc').lat, (arithRes c.1 fr' desc').occ, _, exec_of_firesAt hc hfires hclean, ?_⟩
  rw [hpay, hptype, hfl]
  exact exec_of_firesAt hc hfires' hclean'

/-! ### The execute stage (R148, R166) -/

/-- A firing that leaves execute starts after the one before it, is done after it, and its result waits behind the earlier ones. -/
theorem finish_keeps_order {d : Dev} {k lat occ : Nat} {res : Result} {x : Fetched} (hw : mwf {} d.fus = true) (h : (d.fu k).fetch = some x) :
    ∃ r : Result, ((d.finish k lat occ res).fu k).results = (d.fu k).results ++ [r] ∧ ((d.finish k lat occ res).fu k).fetch = none ∧
      r.start = max x.cycle ((d.fu k).prevStart + (d.fu k).prevOcc) ∧ r.done = max (r.start + lat) ((d.fu k).prevDone + 1) ∧
      ((d.finish k lat occ res).fu k).prevStart = r.start ∧ ((d.finish k lat occ res).fu k).prevOcc = occ ∧
      ((d.finish k lat occ res).fu k).prevDone = r.done ∧ ∀ j, j ≠ k → (d.finish k lat occ res).fu j = d.fu j := by
  rw [finish_fu hw h]
  exact ⟨_, rfl, rfl, rfl, rfl, rfl, rfl, rfl, fun j hj => finish_other hw hj⟩

/-- An integer operation but DIV and REM takes one cycle (R148). -/
theorem arithRes_times_of_int {o : Nat} (ho : o < 0x100) (hdiv : o ≠ 0x00A) (hrem : o ≠ 0x00B) (f : Firing) (desc : BitVec 128) :
    (arithRes o f desc).lat = 1 ∧ (arithRes o f desc).occ = 1 := by
  simp [arithRes, ho, intRes, hdiv, hrem]

/-! ### EXECUTE_COMPLETE (R166) -/

theorem fuKey_region (g t f : Nat) (ht : t < 17) (hf : f < 8) : fuKey g t f / 136 = g := by
  unfold fuKey
  omega

/-- The tokens of a result go to the network, or of a DELAY to the pacer. -/
def Dev.handOver (d : Dev) (k : Nat) (r : Result) : Dev :=
  match r.delay with
  | some n => (d.paced k n r).sendResult k r.flow r.ends r.relay []
  | none => d.sendResult k r.flow r.ends r.relay r.toks

theorem handOver_of_delay {d : Dev} {k n : Nat} {r : Result} (h : r.delay = some n) :
    d.handOver k r = (d.paced k n r).sendResult k r.flow r.ends r.relay [] := by
  simp only [Dev.handOver, h]

theorem handOver_of_no_delay {d : Dev} {k : Nat} {r : Result} (h : r.delay = none) : d.handOver k r = d.sendResult k r.flow r.ends r.relay r.toks := by
  simp only [Dev.handOver, h]

/-- The flags of a result go to its context's pool, and a fault faults its context. -/
def Dev.reportResult (d : Dev) (k : Nat) (r : Result) : Dev :=
  let d := if r.flags = 0 then d else d.sendMgmt (fuNode k) (poolDest (r.ctx.toNat / 2 ^ 18)) (.flags r.ctx r.flags)
  if r.fault then d.faultCtx (fuNode k) r.ctx else d

theorem reportResult_of_nothing {d : Dev} {k : Nat} {r : Result} (hflags : r.flags = 0) (hfault : r.fault = false) : d.reportResult k r = d := by
  simp only [Dev.reportResult, hflags, hfault, if_true, Bool.false_eq_true, if_false]

theorem reportResult_of_flags {d : Dev} {k : Nat} {r : Result} (hflags : r.flags ≠ 0) (hfault : r.fault = false) :
    d.reportResult k r = d.sendMgmt (fuNode k) (poolDest (r.ctx.toNat / 2 ^ 18)) (.flags r.ctx r.flags) := by
  simp only [Dev.reportResult, hflags, hfault, if_false, Bool.false_eq_true]

theorem reportResult_of_fault {d : Dev} {k : Nat} {r : Result} (hflags : r.flags = 0) (hfault : r.fault = true) :
    d.reportResult k r = d.faultCtx (fuNode k) r.ctx := by
  simp only [Dev.reportResult, hflags, hfault, if_true]

/-- No result waits: nothing changes. -/
theorem complete_of_nil {d : Dev} {k : Nat} (h : (d.fu k).results = []) : d.complete k = d := by
  simp only [Dev.complete, h]

/-- The send stage does not take the oldest result: nothing changes. -/
theorem complete_of_not_sendTakes {d : Dev} {k : Nat} {r : Result} {rs : List Result} (h : (d.fu k).results = r :: rs) (ht : d.sendTakes k r = false) :
    d.complete k = d := by
  simp [Dev.complete, h, ht]

/-- The oldest result leaves, and the others wait on in their order. -/
theorem complete_of_sendTakes {d : Dev} {k : Nat} {r : Result} {rs : List Result} (h : (d.fu k).results = r :: rs) (ht : d.sendTakes k r = true) :
    d.complete k = (((d.setFu k { d.fu k with results := rs }).handOver k r).reportResult k r).progress (k / 136) := by
  simp only [Dev.complete, h, ht, Bool.not_true, Bool.false_eq_true, if_false]
  rfl

theorem exec_executeComplete (g : Fin 16) (t : Fin 17) (f : Fin 8) (s : State) :
    exec (.executeComplete g t f) s = .next (s.withDev (s.dev.complete (fuKey g t f))) := rfl

theorem exec_executeComplete_of_sendTakes {g : Fin 16} {t : Fin 17} {f : Fin 8} {s : State} {r : Result} {rs : List Result}
    (h : (s.dev.fu (fuKey g t f)).results = r :: rs) (ht : s.dev.sendTakes (fuKey g t f) r = true) :
    exec (.executeComplete g t f) s = .next (s.withDev
      ((((s.dev.setFu (fuKey g t f) { s.dev.fu (fuKey g t f) with results := rs }).handOver (fuKey g t f) r).reportResult (fuKey g t f) r).progress g)) := by
  rw [exec_executeComplete, complete_of_sendTakes h ht, fuKey_region g t f t.isLt f.isLt]

/-- Settles O22: `finish` gives the times and the place in the queue, `complete` takes the queue's head. -/
theorem executeStageKeepsOrder : Obligations.ExecuteStageKeepsOrder := by
  refine ⟨fun c hc g t f s fr desc ext x hw hfires hclean hx => ?_, fun g t f s r rs h => ⟨fun ht => ?_, fun ht => ?_⟩, fun g t f s h => ?_⟩
  case refine_1 =>
    obtain ⟨r, hresults, hfetch, hstart, hdone, hps, hpo, hpd, hother⟩ := finish_keeps_order (lat := (arithRes c.1 fr desc).lat)
      (occ := (arithRes c.1 fr desc).occ) (res := s.dev.arithResult c.1 fr desc) hw hx
    exact ⟨_, r, _, _, exec_of_firesAt hc hfires hclean, hresults, hfetch, hstart, hdone, hps, hpo, hpd, hother,
      fun ho hdiv hrem => arithRes_times_of_int ho hdiv hrem fr desc⟩
  case refine_2 =>
    rw [exec_executeComplete_of_sendTakes h ht]
    refine ⟨fun hflags hfault hdelay => ?_, fun n hflags hfault hdelay => ?_, fun hflags hfault hdelay => ?_, fun hflags hfault hdelay => ?_⟩
    · rw [reportResult_of_nothing hflags hfault, handOver_of_no_delay hdelay]
    · rw [reportResult_of_nothing hflags hfault, handOver_of_delay hdelay]
    · rw [reportResult_of_flags hflags hfault, handOver_of_no_delay hdelay]
    · rw [reportResult_of_fault hflags hfault, handOver_of_no_delay hdelay]
  case refine_3 => rw [exec_executeComplete, complete_of_not_sendTakes h ht]; rfl
  case refine_4 => rw [exec_executeComplete, complete_of_nil h]; rfl

end Sys2Proof.Machine

/-! ### Integer operations as words of the width (R144 to R147) -/

namespace Sys2Proof.Machine

/-- A word read as TYPE says: two's complement or unsigned. -/
def wordVal (signed : Bool) (A : BitVec w) : Int := if signed then A.toInt else A.toNat

/-- A word extended to the payload, by its sign or by zeros (R144). -/
def wordExt (signed : Bool) (A : BitVec w) : W64 := if signed then A.signExtend 64 else A.zeroExtend 64

/-- An exact result lies in the range of words of the width. -/
def wordFits (signed : Bool) (w : Nat) (v : Int) : Bool :=
  if signed then decide (-(2 ^ (w - 1)) ≤ v ∧ v < 2 ^ (w - 1)) else decide (0 ≤ v ∧ v < 2 ^ w)

theorem iWidth_cases (ty : Nat) : iWidth ty = 64 ∨ iWidth ty = 32 := by
  unfold iWidth
  split <;> simp

theorem iWidth_pos (ty : Nat) : 0 < iWidth ty := by
  rcases iWidth_cases ty with h | h <;> omega

theorem iBits_eq_toNat (ty a : Nat) : iBits ty a = (BitVec.ofNat (iWidth ty) a).toNat := (BitVec.toNat_ofNat ..).symm

theorem iVal_eq_wordVal (ty a : Nat) : iVal ty a = wordVal (iSigned ty) (BitVec.ofNat (iWidth ty) a) := by
  have hpow : 2 * 2 ^ (iWidth ty - 1) = 2 ^ iWidth ty := by
    rw [← Nat.pow_succ', Nat.succ_eq_add_one, Nat.sub_add_cancel (iWidth_pos ty)]
  cases hs : iSigned ty
  · simp [iVal, wordVal, hs, iBits]
  · simp only [iVal, wordVal, hs, BitVec.toInt_eq_toNat_cond, ← iBits_eq_toNat, Bool.true_and, decide_eq_true_eq, if_true]
    by_cases h : 2 ^ (iWidth ty - 1) ≤ iBits ty a
    · rw [if_pos h, if_neg (by omega)]
      push_cast
      rfl
    · rw [if_neg h, if_pos (by omega)]

theorem iFits_eq_wordFits (ty : Nat) (v : Int) : iFits ty v = wordFits (iSigned ty) (iWidth ty) v := rfl

/-- TYPE 2 extends by the sign; the other three types by nothing or by zeros. -/
theorem iExt_toNat {ty : Nat} (h : ty < 4) : ∀ r : BitVec (iWidth ty), iExt ty r.toNat = (wordExt (iSigned ty) r).toNat := by
  have hext : ∀ r : BitVec 32, iExt 2 r.toNat = (r.signExtend 64).toNat := fun r => by
    have := r.isLt
    simp only [iExt, true_and, BitVec.toNat_signExtend, BitVec.msb_eq_decide, decide_eq_true_eq, Nat.add_one_sub_one, BitVec.toNat_setWidth]
    by_cases h : 2 ^ 31 ≤ r.toNat
    · rw [if_pos h, if_pos h]; omega
    · rw [if_neg h, if_neg h]; omega
  match ty, h with
  | 0, _ => exact fun (r : BitVec 64) => congrArg BitVec.toNat (BitVec.signExtend_eq r).symm
  | 1, _ => exact fun (r : BitVec 64) => congrArg BitVec.toNat (BitVec.setWidth_eq r).symm
  | 2, _ => exact hext
  | 3, _ =>
    intro (r : BitVec 32)
    have := r.isLt
    show r.toNat = (r.zeroExtend 64).toNat
    rw [BitVec.toNat_setWidth]
    omega

theorem iWrap_eq {ty : Nat} (h : ty < 4) (v : Int) : iWrap ty v = (wordExt (iSigned ty) (BitVec.ofInt (iWidth ty) v)).toNat := by
  rw [← iExt_toNat h, BitVec.toNat_ofInt, iWrap]
  norm_cast

/-- The statement's words are those of the width that TYPE gives. -/
theorem intSpec_eq {ty : Nat} (h : ty < 4) (o a b : Nat) :
    intSpec o ty a b =
      (wordExt (iSigned ty) (intWord o (iSigned ty) (BitVec.ofNat (iWidth ty) a) (BitVec.ofNat (iWidth ty) b)).1,
        (if (intWord o (iSigned ty) (BitVec.ofNat (iWidth ty) a) (BitVec.ofNat (iWidth ty) b)).2.1 then flOF else 0) |||
        (if (intWord o (iSigned ty) (BitVec.ofNat (iWidth ty) a) (BitVec.ofNat (iWidth ty) b)).2.2 then flDZ else 0)) := by
  match ty, h with
  | 0, _ => exact Prod.ext (BitVec.signExtend_eq (w := 64) _).symm rfl
  | 1, _ => exact Prod.ext (BitVec.setWidth_eq (n := 64) _).symm rfl
  | 2, _ => rfl
  | 3, _ => rfl

/-! What the words of a result are, and when it fits. -/
section Words
variable {w : Nat} (s : Bool) (A B : BitVec w)

theorem ofInt_wordVal : BitVec.ofInt w (wordVal s A) = A := by
  cases s <;> simp [wordVal]

theorem ofInt_wordVal_add : BitVec.ofInt w (wordVal s A + wordVal s B) = A + B := by
  rw [BitVec.ofInt_add, ofInt_wordVal, ofInt_wordVal]

theorem ofInt_wordVal_neg : BitVec.ofInt w (-wordVal s A) = -A := by
  rw [BitVec.ofInt_neg, ofInt_wordVal]

theorem ofInt_wordVal_sub : BitVec.ofInt w (wordVal s A - wordVal s B) = A - B := by
  rw [Int.sub_eq_add_neg, BitVec.ofInt_add, ofInt_wordVal_neg, ofInt_wordVal, BitVec.sub_eq_add_neg]

theorem ofInt_wordVal_mul : BitVec.ofInt w (wordVal s A * wordVal s B) = A * B := by
  rw [BitVec.ofInt_mul, ofInt_wordVal, ofInt_wordVal]

theorem wordVal_lt : decide (wordVal s A < wordVal s B) = (if s then A.slt B else A.ult B) := by
  cases s <;> simp [wordVal, BitVec.slt_eq_decide, BitVec.ult_eq_decide]

theorem wordVal_le : decide (wordVal s A ≤ wordVal s B) = !(if s then B.slt A else B.ult A) := by
  rw [← wordVal_lt, ← decide_not, decide_eq_decide, Int.not_lt]

theorem ofInt_wordVal_min : BitVec.ofInt w (min (wordVal s A) (wordVal s B)) = if (if s then B.slt A else B.ult A) then B else A := by
  rw [← wordVal_lt]
  rcases Int.lt_or_le (wordVal s B) (wordVal s A) with h | h
  · rw [Int.min_eq_right (Int.le_of_lt h), ofInt_wordVal, decide_eq_true h, if_pos rfl]
  · rw [Int.min_eq_left h, ofInt_wordVal, decide_eq_false (Int.not_lt.2 h), if_neg Bool.false_ne_true]

theorem ofInt_wordVal_max : BitVec.ofInt w (max (wordVal s A) (wordVal s B)) = if (if s then A.slt B else A.ult B) then B else A := by
  rw [← wordVal_lt]
  rcases Int.lt_or_le (wordVal s A) (wordVal s B) with h | h
  · rw [Int.max_eq_right (Int.le_of_lt h), ofInt_wordVal, decide_eq_true h, if_pos rfl]
  · rw [Int.max_eq_left h, ofInt_wordVal, decide_eq_false (Int.not_lt.2 h), if_neg Bool.false_ne_true]

theorem wordVal_inj : wordVal s A = wordVal s B ↔ A = B := by
  cases s
  · simp only [wordVal, Bool.false_eq_true, if_false, Int.ofNat_inj, BitVec.toNat_inj]
  · simp only [wordVal, if_true, BitVec.toInt_inj]

theorem not_wordFits_add : (!wordFits s w (wordVal s A + wordVal s B)) = if s then A.saddOverflow B else A.uaddOverflow B := by
  cases s
  · rw [Bool.eq_iff_iff]
    simp only [wordFits, wordVal, BitVec.uaddOverflow, Bool.false_eq_true, if_false, Bool.not_eq_true', decide_eq_false_iff_not, decide_eq_true_eq]
    norm_cast
    omega
  · rw [Bool.eq_iff_iff]
    simp only [wordFits, wordVal, BitVec.saddOverflow, if_true, Bool.not_eq_true', decide_eq_false_iff_not, Bool.or_eq_true, decide_eq_true_eq]
    omega

theorem not_wordFits_sub : (!wordFits s w (wordVal s A - wordVal s B)) = if s then A.ssubOverflow B else A.usubOverflow B := by
  have hA : (A.toNat : Int) < 2 ^ w := mod_cast A.isLt
  cases s
  · rw [Bool.eq_iff_iff]
    simp only [wordFits, wordVal, BitVec.usubOverflow, Bool.false_eq_true, if_false, Bool.not_eq_true', decide_eq_false_iff_not, decide_eq_true_eq]
    omega
  · rw [Bool.eq_iff_iff]
    simp only [wordFits, wordVal, BitVec.ssubOverflow, if_true, Bool.not_eq_true', decide_eq_false_iff_not, Bool.or_eq_true, decide_eq_true_eq]
    omega

theorem not_wordFits_mul : (!wordFits s w (wordVal s A * wordVal s B)) = if s then A.smulOverflow B else A.umulOverflow B := by
  cases s
  · rw [Bool.eq_iff_iff]
    simp only [wordFits, wordVal, BitVec.umulOverflow, Bool.false_eq_true, if_false, Bool.not_eq_true', decide_eq_false_iff_not, decide_eq_true_eq]
    norm_cast
    omega
  · rw [Bool.eq_iff_iff]
    simp only [wordFits, wordVal, BitVec.smulOverflow, if_true, Bool.not_eq_true', decide_eq_false_iff_not, Bool.or_eq_true, decide_eq_true_eq]
    omega

/-- The least word is the only one whose negation does not fit (R145). -/
theorem eq_intMin_iff (hw : 0 < w) : A = BitVec.intMin w ↔ A.toInt = -2 ^ (w - 1) := by
  rw [← BitVec.toInt_inj, BitVec.toInt_intMin_of_pos hw]

theorem not_wordFits_neg (hw : 0 < w) : (!wordFits true w (-A.toInt)) = (A == BitVec.intMin w) := by
  have hlo := BitVec.le_toInt (x := A)
  have hhi := BitVec.toInt_lt (x := A)
  rw [Bool.eq_iff_iff]
  simp only [wordFits, if_true, Bool.not_eq_true', decide_eq_false_iff_not, beq_iff_eq, eq_intMin_iff A hw]
  omega

theorem not_wordFits_abs (hw : 0 < w) : (!wordFits true w A.toInt.natAbs) = (A == BitVec.intMin w) := by
  have hlo := BitVec.le_toInt (x := A)
  have hhi := BitVec.toInt_lt (x := A)
  rw [Bool.eq_iff_iff]
  simp only [wordFits, if_true, Bool.not_eq_true', decide_eq_false_iff_not, beq_iff_eq, eq_intMin_iff A hw]
  omega

theorem ofInt_natAbs : BitVec.ofInt w A.toInt.natAbs = A.abs := by
  unfold BitVec.abs
  by_cases h : A.msb = true
  · have : A.toInt < 0 := BitVec.toInt_neg_of_msb_true h
    rw [if_pos h, show (A.toInt.natAbs : Int) = -A.toInt by omega, BitVec.ofInt_neg, BitVec.ofInt_toInt]
    rfl
  · have : 0 ≤ A.toInt := BitVec.toInt_nonneg_of_msb_false (by simpa using h)
    rw [if_neg h, show (A.toInt.natAbs : Int) = A.toInt by omega, BitVec.ofInt_toInt]

/-! Products and quotients. -/

theorem emod_mul_self_ediv (v m : Int) (hm : m ≠ 0) : v % (m * m) / m % m = v / m % m := by
  rw [Int.emod_def v, show v - m * m * (v / (m * m)) = v + m * (-(m * (v / (m * m)))) by rw [Int.mul_neg, Int.mul_assoc, Int.sub_eq_add_neg], Int.add_mul_ediv_left _ _ hm,
    show v / m + -(m * (v / (m * m))) = v / m + m * -(v / (m * m)) by rw [Int.mul_neg], Int.add_mul_emod_self_left]

/-- The high half of the product of the operands at twice the width. -/
theorem ofInt_mul_ediv : BitVec.ofInt w (wordVal s A * wordVal s B / 2 ^ w) =
    (if s then A.signExtend (2 * w) * B.signExtend (2 * w) else A.zeroExtend (2 * w) * B.zeroExtend (2 * w)).extractLsb' w w := by
  have hprod : (if s then A.signExtend (2 * w) * B.signExtend (2 * w) else A.zeroExtend (2 * w) * B.zeroExtend (2 * w)) =
      BitVec.ofInt (2 * w) (wordVal s A * wordVal s B) := by
    rw [BitVec.ofInt_mul]
    cases s
    · simp only [wordVal, Bool.false_eq_true, if_false, BitVec.ofInt_natCast, BitVec.ofNat_toNat, BitVec.zeroExtend]
    · rfl
  have hpow : (2 : Int) ^ (2 * w) = 2 ^ w * 2 ^ w := by rw [Nat.two_mul, Int.pow_add]
  rw [hprod]
  apply BitVec.eq_of_toNat_eq
  apply Int.ofNat_inj.1
  rw [BitVec.extractLsb'_toNat, BitVec.toNat_ofInt, BitVec.toNat_ofInt, Nat.shiftRight_eq_div_pow]
  push_cast
  rw [Int.toNat_of_nonneg (Int.emod_nonneg _ (Int.pow_ne_zero (by decide))), Int.toNat_of_nonneg (Int.emod_nonneg _ (Int.pow_ne_zero (by decide))), hpow,
    emod_mul_self_ediv _ _ (Int.pow_ne_zero (by decide))]

theorem wordVal_eq_zero : wordVal s B = 0 ↔ B = 0 := by
  have h0 : wordVal s (0 : BitVec w) = 0 := by cases s <;> simp [wordVal]
  rw [← h0, wordVal_inj]

theorem ofInt_neg_one : BitVec.ofInt w (-1) = BitVec.allOnes w := by
  rw [BitVec.ofInt_neg, ← BitVec.neg_one_eq_allOnes]
  rfl

theorem ofInt_tdiv : BitVec.ofInt w ((wordVal s A).tdiv (wordVal s B)) = if s then A.sdiv B else A.udiv B := by
  cases s
  · exact ofInt_wordVal false (A.udiv B)
  · apply BitVec.eq_of_toInt_eq
    simp only [wordVal, if_true, BitVec.toInt_ofInt, BitVec.toInt_sdiv]

theorem ofInt_tmod : BitVec.ofInt w ((wordVal s A).tmod (wordVal s B)) = if s then A.srem B else A.umod B := by
  cases s
  · exact ofInt_wordVal false (A.umod B)
  · simp only [wordVal, if_true, ← BitVec.toInt_srem, BitVec.ofInt_toInt]

/-- Only the least word by -1 has a quotient that does not fit (R146). -/
theorem not_wordFits_tdiv (hw : 0 < w) :
    (!wordFits s w ((wordVal s A).tdiv (wordVal s B))) = (s && A == BitVec.intMin w && B == BitVec.allOnes w) := by
  cases s
  · have hle : A.toNat / B.toNat < 2 ^ w := Nat.lt_of_le_of_lt (Nat.div_le_self _ _) A.isLt
    have htdiv : ((A.toNat : Int).tdiv B.toNat) = ((A.toNat / B.toNat : Nat) : Int) := rfl
    simp only [wordFits, wordVal, Bool.false_eq_true, if_false, htdiv, Bool.false_and, Bool.not_eq_false', decide_eq_true_eq]
    exact ⟨Int.natCast_nonneg _, mod_cast hle⟩
  · simp only [wordVal, if_true, Bool.true_and]
    by_cases hB : B = BitVec.allOnes w
    · have h1 : B.toInt = -1 := by rw [hB, BitVec.toInt_allOnes, if_pos hw]
      rw [h1, Int.tdiv_neg, Int.tdiv_one, not_wordFits_neg A hw, hB]
      simp
    · have hq := BitVec.toInt_sdiv_of_ne_or_ne A B (Or.inr (by rwa [BitVec.neg_one_eq_allOnes]))
      have hlo := BitVec.le_toInt (x := A.sdiv B)
      have hhi := BitVec.toInt_lt (x := A.sdiv B)
      rw [← hq]
      simp [wordFits, hB, hlo, hhi]

/-! Shifts and counts of bits. -/

/-- An arithmetic shift fills with the sign bit (R147). -/
theorem toNat_sshiftRight_eq (n : Nat) :
    (A.sshiftRight n).toNat =
      if 2 ^ (w - 1) ≤ A.toNat then A.toNat / 2 ^ min n w + (2 ^ w - 2 ^ (w - min n w)) else A.toNat / 2 ^ min n w := by
  have hA := A.isLt
  rw [BitVec.toNat_sshiftRight, BitVec.msb_eq_decide]
  simp only [decide_eq_true_eq, Nat.shiftRight_eq_div_pow]
  by_cases hn : n < w
  · rw [Nat.min_eq_left (Nat.le_of_lt hn)]
    have hpow : 2 ^ n * 2 ^ (w - n) = 2 ^ w := by rw [← Nat.pow_add, Nat.add_sub_cancel' (Nat.le_of_lt hn)]
    split
    · have hdiv := Nat.mul_sub_div A.toNat (2 ^ n) (2 ^ (w - n)) (by omega)
      have hq : A.toNat / 2 ^ n < 2 ^ (w - n) := Nat.div_lt_of_lt_mul (by omega)
      have hle : 2 ^ (w - n) ≤ 2 ^ w := Nat.pow_le_pow_right (by omega) (by omega)
      rw [hpow] at hdiv
      rw [show 2 ^ w - 1 - A.toNat = 2 ^ w - (A.toNat + 1) by omega, hdiv]
      generalize A.toNat / 2 ^ n = q at *
      generalize 2 ^ (w - n) = p at *
      omega
    · rfl
  · have hpow : 2 ^ w ≤ 2 ^ n := Nat.pow_le_pow_right (by omega) (by omega)
    rw [Nat.min_eq_right (by omega), Nat.div_eq_of_lt hA, Nat.div_eq_of_lt (show 2 ^ w - 1 - A.toNat < 2 ^ n by omega),
      Nat.div_eq_of_lt (show A.toNat < 2 ^ n by omega), Nat.sub_self]
    split <;> simp

theorem bitLen_toNat (hw : 0 < w) : w - bitLen A.toNat = A.clz.toNat := by
  by_cases h : A = 0#w
  · have := BitVec.clz_eq_iff_eq_zero.mpr h
    rw [this, h]
    simp [bitLen]
  · have hlo := BitVec.two_pow_sub_clz_le_toNat_of_ne_zero hw h
    have hhi := BitVec.toNat_lt_two_pow_sub_clz (x := A)
    have hclz := BitVec.clz_lt_iff_ne_zero.mpr h
    have h0 : A.toNat ≠ 0 := fun h0 => h (BitVec.eq_of_toNat_eq (by simpa using h0))
    have hlt : A.clz.toNat < w := by simpa [BitVec.lt_def] using hclz
    have hlog : Nat.log2 A.toNat = w - 1 - A.clz.toNat :=
      (Nat.log2_eq_iff h0).mpr ⟨hlo, by rwa [show w - 1 - A.clz.toNat + 1 = w - A.clz.toNat by omega]⟩
    rw [bitLen, if_neg h0, hlog]
    omega

end Words

/-- The count stops at the first set bit, or at the width. -/
theorem trailing_eq {n : Nat} : ∀ (k m i : Nat), m ≤ k → (∀ j < m, n.testBit (i + j) = false) → (m < k → n.testBit (i + m) = true) →
    trailing n i k = i + m
  | 0, m, i, hm, _, _ => by
    obtain rfl : m = 0 := by omega
    rfl
  | k + 1, 0, i, _, _, hset => by
    have : n.testBit i = true := hset (by omega)
    rw [trailing, if_pos this, Nat.add_zero]
  | k + 1, m + 1, i, hm, hclear, hset => by
    have h0 : n.testBit i = false := hclear 0 (by omega)
    rw [trailing, h0, if_neg Bool.false_ne_true, trailing_eq k m (i + 1) (by omega) (fun j hj => ?_) (fun hlt => ?_)]
    · omega
    · rw [← hclear (j + 1) (by omega)]; congr 1; omega
    · rw [← hset (by omega)]; congr 1; omega

theorem toNat_ctz_le {w : Nat} (A : BitVec w) : A.ctz.toNat ≤ w := by
  simpa [BitVec.le_def, BitVec.ctz_eq_reverse_clz] using BitVec.clz_le (x := A.reverse)

theorem trailing_toNat {w : Nat} (A : BitVec w) : trailing A.toNat 0 w = A.ctz.toNat := by
  have hle := toNat_ctz_le A
  rw [trailing_eq w A.ctz.toNat 0 hle (fun j hj => ?_) (fun hlt => ?_), Nat.zero_add]
  · rw [Nat.zero_add]
    exact BitVec.getLsbD_false_of_lt_ctz hj
  · rw [Nat.zero_add]
    exact BitVec.getLsbD_true_ctz_of_ne_zero (BitVec.ctz_lt_iff_ne_zero.mp (by simpa [BitVec.lt_def] using hlt))

theorem popCount_eq (a : Nat) {w : Nat} : ∀ k ≤ w, popCount a k = (BitVec.ofNat w a).cpopNatRec k 0
  | 0, _ => rfl
  | k + 1, h => by
    have hbit : (BitVec.ofNat w a).getLsbD k = a.testBit k := by
      rw [BitVec.getLsbD_ofNat, decide_eq_true (show k < w by omega), Bool.true_and]
    rw [popCount, BitVec.cpopNatRec_succ, BitVec.cpopNatRec_eq, popCount_eq (w := w) a k (by omega), hbit]
    cases a.testBit k <;> simp [Nat.add_comm 1]

/-! ### Each operation hands on its word -/

section Ops
variable {ty : Nat} (h : ty < 4) (a b : Nat)
include h

/-- An exact result and its overflow flag. -/
theorem iExact_eq (v : Int) {r : BitVec (iWidth ty)} {ov : Bool} (hr : BitVec.ofInt (iWidth ty) v = r)
    (hov : (!wordFits (iSigned ty) (iWidth ty) v) = ov) :
    iExact ty v = ((wordExt (iSigned ty) r).toNat, (if ov then flOF else 0) ||| (if false then flDZ else 0)) := by
  rw [iExact, iWrap_eq h, hr, ← hov, iFits_eq_wordFits]
  cases wordFits (iSigned ty) (iWidth ty) v <;> simp

/-- A small number is its own extension. -/
theorem wordExt_small {n : Nat} (hn : n ≤ 64) : (wordExt (iSigned ty) (BitVec.ofNat (iWidth ty) n)).toNat = n := by
  have hmod : n % 2 ^ iWidth ty = n := Nat.mod_eq_of_lt (by rcases iWidth_cases ty with hw | hw <;> rw [hw] <;> omega)
  rw [← iExt_toNat h, BitVec.toNat_ofNat, hmod, iExt, if_neg (by omega)]

/-- A word of the result without flags. -/
theorem iExt_eq_word {n : Nat} {r : BitVec (iWidth ty)} (hr : n = r.toNat) :
    (iExt ty n, (0 : BitVec 5)) = ((wordExt (iSigned ty) r).toNat, (if false then flOF else 0) ||| (if false then flDZ else 0)) := by
  rw [hr, iExt_toNat h]
  rfl

theorem iWrap_eq_word {v : Int} {r : BitVec (iWidth ty)} (hr : BitVec.ofInt (iWidth ty) v = r) :
    (iWrap ty v, (0 : BitVec 5)) = ((wordExt (iSigned ty) r).toNat, (if false then flOF else 0) ||| (if false then flDZ else 0)) := by
  rw [← hr, iWrap_eq h]
  rfl

/-- A count of bits of the width. -/
theorem count_eq_word {n : Nat} {r : BitVec (iWidth ty)} (hr : n = r.toNat) (hle : n ≤ iWidth ty) :
    (n, (0 : BitVec 5)) = ((wordExt (iSigned ty) r).toNat, (if false then flOF else 0) ||| (if false then flDZ else 0)) := by
  have hw : iWidth ty ≤ 64 := by rcases iWidth_cases ty with hw | hw <;> omega
  have hsmall := wordExt_small h (Nat.le_trans hle hw)
  rw [hr, BitVec.ofNat_toNat, BitVec.setWidth_eq] at hsmall
  rw [hsmall, hr]
  rfl

/-- A comparison hands on 1 or 0. -/
theorem iCmp_eq_word {p q : Bool} (hpq : p = q) :
    (iCmp p, (0 : BitVec 5)) =
      ((wordExt (iSigned ty) (if q then 1 else 0 : BitVec (iWidth ty))).toNat, (if false then flOF else 0) ||| (if false then flDZ else 0)) := by
  subst hpq
  cases p
  · exact Prod.ext (wordExt_small h (n := 0) (by omega)).symm rfl
  · exact Prod.ext (wordExt_small h (n := 1) (by omega)).symm rfl

end Ops

/-- What the statement's word operation hands on. -/
def wordResult (o ty : Nat) (A B : BitVec (iWidth ty)) : Nat × BitVec 5 :=
  ((wordExt (iSigned ty) (intWord o (iSigned ty) A B).1).toNat,
    (if (intWord o (iSigned ty) A B).2.1 then flOF else 0) ||| (if (intWord o (iSigned ty) A B).2.2 then flDZ else 0))

theorem wordResult_eq_intSpec {ty : Nat} (h : ty < 4) (o a b : Nat) :
    wordResult o ty (BitVec.ofNat (iWidth ty) a) (BitVec.ofNat (iWidth ty) b) = ((intSpec o ty a b).1.toNat, (intSpec o ty a b).2) := by
  rw [intSpec_eq h]
  rfl

section OpsOfWords
variable {ty : Nat} (h : ty < 4) {a b : Nat} {A B : BitVec (iWidth ty)} (hA : BitVec.ofNat (iWidth ty) a = A) (hB : BitVec.ofNat (iWidth ty) b = B)
include h hA hB

/-- Division by 0 gives all ones and DZ, a quotient that does not fit OF (R146). -/
theorem iDiv_eq_word : iDiv ty a b = wordResult 0x00A ty A B := by
  simp only [iDiv, wordResult, intWord, iVal_eq_wordVal, hA, hB, wordVal_eq_zero]
  split
  · rw [iWrap_eq h, ofInt_neg_one]
    simp
  · exact iExact_eq h _ (ofInt_tdiv ..) (not_wordFits_tdiv _ A B (iWidth_pos ty))

/-- The remainder by 0 is the dividend, with DZ (R146). -/
theorem iRem_eq_word : iRem ty a b = wordResult 0x00B ty A B := by
  simp only [iRem, wordResult, intWord, iVal_eq_wordVal, hA, hB, wordVal_eq_zero]
  split
  · rw [iWrap_eq h, ofInt_wordVal]
    simp
  · rw [iWrap_eq h, ofInt_tmod, ← not_wordFits_tdiv _ A B (iWidth_pos ty), iFits_eq_wordFits]
    cases wordFits (iSigned ty) (iWidth ty) ((wordVal (iSigned ty) A).tdiv (wordVal (iSigned ty) B)) <;> simp

/-- Arithmetic (R145, R146). -/
theorem intOp_eq_word_arith {o : Nat} (ho : o ∈ [0x000, 0x001, 0x002, 0x003, 0x004, 0x005, 0x006, 0x008, 0x009, 0x00A, 0x00B])
    (hs : o = 3 ∨ o = 4 → iSigned ty = true) : intOp o ty a b = wordResult o ty A B := by
  have hx : iVal ty a = wordVal (iSigned ty) A := by rw [iVal_eq_wordVal, hA]
  have hy : iVal ty b = wordVal (iSigned ty) B := by rw [iVal_eq_wordVal, hB]
  simp only [List.mem_cons, List.not_mem_nil, or_false] at ho
  rcases ho with rfl | rfl | rfl | rfl | rfl | rfl | rfl | rfl | rfl | rfl | rfl
  · exact iExt_eq_word h (by rw [iBits_eq_toNat, hA]; rfl)
  · exact iExact_eq h _ (by rw [hx, hy]; exact ofInt_wordVal_add ..) (by rw [hx, hy]; exact not_wordFits_add ..)
  · exact iExact_eq h _ (by rw [hx, hy]; exact ofInt_wordVal_sub ..) (by rw [hx, hy]; exact not_wordFits_sub ..)
  · have hsig := hs (.inl rfl)
    exact iExact_eq h _ (by rw [hx]; exact ofInt_wordVal_neg ..) (by rw [hx, hsig]; exact not_wordFits_neg A (iWidth_pos ty))
  · have hsig := hs (.inr rfl)
    exact iExact_eq h _ (by rw [hx, hsig]; exact ofInt_natAbs A) (by rw [hx, hsig]; exact not_wordFits_abs A (iWidth_pos ty))
  · exact iWrap_eq_word h (by rw [hx, hy]; exact ofInt_wordVal_min ..)
  · exact iWrap_eq_word h (by rw [hx, hy]; exact ofInt_wordVal_max ..)
  · exact iExact_eq h _ (by rw [hx, hy]; exact ofInt_wordVal_mul ..) (by rw [hx, hy]; exact not_wordFits_mul ..)
  · exact iWrap_eq_word h (by rw [hx, hy]; exact ofInt_mul_ediv ..)
  · exact iDiv_eq_word h hA hB
  · exact iRem_eq_word h hA hB

omit h in
/-- A shift by the width or more leaves no bit (R147). -/
theorem iShl_eq : (iShl ty a b, (0 : BitVec 5)) = (iExt ty (if iWidth ty ≤ B.toNat then 0 else A <<< B.toNat).toNat, 0) := by
  rw [iShl, iBits_eq_toNat, iBits_eq_toNat, hA, hB]
  split
  · simp [iExt]
  · rw [BitVec.toNat_shiftLeft, Nat.shiftLeft_eq]

omit h in
theorem iShr_eq : (iShr ty a b, (0 : BitVec 5)) = (iExt ty (if iWidth ty ≤ B.toNat then 0 else A >>> B.toNat).toNat, 0) := by
  rw [iShr, iBits_eq_toNat, iBits_eq_toNat, hA, hB]
  split
  · simp [iExt]
  · rw [BitVec.toNat_ushiftRight, Nat.shiftRight_eq_div_pow]

/-- Logic, shifts and counts of bits (R147). -/
theorem intOp_eq_word_bits {o : Nat} (ho : o ∈ [0x010, 0x011, 0x012, 0x013, 0x014, 0x018, 0x019, 0x01A, 0x01C, 0x01D, 0x01E]) :
    intOp o ty a b = wordResult o ty A B := by
  have hx : iBits ty a = A.toNat := by rw [iBits_eq_toNat, hA]
  have hy : iBits ty b = B.toNat := by rw [iBits_eq_toNat, hB]
  have hnot : 2 ^ iWidth ty - 1 - B.toNat = (~~~B).toNat := (BitVec.toNat_not ..).symm
  have hpop : iPopc ty a = A.cpop.toNat := by rw [iPopc, popCount_eq a (iWidth ty) (Nat.le_refl _), hA, BitVec.toNat_cpop]
  simp only [List.mem_cons, List.not_mem_nil, or_false] at ho
  rcases ho with rfl | rfl | rfl | rfl | rfl | rfl | rfl | rfl | rfl | rfl | rfl
  · exact iExt_eq_word h (by rw [hx, hy]; exact (BitVec.toNat_and ..).symm)
  · exact iExt_eq_word h (by rw [hx, hy]; exact (BitVec.toNat_or ..).symm)
  · exact iExt_eq_word h (by rw [hx, hy]; exact (BitVec.toNat_xor ..).symm)
  · exact iExt_eq_word h (by rw [hx]; exact (BitVec.toNat_not ..).symm)
  · exact iExt_eq_word h (by rw [hx, hy, hnot]; exact (BitVec.toNat_and ..).symm)
  · exact (iShl_eq hA hB).trans (iExt_eq_word h rfl)
  · exact (iShr_eq hA hB).trans (iExt_eq_word h rfl)
  · exact iExt_eq_word h (by rw [hx, hy]; exact (toNat_sshiftRight_eq A B.toNat).symm)
  · exact count_eq_word h (by rw [iClz, hx]; exact bitLen_toNat A (iWidth_pos ty)) (Nat.sub_le ..)
  · exact count_eq_word h (by rw [iCtz, hx]; exact trailing_toNat A) (by rw [iCtz, hx, trailing_toNat]; exact toNat_ctz_le A)
  · exact count_eq_word h hpop (by rw [hpop]; exact BitVec.toNat_cpop_le A)

/-- Comparisons (R145). -/
theorem intOp_eq_word_compare {o : Nat} (ho : o ∈ [0x020, 0x021, 0x022, 0x023, 0x024, 0x025]) : intOp o ty a b = wordResult o ty A B := by
  have hx : iVal ty a = wordVal (iSigned ty) A := by rw [iVal_eq_wordVal, hA]
  have hy : iVal ty b = wordVal (iSigned ty) B := by rw [iVal_eq_wordVal, hB]
  have heq : (wordVal (iSigned ty) A == wordVal (iSigned ty) B) = (A == B) := by
    rw [Bool.eq_iff_iff, beq_iff_eq, beq_iff_eq, wordVal_inj]
  simp only [List.mem_cons, List.not_mem_nil, or_false] at ho
  rcases ho with rfl | rfl | rfl | rfl | rfl | rfl
  · exact iCmp_eq_word h (by rw [hx, hy, heq])
  · exact iCmp_eq_word h (by rw [hx, hy, bne, heq]; rfl)
  · exact iCmp_eq_word h (by rw [hx, hy, wordVal_lt])
  · exact iCmp_eq_word h (by rw [hx, hy, wordVal_le])
  · exact iCmp_eq_word h (by rw [hx, hy, wordVal_lt])
  · exact iCmp_eq_word h (by rw [hx, hy, wordVal_le])

end OpsOfWords

/-- The opcodes of the integer operations in three groups, each with TYPE 0 to 3; NEG and ABS with the signed ones (R113). -/
theorem intCommands_opcode {o : Nat} (ho : o ∈ intCommands.map (·.1)) :
    (o ∈ [0x000, 0x001, 0x002, 0x003, 0x004, 0x005, 0x006, 0x008, 0x009, 0x00A, 0x00B] ∨
      o ∈ [0x010, 0x011, 0x012, 0x013, 0x014, 0x018, 0x019, 0x01A, 0x01C, 0x01D, 0x01E] ∨ o ∈ [0x020, 0x021, 0x022, 0x023, 0x024, 0x025]) ∧
    (∀ ty ∈ opTypes o, ty < 4 ∧ (o = 3 ∨ o = 4 → iSigned ty = true)) ∧ o < 0x100 := by
  revert o
  decide

/-- The model's integer operation is the word operation of the statement, for every opcode and each TYPE it accepts (R113, R145 to R147). -/
theorem intOp_eq_intSpec {o ty : Nat} (ho : o ∈ intCommands.map (·.1)) (hty : ty ∈ opTypes o) (a b : Nat) :
    intOp o ty a b = ((intSpec o ty a b).1.toNat, (intSpec o ty a b).2) := by
  obtain ⟨hgroup, htypes, -⟩ := intCommands_opcode ho
  obtain ⟨h, hsig⟩ := htypes ty hty
  rw [← wordResult_eq_intSpec h]
  rcases hgroup with ho | ho | ho
  · exact intOp_eq_word_arith h rfl rfl ho hsig
  · exact intOp_eq_word_bits h rfl rfl ho
  · exact intOp_eq_word_compare h rfl rfl ho

/-- An executable descriptor has a TYPE that its opcode accepts (R133). -/
theorem dType_mem_opTypes {d : Dev} {k o : Nat} {f : Firing} {desc : BitVec 128} {ext : List (BitVec 128)} (h : d.firesAt k o f desc ext) :
    dType desc ∈ opTypes o := by
  obtain ⟨-, rfl, hok⟩ := h
  simp only [descOk, Bool.and_eq_true, List.contains_iff_mem, and_assoc] at hok
  obtain ⟨-, -, -, -, htype, -⟩ := hok
  exact htype

theorem divTime_pos (ty a b : Nat) (ct : Bool) : 1 ≤ divTime ty a b ct := by
  unfold divTime
  dsimp only
  split
  · omega
  · split <;> omega

/-- Settles O17: each integer operation of the model is the word operation of the statement. -/
theorem integerResultsAreExact : Obligations.IntegerResultsAreExact := by
  intro c hc g t f s fr desc ext hfires hclean
  have ho : c.1 ∈ intCommands.map (·.1) := List.mem_map_of_mem hc
  have hval := intOp_eq_intSpec ho (dType_mem_opTypes hfires) (operand fr desc 0) (operand fr desc 1)
  have hlow : c.1 < 0x100 := (intCommands_opcode ho).2.2
  have hlat : 1 ≤ (arithRes c.1 fr desc).lat ∧ 1 ≤ (arithRes c.1 fr desc).occ := by
    simp only [arithRes, hlow, if_true, intRes]
    split <;> simp [divTime_pos]
  refine ⟨_, _, hlat.1, hlat.2, ?_⟩
  rw [exec_of_firesAt (List.mem_append_left _ hc) hfires hclean]
  congr 3
  simp only [Dev.arithResult, arithRes, hlow, if_true, intRes, hval]

end Sys2Proof.Machine

/-! ### Every command goes on, and only SECVER of the fuses can rise (R510, R511, R515) -/

namespace Sys2Proof.Machine

/-- The outcome is a next state with the same waiting queue, whose fuses are the same but for a SECVER that is no lower. -/
def KeepsFuses (s : State) (o : Host.Outcome State Fault Refusal) : Prop :=
  ∃ t : State, o = .next t ∧ t.pending = s.pending ∧ s.fuses.secver ≤ t.fuses.secver ∧ t.fuses = { s.fuses with secver := t.fuses.secver }

/-- A command that acts on the device leaves the fuses alone. -/
theorem keepsFuses_dev (s : State) (d : Dev) : KeepsFuses s (.next { s with dev := d }) := ⟨_, rfl, rfl, Nat.le_refl _, rfl⟩

/-- A command that can burn a fuse raises SECVER at most. -/
theorem keepsFuses_put (s : State) (d : Dev) : KeepsFuses s (.next (s.put d)) := by
  refine ⟨_, rfl, rfl, ?_⟩
  by_cases h : d.secMin = s.dev.secMin
  · rw [State.put, if_pos h]
    exact ⟨Nat.le_refl _, rfl⟩
  · rw [State.put, if_neg h]
    exact ⟨Nat.le_max_left _ _, rfl⟩

/-- A core's instruction can write a register, and so burn. -/
theorem keepsFuses_coreDone (s : State) (d : Dev) : KeepsFuses s (coreDone s d) := keepsFuses_put s _

theorem exec_keepsFuses (i : Instr) (s : State) : KeepsFuses s (exec i s) := by
  cases i
  case memoryResponse n u =>
    show KeepsFuses s (execMemoryResponse n u s)
    unfold execMemoryResponse
    split
    · exact keepsFuses_coreDone s _
    · exact keepsFuses_dev s _
  case registerWrite | pairHiWrite | secverBurn | regWrite => exact keepsFuses_put s _
  case rcIntOp | rcFpOp | addi | andi | ori | xori | slti | sltiu | shli | shri | srai | shori | rcLd | lw | lwu | lh | lhu | lb | lbu | sd | sw |
      sh | sb | rcAadd | rcSwap | rcLockrel | emit | bz | bnz | j | jr | rcCall | callr | rcRet | mfs | mts | fence | waitw | mfc | mtc | mbPop |
      eret | wfi | evack | tsend =>
    exact keepsFuses_coreDone s _
  all_goals exact keepsFuses_dev s _

/-- Settles O3: `exec_keepsFuses` names the next state of each command. -/
theorem everyCommandGoesOn : Obligations.EveryCommandGoesOn := fun c s =>
  let ⟨t, ht, hpending, _⟩ := exec_keepsFuses c s
  ⟨t, ht, hpending⟩

/-- Settles O59: a tick leaves the fuses alone, and every command keeps all but SECVER. -/
theorem fusesOnlyBurnSecver : Obligations.FusesOnlyBurnSecver := by
  intro f s s' hf hle hstep
  cases hq : s.pending with
  | nil =>
    simp only [Machine.step, hq, Host.Outcome.next.injEq] at hstep
    subst hstep
    exact ⟨hf, hle⟩
  | cons c cs =>
    obtain ⟨t, ht, -, hrise, hsame⟩ := exec_keepsFuses c { s with pending := cs }
    simp only [Machine.step, hq, ht, Host.Outcome.next.injEq] at hstep
    subst hstep
    refine ⟨?_, Nat.le_trans hle hrise⟩
    rw [hsame, hf]

/-! ### The queue and the idle step (R428, R477) -/

/-- Settles O1: it is the step's second case. -/
theorem stepRunsFrontCommand : Obligations.StepRunsFrontCommand := fun _ _ _ => rfl

theorem step_idle {s : State} (h : s.pending = []) : Machine.step s = .next (s.withDev s.dev.tick) := by
  simp only [Machine.step, h, State.withDev]

theorem tick_of_coldReset {d : Dev} (h : d.inColdReset) : d.tick = d := if_pos h

/-- Device time as one number, with its fraction below. -/
theorem tick_of_running {d : Dev} (h : ¬ d.inColdReset) : d.tick =
    { d with
      time := BitVec.ofNat 64 ((((d.time.toNat * 2 ^ 32 + d.frac.toNat : Nat) + (2 ^ 32 + max (-2147484) (min 2147484 (d.reg (ptpReg 0x10)).toInt)) : Int)).toNat / 2 ^ 32)
      frac := BitVec.ofNat 32 (((d.time.toNat * 2 ^ 32 + d.frac.toNat : Nat) + (2 ^ 32 + max (-2147484) (min 2147484 (d.reg (ptpReg 0x10)).toInt)) : Int)).toNat } :=
  if_neg h

/-- Without adjustment a tick is one nanosecond, and the fraction stands. -/
theorem tick_of_no_adj {d : Dev} (h : ¬ d.inColdReset) (hadj : d.reg (ptpReg 0x10) = 0) : d.tick = { d with time := d.time + 1 } := by
  have hf := d.frac.isLt
  have hn : (((d.time.toNat * 2 ^ 32 + d.frac.toNat : Nat) + (2 ^ 32 + max (-2147484) (min 2147484 (0 : Int))) : Int)).toNat =
      (d.time.toNat + 1) * 2 ^ 32 + d.frac.toNat := by omega
  have htime : BitVec.ofNat 64 (d.time.toNat + 1) = d.time + 1 := by
    apply BitVec.eq_of_toNat_eq; simp [BitVec.toNat_add]
  have hfrac : BitVec.ofNat 32 ((d.time.toNat + 1) * 2 ^ 32 + d.frac.toNat) = d.frac := by
    apply BitVec.eq_of_toNat_eq
    rw [BitVec.toNat_ofNat]
    omega
  rw [tick_of_running h, hadj, show ((0 : W32).toInt) = 0 from rfl, hn, hfrac, show ((d.time.toNat + 1) * 2 ^ 32 + d.frac.toNat) / 2 ^ 32 = d.time.toNat + 1 by omega, htime]

/-- Settles O2: `tick` changes time and fraction alone. -/
theorem idleStepIsOneTick : Obligations.IdleStepIsOneTick := by
  refine ⟨fun s h => ?_, fun s h hc hadj => by rw [step_idle h, tick_of_no_adj hc hadj], fun s h hc => by rw [step_idle h, tick_of_coldReset hc]; rfl⟩
  by_cases hc : s.dev.inColdReset
  · exact ⟨s.dev.time, s.dev.frac, by rw [step_idle h, tick_of_coldReset hc]⟩
  · exact ⟨_, _, by rw [step_idle h, tick_of_running hc]⟩

/-- Settles O60: the values that `State.reset` and `Dev.init` list. -/
theorem resetStateIsColdReset : Obligations.ResetStateIsColdReset :=
  ⟨rfl, ⟨by decide, rfl⟩, rfl, rfl, rfl, rfl, rfl, rfl, rfl, rfl, rfl, rfl, rfl, rfl, rfl, rfl, rfl, rfl, rfl, List.Pairwise.nil,
    fun _ => rfl, fun _ => rfl, rfl, Nat.le_refl _⟩

end Sys2Proof.Machine

/-! ### Register writes by the access codes, and pairs (R9, R10, R13) -/

namespace Sys2Proof.Machine

/-- A device with the same burnt SECVER leaves the fuses alone. -/
theorem put_of_secMin {s : State} {d : Dev} (h : d.secMin = s.dev.secMin) : s.put d = s.withDev d := by
  simp only [State.put, h, if_true, State.withDev]

theorem put_self (s : State) : s.put s.dev = s := put_of_secMin rfl

@[simp] theorem withDev_self (s : State) : s.withDev s.dev = s := rfl

theorem exec_registerWrite (a : BitVec 48) (v : W32) (s : State) : exec (.registerWrite a v) s = .next (s.put (s.dev.regWrite s.fuses a.toNat v)) := rfl

theorem exec_pairHiWrite (a : BitVec 48) (v : W32) (s : State) : exec (.pairHiWrite a v) s = exec (.registerWrite a v) s := rfl

theorem exec_pairLoRead (a : BitVec 48) (s : State) : exec (.pairLoRead a) s = .next (s.withDev (s.dev.regRead s.fuses a.toNat).2) := rfl

theorem exec_registerWrite_unimplemented {a : BitVec 48} (v : W32) (s : State) (h : regAt a.toNat = none) : exec (.registerWrite a v) s = .next s := by
  rw [exec_registerWrite, Dev.regWrite, h, put_self]

theorem exec_registerWrite_inReset {a : BitVec 48} (v : W32) {s : State} {l : RegLoc} (hl : regAt a.toNat = some l)
    (h : s.dev.heldInReset l a.toNat = true) : exec (.registerWrite a v) s = .next s := by
  rw [exec_registerWrite, Dev.regWrite, hl]
  simp only [h, if_true, put_self]

/-- A register without a write behaviour of its own (R13). -/
theorem exec_registerWrite_plain {a : BitVec 48} (v : W32) {s : State} {l : RegLoc} (hl : regAt a.toNat = some l) (hp : plainRegister l)
    (hw : s.dev.writable l a.toNat) : exec (.registerWrite a v) s = .next (s.put (s.dev.plainWrite l a.toNat v)) := by
  rw [exec_registerWrite, regWrite_plain _ _ _ _ l hl hp hw]

/-- What a write leaves at the key of a register: the value that its access codes give. -/
def Dev.accessPut (d : Dev) (l : RegLoc) (boot : Bool) (k : Nat) (v : W32) : Dev :=
  d.setReg k (accessWrite { l.spec with rw := l.spec.rw ||| l.spec.wo } boot (d.reg k) v)

theorem accessPut_bit {d : Dev} (l : RegLoc) (boot : Bool) (k : Nat) (v : W32) (h : keysRise d.regs) {i : Nat} (hi : i < 32) :
    ((d.accessPut l boot k v).reg k).getLsbD i = bitWritten l boot (d.reg k) v i := by
  rw [Dev.accessPut, reg_setReg_same d k _ h, accessWrite_bit l boot _ v i hi]

theorem accessPut_other {d : Dev} (l : RegLoc) (boot : Bool) {k b : Nat} (v : W32) (h : keysRise d.regs) (hb : b ≠ k) :
    (d.accessPut l boot k v).reg b = d.reg b := reg_setReg_other d k b _ h hb

theorem keysRise_accessPut {d : Dev} (l : RegLoc) (boot : Bool) (k : Nat) (v : W32) (h : keysRise d.regs) :
    keysRise (d.accessPut l boot k v).regs := keysRise_setReg d k _ h

/-- The device without a held write of a low half. -/
def Dev.dropHeld (d : Dev) (lo : Nat) : Dev := { d with loHeld := mdel d.loHeld lo }

theorem plainWrite_single {d : Dev} {l : RegLoc} (a : Nat) (v : W32) (hlo : l.isLo = false) (hhi : l.isHi = false) :
    d.plainWrite l a v = d.accessPut l (d.bootOpen l) (d.regKey l a) v := by
  simp only [Dev.plainWrite, hlo, hhi, Bool.false_eq_true, if_false, Dev.accessPut, Dev.bootOpen]

theorem plainWrite_lo {d : Dev} {l : RegLoc} (a : Nat) (v : W32) (hlo : l.isLo = true) (h : l.spec.rw ||| l.spec.rwb ||| l.spec.wo ≠ 0) :
    d.plainWrite l a v = { d with loHeld := mput d.loHeld a v } := by
  simp only [Dev.plainWrite, hlo, if_true, h, if_false, Dev.holdLo]

theorem plainWrite_hi_held {d : Dev} {l lo : RegLoc} {a : Nat} (v : W32) {x : W32} (hlo : l.isLo = false) (hhi : l.isHi = true)
    (hreg : regAt (a - 4) = some lo) (hx : (d.loHeld.find? (fun c => c.1 == a - 4)).map (·.2) = some x) :
    d.plainWrite l a v =
      ((d.dropHeld (a - 4)).accessPut lo (d.bootOpen l) (d.regKey l a - 4) x).accessPut l (d.bootOpen l) (d.regKey l a) v := by
  simp only [Dev.plainWrite, hlo, hhi, Bool.false_eq_true, if_false, if_true, hx, hreg, Dev.accessPut, Dev.bootOpen, Dev.dropHeld]

theorem plainWrite_hi_alone {d : Dev} {l : RegLoc} {a : Nat} (v : W32) (hlo : l.isLo = false) (hhi : l.isHi = true)
    (hx : d.loHeld.find? (fun c => c.1 == a - 4) = none) :
    d.plainWrite l a v = (d.dropHeld (a - 4)).accessPut l (d.bootOpen l) (d.regKey l a) v := by
  simp only [Dev.plainWrite, hlo, hhi, Bool.false_eq_true, if_false, if_true, hx, Option.map_none, Dev.accessPut, Dev.bootOpen, Dev.dropHeld]

/-- Settles O4: `plainWrite` writes by the access codes; the held, reset and unimplemented cases are those of `regWrite`. -/
theorem registerWriteByAccessCode : Obligations.RegisterWriteByAccessCode := by
  refine ⟨fun a v s l hl hp hw hk hlo hhi => ?_, fun a v s l hl hp hw hlo hspec => ?_, fun a v s l hl h => exec_registerWrite_inReset v hl h,
    fun a v s h => exec_registerWrite_unimplemented v s h⟩
  · rw [exec_registerWrite_plain v hl hp hw, plainWrite_single _ v hlo hhi]
    exact ⟨_, rfl, rfl, rfl, fun b hb => accessPut_other l _ v hk hb, fun i hi => accessPut_bit l _ _ v hk hi⟩
  · rw [exec_registerWrite_plain v hl hp hw, plainWrite_lo _ v hlo hspec, put_of_secMin]
    rfl

/-- The entry written is the first with its key. -/
theorem find?_mput_same {α : Type} (k : Nat) (v : α) : ∀ m : SMap α, (mput m k v).find? (fun c => c.1 == k) = some (k, v)
  | [] => by simp [mput]
  | (i, w) :: m => by
    by_cases h : i = k
    · simp [mput, h]
    · by_cases h' : k < i
      · simp [mput, h, h']
      · simp [mput, h, h', find?_mput_same k v m]

theorem regRead_lo {d : Dev} (f : Fuses) {l h : RegLoc} {a : Nat} (hl : regAt a = some l) (hlo : l.isLo = true) (hh : regAt (a + 4) = some h) :
    d.regRead f a = (d.regValue f l a, { d with hiCap := mput d.hiCap a (d.regValue f h (a + 4)) }) := by
  simp only [Dev.regRead, hl, hlo, if_true, hh]

/-- A _HI half reads as its _LO half's read captured it (R9). -/
theorem regRead_hi_captured {d : Dev} (f : Fuses) {h : RegLoc} {a : Nat} {x : W32} (hh : regAt (a + 4) = some h) (hlo : h.isLo = false) (hhi : h.isHi = true)
    (hc : d.hiCap.find? (fun c => c.1 == a) = some (a, x)) : d.regRead f (a + 4) = (x, d) := by
  simp only [Dev.regRead, hh, hlo, Bool.false_eq_true, if_false, hhi, if_true, Nat.add_sub_cancel, hc, Option.map_some, Option.getD_some]

/-- A table whose keys rise loses the entry of a key and no other. -/
theorem mem_mdel_rise {α : Type} {m : SMap α} {k : Nat} (h : keysRise m) (c : Nat × α) : c ∈ mdel m k ↔ c ∈ m ∧ c.1 ≠ k := by
  induction m with
  | nil => simp [mdel]
  | cons x m ih =>
    obtain ⟨i, v⟩ := x
    obtain ⟨hlt, htail⟩ := List.pairwise_cons.1 h
    have ih := ih htail
    rcases Nat.lt_trichotomy i k with hik | rfl | hik
    · simp only [mdel, Nat.ne_of_lt hik, Nat.lt_asymm hik, if_false, List.mem_cons, ih]
      constructor
      · rintro (rfl | ⟨hm, hne⟩)
        · exact ⟨.inl rfl, Nat.ne_of_lt hik⟩
        · exact ⟨.inr hm, hne⟩
      · rintro ⟨rfl | hm, hne⟩
        · exact .inl rfl
        · exact .inr ⟨hm, hne⟩
    · simp only [mdel, if_true, List.mem_cons]
      constructor
      · exact fun hm => ⟨.inr hm, Nat.ne_of_gt (hlt c hm)⟩
      · rintro ⟨rfl | hm, hne⟩
        · exact absurd rfl hne
        · exact hm
    · simp only [mdel, Nat.ne_of_gt hik, if_false, hik, if_true]
      refine ⟨fun hm => ⟨hm, ?_⟩, fun hm => hm.1⟩
      rcases List.mem_cons.1 hm with rfl | hm
      · exact Nat.ne_of_gt hik
      · exact Nat.ne_of_gt (Nat.lt_trans hik (hlt c hm))

theorem find?_mdel_same {α : Type} {m : SMap α} {k : Nat} (h : keysRise m) : (mdel m k).find? (fun c => c.1 == k) = none := by
  rw [List.find?_eq_none]
  intro c hc
  simpa using ((mem_mdel_rise h c).1 hc).2

/-- Both halves of a pair by their access codes: the high half's write does not reach the low half, nor the other way. -/
theorem accessPut_pair {d : Dev} (l lo : RegLoc) (boot : Bool) {k : Nat} (v x : W32) (h : keysRise d.regs) (hk : 4 ≤ k) :
    (∀ b, b ≠ k → b ≠ k - 4 → ((d.accessPut lo boot (k - 4) x).accessPut l boot k v).reg b = d.reg b) ∧
    ∀ i, i < 32 →
      (((d.accessPut lo boot (k - 4) x).accessPut l boot k v).reg k).getLsbD i = bitWritten l boot (d.reg k) v i ∧
      (((d.accessPut lo boot (k - 4) x).accessPut l boot k v).reg (k - 4)).getLsbD i = bitWritten lo boot (d.reg (k - 4)) x i := by
  have hlo := keysRise_accessPut lo boot (k - 4) x h
  refine ⟨fun b hb hb' => ?_, fun i hi => ⟨?_, ?_⟩⟩
  · rw [accessPut_other l boot v hlo hb, accessPut_other lo boot x h hb']
  · rw [accessPut_bit l boot k v hlo hi, accessPut_other lo boot x h (by omega)]
  · rw [accessPut_other l boot v hlo (by omega), accessPut_bit lo boot _ x h hi]

/-- Settles O5. -/
theorem pairsActTogether : Obligations.PairsActTogether := by
  refine ⟨fun a s l h hl hlo hh hlo' hhi => ?_, fun a s h => ?_, fun a v x s l lo hl hp hw hk hheld hlo hhi hreg hx hkey => ?_,
    fun a v s l hl hp hw hk hlo hhi hx => ?_, fun a v s => exec_pairHiWrite a v s, fun a v s h => ?_⟩
  · rw [exec_pairLoRead, regRead_lo _ hl hlo hh]
    exact ⟨_, rfl, rfl, regRead_hi_captured _ hh hlo' hhi (find?_mput_same ..)⟩
  · rw [exec_pairLoRead, Dev.regRead, h]
    rfl
  · obtain ⟨hother, hbits⟩ := accessPut_pair (d := s.dev.dropHeld (a.toNat - 4)) l lo (s.dev.bootOpen l) v x hk hkey
    rw [exec_pairHiWrite, exec_registerWrite_plain v hl hp hw, plainWrite_hi_held v hlo hhi hreg hx]
    refine ⟨_, rfl, rfl, rfl, find?_mdel_same hheld, fun c hc => ?_, hother, hbits⟩
    exact (mem_mdel_rise hheld c).trans (and_iff_left hc)
  · rw [exec_pairHiWrite, exec_registerWrite_plain v hl hp hw, plainWrite_hi_alone v hlo hhi hx]
    exact ⟨_, rfl, rfl, rfl, rfl, fun b hb => accessPut_other l _ v hk hb, fun i hi => accessPut_bit l _ _ v hk hi⟩
  · rw [exec_pairHiWrite]
    cases hl : regAt a.toNat with
    | none => exact exec_registerWrite_unimplemented v s hl
    | some l => exact exec_registerWrite_inReset v hl (h l hl)

end Sys2Proof.Machine

/-! ### Fields of registers -/

namespace Sys2Proof.Machine

theorem testBit_fld {n : Nat} (v : BitVec n) (hi lo j : Nat) : (fld v hi lo).testBit j = (decide (j < hi + 1 - lo) && v.getLsbD (lo + j)) := by
  rw [fld, Nat.testBit_mod_two_pow, Nat.testBit_shiftRight]
  rfl

/-- Bit by bit, `putFld` replaces the bits from `lo` to `hi`. -/
theorem getLsbD_putFld {n : Nat} (v : BitVec n) (hi lo x i : Nat) (h : i < n) :
    (putFld v hi lo x).getLsbD i = if lo ≤ i ∧ i < lo + (hi + 1 - lo) then x.testBit (i - lo) else v.getLsbD i := by
  simp only [putFld, BitVec.getLsbD_or, BitVec.getLsbD_and, BitVec.getLsbD_not, BitVec.getLsbD_ofNat, h, decide_true, Bool.true_and,
    Nat.testBit_shiftLeft, Nat.testBit_two_pow_sub_one]
  by_cases h1 : lo ≤ i <;> by_cases h2 : i < lo + (hi + 1 - lo)
  · simp [h1, h2, show i - lo < hi + 1 - lo by omega]
  · simp [h1, h2, show ¬ i - lo < hi + 1 - lo by omega]
  · simp [h1]
  · simp [h1]

theorem fld_putFld_same {n : Nat} (v : BitVec n) {hi lo x : Nat} (hn : hi < n) (hx : x < 2 ^ (hi + 1 - lo)) : fld (putFld v hi lo x) hi lo = x := by
  apply Nat.eq_of_testBit_eq
  intro j
  rw [testBit_fld]
  by_cases h : j < hi + 1 - lo
  · rw [getLsbD_putFld _ _ _ _ _ (by omega), if_pos (by omega)]
    simp [h]
  · simp only [h, decide_false, Bool.false_and]
    exact (Nat.testBit_lt_two_pow (Nat.lt_of_lt_of_le hx (Nat.pow_le_pow_right (by omega) (by omega)))).symm

/-- A field beside the one written is as it was. -/
theorem fld_putFld_other {n : Nat} (v : BitVec n) {hi lo hi' lo' x : Nat} (hn : hi' < n) (h : hi' < lo ∨ hi < lo') :
    fld (putFld v hi lo x) hi' lo' = fld v hi' lo' := by
  apply Nat.eq_of_testBit_eq
  intro j
  rw [testBit_fld, testBit_fld]
  by_cases hj : j < hi' + 1 - lo'
  · rw [getLsbD_putFld _ _ _ _ _ (by omega), if_neg (by omega)]
  · simp [hj]

theorem fld_lt {n : Nat} (v : BitVec n) (hi lo : Nat) : fld v hi lo < 2 ^ (hi + 1 - lo) := Nat.mod_lt _ (Nat.two_pow_pos _)

section
variable {d : Dev} {a : Nat} (h : keysRise d.regs)
include h

theorem reg_setFld_same (hi lo x : Nat) : (d.setFld a hi lo x).reg a = putFld (d.reg a) hi lo x := reg_setReg_same d a _ h

theorem reg_setFld_other {b : Nat} (hb : b ≠ a) (hi lo x : Nat) : (d.setFld a hi lo x).reg b = d.reg b := reg_setReg_other d a b _ h hb

omit h in
theorem keysRise_setFld (h : keysRise d.regs) (hi lo x : Nat) : keysRise (d.setFld a hi lo x).regs := keysRise_setReg d a _ h

theorem rfld_setFld_same {hi lo x : Nat} (hn : hi < 32) (hx : x < 2 ^ (hi + 1 - lo)) : (d.setFld a hi lo x).rfld a hi lo = x := by
  rw [Dev.rfld, reg_setFld_same h, fld_putFld_same _ hn hx]

theorem rfld_setFld_beside {hi lo hi' lo' x : Nat} (hn : hi' < 32) (hs : hi' < lo ∨ hi < lo') : (d.setFld a hi lo x).rfld a hi' lo' = d.rfld a hi' lo' := by
  rw [Dev.rfld, reg_setFld_same h, fld_putFld_other _ hn hs, Dev.rfld]

theorem rfld_setFld_other {b : Nat} (hb : b ≠ a) (hi lo x hi' lo' : Nat) : (d.setFld a hi lo x).rfld b hi' lo' = d.rfld b hi' lo' := by
  rw [Dev.rfld, reg_setFld_other h hb, Dev.rfld]

end

/-! ### A commit that changes the map (R31, R36, R312) -/

theorem writes_of_not_held {d : Dev} {a : Nat} (e : Dev) (h : d.regHeld a = false) : d.writes a e = e := by
  simp only [Dev.writes, h, Bool.false_eq_true, if_false]

theorem exec_mapCommit (g : Fin 16) (v : W32) (s : State) :
    exec (.mapCommit g v) s = .next (s.withDev (s.dev.writes (rgnReg g 0x30) (s.dev.mapCommit g v))) := rfl

/-- What a commit of the shadow map moves: the clusters' memory, their new tiles, the active map and the reserve. -/
def Dev.remapped (d : Dev) (g : Nat) : Dev :=
  let m := d.mapShadow g
  let old := d.map g
  let moved := (List.range 16).filter (fun c => old.getD c 31 != m.getD c 31)
  ((moved.foldl (fun d c => (d.clearCluster (16 * g + c)).freshTile (tileKey g (m.getD c 31))) d).setMap g m).modRegion g
    (fun r => { r with spent := r.spent || m.contains (unmapped old) })

/-- A domain whose other half takes a new mesh table and becomes the active one. -/
def Domain.flipTo (x : Domain) (half : MeshHalf) : Domain :=
  let x := if x.epoch then { x with mesh0 := half } else { x with mesh1 := half }
  { x with epoch := !x.epoch, flip := true }

theorem flipTo_eq (x : Domain) (half : MeshHalf) :
    x.flipTo half = { (if x.epoch then { x with mesh0 := half } else { x with mesh1 := half } : Domain) with epoch := !x.epoch, flip := true } := by
  unfold Domain.flipTo
  split <;> rfl

/-- The commit of another valid map. -/
theorem mapCommit_changes {d : Dev} {g : Nat} {v : W32} (h0 : v.getLsbD 0 = true) (h2 : v.getLsbD 2 = false) (hbusy : d.rbit (mapCtrl g) 1 = false)
    (hok : d.mapOk g (d.mapShadow g) = true) (hne : d.mapShadow g ≠ d.map g) :
    d.mapCommit g v =
      ((((d.remapped g).setDom g (((d.remapped g).dom g).flipTo (meshHalfOf (d.mapShadow g)
        (((d.remapped g).isoTiles g).filter (fun t => !(mget [] (d.remapped g).net.lifts g).contains t))))).setBit (mapCtrl g) 1 true).isolateCutOff g).clkApply
          (tileKey g (unmapped (d.map g))) := by
  simp only [Dev.mapCommit, h0, h2, hbusy, hok, hne, Bool.not_true, Bool.false_eq_true, if_false, Bool.or_self]
  rfl

/-- The entry of a cluster is a field of its own in the map registers. -/
theorem tileOf_setFld {d : Dev} {g c i x : Nat} (h : keysRise d.regs) (hc : c < 16) (hx : x < 32) :
    (d.setFld (rgnReg g (0x10 + 4 * (c / 4))) (8 * (c % 4) + 4) (8 * (c % 4)) x).tileOf g i = if i = c then x else d.tileOf g i := by
  unfold Dev.tileOf
  split
  · next he => subst he; exact rfld_setFld_same h (by omega) (by rwa [show 8 * (i % 4) + 4 + 1 - 8 * (i % 4) = 5 by omega])
  · next he =>
    by_cases hr : i / 4 = c / 4
    · rw [hr]
      exact rfld_setFld_beside h (by omega) (by omega)
    · exact rfld_setFld_other h (by unfold rgnReg; omega) _ _ _ _ _

theorem tileOf_setMap_go {g : Nat} {m : List Nat} (hm : ∀ c, m.getD c 31 < 32) : ∀ (cs : List Nat) (d : Dev), keysRise d.regs → (∀ c ∈ cs, c < 16) → ∀ i, i < 16 →
    (cs.foldl (fun d c => d.setFld (rgnReg g (0x10 + 4 * (c / 4))) (8 * (c % 4) + 4) (8 * (c % 4)) (m.getD c 31)) d).tileOf g i =
      if i ∈ cs then m.getD i 31 else d.tileOf g i
  | [], d, _, _, i, _ => by simp
  | c :: cs, d, h, hcs, i, hi => by
    have hc : c < 16 := hcs c (List.mem_cons_self ..)
    rw [List.foldl_cons, tileOf_setMap_go hm cs _ (keysRise_setFld h _ _ _) (fun x hx => hcs x (List.mem_cons_of_mem _ hx)) i hi,
      tileOf_setFld h hc (hm c)]
    by_cases h1 : i ∈ cs
    · simp [h1]
    · by_cases h2 : i = c
      · simp [h2]
      · simp [h1, h2]

theorem map_setMap {d : Dev} {g : Nat} {m : List Nat} (h : keysRise d.regs) (hlen : m.length = 16) (hm : ∀ t ∈ m, t ≤ 16) : (d.setMap g m).map g = m := by
  have hlt : ∀ c, m.getD c 31 < 32 := fun c => by
    by_cases hc : c < m.length
    · rw [List.getD_eq_getElem?_getD, List.getElem?_eq_getElem hc, Option.getD_some]
      have := hm _ (List.getElem_mem hc)
      omega
    · rw [List.getD_eq_getElem?_getD, List.getElem?_eq_none (by omega), Option.getD_none]
      omega
  apply List.ext_getElem
  · simp [Dev.map, hlen]
  · intro i hi hi'
    have hi16 : i < 16 := by omega
    simp only [Dev.map, List.getElem_map, List.getElem_range, Dev.setMap]
    rw [tileOf_setMap_go hlt (List.range 16) d h (fun c hc => List.mem_range.1 hc) i hi16, if_pos (List.mem_range.2 hi16), List.getD_eq_getElem?_getD, List.getElem?_eq_getElem hi', Option.getD_some]

theorem byte_clearCluster {d : Dev} (c a : Nat) (h : Memory.wf d.mem = true) :
    (d.clearCluster c).byte a =
      if (bankAddr c 0 0 ≤ a ∧ a < bankAddr (c + 1) 0 0) ∨ (slotAddr c 0 ≤ a ∧ a < slotAddr (c + 1) 0) then 0 else d.byte a := by
  rw [Dev.clearCluster, byte_clearMem _ _ _ _ (wf_clearMem d _ _ h), byte_clearMem _ _ _ _ h]
  by_cases h1 : slotAddr c 0 ≤ a ∧ a < slotAddr (c + 1) 0 <;> by_cases h2 : bankAddr c 0 0 ≤ a ∧ a < bankAddr (c + 1) 0 0 <;> simp [h1, h2, unlisted]

/-- Settles O7. -/
theorem committedMapBecomesActive : Obligations.CommittedMapBecomesActive := by
  refine ⟨fun g v s h0 h2 hbusy hheld hok hne => ?_, fun d g m h hlen hm => map_setMap h hlen hm, fun d c a h => byte_clearCluster c a h⟩
  rw [exec_mapCommit, writes_of_not_held _ hheld, mapCommit_changes h0 h2 hbusy hok hne, flipTo_eq]
  rfl

end Sys2Proof.Machine

/-! ### Tile clocks, block resets of tiles and fabrics, and map commits that change no map (R20 to R36, R355, R472) -/

namespace Sys2Proof.Machine

theorem exec_cluSrstWrite (g : Fin 16) (t : Fin 17) (v : W32) (s : State) :
    exec (.cluSrstWrite g t v) s = .next (s.withDev (s.dev.cluSrst (tileKey g t) v)) := rfl
theorem exec_diefSrstWrite (k : Fin 4) (v : W32) (s : State) : exec (.diefSrstWrite k v) s = .next (s.withDev (s.dev.diefSrst k v)) := rfl
theorem exec_tileUnhealthy (g : Fin 16) (t : Fin 17) (s : State) :
    exec (.tileUnhealthy g t) s = .next (s.withDev (s.dev.tileUnhealthy (tileKey g t))) := rfl
theorem exec_routeEpochFlipDone (k : Fin 21) (s : State) : exec (.routeEpochFlipDone k) s = .next (s.withDev (s.dev.flipDone k)) := rfl
theorem exec_clkFreqWrite (g : Fin 16) (t : Fin 17) (v : W32) (s : State) :
    exec (.clkFreqWrite g t v) s = .next (s.withDev (s.dev.clkWrite (tileKey g t) (s.dev.fmax s.fuses) v)) := rfl
theorem exec_pllRelockDone (g : Fin 16) (t : Fin 17) (s : State) :
    exec (.pllRelockDone g t) s = .next (s.withDev (s.dev.pllDone (tileKey g t))) := rfl
theorem exec_pllLockTimeout (g : Fin 16) (t : Fin 17) (s : State) :
    exec (.pllLockTimeout g t) s = .next (s.withDev (s.dev.pllTimeout (tileKey g t))) := rfl

/-! Block resets. -/

theorem cluSrst_resetting {d : Dev} {k : Nat} (v : W32) (h : d.resetting = true) : d.cluSrst k v = d := if_pos h

theorem cluSrst_set {d : Dev} {g : Nat} {t : Fin 17} {v : W32} (h : d.resetting = false) (h0 : v.getLsbD 0 = true) :
    d.cluSrst (tileKey g t) v = (d.resetTile (tileKey g t)).setBit (cluReg g t 0xC) 0 true := by
  simp only [Dev.cluSrst, h, h0, Bool.false_eq_true, if_false, if_true, tileKey_div, tileKey_mod]

theorem cluSrst_clear {d : Dev} {g : Nat} {t : Fin 17} {v : W32} (h : d.resetting = false) (h0 : v.getLsbD 0 = false) :
    d.cluSrst (tileKey g t) v = (d.setBit (cluReg g t 0xC) 0 false).clkApply (tileKey g t) := by
  simp only [Dev.cluSrst, h, h0, Bool.false_eq_true, if_false, tileKey_div, tileKey_mod]

theorem resetTile_idle {d : Dev} {k : Nat} (hrun : (d.tile k).stride.run = none) (hab : d.rbit (seStatusReg k) 8 = false) :
    d.resetTile k = (d.emptyTile k).resetRegs (tileRegs k) := by
  simp only [Dev.resetTile, hrun, hab, Option.isSome_none, Bool.or_self, Bool.false_eq_true, if_false]

/-- An operation that the reset ends, or an earlier one, leaves ABANDONED set (R264). -/
theorem resetTile_abandons {d : Dev} {k : Nat} (h : (d.tile k).stride.run ≠ none ∨ d.rbit (seStatusReg k) 8 = true) :
    d.resetTile k = ((d.emptyTile k).resetRegs (tileRegs k)).setBit (seStatusReg k) 8 true := by
  have hab : ((d.tile k).stride.run.isSome || d.rbit (seStatusReg k) 8) = true := by
    rw [Bool.or_eq_true, Option.isSome_iff_ne_none]
    exact h
  simp only [Dev.resetTile, hab, if_true]

theorem diefSrst_resetting {d : Dev} {k : Nat} (v : W32) (h : d.resetting = true) : d.diefSrst k v = d := if_pos h

theorem diefSrst_clear {d : Dev} {k : Nat} {v : W32} (h : d.resetting = false) (h0 : v.getLsbD 0 = false) :
    d.diefSrst k v = d.setBit (diefReg k 0xC) 0 false := by
  simp only [Dev.diefSrst, h, h0, Bool.false_eq_true, if_false]

theorem diefSrst_set {d : Dev} {k : Nat} {v : W32} (h : d.resetting = false) (h0 : v.getLsbD 0 = true) :
    d.diefSrst k v =
      ((((d.discardAll (fun c => c == 288 + k)).resetRegs (fun x => decide (nocReg k 0 ≤ x ∧ x < nocReg k 0 + 0x28))).setDom (16 + k) {}).setBit (diefReg k 0xC) 0 true) := by
  simp only [Dev.diefSrst, h, h0, Bool.false_eq_true, if_false, if_true]

theorem tileUnhealthy_healthy {d : Dev} {g : Nat} {t : Fin 17} (h : d.rbit (rgnReg g 0x34) t = true) :
    d.tileUnhealthy (tileKey g t) = (d.setBit (rgnReg g 0x34) t false).raiseTile (tileKey g t) 5 0 := by
  simp only [Dev.tileUnhealthy, tileKey_div, tileKey_mod, h, if_true]

theorem tileUnhealthy_failed {d : Dev} {g : Nat} {t : Fin 17} (h : d.rbit (rgnReg g 0x34) t = false) : d.tileUnhealthy (tileKey g t) = d := by
  simp only [Dev.tileUnhealthy, tileKey_div, tileKey_mod, h, Bool.false_eq_true, if_false]

/-! Map commits that change no map. -/

theorem mapCommit_rejected {d : Dev} {g : Nat} {v : W32} (h0 : v.getLsbD 0 = true) (h2 : v.getLsbD 2 = false)
    (h : d.rbit (rgnReg g 0x30) 1 = true ∨ d.mapOk g (d.mapShadow g) = false) : d.mapCommit g v = d.setBit (rgnReg g 0x30) 2 true := by
  have hbad : (d.rbit (mapCtrl g) 1 || !d.mapOk g (d.mapShadow g)) = true := by
    rw [Bool.or_eq_true, Bool.not_eq_true']
    exact h
  simp only [Dev.mapCommit, h0, h2, hbad, Bool.not_true, Bool.false_eq_true, if_false, if_true]
  rfl

theorem mapCommit_same {d : Dev} {g : Nat} {v : W32} (h0 : v.getLsbD 0 = true) (h2 : v.getLsbD 2 = false) (hbusy : d.rbit (rgnReg g 0x30) 1 = false)
    (hok : d.mapOk g (d.mapShadow g) = true) (heq : d.mapShadow g = d.map g) :
    d.mapCommit g v = (let h := meshHalfOf (d.map g) ((d.liftIso g).isoTiles g)
      ((d.liftIso g).setDom g { (d.liftIso g).dom g with mesh0 := h, mesh1 := h }).isolateCutOff g) := by
  have hbusy : d.rbit (mapCtrl g) 1 = false := hbusy
  rw [heq] at hok
  simp only [Dev.mapCommit, h0, h2, heq, hbusy, hok, Bool.not_true, Bool.false_eq_true, if_false, if_true, Bool.or_self]

theorem mapCommit_clears_rejected {d : Dev} {g : Nat} {v : W32} (h0 : v.getLsbD 0 = false) (h2 : v.getLsbD 2 = true) :
    d.mapCommit g v = d.setBit (rgnReg g 0x30) 2 false := by
  simp only [Dev.mapCommit, h0, h2, Bool.not_false, if_true]
  rfl

/-! The end of a flip. -/

theorem flipDone_waits {d : Dev} {k : Nat} (h : (d.dom k).flip = false ∨ d.oldGone k = false) : d.flipDone k = d := by
  have hwait : (!(d.dom k).flip || !d.oldGone k) = true := by simpa using h
  simp only [Dev.flipDone, hwait, if_true]

theorem flipDone_fabric {d : Dev} {k : Nat} (hk : 16 ≤ k) (hf : (d.dom k).flip = true) (ho : d.oldGone k = true) (hh : (d.dom k).held = []) :
    d.flipDone k = (d.setDom k { d.dom k with flip := false, held := [] }).setBit (nocReg (k - 16) 0x20) 1 false := by
  simp only [Dev.flipDone, hf, ho, hh, Bool.not_true, Bool.or_self, Bool.false_eq_true, if_false, Nat.not_lt.2 hk, List.foldl_nil]

/-! Tile clocks. -/

theorem clkWrite_outside {d : Dev} {k m : Nat} {v : W32} (h : fld v 4 0 < 4 ∨ 20 < fld v 4 0) : d.clkWrite k m v = d := if_pos h

theorem clkWrite_inside {d : Dev} {g m : Nat} {t : Fin 17} {v : W32} (h4 : 4 ≤ fld v 4 0) (h20 : fld v 4 0 ≤ 20) (hm : fld v 4 0 ≤ m) :
    d.clkWrite (tileKey g t) m v = (d.setFld (cluReg g t 4) 4 0 (fld v 4 0)).clkApply (tileKey g t) := by
  simp only [Dev.clkWrite, Nat.not_lt.2 h4, Nat.not_lt.2 h20, or_self, if_false, Nat.not_lt.2 hm, Nat.min_eq_left hm, tileKey_div, tileKey_mod]

theorem clkWrite_clamped {d : Dev} {g m : Nat} {t : Fin 17} {v : W32} (h4 : 4 ≤ fld v 4 0) (h20 : fld v 4 0 ≤ 20) (hm : m < fld v 4 0) :
    d.clkWrite (tileKey g t) m v = ((d.setBit (cluReg g t 8) 2 true).setFld (cluReg g t 4) 4 0 m).clkApply (tileKey g t) := by
  simp only [Dev.clkWrite, cluStatus, Nat.not_lt.2 h4, Nat.not_lt.2 h20, or_self, if_false, hm, if_true, Nat.min_eq_right (Nat.le_of_lt hm), tileKey_div, tileKey_mod]

theorem clkApply_held {d : Dev} {k : Nat} (h : d.tileHeld k = true) : d.clkApply k = d := if_pos h

/-- The fallback frequency needs no relock. -/
theorem clkApply_fallback {d : Dev} {g : Nat} {t : Fin 17} (h : d.tileHeld (tileKey g t) = false) (hf : d.rfld (cluReg g t 4) 4 0 ≤ 4) :
    d.clkApply (tileKey g t) = ((d.setFld (cluReg g t 8) 10 6 4).setBit (cluReg g t 8) 0 false).modTile (tileKey g t) (fun x => { x with pll := none }) := by
  simp only [Dev.clkApply, cluStatus, h, Bool.false_eq_true, if_false, tileKey_div, tileKey_mod, hf, if_true]

theorem clkApply_relocks {d : Dev} {g : Nat} {t : Fin 17} (h : d.tileHeld (tileKey g t) = false) (hf : 4 < d.rfld (cluReg g t 4) 4 0)
    (hne : d.rfld (cluReg g t 8) 10 6 ≠ d.rfld (cluReg g t 4) 4 0) :
    d.clkApply (tileKey g t) = ((d.setFld (cluReg g t 8) 10 6 4).setBit (cluReg g t 8) 0 true).modTile (tileKey g t)
      (fun x => { x with pll := some (d.rfld (cluReg g t 4) 4 0) }) := by
  simp only [Dev.clkApply, cluStatus, h, Bool.false_eq_true, if_false, tileKey_div, tileKey_mod, Nat.not_le.2 hf, hne, false_and]

theorem pllDone_locks {d : Dev} {g f : Nat} {t : Fin 17} (h : (d.tile (tileKey g t)).pll = some f) :
    d.pllDone (tileKey g t) = ((d.setFld (cluReg g t 8) 10 6 f).setBit (cluReg g t 8) 0 false).modTile (tileKey g t) (fun x => { x with pll := none }) := by
  simp only [Dev.pllDone, h, cluStatus, tileKey_div, tileKey_mod]

theorem pllTimeout_fails {d : Dev} {g f : Nat} {t : Fin 17} (h : (d.tile (tileKey g t)).pll = some f) :
    d.pllTimeout (tileKey g t) = ((((d.setFld (cluReg g t 8) 10 6 4).setBit (cluReg g t 8) 0 false).setBit (cluReg g t 8) 1 true).modTile (tileKey g t)
      (fun x => { x with pll := none })).raiseTile (tileKey g t) 4 0 := by
  simp only [Dev.pllTimeout, h, cluStatus, tileKey_div, tileKey_mod]

theorem pllDone_none {d : Dev} {k : Nat} (h : (d.tile k).pll = none) : d.pllDone k = d := by simp only [Dev.pllDone, h]

theorem pllTimeout_none {d : Dev} {k : Nat} (h : (d.tile k).pll = none) : d.pllTimeout k = d := by simp only [Dev.pllTimeout, h]

/-- Settles O6. -/
theorem tileAndMapControl : Obligations.TileAndMapControl := by
  refine ⟨fun g t v s hr h0 => ⟨fun hrun hab => ?_, fun hab => ?_⟩, fun g t v s hr h0 => ?_, fun k v s hr h0 => ?_, fun k v s hr h0 => ?_,
    fun g t k v s hr => ⟨?_, ?_⟩, fun g t s h => ?_, fun g t s h => ?_, fun g v s h0 h2 h => ?_, fun g v s h0 h2 hbusy hok heq => ?_, fun g v s h0 h2 => ?_,
    fun k s h => ?_, fun k s hk hf ho hh => ?_, fun g t v s h => ?_, fun d f => rfl, fun g t v s h4 h20 hm => ?_, fun g t v s h4 h20 hm => ?_,
    fun g t s f h => ?_, fun g t s f h => ?_, fun g t s h => ⟨?_, ?_⟩⟩
  · rw [exec_cluSrstWrite, cluSrst_set hr h0, resetTile_idle hrun hab]
  · rw [exec_cluSrstWrite, cluSrst_set hr h0, resetTile_abandons hab]
  · rw [exec_cluSrstWrite, cluSrst_clear hr h0]
  · rw [exec_diefSrstWrite, diefSrst_clear hr h0]
  · rw [exec_diefSrstWrite, diefSrst_set hr h0]
  · rw [exec_cluSrstWrite, cluSrst_resetting v hr, withDev_self]
  · rw [exec_diefSrstWrite, diefSrst_resetting v hr, withDev_self]
  · rw [exec_tileUnhealthy, tileUnhealthy_healthy h]
  · rw [exec_tileUnhealthy, tileUnhealthy_failed h, withDev_self]
  · rw [exec_mapCommit, mapCommit_rejected h0 h2 h]
  · rw [exec_mapCommit, mapCommit_same h0 h2 hbusy hok heq]
    rfl
  · rw [exec_mapCommit, mapCommit_clears_rejected h0 h2]
  · rw [exec_routeEpochFlipDone, flipDone_waits h, withDev_self]
  · rw [exec_routeEpochFlipDone, flipDone_fabric hk hf ho hh]
  · rw [exec_clkFreqWrite, clkWrite_outside h, withDev_self]
  · rw [exec_clkFreqWrite, clkWrite_inside h4 h20 hm]
    refine ⟨rfl, fun h => ?_, fun h hf => ?_, fun h hf hne => ?_⟩
    · rw [clkApply_held h]
    · rw [clkApply_fallback h hf]
    · rw [clkApply_relocks h hf hne]
  · rw [exec_clkFreqWrite, clkWrite_clamped h4 h20 hm]
  · rw [exec_pllRelockDone, pllDone_locks h]
  · rw [exec_pllLockTimeout, pllTimeout_fails h]
  · rw [exec_pllRelockDone, pllDone_none h, withDev_self]
  · rw [exec_pllLockTimeout, pllTimeout_none h, withDev_self]

end Sys2Proof.Machine

/-! ### Fabric commits, isolation, parking and heartbeats (R357 to R361, R365, R531) -/

namespace Sys2Proof.Machine

theorem exec_nocCommit (k : Fin 5) (v : W32) (s : State) :
    exec (.nocCommit k v) s = .next (s.withDev (s.dev.writes (nocReg k 0x20) (s.dev.nocCommit k v))) := rfl
theorem exec_heartbeatMiss (n : Fin 309) (s : State) : exec (.heartbeatMiss n) s = .next (s.withDev (s.dev.heartbeatMiss n)) := rfl

theorem writes_self (d : Dev) (a : Nat) : d.writes a d = d := by
  unfold Dev.writes
  split <;> rfl

section
variable {d : Dev} {k : Nat} {v : W32}

theorem nocCommit_busy (h0 : v.getLsbD 0 = true) (h2 : v.getLsbD 2 = false) (hbusy : d.rbit (nocReg k 0x20) 1 = true) :
    d.nocCommit k v = d.setBit (nocReg k 0x20) 2 true := by
  simp only [Dev.nocCommit, h0, h2, hbusy, Bool.not_true, Bool.false_eq_true, if_false, if_true]

theorem nocCommit_bad (h0 : v.getLsbD 0 = true) (h2 : v.getLsbD 2 = false) (hbusy : d.rbit (nocReg k 0x20) 1 = false)
    (hbad : (List.range 24).any (fun i => badEntry k i ((d.nocShadow k).getD i 15)) = true) :
    d.nocCommit k v = (d.setBit (nocReg k 0x20) 2 true).raise (321 + 2 * k) 2 0 := by
  simp only [Dev.nocCommit, h0, h2, hbusy, hbad, Bool.not_true, Bool.false_eq_true, if_false, if_true]

theorem nocCommit_same (h0 : v.getLsbD 0 = true) (h2 : v.getLsbD 2 = false) (hbusy : d.rbit (nocReg k 0x20) 1 = false)
    (hbad : (List.range 24).any (fun i => badEntry k i ((d.nocShadow k).getD i 15)) = false) (heq : d.nocShadow k = d.nocActive k) :
    d.nocCommit k v = d := by
  simp only [Dev.nocCommit, h0, h2, hbusy, hbad, Bool.not_true, Bool.false_eq_true, if_false]
  rw [if_pos heq]

/-- The table half of the new epoch takes the shadow, the other keeps what was active. -/
theorem nocCommit_changes (h0 : v.getLsbD 0 = true) (h2 : v.getLsbD 2 = false) (hbusy : d.rbit (nocReg k 0x20) 1 = false)
    (hbad : (List.range 24).any (fun i => badEntry k i ((d.nocShadow k).getD i 15)) = false) (hne : d.nocShadow k ≠ d.nocActive k) :
    d.nocCommit k v =
      ((((List.range 3).foldl (fun (d : Dev) m => d.setReg (nocReg k (0x10 + 4 * m)) (d.reg (nocReg k (4 * m)))) d).setDom (16 + k) { d.dom (16 + k) with
        epoch := !(d.dom (16 + k)).epoch, flip := true
        tab0 := if (d.dom (16 + k)).epoch then d.nocShadow k else d.nocActive k
        tab1 := if (d.dom (16 + k)).epoch then d.nocActive k else d.nocShadow k }).setBit (nocReg k 0x20) 1 true).setBit (nocReg k 0x20) 3 (!(d.dom (16 + k)).epoch) := by
  simp only [Dev.nocCommit, h0, h2, hbusy, hbad, hne, Bool.not_true, Bool.false_eq_true, if_false]
  cases (d.dom (16 + k)).epoch <;> rfl

theorem nocCommit_clears_rejected (h0 : v.getLsbD 0 = false) (h2 : v.getLsbD 2 = true) : d.nocCommit k v = d.setBit (nocReg k 0x20) 2 false := by
  simp only [Dev.nocCommit, h0, h2, Bool.not_false, if_true]

theorem parkWrite_eq : d.parkWrite v =
    (List.range 16).foldl (fun (d : Dev) g => d.forward .hub { pkt := { dest := holderDest g, body := .mgmt (.park (v.extractLsb' 0 16)) } })
      ((List.range 4).foldl (fun (d : Dev) k => d.parkOutput ⟨.hub, .die k⟩) (d.setFld (nocReg 4 0x40) 15 0 (fld v 15 0))) := by
  simp only [Dev.parkWrite, parkPackets, List.foldl_map]

end

/-! Heartbeats. -/

theorem heartbeatMiss_counts {d : Dev} {n : Nat} (h : mget 0 d.hbMiss n < 2) :
    d.heartbeatMiss n = { d with hbMiss := mset 0 d.hbMiss n (mget 0 d.hbMiss n + 1) } := if_pos (Nat.succ_lt_succ h)

/-- The third missing heartbeat isolates the island. -/
theorem heartbeatMiss_third {d : Dev} {n : Nat} (h : 2 ≤ mget 0 d.hbMiss n) :
    d.heartbeatMiss n = ({ d with hbMiss := mset 0 d.hbMiss n 0 }.islandDead n).healthUpdate := if_neg (by omega)

theorem islandDead_tile {d : Dev} {n : Nat} (h : n < 272) : d.islandDead n = d.isolate (n / 17) (n % 17) 0 := if_pos h

theorem islandDead_region {d : Dev} {n : Nat} (h : 272 ≤ n) (h' : n < 288) : d.islandDead n = (List.range 17).foldl (fun d t => d.isolate (n - 272) t 0) d := by
  rw [Dev.islandDead, if_neg (by omega), if_pos h']

theorem islandDead_fabric {d : Dev} {k : Nat} (h : k < 4) : d.islandDead (288 + k) =
    ((d.dropDieLink ⟨.die k, .die ((k + 1) % 4)⟩).dropDieLink ⟨.die k, .die ((k + 3) % 4)⟩).dropDieLink ⟨.die k, .hub⟩ := by
  rw [Dev.islandDead, if_neg (by omega), if_neg (by omega), if_pos (by omega)]
  simp only [Nat.add_sub_cancel_left]

theorem islandDead_block {d : Dev} {n : Nat} (h : 292 ≤ n) (h' : n < 308) : d.islandDead n = d.isolateBlk (n - 292) := by
  rw [Dev.islandDead, if_neg (by omega), if_neg (by omega), if_neg (by omega), if_pos h']

theorem islandDead_measurement {d : Dev} (h : (d.link ⟨.hub, .meas⟩).down = false) : d.islandDead 308 = d.dropMeasLink := by
  rw [Dev.islandDead, if_neg (by omega), if_neg (by omega), if_neg (by omega), if_neg (by omega), h]
  rfl

/-- Settles O8. -/
theorem routeAndIsolationControl : Obligations.RouteAndIsolationControl := by
  refine ⟨fun k v s h0 h2 hbusy => ?_, fun k v s h0 h2 hbusy hbad => ?_, fun k v s h0 h2 hbusy hheld hok hne => ?_, fun k v s h0 h2 hbusy hok heq => ?_,
    fun k v s h0 h2 => ?_, fun k v s => rfl, fun g v s => rfl, fun v s => rfl, fun v s => rfl, fun v s => ?_, fun n s => rfl, fun n s h => ?_, fun n s h => ?_⟩
  case refine_1 => rw [exec_nocCommit, nocCommit_busy h0 h2 hbusy]
  case refine_2 => rw [exec_nocCommit, nocCommit_bad h0 h2 hbusy (by simpa using hbad)]
  case refine_3 => rw [exec_nocCommit, writes_of_not_held _ hheld, nocCommit_changes h0 h2 hbusy (by simpa using hok) hne]
  case refine_4 => rw [exec_nocCommit, nocCommit_same h0 h2 hbusy (by simpa using hok) heq, writes_self, withDev_self]
  case refine_5 => rw [exec_nocCommit, nocCommit_clears_rejected h0 h2]
  case refine_6 => exact congrArg (fun d => Host.Outcome.next (s.withDev d)) parkWrite_eq
  case refine_7 => rw [exec_heartbeatMiss, heartbeatMiss_counts h]
  case refine_8 =>
    rw [exec_heartbeatMiss, heartbeatMiss_third h]
    refine ⟨fun hn => ?_, fun hn hn' => ?_, fun k hk => ?_, fun hn hn' => ?_, fun hn hdown => ?_⟩
    · rw [islandDead_tile hn]
    · rw [islandDead_region hn hn']
    · simp only [hk, islandDead_fabric k.isLt]
    · rw [islandDead_block hn hn']
      rfl
    · simp only [hn] at hdown ⊢
      rw [islandDead_measurement hdown]

end Sys2Proof.Machine

/-! ### Flits, links and credits (R40, R204, R210, R346, R351, R352) -/

namespace Sys2Proof.Machine

theorem exec_flitReceive_open {l : LinkId} (err : BitVec 256) {s : State} (h : s.dev.linkOpen l = true) :
    exec (.flitReceive l err) s = .next (s.withDev ((s.dev.flitReceive l err).serveL4 l.dst)) := by
  show Host.Outcome.next (s.withDev (if s.dev.linkOpen l then (s.dev.flitReceive l err).serveL4 l.dst else s.dev)) = _
  rw [if_pos h]

theorem exec_flitReceive_closed {l : LinkId} (err : BitVec 256) {s : State} (h : s.dev.linkOpen l = false) : exec (.flitReceive l err) s = .next s := by
  show Host.Outcome.next (s.withDev (if s.dev.linkOpen l then (s.dev.flitReceive l err).serveL4 l.dst else s.dev)) = _
  rw [h, if_neg Bool.false_ne_true, withDev_self]

theorem exec_linkDown (l : LinkId) (s : State) : exec (.linkDown l) s = .next (s.withDev (s.dev.linkDown l).healthUpdate) := rfl
theorem exec_ageIncrement (l : LinkId) (n : Nat) (s : State) : exec (.ageIncrement l n) s = .next (s.withDev (s.dev.ageIncrement l n)) := rfl
theorem exec_linkUp (l : LinkId) (w : W32) (s : State) : exec (.linkUp (l, w)) s = .next (s.withDev (s.dev.linkTrained l w)) := rfl
theorem exec_creditReturn (l : LinkId) (s : State) : exec (.creditReturn l) s = .next (s.withDev (s.dev.creditReturn l)) := rfl

/-- A router is no block: it acts on no management message. -/
theorem serveL4_router (d : Dev) {n : Node} (h : Node.router n = n) : d.serveL4 n = d := by
  cases n with
  | tileUnit g t u => simp [Node.router] at h
  | regionUnit g u => simp [Node.router] at h
  | _ => rfl

/-! What a link passes. -/
section
variable {d : Dev} {l : LinkId} {err : BitVec 256} (hopen : d.linkOpen l = true)
include hopen

theorem flitReceive_nothing (ha : d.arbitrate l = none) : d.flitReceive l err = d := by
  simp only [Dev.flitReceive, hopen, ha, Bool.not_true, Bool.false_eq_true, if_false]

theorem flitReceive_good {f : QFlit} {tie : Bool} (ha : d.arbitrate l = some (.flit f tie)) (hok : flitOk (flitBits f.pkt f.idx f.n ^^^ err) = true) :
    d.flitReceive l err = (d.transfer l f tie).endService l f := by
  simp only [Dev.flitReceive, hopen, ha, hok, Bool.not_true, Bool.false_eq_true, if_false, if_true]

theorem flitReceive_bad {f : QFlit} {tie : Bool} (ha : d.arbitrate l = some (.flit f tie)) (hok : flitOk (flitBits f.pkt f.idx f.n ^^^ err) = false) :
    d.flitReceive l err = d.attemptFails l (.flit f tie) := by
  simp only [Dev.flitReceive, hopen, ha, hok, Bool.not_true, Bool.false_eq_true, if_false]

theorem flitReceive_credit_good (ha : d.arbitrate l = some .credit) (hok : flitOk (d.creditBits l ^^^ err) = true) : d.flitReceive l err = d.takeCredits l := by
  simp only [Dev.flitReceive, hopen, ha, hok, Bool.not_true, Bool.false_eq_true, if_false, if_true]

theorem flitReceive_credit_bad (ha : d.arbitrate l = some .credit) (hok : flitOk (d.creditBits l ^^^ err) = false) :
    d.flitReceive l err = d.attemptFails l .credit := by
  simp only [Dev.flitReceive, hopen, ha, hok, Bool.not_true, Bool.false_eq_true, if_false]

end

/-- A flit that waits in its queue leaves it. -/
theorem leaveQueue_queue {d : Dev} {l : LinkId} {f : QFlit} (hr : (d.link l).resend = none) (hq : (d.link l).q.contains f = true)
    (hm : d.behindMarsh l f = false) : d.leaveQueue l f = d.setLink l { d.link l with q := removeFirst (· == f) (d.link l).q } := by
  simp only [Dev.leaveQueue, hr, hq, hm, Option.isSome_none, Bool.false_eq_true, if_false, Bool.not_false, Bool.and_self, if_true]

theorem attemptFails_first {d : Dev} {l : LinkId} {f : QFlit} {tie : Bool} (hr : (d.link l).resend = none) (hq : (d.link l).q.contains f = true)
    (hm : d.behindMarsh l f = false) :
    d.attemptFails l (.flit f tie) =
      (let e := d.setLink l { d.link l with q := removeFirst (· == f) (d.link l).q }
       e.setLink l { e.link l with fails := (e.link l).fails + 1, resend := some (some (f, tie)) }) := by
  simp only [Dev.attemptFails, hr, Option.isSome_none, Bool.false_eq_true, if_false, leaveQueue_queue hr hq hm]

theorem attemptFails_again {d : Dev} {l : LinkId} {f : QFlit} {tie : Bool} (hr : (d.link l).resend = some (some (f, tie))) :
    d.attemptFails l (.flit f tie) = d.setLink l { d.link l with fails := (d.link l).fails + 1, resend := some (some (f, tie)) } := by
  simp only [Dev.attemptFails, hr, Option.isSome_some, if_true]

theorem endService_none {d : Dev} {l : LinkId} {f : QFlit} (h : f.pkt.ends = none) : d.endService l f = d := by
  simp only [Dev.endService, h]

theorem withCredit_none {l : LinkId} {p : Packet} (h : e2eKey l p = none) : withCredit l p = p := by
  simp only [withCredit, h]

theorem spendE2e_none {d : Dev} {l : LinkId} {f : QFlit} (h : e2eKey l f.pkt = none) : d.spendE2e l f = d := by
  simp only [Dev.spendE2e, h]

/-- The only flit of a packet for a unit of a tile: it spends a hop credit and waits at the unit. -/
theorem transfer_tileUnit {d : Dev} {g t u : Nat} {f : QFlit} (hidx : f.idx = 0) (hn : f.n = 1) (hvia : f.via = none)
    (hr : (d.link ⟨.tile g t, .tileUnit g t u⟩).resend = none) (hq : (d.link ⟨.tile g t, .tileUnit g t u⟩).q.contains f = true)
    (hm : d.behindMarsh ⟨.tile g t, .tileUnit g t u⟩ f = false) (he : e2eKey ⟨.tile g t, .tileUnit g t u⟩ f.pkt = none) :
    d.transfer ⟨.tile g t, .tileUnit g t u⟩ f false =
      (let l : LinkId := ⟨.tile g t, .tileUnit g t u⟩
       let lane := Packet.lane f.pkt
       let d := d.setLink l { d.link l with q := removeFirst (· == f) (d.link l).q }
       let x := d.link l
       let d := d.setLink l { x with used := mset 0 x.used lane (mget 0 x.used lane + 1), lock := mdel x.lock lane, fails := 0, cur := mdel x.cur lane }
       d.setInbox (.tileUnit g t u) lane (d.inbox (.tileUnit g t u) lane ++ [f.pkt])) := by
  simp only [Dev.transfer, withCredit_none he, spendE2e_none he, leaveQueue_queue hr hq hm, hvia, Dev.oweHop, hidx, hn, Dev.forwarded]
  rfl

/-! AGE of a waiting packet. -/

theorem ageIncrement_done {d : Dev} {l : LinkId} {n : Nat} {f : QFlit} (hf : (d.link l).q[n]? = some f) (h : f.idx ≠ 0 ∨ f.pkt.age = 15) : d.ageIncrement l n = d := by
  have hstop : f.idx ≠ 0 ∨ f.pkt.age.toNat ≥ 15 := h.imp_right (fun h => by rw [h]; decide)
  simp only [Dev.ageIncrement, hf, hstop, if_true]

/-- The flits of the packet that waits behind its header flit, each with the older AGE. -/
def Dev.agedQueue (d : Dev) (l : LinkId) (n : Nat) (f : QFlit) : Dev :=
  let q := (d.link l).q
  let older := fun (y : QFlit) => { y with pkt := olderPkt y.pkt }
  d.setLink l { d.link l with q := q.take n ++ older f :: (q.drop (n + 1)).map (fun y => if (packetFlits l f (q.drop (n + 1))).contains y then older y else y) }

section
variable {d : Dev} {l : LinkId} {n : Nat} {f : QFlit} (hf : (d.link l).q[n]? = some f) (hidx : f.idx = 0) (hage : f.pkt.age.toNat < 15)
include hf hidx hage

theorem ageIncrement_whole (h : f.via = none ∨ f.n = 1) : d.ageIncrement l n = d.agedQueue l n f := by
  have hgo : ¬ (f.idx ≠ 0 ∨ f.pkt.age.toNat ≥ 15) := by omega
  simp only [Dev.ageIncrement, hf, hgo, if_false]
  split
  · next v hv =>
    rw [if_pos (h.resolve_left (by simp [hv]))]
    rfl
  · rfl

theorem ageIncrement_split {v : LinkId} (hv : f.via = some v) (hn : f.n ≠ 1) :
    d.ageIncrement l n = (let e := d.agedQueue l n f
      e.setLink v { e.link v with cur := (e.link v).cur.map (fun c => if c.1 = Packet.lane f.pkt ∧ c.2 = f.pkt then (c.1, olderPkt c.2) else c) }) := by
  have hgo : ¬ (f.idx ≠ 0 ∨ f.pkt.age.toNat ≥ 15) := by omega
  simp only [Dev.ageIncrement, hf, hgo, if_false]
  split
  · next w hw =>
    obtain rfl : w = v := by simpa [hw] using hv
    rw [if_neg hn]
    rfl
  · next hw => simp [hw] at hv

end

/-! Links that fail and train. -/

theorem linkDown_early {d : Dev} {l : LinkId} (h : (d.link l).fails < 8) : d.linkDown l = d := if_pos h

/-- The link as the eighth failed attempt leaves it. -/
def Dev.linkDropped (d : Dev) (l : LinkId) : Dev := d.setLink l { d.link l with fails := 0, down := true }

theorem linkDown_die {d : Dev} {l : LinkId} (h : 8 ≤ (d.link l).fails) (hne : dieLinkBits l ≠ []) : d.linkDown l = (d.linkDropped l).dropDieLink l := by
  simp only [Dev.linkDown, Nat.not_lt.2 h, if_false, Dev.linkDropped]

theorem dropDieLink_up {d : Dev} {l : LinkId} (hne : dieLinkBits l ≠ []) (hup : ∀ c ∈ dieLinkBits l, d.rbit (diefReg c.1 4) c.2 = true) :
    d.dropDieLink l = ((dieLinkBits l).foldl (fun (d : Dev) c =>
      ((d.setBit (diefReg c.1 4) c.2 false).setBit (diefReg c.1 4) (c.2 + 4) true).raise (320 + 2 * c.1) 1 c.2) d).rerouteBoth l := by
  simp only [Dev.dropDieLink, List.filter_eq_self.2 hup]

/-- A mesh link isolates the tile farther from the gateway router, or both. -/
theorem linkDown_mesh {d : Dev} {g t u : Nat} (h : 8 ≤ (d.link ⟨.tile g t, .tile g u⟩).fails) :
    d.linkDown ⟨.tile g t, .tile g u⟩ =
      (let e := d.linkDropped ⟨.tile g t, .tile g u⟩
       let e := if hopsToGw u ≤ hopsToGw t then e.isolate g t 1 else e
       (if hopsToGw t ≤ hopsToGw u then e.isolate g u 1 else e).reroute ⟨.tile g t, .tile g u⟩) := by
  simp only [Dev.linkDown, Nat.not_lt.2 h, if_false]
  rfl

theorem linkDown_gateway {d : Dev} {l : LinkId} {g t : Nat} (h : 8 ≤ (d.link l).fails) (hl : l = ⟨.tile g t, .gw g⟩ ∨ l = ⟨.gw g, .tile g t⟩) :
    d.linkDown l = ((d.linkDropped l).isolate g t 1).reroute l := by
  rcases hl with rfl | rfl <;>
  · simp only [Dev.linkDown, Nat.not_lt.2 h, if_false]
    rfl

theorem linkDown_measurement {d : Dev} {l : LinkId} (h : 8 ≤ (d.link l).fails) (hl : l = ⟨.hub, .meas⟩ ∨ l = ⟨.meas, .hub⟩) :
    d.linkDown l = (d.linkDropped l).dropMeasLink := by
  rcases hl with rfl | rfl <;>
  · simp only [Dev.linkDown, Nat.not_lt.2 h, if_false]
    rfl

/-- Both directions of a link as it trains. -/
def Dev.linkTrainedBoth (d : Dev) (l : LinkId) : Dev :=
  let d := d.setLink l { d.link l with fails := 0, down := false }
  d.setLink (LinkId.back l) { d.link (LinkId.back l) with fails := 0, down := false }

theorem linkTrained_other {d : Dev} {l : LinkId} (w : W32) (h : dieLinkBits l = []) : d.linkTrained l w = d.linkTrainedBoth l := by
  simp only [Dev.linkTrained, h]
  rfl

theorem linkTrained_die {d : Dev} {l : LinkId} (w : W32) {a b : Nat} {bs : List (Nat × Nat)} (h : dieLinkBits l = (a, b) :: bs) :
    d.linkTrained l w = [4, 5, 6].foldl (fun (d : Dev) k => if w.getLsbD k && k != b + 4 then d.setBit (diefReg a 4) k false else d)
      (((a, b) :: bs).foldl (fun (d : Dev) c => d.setBit (diefReg c.1 4) c.2 true) (d.linkTrainedBoth l)) := by
  simp only [Dev.linkTrained, h]
  rfl

/-! Credits that return. -/

theorem creditReturn_nothing {d : Dev} {l : LinkId} (h : d.linkOpen l = false ∨ d.arbitrate l ≠ some .credit) : d.creditReturn l = d := by
  have hno : (d.linkOpen l && d.arbitrate l == some .credit) = false := by
    rw [Bool.and_eq_false_iff, beq_eq_false_iff_ne]
    exact h
  simp only [Dev.creditReturn, hno, Bool.false_eq_true, if_false]

theorem creditReturn_credit {d : Dev} {l : LinkId} (hopen : d.linkOpen l = true) (ha : d.arbitrate l = some .credit) : d.creditReturn l = d.takeCredits l := by
  simp only [Dev.creditReturn, hopen, ha, beq_self_eq_true, Bool.and_self, if_true]

section
variable {d : Dev} {l : LinkId} (hne : l.src ≠ l.dst)
include hne

theorem back_ne : LinkId.back l ≠ l := fun h => hne (congrArg LinkId.dst h)

/-- The opposite link as its credits come back, no more than were spent. -/
theorem takeCredits_returns (hw : (d.link (LinkId.back l)).wait = false)
    (hle : ∀ k, k < 5 → mget 0 (d.link (LinkId.back l)).owed k ≤ mget 0 (d.link (LinkId.back l)).used k) :
    d.takeCredits l =
      (let x := d.link (LinkId.back l)
       let e := (d.setLink l { d.link l with fails := 0, resend := none }).setLink (LinkId.back l)
         { x with used := (List.range 5).foldl (fun m k => mset 0 m k (mget 0 x.used k - mget 0 x.owed k)) ([] : SMap Nat), owed := [] }
       match d.nextE2e l with
       | none => e
       | some (h, t, k) => (e.modNet (fun n => { n with acc := mset 0 n.acc (accKey l.src h t) 0 })).oweE2e l.dst h t k) := by
  have hexcess : (List.range 5).any (fun k => decide (mget 0 (d.link (LinkId.back l)).used k < mget 0 (d.link (LinkId.back l)).owed k)) = false := by
    rw [List.any_eq_false]
    intro k hk
    rw [decide_eq_true_eq, Nat.not_lt]
    exact hle k (List.mem_range.1 hk)
  simp only [Dev.takeCredits, hw, hexcess, back_ne hne, Bool.false_eq_true, if_false, Bool.and_false] <;> rfl

theorem takeCredits_drained (hw : (d.link (LinkId.back l)).wait = true) (he : d.nextE2e l = none)
    (hd : (d.setLink l { d.link l with fails := 0, resend := none }).drained (LinkId.back l) = true) :
    d.takeCredits l = (d.setLink l { d.link l with fails := 0, resend := none }).setLink (LinkId.back l)
      { d.link (LinkId.back l) with used := [], owed := [], wait := false } := by
  simp only [Dev.takeCredits, hw, he, hd, back_ne hne, Bool.false_eq_true, if_false, if_true, Bool.not_true, Bool.false_and]

end

/-- Settles O9. -/
theorem linksCarryFlits : Obligations.LinksCarryFlits := by
  refine ⟨fun l err s h => exec_flitReceive_closed err h, fun l err s h ha => ?_, fun d n h => serveL4_router d h, fun l err s f tie h ha hbad => ⟨fun hr hq hm => ?_, fun hr => ?_⟩,
    fun l err s f tie h ha hok => ?_, fun g t u err s f h ha hok hends hidx hn hvia hr hq hm he => ?_, fun l err s h ha hok => ?_, fun l err s h ha hbad => ?_,
    fun l n s f hf hidx hage => ⟨fun hv => ?_, fun v hv hn => ?_⟩, fun l n s f hf h => ?_, fun l s h => ?_,
    fun l s h => ⟨fun hne hup => ?_, fun g t u hl hlt => ?_, fun g t u hl hlt => ?_, fun g t u hl heq => ?_, fun g t hl => ?_, fun hl => ?_⟩,
    fun l w s => ⟨fun h => ?_, fun a b bs h => ?_⟩, fun l s h => ?_,
    fun l s h ha hne => ⟨fun hw hle => ⟨fun he => ?_, fun h' t k he => ?_⟩, fun hw he hd => ?_⟩⟩
  · rw [exec_flitReceive_open err h, flitReceive_nothing h ha]
  · rw [exec_flitReceive_open err h, flitReceive_bad h ha hbad, attemptFails_first hr hq hm]
  · rw [exec_flitReceive_open err h, flitReceive_bad h ha hbad, attemptFails_again hr]
  · rw [exec_flitReceive_open err h, flitReceive_good h ha hok]
  · rw [exec_flitReceive_open err h, flitReceive_good h ha hok, endService_none hends, transfer_tileUnit hidx hn hvia hr hq hm he]
  · rw [exec_flitReceive_open err h, flitReceive_credit_good h ha hok]
  · rw [exec_flitReceive_open err h, flitReceive_credit_bad h ha hbad]
    rfl
  · rw [exec_ageIncrement, ageIncrement_whole hf hidx hage hv]
    rfl
  · rw [exec_ageIncrement, ageIncrement_split hf hidx hage hv hn]
    rfl
  · rw [exec_ageIncrement, ageIncrement_done hf h, withDev_self]
  · rw [exec_linkDown, linkDown_early h]
  · rw [exec_linkDown, linkDown_die h hne, dropDieLink_up (d := s.dev.linkDropped l) hne hup]
    rfl
  · subst hl
    rw [exec_linkDown, linkDown_mesh h]
    simp only [Nat.le_of_lt hlt, Nat.not_le.2 hlt, if_true, if_false]
    rfl
  · subst hl
    rw [exec_linkDown, linkDown_mesh h]
    simp only [Nat.le_of_lt hlt, Nat.not_le.2 hlt, if_true, if_false]
    rfl
  · subst hl
    rw [exec_linkDown, linkDown_mesh h]
    simp only [heq, Nat.le_refl, if_true]
    rfl
  · rw [exec_linkDown, linkDown_gateway h hl]
    rfl
  · rw [exec_linkDown, linkDown_measurement h hl]
    rfl
  · rw [exec_linkUp, linkTrained_other w h]
    rfl
  · rw [exec_linkUp, linkTrained_die w h]
    rfl
  · rw [exec_creditReturn, creditReturn_nothing h, withDev_self]
  · rw [exec_creditReturn, creditReturn_credit h ha, takeCredits_returns hne hw hle, he]
  · rw [exec_creditReturn, creditReturn_credit h ha, takeCredits_returns hne hw hle, he]
  · rw [exec_creditReturn, creditReturn_credit h ha, takeCredits_drained hne hw he hd]

end Sys2Proof.Machine

/-! ### The tag check of a token (SPEC R47, R56, R88; obligation O10) -/

namespace Sys2Proof.Machine

theorem exec_tokenTagCheck (g : Fin 16) (t : Fin 17) (f : Fin 8) (errs : List (Fin 2048 × Ecc)) (s : State) :
    exec (.tokenTagCheck g t (f, errs)) s = .next (s.withDev (s.dev.tagCheck (fuKey g t f) (errs.map (fun c => (c.1.val, c.2))))) := rfl

/-- Taking the token that heads a unit's queue leaves the rest of the queue and owes one hop credit. -/
theorem popInbox_head {d : Dev} {k lane : Nat} {p : Packet} {tok : Token} {ps : List Packet} (hq : d.inbox (fuNode k) lane = p :: ps)
    (hb : p.body = .token tok) (hi : infieldBlock p = none) : d.popInbox (fuNode k) lane isToken = some (p, d.tookToken k lane ps) := by
  have ht : isToken p = true := by simp only [isToken, hb]
  simp only [Dev.popInbox, hq, List.find?_cons, ht, removeFirst, hi, Dev.tookToken, if_true]
  split
  · next hn => exact absurd hn (by simp)
  · rfl

theorem popInbox_none {d : Dev} {n : Node} {lane : Nat} {p : Packet → Bool} (h : (d.inbox n lane).find? p = none) :
    d.popInbox n lane p = none := by
  simp only [Dev.popInbox, h]

/-- How a token that the match stage refuses is held for its lane. -/
def Fu.holdFor (lane : Nat) (tok : Token) (u : Fu) : Fu := if lane = 4 then { u with heldM := some tok } else { u with held := some tok }

theorem tagCheck_lane4 {d : Dev} {k : Nat} {errs : List (Nat × Ecc)} {p : Packet} {tok : Token} {ps : List Packet} (hh : (d.fu k).heldM = none)
    (hq : d.inbox (fuNode k) 4 = p :: ps) (hb : p.body = .token tok) (hi : infieldBlock p = none) :
    d.tagCheck k errs = (d.tookToken k 4 ps).checkToken k tok errs (Fu.holdFor 4 tok) := by
  obtain ⟨⟩ := p
  cases hb
  simp only [Dev.tagCheck, hh, Option.isSome_none, Bool.false_eq_true, if_false, popInbox_head hq rfl hi]
  rfl

theorem tagCheck_lane0 {d : Dev} {k : Nat} {errs : List (Nat × Ecc)} {p : Packet} {tok : Token} {ps : List Packet} (hh : (d.fu k).held = none)
    (h4 : (d.fu k).heldM ≠ none ∨ (d.inbox (fuNode k) 4).find? isToken = none)
    (hq : d.inbox (fuNode k) 0 = p :: ps) (hb : p.body = .token tok) (hi : infieldBlock p = none) :
    d.tagCheck k errs = (d.tookToken k 0 ps).checkToken k tok errs (Fu.holdFor 0 tok) := by
  have hnone : (if (d.fu k).heldM.isSome then none else d.popInbox (fuNode k) 4 isToken) = none := by
    rcases h4 with h4 | h4
    · rw [if_pos (Option.isSome_iff_ne_none.2 h4)]
    · rw [popInbox_none h4, ite_self]
  obtain ⟨⟩ := p
  cases hb
  simp only [Dev.tagCheck, hnone, hh, Option.isSome_none, Bool.false_eq_true, if_false, popInbox_head hq rfl hi]
  rfl

theorem checkToken_tested {d e : Dev} {k : Nat} {tok : Token} {errs : List (Nat × Ecc)} {hold : Fu → Fu} (h : d.tagTests k tok = some e) :
    d.checkToken k tok errs hold = e := by
  simp only [Dev.checkToken, h]

theorem checkToken_passed {d : Dev} {k : Nat} {tok : Token} {errs : List (Nat × Ecc)} {hold : Fu → Fu} (h : d.tagTests k tok = none) :
    d.checkToken k tok errs hold = if (d.matchTok k tok false errs).2 then (d.matchTok k tok false errs).1 else (d.matchTok k tok false errs).1.modFu k hold := by
  simp only [Dev.checkToken, h]

theorem class_test {tok : Token} (hcls : tok.tag.cls = 0 ∨ (tok.tag.cls = 4 ∧ tok.tag.graph = 0)) :
    (tok.tag.cls == 0 || (tok.tag.cls == 4 && tok.tag.graph == 0)) = true := by
  simpa only [Bool.or_eq_true, Bool.and_eq_true, beq_iff_eq] using hcls

section
variable {d : Dev} {k : Nat} {tok : Token}

theorem tagTests_badTag (h : Tag.crcOk tok.tag = false) : d.tagTests k tok = some (d.badTag k tok.tag) := by
  simp only [Dev.tagTests, h, Bool.not_false, if_true]

theorem tagTests_swept (hc : Tag.crcOk tok.tag = true) (ht : (d.fu k).tombs.any (fun y => y.1 == tok.tag.ctx) = true)
    (hm : d.isMarkAt (k / 8) tok = false) : d.tagTests k tok = some d := by
  simp only [Dev.tagTests, hc, ht, hm, Bool.not_true, Bool.not_false, Bool.true_and, Bool.false_eq_true, if_false, if_true]

/-- The token is not of a swept context, or is a mark for a HURDLE node. -/
def Dev.unswept (d : Dev) (k : Nat) (tok : Token) : Prop :=
  (d.fu k).tombs.any (fun y => y.1 == tok.tag.ctx) = false ∨ d.isMarkAt (k / 8) tok = true

theorem unswept_test (h : d.unswept k tok) : ((d.fu k).tombs.any (fun x => x.1 == tok.tag.ctx) && !d.isMarkAt (k / 8) tok) = false := by
  rcases h with h | h
  · rw [h, Bool.false_and]
  · rw [h, Bool.not_true, Bool.and_false]

variable (hc : Tag.crcOk tok.tag = true) (hs : d.unswept k tok)
include hc hs

theorem tagTests_misroute (ha : d.addressed k tok.tag = false) :
    d.tagTests k tok = some ((d.setBit (esStatus k) 1 true).fuError k tok.tag (Token.replay tok) stMISROUTE (misrouteDetail tok.tag)) := by
  simp only [Dev.tagTests, hc, unswept_test hs, ha, Bool.not_true, Bool.not_false, Bool.false_eq_true, if_false, if_true, misrouteDetail]

variable (ha : d.addressed k tok.tag = true)
include ha

theorem tagTests_class (h0 : tok.tag.cls ≠ 0) (h4 : ¬ (tok.tag.cls = 4 ∧ tok.tag.graph = 0)) :
    d.tagTests k tok = some ((d.setBit (esStatus k) 1 true).fuError k tok.tag (Token.replay tok) stFORMAT 2) := by
  have hcls : (tok.tag.cls == 0 || (tok.tag.cls == 4 && tok.tag.graph == 0)) = false := by
    simp only [Bool.or_eq_false_iff, beq_eq_false_iff_ne, ne_eq, h0, not_false_eq_true, true_and, Bool.and_eq_false_iff]
    exact Decidable.not_and_iff_or_not.1 h4
  simp only [Dev.tagTests, hc, unswept_test hs, ha, hcls, Bool.not_true, Bool.not_false, Bool.false_eq_true, if_false, if_true]

variable (hcls : tok.tag.cls = 0 ∨ (tok.tag.cls = 4 ∧ tok.tag.graph = 0))
include hcls

theorem tagTests_port3 (h3 : tok.tag.port = 3) :
    d.tagTests k tok = some ((d.setBit (esStatus k) 1 true).fuError k tok.tag (Token.replay tok) stFORMAT 1) := by
  have h3' : (tok.tag.port == 3) = true := beq_iff_eq.2 h3
  simp only [Dev.tagTests, hc, unswept_test hs, ha, class_test hcls, h3', Bool.not_true, Bool.false_eq_true, if_false, if_true]

variable (h3 : tok.tag.port ≠ 3)
include h3

theorem tagTests_mask (hm : (maskPorts (d.maskOf (k / 8) tok.tag.node.toNat) tok.tag.port.toNat).contains tok.tag.port.toNat = false) :
    d.tagTests k tok = some ((d.setBit (esStatus k) 1 true).fuError k tok.tag (Token.replay tok) stFORMAT 4) := by
  have h3' : (tok.tag.port == 3) = false := beq_eq_false_iff_ne.2 h3
  simp only [Dev.tagTests, hc, unswept_test hs, ha, class_test hcls, h3', hm, Bool.not_true, Bool.not_false, Bool.false_eq_true, if_false, if_true]

variable (hm : (maskPorts (d.maskOf (k / 8) tok.tag.node.toNat) tok.tag.port.toNat).contains tok.tag.port.toNat = true)
include hm

theorem tagTests_reservedType (hp : 8 < Token.ptype tok) :
    d.tagTests k tok = some ((d.setBit (esStatus k) 1 true).fuError k tok.tag (Token.replay tok) stFORMAT 3) := by
  have h3' : (tok.tag.port == 3) = false := beq_eq_false_iff_ne.2 h3
  simp only [Dev.tagTests, hc, unswept_test hs, ha, class_test hcls, h3', hm, hp, Bool.not_true, Bool.false_eq_true, if_false, if_true]

theorem tagTests_pass (hp : Token.ptype tok ≤ 8) : d.tagTests k tok = none := by
  have h3' : (tok.tag.port == 3) = false := beq_eq_false_iff_ne.2 h3
  simp only [Dev.tagTests, hc, unswept_test hs, ha, class_test hcls, h3', hm, Nat.not_lt.2 hp, Bool.not_true, Bool.false_eq_true, if_false]

end

/-- Settles O10: the tests of the tag check exclude each other in their order. -/
theorem tagCheckOfATokenInOrder : Obligations.TagCheckOfATokenInOrder := by
  unfold Obligations.TagCheckOfATokenInOrder
  intro g t f errs s lane p tok ps k hlane hq hb hi d m sticky x
  have hrun : s.dev.tagCheck k (errs.map (fun c => (c.1.val, c.2))) = d.checkToken k tok (errs.map (fun c => (c.1.val, c.2))) (Fu.holdFor lane tok) := by
    rcases hlane with ⟨rfl, hh⟩ | ⟨rfl, hh, h4⟩
    · exact tagCheck_lane4 hh hq hb hi
    · exact tagCheck_lane0 hh h4 hq hb hi
  rw [exec_tokenTagCheck, hrun]
  refine ⟨fun hc => ?_, fun hc ht hm => ?_, fun hc hs => ⟨fun ha => ?_, fun ha => ⟨fun h0 h4 => ?_, fun hcls => ⟨fun h3 => ?_, fun h3 hm => ?_, fun h3 hm hp => ?_,
    fun h3 hm hp => ⟨fun hx => ?_, fun hx h0 => ?_, fun hx h4 => ?_⟩⟩⟩⟩⟩
  · rw [checkToken_tested (tagTests_badTag hc)]
  · rw [checkToken_tested (tagTests_swept hc ht hm)]
  · rw [checkToken_tested (tagTests_misroute hc hs ha)]
  · rw [checkToken_tested (tagTests_class hc hs ha h0 h4)]
  · rw [checkToken_tested (tagTests_port3 hc hs ha hcls h3)]
  · rw [checkToken_tested (tagTests_mask hc hs ha hcls h3 hm)]
  · rw [checkToken_tested (tagTests_reservedType hc hs ha hcls h3 hm hp)]
  · rw [checkToken_passed (tagTests_pass hc hs ha hcls h3 hm hp), if_pos hx]
  · rw [checkToken_passed (tagTests_pass hc hs ha hcls h3 hm hp), if_neg (Bool.eq_false_iff.1 hx), h0]
    rfl
  · rw [checkToken_passed (tagTests_pass hc hs ha hcls h3 hm hp), if_neg (Bool.eq_false_iff.1 hx), h4]
    rfl

end Sys2Proof.Machine

/-! ### The match stage (SPEC R62, R66, R67, R71, R77, R171; obligation O11) -/

namespace Sys2Proof.Machine

theorem exec_tagCheckRetry (g : Fin 16) (t : Fin 17) (f : Fin 8) (errs : List (Fin 2048 × Ecc)) (s : State) :
    exec (.tagCheckRetry g t (f, errs)) s = .next (s.withDev (s.dev.tagRetry (fuKey g t f) (errs.map (fun c => (c.1.val, c.2))))) := rfl

theorem retryFills_none {d : Dev} {k : Nat} (h : (d.fu k).fills.all (fun f => !f.ret) = true) : d.retryFills k = d := by
  have : (d.fu k).fills.filter (·.ret) = [] := List.filter_eq_nil_iff.2 (fun f hf => by simpa using List.all_eq_true.1 h f hf)
  rw [Dev.retryFills, this, List.foldl_nil]

/-- The device that TAG_CHECK_RETRY starts from: OFL_FULL cleared, to be set again where a token finds no room. -/
def Dev.retryStart (d : Dev) (k : Nat) : Dev := d.modFu k (fun u => { u with oflFull := false })

/-- The device as TAG_CHECK_RETRY leaves it once the held token of L0 is accepted. -/
def Dev.acceptedHeld (x : Dev) (k : Nat) : Dev := ((x.modFu k (fun u => { u with held := none })).progress (k / 136)).oflSettle k

/-- The device after the entries of the key's set are read with the errors given. -/
def Dev.setRead (d : Dev) (k : Nat) (key : W64) (errs : List (Nat × Ecc)) : Dev := d.readErrs k (d.setOf k key) errs

/-- The entries that wait for the key in its set and in the protection pool. -/
def Dev.partners (d : Dev) (k : Nat) (key : W64) : List (Loc × Token) := (d.fu k).waiting (d.setOf k key) key

section
variable {d : Dev} {k : Nat} {tok : Token} {errs : List (Nat × Ecc)}

theorem retryHeld_none {lift : Fu → Fu} : d.retryHeld k errs none lift = d := rfl

theorem tagRetry_eq : d.tagRetry k errs =
    ((((d.retryStart k).retryFills k).retryHeld k errs (((d.retryStart k).retryFills k).fu k).heldM (fun u => { u with heldM := none })).retryHeld k errs
      ((((d.retryStart k).retryFills k).retryHeld k errs (((d.retryStart k).retryFills k).fu k).heldM (fun u => { u with heldM := none })).fu k).held
      (fun u => { u with held := none })).oflSettle k := rfl

theorem tagRetry_held (hh : ((d.retryStart k).fu k).held = some tok) (hm : ((d.retryStart k).fu k).heldM = none)
    (hf : ((d.retryStart k).fu k).fills.all (fun f => !f.ret) = true) :
    d.tagRetry k errs = ((d.retryStart k).retryHeld k errs (some tok) (fun u => { u with held := none })).oflSettle k := by
  rw [tagRetry_eq, retryFills_none hf, hm, retryHeld_none, hh]

theorem retryHeld_accepted {x : Dev} (h : d.matchTok k tok false errs = (x, true)) :
    (d.retryHeld k errs (some tok) (fun u => { u with held := none })).oflSettle k = x.acceptedHeld k := by
  simp only [Dev.retryHeld, h, if_true, Dev.acceptedHeld]

theorem retryHeld_kept {x : Dev} (h : d.matchTok k tok false errs = (x, false)) :
    (d.retryHeld k errs (some tok) (fun u => { u with held := none })).oflSettle k = x.oflSettle k := by
  simp only [Dev.retryHeld, h, Bool.false_eq_true, if_false]

theorem fireWith_room {w : List (Loc × Token)} (h : d.fireRoom k (firingOf tok.tag.node (w.map (·.2) ++ [tok])) = true) :
    d.fireWith k w tok = ((w.foldl (fun (d : Dev) l => d.modFu k (fun u => u.consume l.1)) d).enable k (firingOf tok.tag.node (w.map (·.2) ++ [tok])), true) := by
  simp only [Dev.fireWith, h, if_true]

theorem fireWith_full {w : List (Loc × Token)} (h : d.fireRoom k (firingOf tok.tag.node (w.map (·.2) ++ [tok])) = false) :
    d.fireWith k w tok = (d, false) := by
  simp only [Dev.fireWith, h, Bool.false_eq_true, if_false]

/-- A token whose mask needs no other port, of FLOW 0, goes to the issue queue. -/
theorem enable_solo (hf : tok.tag.flow = 0) :
    d.enable k (firingOf tok.tag.node [tok]) = d.modFu k (fun u => { u with issue := u.issue ++
      [{ lvl := d.eprio (k / 8) (firingOf tok.tag.node [tok]), fu := k, fir := firingOf tok.tag.node [tok] }] }) :=
  if_pos hf

theorem matchTok_solo (hp : (maskPorts (d.maskOf (k / 8) tok.tag.node.toNat) tok.tag.port.toNat).all (· == tok.tag.port.toNat) = true) :
    d.matchTok k tok false errs = d.fireWith k [] tok := by
  simp only [Dev.matchTok, hp, if_true]

/-! A token that needs partners. -/

variable (hp : (maskPorts (d.maskOf (k / 8) tok.tag.node.toNat) tok.tag.port.toNat).all (· == tok.tag.port.toNat) = false)
include hp

theorem matchTok_fillWait (hf : (d.fu k).fills.any (fun f => f.key == keyOf tok.tag) = true) (hl : (d.fu k).fillW.length < 16) :
    d.matchTok k tok false errs = (d.setFu k { d.fu k with fillW := (d.fu k).fillW ++ [{ tok := tok }] }, true) := by
  simp only [Dev.matchTok, hp, hf, hl, Bool.not_false, Bool.true_and, Bool.false_eq_true, if_false, if_true]

variable (hf : (d.fu k).fills.any (fun f => f.key == keyOf tok.tag) = false)
include hf

theorem matchTok_dup {x : Dev} (hx : d.setRead k (keyOf tok.tag) errs = x)
    (hw : (x.partners k (keyOf tok.tag)).any (fun e => e.2.tag.port == tok.tag.port) = true) :
    d.matchTok k tok false errs = (x.dupOperand k tok, true) := by
  subst hx
  simp only [Dev.setRead, Dev.partners] at hw
  simp only [Dev.matchTok, hp, hf, hw, Bool.not_false, Bool.true_and, Bool.false_eq_true, if_false, if_true, Dev.setRead]

variable {x : Dev} (hx : d.setRead k (keyOf tok.tag) errs = x)
  (hw : (x.partners k (keyOf tok.tag)).any (fun e => e.2.tag.port == tok.tag.port) = false)
include hx hw

theorem matchTok_fires (ha : (maskPorts (d.maskOf (k / 8) tok.tag.node.toNat) tok.tag.port.toNat).all
      (fun p => p == tok.tag.port.toNat || (x.partners k (keyOf tok.tag)).any (fun e => e.2.tag.port.toNat == p)) = true) :
    d.matchTok k tok false errs = x.fireWith k (x.partners k (keyOf tok.tag)) tok := by
  subst hx
  simp only [Dev.setRead, Dev.partners] at hw ha
  simp only [Dev.matchTok, hp, hf, hw, ha, Bool.not_false, Bool.true_and, Bool.false_eq_true, if_false, if_true, Dev.setRead, Dev.partners]

theorem matchTok_inserts (ha : (maskPorts (d.maskOf (k / 8) tok.tag.node.toNat) tok.tag.port.toNat).all
      (fun p => p == tok.tag.port.toNat || (x.partners k (keyOf tok.tag)).any (fun e => e.2.tag.port.toNat == p)) = false)
    (hm : x.filterMaybe k (keyOf tok.tag) = false) :
    d.matchTok k tok false errs = x.insertTok k tok := by
  subst hx
  simp only [Dev.setRead, Dev.partners] at hw ha hm
  simp only [Dev.matchTok, hp, hf, hw, ha, hm, Bool.not_false, Bool.true_and, Bool.false_eq_true, if_false, Dev.setRead]

end

section
variable {d : Dev} {k n : Nat} {tok : Token}

/-- The slots of the protection pool, and those of a set. -/
def poolSlots : List Nat := (List.range 64).map (· + 1984)
def setSlots (st : Nat) : List Nat := (List.range 8).map (· + 8 * st)

theorem insertTok_pool (hpr : tok.tag.prio = 15) (hs : (d.fu k).emptySlot poolSlots = some n) :
    d.insertTok k tok = ((d.setFu k { d.fu k with slice := mput (d.fu k).slice n { tok := tok, age := 0, st := 2 } }).esHwm k, true) := by
  rw [poolSlots] at hs
  simp only [Dev.insertTok, hpr, hs, if_true]

/-- What insertTok does with a token that has no place in the protection pool. -/
theorem noPool (hp : tok.tag.prio ≠ 15 ∨ (d.fu k).emptySlot poolSlots = none) :
    (if tok.tag.prio = 15 then (d.fu k).emptySlot ((List.range 64).map (· + 1984)) else none) = none := by
  rcases hp with hp | hp
  · exact if_neg hp
  · exact ite_eq_right_iff.2 (fun _ => hp)

variable (hp : tok.tag.prio ≠ 15 ∨ (d.fu k).emptySlot poolSlots = none)
include hp

theorem insertTok_way (hw : (d.fu k).emptySlot (setSlots (d.setOf k (keyOf tok.tag))) = some n) :
    d.insertTok k tok = ((d.setFu k ((d.fu k).place (d.setOf k (keyOf tok.tag)) n tok)).esHwm k, true) := by
  rw [setSlots] at hw
  simp only [Dev.insertTok, noPool hp, hw]

theorem insertTok_spills {e : Entry} {d2 : Dev} (hw : (d.fu k).emptySlot (setSlots (d.setOf k (keyOf tok.tag))) = none)
    (hv : (d.fu k).victim (d.setOf k (keyOf tok.tag)) = some (n, e)) (h2 : d.toSpill k e = .ok d2) :
    d.insertTok k tok = ((d2.modFu k (fun u => u.place (d.setOf k (keyOf tok.tag)) n tok)).esHwm k, true) := by
  rw [setSlots] at hw
  simp only [Dev.insertTok, noPool hp, hw, hv, h2]

end

/-- Settles O11: a held token of L0 goes through the match stage once, by the first case that applies. -/
theorem matchFiresOrWaits : Obligations.MatchFiresOrWaits := by
  unfold Obligations.MatchFiresOrWaits
  intro g t f errs s tok k d key ports hh hm hfl accepted solo
  rw [exec_tagCheckRetry, show s.dev.tagRetry (fuKey g t f) (errs.map (fun c => (c.1.val, c.2))) = _ from tagRetry_held hh hm hfl]
  have acc {x : Dev} (h : d.matchTok k tok false (errs.map (fun c => (c.1.val, c.2))) = (x, true)) :
      ((s.dev.retryStart k).retryHeld k (errs.map (fun c => (c.1.val, c.2))) (some tok) (fun u => { u with held := none })).oflSettle k = accepted x :=
    retryHeld_accepted h
  have kept {x : Dev} (h : d.matchTok k tok false (errs.map (fun c => (c.1.val, c.2))) = (x, false)) :
      ((s.dev.retryStart k).retryHeld k (errs.map (fun c => (c.1.val, c.2))) (some tok) (fun u => { u with held := none })).oflSettle k = x.oflSettle k :=
    retryHeld_kept h
  refine ⟨fun hp h0 hr => ?_, fun hp hr => ?_, fun hp hf hl => ?_, fun hp hf => ?_⟩
  · rw [acc ((matchTok_solo hp).trans (fireWith_room hr)), List.map_nil, List.nil_append, List.foldl_nil, enable_solo h0]
  · rw [kept ((matchTok_solo hp).trans (fireWith_full hr))]
  · rw [acc (matchTok_fillWait hp hf hl)]
  intro d' u st w full way slot
  refine ⟨fun hw => ?_, fun hw => ⟨fun ha => ⟨fun hr => ?_, fun hr => ?_⟩, fun ha hn => ⟨fun n h15 hs => ?_, fun n h15 hs => ?_, fun n e d2 h15 hs hv h2 => ?_⟩⟩⟩
  · rw [acc (matchTok_dup hp hf rfl hw)]
    rfl
  · rw [acc ((matchTok_fires hp hf rfl hw ha).trans (fireWith_room hr))]
    rfl
  · rw [kept ((matchTok_fires hp hf rfl hw ha).trans (fireWith_full hr))]
    rfl
  · rw [acc ((matchTok_inserts hp hf rfl hw ha hn).trans (insertTok_pool h15 hs))]
    rfl
  · rw [acc ((matchTok_inserts hp hf rfl hw ha hn).trans (insertTok_way h15 hs))]
    rfl
  · rw [acc ((matchTok_inserts hp hf rfl hw ha hn).trans (insertTok_spills h15 hs hv h2))]

end Sys2Proof.Machine

/-! ### The scrubber, the rebuilds and the overflow area's responses (SPEC R62, R63, R71 to R77, R79, R90; obligation O12) -/

namespace Sys2Proof.Machine

theorem exec_esScrub (g : Fin 16) (t : Fin 17) (f : Fin 8) (e : Ecc) (s : State) :
    exec (.esScrub g t f e) s = .next (s.withDev (s.dev.esScrub (fuKey g t f) e)) := rfl
theorem exec_rebuild (g : Fin 16) (t : Fin 17) (f : Fin 8) (v : W32) (s : State) :
    exec (.rebuild g t f v) s = .next (s.withDev (s.dev.writes (fuReg g t f 0x14) (s.dev.rebuildStart (fuKey g t f) v))) := rfl
theorem exec_rebuildDone (g : Fin 16) (t : Fin 17) (f : Fin 8) (s : State) :
    exec (.rebuildDone g t f) s = .next (s.withDev (s.dev.rebuildDone (fuKey g t f))) := rfl
theorem exec_overflowRebuildDone (g : Fin 16) (t : Fin 17) (f : Fin 8) (bad : List Nat) (s : State) :
    exec (.overflowRebuildDone g t (f, bad)) s = .next (s.withDev (s.dev.overflowRebuild (fuKey g t f) bad)) := rfl
theorem exec_spillWriteIssue (g : Fin 16) (t : Fin 17) (f : Fin 8) (s : State) :
    exec (.spillWriteIssue g t f) s = .next (s.withDev (s.dev.spillIssue (fuKey g t f))) := rfl
theorem exec_spillWriteResponse (g : Fin 16) (t : Fin 17) (f : Fin 8) (s : State) :
    exec (.spillWriteResponse g t f) s = .next (s.withDev (s.dev.spillResponse (fuKey g t f))) := rfl
theorem exec_fillResponse (g : Fin 16) (t : Fin 17) (f : Fin 8) (errs : List (Fin 8 × Ecc)) (s : State) :
    exec (.fillResponse g t (f, errs)) s = .next (s.withDev (s.dev.fillResponse (fuKey g t f) (errs.map (fun c => (c.1.val, c.2))))) := rfl
theorem exec_overflowDeleteDone (g : Fin 16) (t : Fin 17) (f : Fin 8) (s : State) :
    exec (.overflowDeleteDone g t f) s = .next (s.withDev (s.dev.deleteDone (fuKey g t f))) := rfl

section
variable {d : Dev} {k : Nat}

/-- The scrubber's place moved on to the next entry. -/
def Dev.scrubbed (d : Dev) (k : Nat) : Dev := d.setFu k { d.fu k with scrub := ((d.fu k).scrub + 1) % 2048 }

theorem esScrub_eq (e : Ecc) : d.esScrub k e = (d.scrubbed k).entryEcc k (d.fu k).scrub e := rfl

theorem entryEcc_ok {n : Nat} : d.entryEcc k n .ok = d := rfl

theorem entryEcc_ce {n : Nat} : d.entryEcc k n .ce = d.addSat16 (fuRegK k 0x30) 1 := rfl

theorem entryEcc_noEntry {n : Nat} {tagOk : Bool} (h : (d.fu k).slice.find? (fun c => c.1 == n) = none) : d.entryEcc k n (.ue tagOk) = d := by
  simp only [Dev.entryEcc, h]

/-- An uncorrectable entry taken out, with the sticky bit and the cluster's event. -/
def Dev.entryLost (d : Dev) (k n : Nat) : Dev :=
  ((d.modFu k (fun u => { u with slice := mdel u.slice n })).setBit (esStatus k) 3 true).raiseTile (k / 8) 3 (k % 8)

theorem entryEcc_entry {n : Nat} {tagOk : Bool} {c : Nat × Entry} (h : (d.fu k).slice.find? (fun c => c.1 == n) = some c) :
    d.entryEcc k n (.ue tagOk) = if tagOk then (d.entryLost k c.1).fuError k c.2.tok.tag (Token.replay c.2.tok) stES_UNCORRECTABLE c.2.tok.tag.node.toNat else d.entryLost k c.1 := by
  have hc : c.1 = n := by simpa using List.find?_some h
  simp only [Dev.entryEcc, h, Dev.entryLost, hc]

theorem rebuildStart_set {v : W32} (h : v.getLsbD 1 = true) : d.rebuildStart k v = d.modFu k (fun u => { u with rebuild := true }) := if_pos h

theorem rebuildStart_clear {v : W32} (h : v.getLsbD 1 = false) : d.rebuildStart k v = d := if_neg (Bool.eq_false_iff.1 h)

theorem rebuildDone_running (h : (d.fu k).rebuild = true) : d.rebuildDone k = d.modFu k (fun u => { u with rebuild := false, filter := d.rebuiltFilter k }) := if_pos h

theorem rebuildDone_idle (h : (d.fu k).rebuild = false) : d.rebuildDone k = d := if_neg (Bool.eq_false_iff.1 h)

theorem rebuiltFilter_empty (hb : (d.fu k).bitmap = []) (hs : (d.fu k).spill = []) : d.rebuiltFilter k = [] := by
  simp only [Dev.rebuiltFilter, hb, hs, List.filter_nil, List.map_nil, List.append_nil, List.foldl_nil]

theorem overflowRebuild_running {bad : List Nat} (h : (d.fu k).rebuild = true) :
    d.overflowRebuild k bad =
      (let e := d.modFu k (fun u => { u with bitmap := d.occupied k bad, rebuild := false })
       (e.modFu k (fun u => { u with filter := e.rebuiltFilter k })).spilled k (d.occupied k bad).length (d.rfld (fuRegK k 0xC) 17 0)) := if_pos h

theorem overflowRebuild_idle {bad : List Nat} (h : (d.fu k).rebuild = false) : d.overflowRebuild k bad = d := if_neg (Bool.eq_false_iff.1 h)

/-! The spill buffer. -/

theorem spillIssue_waits (h : (d.fu k).spill.find? (fun e => !e.issued) = none ∨ d.l1Credit (fuNode k) = false ∨ d.respRoom k = false) : d.spillIssue k = d := by
  simp only [Dev.spillIssue]
  split
  · rfl
  · next e he =>
    refine if_pos ?_
    rcases h with h | h | h
    · rw [he] at h
      cases h
    · rw [h]; rfl
    · rw [h, Bool.and_false]; rfl

/-- The buffer with its oldest unissued entry issued under the next tag. -/
def Dev.spillTagged (d : Dev) (k : Nat) : Dev :=
  d.setFu k { d.fu k with
    nextTag := (d.fu k).nextTag + 1
    spill := replaceFirst (fun x => !x.issued) (fun x => { x with issued := true, tag := (d.fu k).nextTag % 4096 }) (d.fu k).spill }

theorem spillIssue_issues {e : SpillEnt} (h : (d.fu k).spill.find? (fun e => !e.issued) = some e) (hc : d.l1Credit (fuNode k) = true) (hr : d.respRoom k = true) :
    d.spillIssue k =
      (let x := (d.spillTagged k).filterMove k (keyOf e.ent.tok.tag) true
       x.request (fuNode k) (hbmDest (x.oflAddr k e.slot)) false
        { op := 6, size := 4, addr := BitVec.ofNat 48 (x.oflAddr k e.slot), req := fuDest k, rtag := BitVec.ofNat 12 ((d.fu k).nextTag % 4096), prio := e.ent.tok.tag.prio
          ctx := e.ent.tok.tag.ctx, graph := e.ent.tok.tag.graph, data := entryBytes { e.ent with st := 1 } }) := by
  simp only [Dev.spillIssue, h, hc, hr, Bool.and_self, Bool.not_true, Bool.false_eq_true, if_false]
  rfl

variable {r : MemResp} {d' : Dev}

theorem spillResponse_done {e : SpillEnt} (h : d.takeResp (fuNode k) (fun r => r.op == 6) = some (r, d'))
    (he : (d'.fu k).spill.find? (fun e => e.issued && e.tag == r.rtag.toNat) = some e) :
    d.spillResponse k =
      (let x := ((d'.setFu k { d'.fu k with spill := removeFirst (· == e) (d'.fu k).spill }).spilled k 1 0).forceSpills k 8
       (if e.fired then x.deleteSlot k e.slot (keyOf e.ent.tok.tag) e.ent.tok.tag else x).sweepAcks k) := by
  simp only [Dev.spillResponse, h, he]

theorem spillResponse_none (h : d.takeResp (fuNode k) (fun r => r.op == 6) = none) : d.spillResponse k = d := by
  simp only [Dev.spillResponse, h]

/-! Fills. -/

/-- The entries of the fill's key among the slots that its response brings. -/
def Fill.found (f : Fill) (r : MemResp) : List (Nat × Entry) :=
  (((List.range 8).map (fun i => (i, entryOfBytes ((r.data.drop (32 * i)).take 32)))).filter (fun x => x.2.st == 1 && keyOf x.2.tok.tag == f.key)).take 2

/-- What a bucket without an entry of the key leaves: the next bucket asked, or the fill done. -/
def Dev.fillMissed (d : Dev) (k : Nat) (e : Fill) : Dev :=
  match e.buckets.tail with
  | [] => (((d.setFu k { d.fu k with fills := replaceFirst (· == e) (fun f => { f with ret := true }) (d.fu k).fills }).fillStep
      k { e with ret := true }).oflSettle k).sweepAcks k
  | b :: bs => (d.setFu k { d.fu k with fills := replaceFirst (· == e) (fun f => { f with buckets := b :: bs }) (d.fu k).fills }).askBucket
      k e.key e.tag b ((((d.fu k).fillW.find? (fun w => keyOf w.tok.tag == e.key)).map (·.tok.tag)).getD {})

/-- What a bucket with entries of the key leaves: their slots and counts given back, and the fill going on with them. -/
def Dev.fillHit (d : Dev) (k : Nat) (errs : List (Nat × Ecc)) (e : Fill) (found : List (Nat × Entry)) : Dev :=
  let slots := found.map (fun x => e.buckets.headD 0 * 8 + x.1)
  let d := d.setFu k { d.fu k with fills := replaceFirst (· == e) (fun f => { f with ret := true }) (d.fu k).fills, bitmap := (d.fu k).bitmap.filter (fun s => !slots.contains s) }
  let d := found.foldl (fun d x => (d.filterMove k (keyOf x.2.tok.tag) false).spilled k 0 1) d
  let y := found.foldl (fun (p : Dev × List Token) x =>
    let z := p.1.fillEntry k x.2.tok (((errs.find? (fun c => c.1 == x.1)).map (·.2)).getD .ok)
    (z.1, p.2 ++ z.2.toList)) (d, [])
  ((y.1.fillStep k { e with ret := true, ents := y.2 }).oflSettle k).sweepAcks k

theorem fillResponse_eq {errs : List (Nat × Ecc)} {e : Fill} (h : d.takeResp (fuNode k) (fun r => r.op == 7) = some (r, d'))
    (he : (d'.fu k).fills.find? (fun f => f.tag == r.rtag.toNat && !f.ret) = some e) :
    d.fillResponse k errs = if (e.found r).isEmpty then d'.fillMissed k e else d'.fillHit k errs e (e.found r) := by
  unfold Dev.fillResponse
  simp -zeta only [h]
  extract_lets u
  rw [show u.fills.find? (fun f => f.tag == r.rtag.toNat && !f.ret) = some e from he]
  dsimp -zeta only
  extract_lets found
  rw [show e.found r = found from rfl]
  clear_value found
  rfl

theorem fillResponse_none {errs : List (Nat × Ecc)} (h : d.takeResp (fuNode k) (fun r => r.op == 7) = none) : d.fillResponse k errs = d := by
  simp only [Dev.fillResponse, h]

theorem deleteDone_frees {x : Nat × W64} (h : d.takeResp (fuNode k) (fun r => r.op == 8) = some (r, d'))
    (hx : (d'.fu k).dels.find? (fun x => x.1 % 4096 == r.rtag.toNat) = some x) :
    d.deleteDone k = (((d'.setFu k { d'.fu k with
      dels := removeFirst (· == x) (d'.fu k).dels, bitmap := (d'.fu k).bitmap.filter (· != x.1) }).filterMove k x.2 false).spilled k 0 1).sweepAcks k := by
  simp only [Dev.deleteDone, h, hx]

theorem deleteDone_none (h : d.takeResp (fuNode k) (fun r => r.op == 8) = none) : d.deleteDone k = d := by
  simp only [Dev.deleteDone, h]

end

/-- Settles O12: each command of the overflow area, by the cases of what waits for it. -/
theorem scrubAndRebuild : Obligations.ScrubAndRebuild := by
  unfold Obligations.ScrubAndRebuild
  refine ⟨fun g t f s => ⟨?_, ?_, fun tagOk h => ?_, fun c h => ⟨?_, ?_⟩⟩, fun g t f v s h => ?_, fun g t f v s h => ?_, fun g t f s h => ⟨?_, fun hb hs => ?_⟩,
    fun g t f bad s h => ?_, fun g t f bad s h => ⟨?_, ?_⟩, fun g t f s h => ?_, fun g t f s e h hc hr => ?_, fun g t f s r d e h he => ?_,
    fun g t f errs s r d e => ?_, fun g t f s r d x h hx => ?_, fun g t f errs s h => ⟨?_, ?_, ?_⟩⟩
  · rw [exec_esScrub, esScrub_eq, entryEcc_ok]
    rfl
  · rw [exec_esScrub, esScrub_eq, entryEcc_ce]
    rfl
  · rw [exec_esScrub, esScrub_eq, entryEcc_noEntry (d := s.dev.scrubbed (fuKey g t f)) h]
    rfl
  · rw [exec_esScrub, esScrub_eq, entryEcc_entry (d := s.dev.scrubbed (fuKey g t f)) h, if_neg Bool.false_ne_true]
    rfl
  · rw [exec_esScrub, esScrub_eq, entryEcc_entry (d := s.dev.scrubbed (fuKey g t f)) h, if_pos rfl]
    rfl
  · rw [exec_rebuild, rebuildStart_set h]
  · rw [exec_rebuild, rebuildStart_clear h, writes_self, withDev_self]
  · rw [exec_rebuildDone, rebuildDone_running h]
  · rw [exec_rebuildDone, rebuildDone_running h, rebuiltFilter_empty hb hs]
  · rw [exec_overflowRebuildDone, overflowRebuild_running h]
  · rw [exec_rebuildDone, rebuildDone_idle h, withDev_self]
  · rw [exec_overflowRebuildDone, overflowRebuild_idle h, withDev_self]
  · rw [exec_spillWriteIssue, spillIssue_waits h, withDev_self]
  · rw [exec_spillWriteIssue, spillIssue_issues h hc hr]
    rfl
  · rw [exec_spillWriteResponse, spillResponse_done h he]
  · intro k u h he found
    refine ⟨fun b bs (hfound : e.found r = []) hb => ?_, fun (hfound : e.found r = []) hb => ?_, fun (hfound : e.found r ≠ []) => ?_⟩
    · rw [exec_fillResponse, fillResponse_eq h he, if_pos (List.isEmpty_iff.2 hfound), Dev.fillMissed, hb]
    · rw [exec_fillResponse, fillResponse_eq h he, if_pos (List.isEmpty_iff.2 hfound), Dev.fillMissed, hb]
    · rw [exec_fillResponse, fillResponse_eq h he, if_neg (fun hn => hfound (List.isEmpty_iff.1 hn)), show e.found r = found from rfl]
      clear_value found
      rfl
  · rw [exec_overflowDeleteDone, deleteDone_frees h hx]
  · rw [exec_spillWriteResponse, spillResponse_none (h 6), withDev_self]
  · rw [exec_fillResponse, fillResponse_none (h 7), withDev_self]
  · rw [exec_overflowDeleteDone, deleteDone_none (h 8), withDev_self]

end Sys2Proof.Machine

/-! ### Contexts: faults, flags, sweeps and tombstones (SPEC R86, R88 to R90, R100, R109; obligation O13) -/

namespace Sys2Proof.Machine

theorem exec_ctxStarveTimeout (g : Fin 16) (s : State) : exec (.ctxStarveTimeout g) s = .next (s.withDev (s.dev.ctxStarve g)) := rfl
theorem exec_faultMessage (g : Fin 16) (s : State) : exec (.faultMessage g) s = .next (s.withDev (s.dev.faultMessage g)) := rfl
theorem exec_flagUpdate (g : Fin 16) (s : State) : exec (.flagUpdate g) s = .next (s.withDev (s.dev.flagUpdate g)) := rfl
theorem exec_sweepReceive (g : Fin 16) (t : Fin 17) (f : Fin 8) (c : BitVec 22) (s : State) :
    exec (.sweepReceive g t f c) s = .next (s.withDev (s.dev.sweepReceive (fuKey g t f) c)) := rfl
theorem exec_sweepOverflowDone (g : Fin 16) (t : Fin 17) (f : Fin 8) (s : State) :
    exec (.sweepOverflowDone g t f) s = .next (s.withDev (s.dev.sweepOverflow (fuKey g t f))) := rfl
theorem exec_sweepAckComplete (g : Fin 16) (c : BitVec 18) (s : State) :
    exec (.sweepAckComplete g c) s = .next (s.withDev (s.dev.sweepComplete g c.toNat)) := rfl
theorem exec_sweepGuardExpiry (g : Fin 16) (c : BitVec 18) (s : State) :
    exec (.sweepGuardExpiry g c) s = .next (s.withDev (s.dev.sweepGuard g c.toNat)) := rfl
theorem exec_tombstoneLapse (g : Fin 16) (t : Fin 17) (f : Fin 8) (c : BitVec 22) (s : State) :
    exec (.tombstoneLapse g t (f, c)) s = .next (s.withDev (s.dev.tombLapse (fuKey g t f) c)) := rfl

section
variable {d d' : Dev} {g k : Nat} {c : BitVec 22}

theorem ctxStarve_waiting (hw : (d.region g).pool.wait ≠ []) (hs : (d.region g).pool.starved = false) :
    d.ctxStarve g = ((d.modPool g (fun p => { p with starved := true })).setBit (ctxReg g 0x10) 0 true).raise (256 + 4 * g) 1 0 := by
  simp only [Dev.ctxStarve, hs, List.isEmpty_iff, hw, Bool.false_eq_true, or_self, if_false]

theorem ctxStarve_not (h : (d.region g).pool.wait = [] ∨ (d.region g).pool.starved = true) : d.ctxStarve g = d := by
  simp only [Dev.ctxStarve, List.isEmpty_iff, h, if_true]

theorem faultMessage_taken (h : d.takeMgmt (poolNode g) isFaultMsg = some (.fault c, d')) : d.faultMessage g = d'.setFault c := by
  simp only [Dev.faultMessage, h]

theorem faultMessage_none (h : d.takeMgmt (poolNode g) isFaultMsg = none) : d.faultMessage g = d := by
  simp only [Dev.faultMessage, h]

theorem setFault_used (h : cdState (d.ctxDesc c) = 1 ∨ cdState (d.ctxDesc c) = 3) :
    d.setFault c = (d.setCtxDesc c (d.ctxDesc c ||| BitVec.ofNat 64 (2 ^ 55))).noteFault c none :=
  if_neg (by omega)

theorem setFault_free (h : cdState (d.ctxDesc c) = 0 ∨ cdState (d.ctxDesc c) = 2) : d.setFault c = d := if_pos h

theorem flagUpdate_taken {x : BitVec 5} (h : d.takeMgmt (poolNode g) isFlagsMsg = some (.flags c x, d')) : d.flagUpdate g = d'.orFlags c x := by
  simp only [Dev.flagUpdate, h]

theorem flagUpdate_none (h : d.takeMgmt (poolNode g) isFlagsMsg = none) : d.flagUpdate g = d := by
  simp only [Dev.flagUpdate, h]

/-! Sweeps at an FU. -/

theorem sweepReceive_none (h : d.takeMgmt (fuNode k) (isSweep c) = none) : d.sweepReceive k c = d := by
  simp only [Dev.sweepReceive, h]

theorem sweepOverflow_none (h : (d.fu k).sweeps.find? (fun x => !x.ofl) = none) : d.sweepOverflow k = d := by
  simp only [Dev.sweepOverflow, h]

/-- The entry that a slot of the overflow area holds. -/
def Dev.oflEntry (d : Dev) (k n : Nat) : Entry := entryOfBytes (d.read (d.oflAddr k n) 32)

/-- The occupied slots that are neither being written nor being deleted. -/
def Fu.settledSlots (u : Fu) : List Nat := u.bitmap.filter (fun n => !u.spill.any (fun e => e.slot == n) && !u.dels.any (fun x => x.1 == n))

theorem sweepOverflow_sweeps {x : FuSweep} (h : (d.fu k).sweeps.find? (fun x => !x.ofl) = some x) :
    d.sweepOverflow k = ((d.fu k).settledSlots.foldl (fun (d : Dev) n =>
      if (d.oflEntry k n).st == 1 && (d.oflEntry k n).tok.tag.ctx == x.ctx then d.deleteSlot k n (keyOf (d.oflEntry k n).tok.tag) (d.oflEntry k n).tok.tag else d)
      (d.setFu k { d.fu k with sweeps := replaceFirst (fun x => !x.ofl) (fun x => { x with ofl := true }) (d.fu k).sweeps })).sweepAck k x.ctx := by
  simp only [Dev.sweepOverflow, h, Dev.oflEntry, Fu.settledSlots] <;> rfl

/-! Sweeps at the pool: acknowledgements, then the guard. -/

section
variable {i : Nat} {x : Sweep} (h : (d.region g).pool.sweeps.find? (fun x => x.ctx == BitVec.ofNat 22 (g * 2 ^ 18 + i)) = some x)
include h

theorem sweepComplete_all (hg : x.guard = false) (ha : d.sweepers.all (fun n => x.acked.contains n) = true) :
    d.sweepComplete g i = d.modPool g (fun p => { p with
      sweeps := replaceFirst (fun x => x.ctx == BitVec.ofNat 22 (g * 2 ^ 18 + i)) (fun x => { x with guard := true }) p.sweeps }) := by
  simp only [Dev.sweepComplete, h, hg, ha, Bool.not_false, Bool.and_self, if_true]

theorem sweepComplete_waits (ha : d.sweepers.all (fun n => x.acked.contains n) = false) : d.sweepComplete g i = d := by
  simp only [Dev.sweepComplete, h, ha, Bool.and_false, Bool.false_eq_true, if_false]

theorem sweepGuard_early (hg : x.guard = false) : d.sweepGuard g i = d := by
  simp only [Dev.sweepGuard, h, hg, Bool.false_and, Bool.false_eq_true, if_false]

theorem sweepGuard_ends (hg : x.guard = true) (ht : d.fus.all (fun u => u.2.tombs.all (fun x => x.1 != BitVec.ofNat 22 (g * 2 ^ 18 + i))) = true) :
    d.sweepGuard g i = (d.modPool g (fun p => { p with sweeps := removeFirst (fun x => x.ctx == BitVec.ofNat 22 (g * 2 ^ 18 + i)) p.sweeps })).returnCtx
      (BitVec.ofNat 22 (g * 2 ^ 18 + i)) := by
  simp only [Dev.sweepGuard, h, hg, ht, Bool.and_self, if_true]

theorem sweepGuard_tombs (ht : d.fus.all (fun u => u.2.tombs.all (fun x => x.1 != BitVec.ofNat 22 (g * 2 ^ 18 + i))) = false) : d.sweepGuard g i = d := by
  simp only [Dev.sweepGuard, h, ht, Bool.and_false, Bool.false_eq_true, if_false]

end

/-! Tombstones. -/

theorem tombLapse_none (h : (d.fu k).tombs.find? (fun x => x.1 == c) = none) : d.tombLapse k c = d := by
  simp only [Dev.tombLapse, h]

section
variable {x : BitVec 22 × Nat} (h : (d.fu k).tombs.find? (fun x => x.1 == c) = some x)
  (hx : ((d.fu k).tombs.takeWhile (fun y => y != x)).any (fun y => y.2 ≤ x.2) = false)
include h hx

theorem tombLapse_drops (hs : (d.fu k).sweeps.find? (fun x => !x.tomb) = none) :
    d.tombLapse k c = d.setFu k { d.fu k with tombs := removeFirst (· == x) (d.fu k).tombs } := by
  simp only [Dev.tombLapse, h, hx, hs, Bool.false_eq_true, if_false]

theorem tombLapse_enters {y : FuSweep} (hs : (d.fu k).sweeps.find? (fun x => !x.tomb) = some y) :
    d.tombLapse k c = (d.setFu k { d.fu k with
      tombs := removeFirst (· == x) (d.fu k).tombs ++ [(y.ctx, y.guard)], sweeps := replaceFirst (fun x => !x.tomb) (fun x => { x with tomb := true }) (d.fu k).sweeps }).sweepAck k y.ctx := by
  simp only [Dev.tombLapse, h, hx, hs, Bool.false_eq_true, if_false]

end
end

/-- Settles O13: each command of the contexts by the cases of what it finds. -/
theorem contextsFaultAndSweep : Obligations.ContextsFaultAndSweep := by
  unfold Obligations.ContextsFaultAndSweep
  refine ⟨fun g s hw hs => ?_, fun g s h => ?_, fun g s c d h => ⟨fun hc => ?_, fun hc => ?_⟩, fun g s c x d h => ?_, fun g s h => ?_, fun g s h => ?_,
    fun g t f c s h => ?_, fun g t f s => ⟨fun x h => ?_, fun h => ?_⟩, fun g c s x h hg => ⟨fun ha => ?_, fun ha => ?_, ?_⟩,
    fun g c s x => fun h hg => ⟨fun ht => ?_, fun ht => ?_⟩, fun g t f c s => ⟨fun h => ?_, fun x h hx => ⟨fun hs => ?_, fun y hs => ?_⟩⟩⟩
  · rw [exec_ctxStarveTimeout, ctxStarve_waiting hw hs]
  · rw [exec_ctxStarveTimeout, ctxStarve_not h, withDev_self]
  · rw [exec_faultMessage, faultMessage_taken h, setFault_used hc]
  · rw [exec_faultMessage, faultMessage_taken h, setFault_free hc]
  · rw [exec_flagUpdate, flagUpdate_taken h, Dev.orFlags]
  · rw [exec_faultMessage, faultMessage_none h, withDev_self]
  · rw [exec_flagUpdate, flagUpdate_none h, withDev_self]
  · rw [exec_sweepReceive, sweepReceive_none h, withDev_self]
  · rw [exec_sweepOverflowDone, sweepOverflow_sweeps h]
    rfl
  · rw [exec_sweepOverflowDone, sweepOverflow_none h, withDev_self]
  · rw [exec_sweepAckComplete, sweepComplete_all h hg ha]
  · rw [exec_sweepAckComplete, sweepComplete_waits h ha, withDev_self]
  · rw [exec_sweepGuardExpiry, sweepGuard_early h hg, withDev_self]
  · rw [exec_sweepGuardExpiry, sweepGuard_ends h hg ht]
  · rw [exec_sweepGuardExpiry, sweepGuard_tombs h ht, withDev_self]
  · rw [exec_tombstoneLapse, tombLapse_none h, withDev_self]
  · rw [exec_tombstoneLapse, tombLapse_drops h hx hs]
  · rw [exec_tombstoneLapse, tombLapse_enters h hx hs]

end Sys2Proof.Machine

/-! ### A sweep's arrival at an FU (SPEC R77, R88, R89, R195; obligation O14) -/

namespace Sys2Proof.Machine

/-! Frames: events, credits and messages leave the FUs and the tiles as they are. -/

/-- The FUs and the tiles of `e` are those of `d`. -/
structure SameUnits (d e : Dev) : Prop where
  fus : e.fus = d.fus
  tiles : e.tiles = d.tiles

theorem SameUnits.refl (d : Dev) : SameUnits d d := ⟨rfl, rfl⟩

theorem SameUnits.trans {a b c : Dev} (h : SameUnits a b) (h' : SameUnits b c) : SameUnits a c :=
  ⟨h'.fus.trans h.fus, h'.tiles.trans h.tiles⟩

theorem SameUnits.fu {d e : Dev} (h : SameUnits d e) (k : Nat) : e.fu k = d.fu k := by rw [Dev.fu, h.fus, Dev.fu]

theorem SameUnits.tile {d e : Dev} (h : SameUnits d e) (k : Nat) : e.tile k = d.tile k := by rw [Dev.tile, h.tiles, Dev.tile]

theorem SameUnits.foldl {α : Type} {f : Dev → α → Dev} (h : ∀ d x, SameUnits d (f d x)) : ∀ (l : List α) (d : Dev), SameUnits d (l.foldl f d)
  | [], d => .refl d
  | x :: xs, d => (h d x).trans (SameUnits.foldl h xs (f d x))

theorem modNet_sameUnits (d : Dev) (f : Net → Net) : SameUnits d (d.modNet f) := ⟨rfl, rfl⟩

theorem setReg_sameUnits (d : Dev) (a : Nat) (v : W32) : SameUnits d (d.setReg a v) := ⟨rfl, rfl⟩

theorem setFld_sameUnits (d : Dev) (a hi lo x : Nat) : SameUnits d (d.setFld a hi lo x) := setReg_sameUnits ..

theorem setBit_sameUnits (d : Dev) (a n : Nat) (b : Bool) : SameUnits d (d.setBit a n b) := setFld_sameUnits ..

theorem setEvtPending_sameUnits (d : Dev) (n : Nat) (b : Bool) : SameUnits d (d.setEvtPending n b) := setBit_sameUnits ..

theorem raiseWith_sameUnits (d : Dev) (src cause : Nat) (op : Option (W64 × Byte)) : SameUnits d (d.raiseWith src cause op) := by
  unfold Dev.raiseWith
  extract_lets d1 d2 cfg
  have h : SameUnits d d2 := (setFld_sameUnits ..).trans (setFld_sameUnits ..)
  clear_value cfg d2
  split
  · exact h
  split
  · exact h.trans (setEvtPending_sameUnits ..)
  split
  · exact h.trans ((setEvtPending_sameUnits ..).trans (setBit_sameUnits ..))
  split
  · exact h
  split
  · exact (h.trans (setEvtPending_sameUnits d2 src true)).trans ⟨rfl, rfl⟩
  · exact (h.trans (setEvtPending_sameUnits d2 src true)).trans ⟨rfl, rfl⟩

theorem raiseTile_sameUnits (d : Dev) (k code index : Nat) : SameUnits d (d.raiseTile k code index) := by
  unfold Dev.raiseTile
  split
  · exact raiseWith_sameUnits ..
  · exact .refl d

theorem creditExcess_sameUnits (d : Dev) (n : Node) : SameUnits d (d.creditExcess n) := by
  cases n
  case tile | tileUnit => exact raiseTile_sameUnits ..
  all_goals exact raiseWith_sameUnits ..

theorem e2eBack_sameUnits (d : Dev) (h t k : Nat) : SameUnits d (d.e2eBack h t k) := by
  simp only [Dev.e2eBack]
  split
  · exact (modNet_sameUnits ..).trans (creditExcess_sameUnits ..)
  · exact modNet_sameUnits ..

theorem oweE2e_sameUnits (d : Dev) (n : Node) (h t k : Nat) : SameUnits d (d.oweE2e n h t k) := by
  unfold Dev.oweE2e
  split
  · exact e2eBack_sameUnits ..
  · exact modNet_sameUnits ..

theorem oweHop_sameUnits (d : Dev) (via : Option LinkId) (lane k : Nat) : SameUnits d (d.oweHop via lane k) := by
  cases via
  case none => exact .refl d
  case some v => exact ⟨Dev.setLink_fus .., Dev.setLink_tiles ..⟩

theorem setInbox_sameUnits (d : Dev) (n : Node) (lane : Nat) (ps : List Packet) : SameUnits d (d.setInbox n lane ps) := modNet_sameUnits ..

theorem popInbox_sameUnits {d e : Dev} {n : Node} {lane : Nat} {p : Packet → Bool} {q : Packet} (h : d.popInbox n lane p = some (q, e)) : SameUnits d e := by
  simp only [Dev.popInbox] at h
  split at h
  · cases h
  · split at h
    · cases h
      exact ((setInbox_sameUnits ..).trans (oweHop_sameUnits ..)).trans (oweE2e_sameUnits ..)
    · cases h
      exact (setInbox_sameUnits ..).trans (oweHop_sameUnits ..)

theorem takeMgmt_sameUnits {d e : Dev} {n : Node} {p : Mgmt → Bool} {m : Mgmt} (h : d.takeMgmt n p = some (m, e)) : SameUnits d e := by
  simp only [Dev.takeMgmt] at h
  split at h
  · next hp =>
    cases h
    exact popInbox_sameUnits hp
  · cases h

theorem toFlowHome_sameUnits (d : Dev) (tl : Nat) (flow : BitVec 20) (m : Mgmt) : SameUnits d (d.toFlowHome tl flow m) := ⟨rfl, rfl⟩

theorem releaseFlow_sameUnits (d : Dev) (tl : Nat) (flow : BitVec 20) : SameUnits d (d.releaseFlow tl flow) := by
  unfold Dev.releaseFlow
  split
  · exact .refl d
  · exact toFlowHome_sameUnits ..

theorem dropFlow_sameUnits (d : Dev) (tl : Nat) (w : FlowWait) : SameUnits d (d.dropFlow tl w) := by
  simp only [Dev.dropFlow]
  split
  · exact toFlowHome_sameUnits ..
  split
  · exact toFlowHome_sameUnits ..
  · exact .refl d

/-! The state of the FUs and of a tile's scheduler in a canonical device. -/

theorem fu_setFu {d : Dev} (hw : mwf {} d.fus = true) (k : Nat) (u : Fu) : (d.setFu k u).fu k = u := mget_mset_same hw k u

theorem tile_setTile {d : Dev} (hw : mwf {} d.tiles = true) (k : Nat) (t : Tile) : (d.setTile k t).tile k = t := mget_mset_same hw k t

/-- What an FU holds once a sweep of the context `c` has arrived: nothing of it that waits, a sweep at work on the overflow area,
and the tombstones `ts`. -/
structure Fu.Swept (u : Fu) (c : BitVec 22) (ts : List (BitVec 22 × Nat)) : Prop where
  slice : ∀ e ∈ u.slice, e.2.tok.tag.ctx ≠ c
  fillW : ∀ w ∈ u.fillW, w.tok.tag.ctx ≠ c
  held : ∀ h, u.held = some h → h.tag.ctx ≠ c
  heldM : ∀ h, u.heldM = some h → h.tag.ctx ≠ c
  spill : ∀ e ∈ u.spill, e.ent.tok.tag.ctx = c → e.issued = true ∧ e.fired = true
  sweep : ∃ y ∈ u.sweeps, y.ctx = c ∧ y.ofl = false
  tombs : u.tombs = ts

/-- No undispatched item of the FU `k` in its issue queue is of the context. -/
def Fu.NoItem (u : Fu) (k : Nat) (c : BitVec 22) : Prop := ∀ i ∈ u.issue, i.fu = k → Firing.ctx i.fir ≠ c

theorem option_filter_ne {c : BitVec 22} {o : Option Token} {h : Token} (hs : o.filter (fun t => !(t.tag.ctx == c)) = some h) : h.tag.ctx ≠ c := by
  obtain ⟨-, hp⟩ := Option.filter_eq_some_iff.1 hs
  simpa using hp

theorem swept_withoutCtx (u : Fu) (c : BitVec 22) (s : FuSweep) (hs : s.ctx = c ∧ s.ofl = false) (ts : List (BitVec 22 × Nat)) :
    Fu.Swept { u.withoutCtx c with tombs := ts, sweeps := (u.withoutCtx c).sweeps ++ [s] } c ts where
  slice e he := by simpa using (List.mem_filter.1 he).2
  fillW w hw := by simpa using (List.mem_filter.1 hw).2
  held _ hh := option_filter_ne hh
  heldM _ hh := option_filter_ne hh
  spill e he hc := by
    obtain ⟨x, hx, rfl⟩ := List.mem_map.1 he
    obtain ⟨-, hi⟩ := List.mem_filter.1 hx
    by_cases hm : (x.ent.tok.tag.ctx == c) = true
    · simp only [hm, Bool.not_true, Bool.or_false] at hi
      simp only [hm, if_true]
      exact ⟨hi, trivial⟩
    · simp only [if_neg hm] at hc
      exact absurd (beq_iff_eq.2 hc) hm
  sweep := ⟨s, by simp, hs⟩
  tombs := rfl

/-- The FU `k` of a canonical device holds nothing of the context, and no firing of the FU and the context waits for a flow. -/
structure Dev.SweptAt (d : Dev) (k : Nat) (c : BitVec 22) (ts : List (BitVec 22 × Nat)) : Prop where
  fusWf : mwf {} d.fus = true
  tilesWf : mwf {} d.tiles = true
  swept : (d.fu k).Swept c ts

namespace Dev.SweptAt
variable {d e : Dev} {k : Nat} {c : BitVec 22} {ts : List (BitVec 22 × Nat)}

theorem of_sameUnits (h : d.SweptAt k c ts) (hs : SameUnits d e) : e.SweptAt k c ts :=
  ⟨hs.fus ▸ h.fusWf, hs.tiles ▸ h.tilesWf, hs.fu k ▸ h.swept⟩

theorem modFu (h : d.SweptAt k c ts) {f : Fu → Fu} (hf : (f (d.fu k)).Swept c ts) : (d.modFu k f).SweptAt k c ts :=
  ⟨mwf_mset k _ h.fusWf, h.tilesWf, by rwa [Dev.modFu, fu_setFu h.fusWf]⟩

theorem modSched (h : d.SweptAt k c ts) (tl : Nat) (f : Sched → Sched) : (d.modSched tl f).SweptAt k c ts :=
  ⟨h.fusWf, mwf_mset tl _ h.tilesWf, h.swept⟩

end Dev.SweptAt

/-- No firing of the FU `k` and the context waits for a flow at the tile's scheduler. -/
def Dev.NoFlowWait (d : Dev) (tl k : Nat) (c : BitVec 22) : Prop := ∀ w ∈ (d.tile tl).sched.flowW, w.fu = k → Firing.ctx w.fir ≠ c

section
variable {d : Dev} {k tl : Nat} {c : BitVec 22} {ts : List (BitVec 22 × Nat)}

theorem sched_modSched (hw : mwf {} d.tiles = true) (f : Sched → Sched) : ((d.modSched tl f).tile tl).sched = f (d.tile tl).sched := by
  rw [Dev.modSched, Dev.modTile, tile_setTile hw]

theorem mem_replaceFirst {α : Type} {p : α → Bool} {f : α → α} {y : α} : ∀ {l : List α}, y ∈ replaceFirst p f l → y ∈ l ∨ ∃ x ∈ l, y = f x
  | x :: xs, h => by
    unfold replaceFirst at h
    split at h
    · rcases List.mem_cons.1 h with rfl | h
      · exact .inr ⟨x, by simp, rfl⟩
      · exact .inl (List.mem_cons_of_mem _ h)
    · rcases List.mem_cons.1 h with rfl | h
      · exact .inl (by simp)
      · rcases mem_replaceFirst h with h | ⟨z, hz, rfl⟩
        · exact .inl (List.mem_cons_of_mem _ h)
        · exact .inr ⟨z, List.mem_cons_of_mem _ hz, rfl⟩

theorem mem_removeFirst_of_ne {α : Type} {p : α → Bool} {x y : α} (hne : y ≠ x) : ∀ {l : List α}, l.find? p = some x → y ∈ l → y ∈ removeFirst p l
  | z :: zs, hf, h => by
    rw [List.find?_cons] at hf
    unfold removeFirst
    split at hf
    · next hp =>
      obtain rfl : z = x := by simpa using hf
      rw [if_pos hp]
      exact (List.mem_cons.1 h).resolve_left hne
    · next hp =>
      rw [if_neg (Bool.eq_false_iff.1 hp)]
      rcases List.mem_cons.1 h with rfl | h
      · simp
      · exact List.mem_cons_of_mem _ (mem_removeFirst_of_ne hne hf h)

/-- What holds of the FU and its scheduler from the moment on at which the context's items are cancelled. -/
structure Dev.Cancelled (d : Dev) (k : Nat) (c : BitVec 22) (ts : List (BitVec 22 × Nat)) : Prop where
  at_ : d.SweptAt k c ts
  items : (d.fu k).NoItem k c

theorem Dev.Cancelled.of_sameUnits {e : Dev} (h : d.Cancelled k c ts) (hs : SameUnits d e) : e.Cancelled k c ts :=
  ⟨h.at_.of_sameUnits hs, hs.fu k ▸ h.items⟩

theorem Dev.Cancelled.modSched (h : d.Cancelled k c ts) (f : Sched → Sched) : (d.modSched tl f).Cancelled k c ts :=
  ⟨h.at_.modSched tl f, h.items⟩

theorem Dev.NoFlowWait.of_sameUnits {e : Dev} (h : d.NoFlowWait tl k c) (hs : SameUnits d e) : e.NoFlowWait tl k c := by
  rwa [Dev.NoFlowWait, hs.tile]

theorem askNext_cancelled (h : d.Cancelled k c ts) (hn : d.NoFlowWait tl k c) (flow : BitVec 20) :
    (d.askNext tl flow).Cancelled k c ts ∧ (d.askNext tl flow).NoFlowWait tl k c := by
  simp only [Dev.askNext]
  split
  · exact ⟨h, hn⟩
  split
  · exact ⟨h, hn⟩
  · refine ⟨(h.modSched _).of_sameUnits (toFlowHome_sameUnits ..), Dev.NoFlowWait.of_sameUnits ?_ (toFlowHome_sameUnits ..)⟩
    intro w hw
    rw [sched_modSched h.at_.tilesWf] at hw
    rcases mem_replaceFirst hw with hw | ⟨y, hy, rfl⟩
    · exact hn w hw
    · exact hn y hy

theorem askNexts_cancelled : ∀ (l : List FlowWait) {d : Dev}, d.Cancelled k c ts → d.NoFlowWait tl k c →
    (l.foldl (fun d w => d.askNext tl (Firing.flow w.fir)) d).Cancelled k c ts ∧ (l.foldl (fun d w => d.askNext tl (Firing.flow w.fir)) d).NoFlowWait tl k c
  | [], _, h, hn => ⟨h, hn⟩
  | _ :: ws, _, h, hn => askNexts_cancelled ws (askNext_cancelled h hn _).1 (askNext_cancelled h hn _).2

/-- The firings that wait for a flow at the scheduler, without the FU's firings of the context. -/
theorem cancelFlows_cancelled (h : d.Cancelled k c ts) :
    (d.cancelFlows tl (fun w => w.fu == k && Firing.ctx w.fir == c)).Cancelled k c ts ∧
    (d.cancelFlows tl (fun w => w.fu == k && Firing.ctx w.fir == c)).NoFlowWait tl k c := by
  simp only [Dev.cancelFlows]
  have hs := SameUnits.foldl (f := fun (d : Dev) w => d.dropFlow tl w) (fun d w => dropFlow_sameUnits d tl w)
    ((d.tile tl).sched.flowW.filter (fun w => w.fu == k && Firing.ctx w.fir == c))
    (d.modSched tl (fun x => { x with flowW := x.flowW.filter (fun w => !(w.fu == k && Firing.ctx w.fir == c)) }))
  refine askNexts_cancelled _ ((h.modSched _).of_sameUnits hs) (Dev.NoFlowWait.of_sameUnits ?_ hs)
  intro w hw hk hc
  rw [sched_modSched h.at_.tilesWf] at hw
  simpa [hk, hc] using (List.mem_filter.1 hw).2

/-- A granted firing of another context goes into the issue queue. -/
theorem grantMoves_cancelled : ∀ (l : List FlowWait) {d : Dev}, (∀ w ∈ l, w.fu = k → Firing.ctx w.fir ≠ c) → (∀ w ∈ l, w.fu = k) → d.Cancelled k c ts →
    (l.foldl (fun (d : Dev) w =>
      let lvl := d.eprio tl w.fir
      if queueRoom (d.fu k).issue 32 4 lvl then
        (d.modSched tl (fun s => { s with flowW := removeFirst (· == w) s.flowW })).modFu k (fun u => { u with issue := u.issue ++ [{ lvl := lvl, fu := k, fir := w.fir }] })
      else d) d).Cancelled k c ts
  | [], _, _, _, h => h
  | w :: ws, d, hc, hk, h => by
    rw [List.foldl_cons]
    refine grantMoves_cancelled ws (fun x hx => hc x (List.mem_cons_of_mem _ hx)) (fun x hx => hk x (List.mem_cons_of_mem _ hx)) ?_
    dsimp only
    split
    · have hm := h.modSched (tl := tl) (fun s => { s with flowW := removeFirst (· == w) s.flowW })
      refine ⟨hm.at_.modFu ?_, ?_⟩
      · obtain ⟨h1, h2, h3, h4, h5, h6, h7⟩ := hm.at_.swept
        exact ⟨h1, h2, h3, h4, h5, h6, h7⟩
      · rw [Dev.modFu, fu_setFu hm.at_.fusWf]
        intro i hi hik
        rcases List.mem_append.1 hi with hi | hi
        · exact hm.items i hi hik
        · rw [List.mem_singleton.1 hi]
          exact hc w (by simp) (hk w (by simp))
    · exact h

theorem grantMove_cancelled (h : d.Cancelled k c ts) (hn : d.NoFlowWait (k / 8) k c) : (d.grantMove k).Cancelled k c ts := by
  refine grantMoves_cancelled _ (fun w hw => hn w (List.mem_filter.1 hw).1) (fun w hw => ?_) h
  have := (List.mem_filter.1 hw).2
  simp only [Bool.and_eq_true, beq_iff_eq] at this
  exact this.2

theorem cancelItems_cancelled (h : d.SweptAt k c ts) : (d.cancelItems k (fun f => Firing.ctx f == c)).Cancelled k c ts := by
  simp only [Dev.cancelItems]
  have hitems : (d.modFu k (fun u => { u with issue := u.issue.filter (fun x => !(x.fu == k && Firing.ctx x.fir == c)) })).Cancelled k c ts := by
    refine ⟨h.modFu ?_, ?_⟩
    · obtain ⟨h1, h2, h3, h4, h5, h6, h7⟩ := h.swept
      exact ⟨h1, h2, h3, h4, h5, h6, h7⟩
    · rw [Dev.modFu, fu_setFu h.fusWf]
      intro i hi hik hc
      simpa [hik, hc] using (List.mem_filter.1 hi).2
  have hflow := SameUnits.foldl (f := fun (d : Dev) (x : Item) => d.releaseFlow (k / 8) (Firing.flow x.fir)) (fun d x => releaseFlow_sameUnits d (k / 8) (Firing.flow x.fir))
  obtain ⟨hc, hn⟩ := cancelFlows_cancelled (tl := k / 8) ((hitems.modSched _).of_sameUnits (hflow _ _))
  exact grantMove_cancelled hc hn

theorem oflSettle_swept (h : d.SweptAt k c ts) : (d.oflSettle k).SweptAt k c ts := by
  refine h.modFu ?_
  obtain ⟨h1, h2, h3, h4, h5, h6, h7⟩ := h.swept
  split
  · exact ⟨h1, h2, h3, h4, h5, h6, h7⟩
  · exact ⟨h1, h2, h3, h4, h5, h6, h7⟩

theorem sweepDelay_cancelled (h : d.Cancelled k c ts) : (d.sweepDelay k c).Cancelled k c ts := by
  unfold Dev.sweepDelay
  split
  · exact h
  · next r rs _ =>
    split
    · refine Dev.Cancelled.of_sameUnits ⟨h.at_.modFu ?_, ?_⟩ (releaseFlow_sameUnits ..)
      · obtain ⟨h1, h2, h3, h4, h5, h6, h7⟩ := h.at_.swept
        exact ⟨h1, h2, h3, h4, h5, h6, h7⟩
      · rw [Dev.modFu, fu_setFu h.at_.fusWf]
        exact h.items
    · exact h

theorem sweepRegion_cancelled (h : d.Cancelled k c ts) (g : Nat) : (d.sweepRegion g c).Cancelled k c ts :=
  h.of_sameUnits ⟨rfl, rfl⟩

/-- An acknowledgement ends a sweep whose overflow part is done, and so not the one that has just arrived. -/
theorem sweepAck_cancelled (h : d.Cancelled k c ts) : (d.sweepAck k c).Cancelled k c ts := by
  simp only [Dev.sweepAck]
  split
  · exact h
  · next s hs =>
    split
    · next hb =>
      refine Dev.Cancelled.of_sameUnits (d := d.setFu k { d.fu k with sweeps := removeFirst (fun s => s.ctx == c) (d.fu k).sweeps }) ⟨h.at_.modFu
        (f := fun u => { u with sweeps := removeFirst (fun s => s.ctx == c) u.sweeps }) ?_, ?_⟩ ⟨rfl, rfl⟩
      · obtain ⟨h1, h2, h3, h4, h5, ⟨y, hy, hyc, hyo⟩, h7⟩ := h.at_.swept
        refine ⟨h1, h2, h3, h4, h5, ⟨y, mem_removeFirst_of_ne ?_ hs hy, hyc, hyo⟩, h7⟩
        rintro rfl
        simp [hyo] at hb
      · rw [fu_setFu h.at_.fusWf]
        exact h.items
    · exact h

/-- The tombstones of the FU once the sweep has arrived: with the context's where the list has room. -/
def Dev.tombsWith (d : Dev) (k : Nat) (c : BitVec 22) (guard : Nat) : List (BitVec 22 × Nat) :=
  if decide (((d.fu k).withoutCtx c).tombs.length < 32) then ((d.fu k).withoutCtx c).tombs ++ [(c, guard)] else ((d.fu k).withoutCtx c).tombs

/-- The FU emptied of the context, with the sweep entered. -/
def Dev.arrived (d : Dev) (k : Nat) (c : BitVec 22) (guard n : Nat) : Dev :=
  d.setFu k { (d.fu k).withoutCtx c with
    tombs := d.tombsWith k c guard
    sweeps := ((d.fu k).withoutCtx c).sweeps ++ [{ ctx := c, guard := guard, num := n, tomb := decide (((d.fu k).withoutCtx c).tombs.length < 32) }] }

theorem sweepReceive_taken {x : BitVec 32} {n : Nat} {e : Dev} (h : d.takeMgmt (fuNode k) (isSweep c) = some (.sweep c x n, e)) :
    d.sweepReceive k c = (((((e.arrived k c x.toNat n).oflSettle k).cancelItems k (fun f => Firing.ctx f == c)).sweepDelay k c).sweepRegion (k / 136) c).sweepAck k c := by
  simp only [Dev.sweepReceive, h, Dev.arrived, Dev.tombsWith]

end

/-- Settles O14: what the arrival removes is gone from the FU, and no later part of it puts it back. -/
theorem sweepRemovesTheContext : Obligations.SweepRemovesTheContext := by
  unfold Obligations.SweepRemovesTheContext
  intro g t f c s x n d0 k hfu htl _ ht
  have hs := takeMgmt_sameUnits ht
  have hf0 : mwf {} d0.fus = true := hs.fus ▸ hfu
  have ht0 : mwf {} d0.tiles = true := hs.tiles ▸ htl
  have hstart : (d0.arrived k c x.toNat n).SweptAt k c (d0.tombsWith k c x.toNat) :=
    ⟨mwf_mset k _ hf0, ht0, by rw [Dev.arrived, fu_setFu hf0]; exact swept_withoutCtx (d0.fu k) c _ (by constructor <;> rfl) _⟩
  have hall := sweepAck_cancelled (sweepRegion_cancelled (sweepDelay_cancelled (cancelItems_cancelled (oflSettle_swept hstart))) (k / 136))
  obtain ⟨hslice, hfillW, hheld, hheldM, hspill, hsweep, htombs⟩ := hall.at_.swept
  refine ⟨_, by rw [exec_sweepReceive, sweepReceive_taken ht], hslice, hfillW, fun h hh => hh.elim (hheld h) (hheldM h), hall.items, hspill, fun hroom => ?_, hsweep⟩
  rw [htombs, Dev.tombsWith, hs.fu, if_pos (show decide (((s.dev.fu k).withoutCtx c).tombs.length < 32) = true from decide_eq_true hroom)]
  simp

end Sys2Proof.Machine

/-! ### Node memory, floating point, ERR operands and output tokens (SPEC R54, R94, R107, R108, R110, R133, R157, R159; obligations O16, O18, O20, O21) -/

namespace Sys2Proof.Machine

/-! The words of a node slot. -/

theorem exec_nodeSlotWrite (c : BitVec 8) (slot : BitVec 15) (w : Fin 4) (v : W32) (s : State) :
    exec (.nodeSlotWrite c slot w v) s = .next (s.withDev (s.dev.nodeWrite c.toNat slot.toNat w v)) := rfl

theorem exec_maskDataWrite (g : Fin 16) (t : Fin 17) (v : W32) (s : State) :
    exec (.maskDataWrite g t v) s = .next (s.withDev (s.dev.writes (nodeReg g t 0x10) (s.dev.maskData (tileKey g t) v))) := rfl

theorem nodeWrite_held {d : Dev} {c slot w : Nat} {v : W32} (h : w < 3) :
    d.nodeWrite c slot w v = d.modTile (d.tileOfCluster c) (fun t => { t with held := mput t.held (slot * 4 + w) v }) := if_pos h

@[simp] theorem leBytes_length : ∀ n v, (leBytes n v).length = n
  | 0, _ => rfl
  | n + 1, v => by rw [leBytes, List.length_cons, leBytes_length]

/-- The bytes that a writing of `bs` and then of `bs'` behind it leaves. -/
theorem writeMem_append : ∀ (bs bs' : List Byte) (m : List Host.Cell) (a : Nat), writeMem m a (bs ++ bs') = writeMem (writeMem m a bs) (a + bs.length) bs'
  | [], bs', m, a => by rw [List.nil_append, writeMem, List.length_nil, Nat.add_zero]
  | b :: bs, bs', m, a => by rw [List.cons_append, writeMem, writeMem, writeMem_append bs, List.length_cons, Nat.add_assoc, Nat.add_comm 1]

theorem write_append (d : Dev) (a : Nat) (bs bs' : List Byte) : d.write a (bs ++ bs') = (d.write a bs).write (a + bs.length) bs' := by
  simp only [Dev.write, writeMem_append]

/-- The 16 bytes of a node slot whose words are held but for the last, which is written. -/
def slotBytes (a0 a1 a2 v : W32) : List Byte := leBytes 4 a0.toNat ++ leBytes 4 a1.toNat ++ leBytes 4 a2.toNat ++ leBytes 4 v.toNat

/-- The device with a slot's bytes written and none of its words held. -/
def Dev.slotWritten (d : Dev) (c slot : Nat) (bs : List Byte) : Dev :=
  (d.write (slotAddr c slot) bs).modTile (d.tileOfCluster c) (fun t => { t with held := mclear t.held (fun x => x / 4 == slot) })

theorem nodeWrite_last {d : Dev} {c slot : Nat} {v a0 a1 a2 : W32}
    (h0 : ((d.tile (d.tileOfCluster c)).held.find? (fun x => x.1 == slot * 4 + 0)).map (·.2) = some a0)
    (h1 : ((d.tile (d.tileOfCluster c)).held.find? (fun x => x.1 == slot * 4 + 1)).map (·.2) = some a1)
    (h2 : ((d.tile (d.tileOfCluster c)).held.find? (fun x => x.1 == slot * 4 + 2)).map (·.2) = some a2) :
    d.nodeWrite c slot 3 v = d.slotWritten c slot (slotBytes a0 a1 a2 v) := by
  obtain ⟨⟨i0, b0⟩, f0, rfl⟩ := Option.map_eq_some_iff.1 h0
  obtain ⟨⟨i1, b1⟩, f1, rfl⟩ := Option.map_eq_some_iff.1 h1
  obtain ⟨⟨i2, b2⟩, f2, rfl⟩ := Option.map_eq_some_iff.1 h2
  simp only [Dev.nodeWrite, show ¬ (3 < 3) by omega, if_false, f0, f1, f2, Dev.slotWritten, slotBytes, write_append, leBytes_length, List.length_append, Dev.writeLe]
  rfl

theorem mem_mclear {α : Type} {m : SMap α} {p : Nat → Bool} {x : Nat × α} (h : x ∈ mclear m p) : p x.1 = false := by
  simpa using (List.mem_filter.1 h).2

/-- Settles O16: the fourth word writes the slot's 16 bytes, and the held words are gone. -/
theorem nodeMemoryWrites : Obligations.NodeMemoryWrites := by
  unfold Obligations.NodeMemoryWrites
  refine ⟨fun c slot w v s hw => ?_, fun c slot v a0 a1 a2 s hm ht => ?_, fun g t v s => ?_⟩
  · rw [exec_nodeSlotWrite, nodeWrite_held hw]
  · intro k held h0 h1 h2
    refine ⟨s.dev.slotWritten c.toNat slot.toNat (slotBytes a0 a1 a2 v), (exec_nodeSlotWrite ..).trans (congrArg (fun d => Host.Outcome.next (s.withDev d)) (nodeWrite_last h0 h1 h2)), ?_, fun a ha => ?_, ?_, fun x hx => ?_, rfl⟩
    · exact read_write s.dev (slotAddr c.toNat slot.toNat) (slotBytes a0 a1 a2 v) hm
    · exact byte_write_other s.dev _ a (slotBytes a0 a1 a2 v) hm ha
    · exact wf_write s.dev _ _ hm
    · rw [Dev.slotWritten, Dev.modTile, tile_setTile (by exact ht)] at hx
      dsimp only at hx
      simpa using mem_mclear hx
  · rw [exec_maskDataWrite, Dev.maskData, tileKey_div, tileKey_mod]

/-! Negation and magnitude of a 64-bit float. -/

theorem fSign_f64 (x : Nat) : fSign f64 x = (x / 2 ^ 63 % 2 == 1) := rfl

/-- The bits below the sign, packed as they were. -/
theorem exponentFraction_f64 (x : Nat) : fExp f64 x * 2 ^ f64.m + fFrac f64 x = x % 2 ^ 63 := by
  simp only [fExp, fFrac, f64]
  omega

theorem fAbs_f64 (x : Nat) : fAbs f64 x = (BitVec.ofNat 64 x &&& (0x7FFFFFFFFFFFFFFF : W64)).toNat := by
  have hmask : (0x7FFFFFFFFFFFFFFF : W64).toNat = 2 ^ 63 - 1 := rfl
  rw [BitVec.toNat_and, hmask, Nat.and_two_pow_sub_one_eq_mod, BitVec.toNat_ofNat]
  have := exponentFraction_f64 x
  simp only [fAbs, fPack, Bool.false_eq_true, if_false]
  omega

/-- Flipping bit 63 of a 64-bit word leaves the bits below it. -/
theorem xor_sign (y : Nat) (hy : y < 2 ^ 64) : y ^^^ 2 ^ 63 = (if y / 2 ^ 63 % 2 = 1 then 0 else 2 ^ 63) + y % 2 ^ 63 := by
  have hmod : (y ^^^ 2 ^ 63) % 2 ^ 63 = y % 2 ^ 63 := by rw [Nat.xor_mod_two_pow, Nat.mod_self, Nat.xor_zero]
  have hdiv : (y ^^^ 2 ^ 63) / 2 ^ 63 = if y / 2 ^ 63 % 2 = 1 then 0 else 1 := by
    rw [← Nat.shiftRight_eq_div_pow, Nat.shiftRight_xor_distrib, Nat.shiftRight_eq_div_pow, Nat.shiftRight_eq_div_pow, Nat.div_self (by decide)]
    obtain h | h : y / 2 ^ 63 = 0 ∨ y / 2 ^ 63 = 1 := by omega
    · rw [h]; rfl
    · rw [h]; rfl
  by_cases h : y / 2 ^ 63 % 2 = 1
  · rw [if_pos h] at hdiv ⊢
    omega
  · rw [if_neg h] at hdiv ⊢
    omega

theorem fNeg_f64 (x : Nat) (hx : x < 2 ^ 64) : fNeg f64 x = (BitVec.ofNat 64 x ^^^ (0x8000000000000000 : W64)).toNat := by
  have hmask : (0x8000000000000000 : W64).toNat = 2 ^ 63 := rfl
  have := exponentFraction_f64 x
  have hexp : f64.e + f64.m = 63 := rfl
  rw [BitVec.toNat_xor, hmask, BitVec.toNat_ofNat, Nat.mod_eq_of_lt hx, xor_sign x hx]
  simp only [fNeg, fPack, fSign_f64, hexp]
  by_cases h : x / 2 ^ 63 % 2 = 1
  · simp only [h, beq_self_eq_true, Bool.not_true, Bool.false_eq_true, if_false, if_true]
    omega
  · simp only [h, Bool.not_eq_true', beq_eq_false_iff_ne, ne_eq, not_false_eq_true, if_true, if_false]
    omega

/-- The one lane of a 64-bit operand. -/
theorem laneOf_f64 (x : Nat) : laneOf f64 x 0 = x % 2 ^ 64 := by
  rw [laneOf, Nat.mul_zero, Nat.pow_zero, Nat.div_one]
  rfl

theorem ofNat_mod_64 (x : Nat) : BitVec.ofNat 64 (x % 2 ^ 64) = BitVec.ofNat 64 x := BitVec.eq_of_toNat_eq (by simp)

/-- The one lane of an operation of TYPE 4. -/
theorem fpLanes_f64 (o rm : Nat) (ncan : Bool) (imm a b c : Nat) :
    ∃ y : Bool, fpLanes o 4 rm ncan imm a b c = [(fpLane o f64 rm ncan imm (a % 2 ^ 64) (b % 2 ^ 64) (c % 2 ^ 64), y)] := by
  rw [← laneOf_f64, ← laneOf_f64, ← laneOf_f64]
  exact ⟨_, rfl⟩

/-- What an operation of TYPE 4 of one cycle, whose lane raises no flag, computes. -/
theorem fpRes_f64 {o rm imm a b c n : Nat} {ct ncan : Bool} (ho : o = 0x106 ∨ o = 0x107) (hl : fpLane o f64 rm ncan imm (a % 2 ^ 64) (b % 2 ^ 64) (c % 2 ^ 64) = { bits := n }) :
    fpRes o 4 rm ct ncan imm a b c = { pay := n, ptype := 2 } := by
  obtain ⟨y, hy⟩ := fpLanes_f64 o rm ncan imm a b c
  have htime : ∀ m, fpTime o 4 ct m = (1, 1) := by rcases ho with rfl | rfl <;> exact fun _ => rfl
  rcases ho with rfl | rfl <;>
    simp only [fpRes, hy, hl, htime, List.foldr_cons, List.foldr_nil, List.foldl_cons, List.foldl_nil, Nat.zero_mul, Nat.add_zero] <;> rfl

theorem fpRes_neg (rm : Nat) (ct ncan : Bool) (imm a b c : Nat) :
    fpRes 0x106 4 rm ct ncan imm a b c = { pay := (BitVec.ofNat 64 a ^^^ (0x8000000000000000 : W64)).toNat, ptype := 2 } := by
  rw [← ofNat_mod_64, ← fNeg_f64 _ (Nat.mod_lt _ (by decide))]
  exact fpRes_f64 (.inl rfl) rfl

theorem fpRes_abs (rm : Nat) (ct ncan : Bool) (imm a b c : Nat) :
    fpRes 0x107 4 rm ct ncan imm a b c = { pay := (BitVec.ofNat 64 a &&& (0x7FFFFFFFFFFFFFFF : W64)).toNat, ptype := 2 } := by
  rw [← ofNat_mod_64, ← fAbs_f64]
  exact fpRes_f64 (.inr rfl) rfl

/-! Results of floating-point operations. -/

theorem fpCommands_opcode {o : Nat} (h : o ∈ fpCommands.map (·.1)) : ¬ o < 0x100 := by
  revert o
  decide

theorem arithRes_fp {o : Nat} (h : o ∈ fpCommands.map (·.1)) (f : Firing) (desc : BitVec 128) :
    arithRes o f desc = fpRes o (dType desc) (dRm desc) (dCt desc) (dNcan desc) (dImm desc).toNat (operand f desc 0) (operand f desc 1) (operand f desc 2) :=
  if_neg (fpCommands_opcode h)

/-- A comparison's payload type is 0. -/
theorem fpRes_ptype {o : Nat} (h : (0x110 ≤ o ∧ o ≤ 0x113) ∨ o = 0x11C) (ty rm : Nat) (ct ncan : Bool) (imm a b c : Nat) :
    (fpRes o ty rm ct ncan imm a b c).ptype = 0 := by
  have hi : o ≠ 0x11A := by omega
  simp only [fpRes, if_neg hi, if_pos h]

theorem keptFlags_zero (desc : BitVec 128) : keptFlags desc 0 = 0 := by
  unfold keptFlags
  exact ite_self _

/-- Settles O18: the arithmetic commands' lemma, and the sign bit of a 64-bit float for negation and magnitude. -/
theorem floatingPointHandsOn : Obligations.FloatingPointHandsOn := by
  unfold Obligations.FloatingPointHandsOn
  refine ⟨fun c hc g t f s fr desc ext h hclean => ⟨?_, fun ho => fpRes_ptype ho ..⟩, fun g t f s fr desc ext h hclean hty => ?_, fun g t f s fr desc ext h hclean hty => ?_⟩
  · rw [exec_of_firesAt (List.mem_append_right _ hc) h hclean, Dev.arithResult, arithRes_fp (List.mem_map_of_mem hc)]
  · have hrun := exec_of_firesAt (c := (0x106, .fneg)) (by simp [fpCommands]) h hclean
    rw [Dev.arithResult, arithRes_fp (by decide), hty, fpRes_neg, keptFlags_zero] at hrun
    exact hrun
  · have hrun := exec_of_firesAt (c := (0x107, .fabs)) (by simp [fpCommands]) h hclean
    rw [Dev.arithResult, arithRes_fp (by decide), hty, fpRes_abs, keptFlags_zero] at hrun
    exact hrun

end Sys2Proof.Machine

/-! ### ERR operands and output tokens (SPEC R54, R107, R108, R110, R133; obligations O20, O21) -/

namespace Sys2Proof.Machine

/-! Firings that compute nothing. -/

section
variable {d : Dev} {k o : Nat}

theorem compute_of_not_ready {e : Dev} (h : d.ready? k o = (none, e)) : d.compute k o = e := by
  simp only [Dev.compute, h]

theorem arith_not_fanout {o : Nat} (h : o ∈ (intCommands ++ fpCommands).map (·.1)) : o ≠ 0x203 := by
  revert o
  decide

theorem fanDsts_nil (desc : BitVec 128) : fanDsts desc [] = dstsOf desc := by
  simp [fanDsts]

theorem ready_other (h : ∀ x desc, (d.fu k).fetch = some x → x.desc = some desc → dOpc desc ≠ o) : d.ready? k o = (none, d) := by
  simp only [Dev.ready?, checked_other h]

/-- A firing of the operation whose descriptor cannot be executed is reported, with the sticky bit 2. -/
theorem ready_badNode {x : Fetched} {desc : BitVec 128} (hx : (d.fu k).fetch = some x) (hd : x.desc = some desc) (ho : dOpc desc = o)
    (hok : descOk desc x.ext (maskPorts (d.maskOf (k / 8) x.fir.slot.toNat) ((x.fir.toks.headD (0, {})).1)) = false) :
    d.ready? k o = (none, d.badNode k x.fir) := by
  simp only [Dev.ready?, Dev.checked, hx, hd, ho, hok, ne_eq, not_true_eq_false, if_false, Bool.not_false, if_true]

end

theorem fuKey_tile (g : Nat) (t : Fin 17) (f : Fin 8) : fuKey g t f / 8 % 17 = t := by
  unfold fuKey
  omega

/-- Settles O20: what the checks before an arithmetic operation leave. -/
theorem errorTokensPassThroughArithmetic : Obligations.ErrorTokensPassThroughArithmetic := by
  unfold Obligations.ErrorTokensPassThroughArithmetic
  intro c hc g t f s k
  rw [exec_arithmetic c hc]
  refine ⟨fun fr desc ext p e h he => ?_, fun fr desc ext p q h he hm => ?_, fun h => ?_, fun x desc hx hd ho hok => ?_⟩
  · rw [compute_of_not_ready (ready_of_err h he), if_neg (arith_not_fanout (List.mem_map_of_mem hc)), fanDsts_nil]
    rfl
  · rw [compute_of_not_ready (ready_of_mismatch h he hm)]
    rfl
  · rw [compute_of_not_ready (ready_other h), withDev_self]
  · rw [compute_of_not_ready (ready_badNode hx hd ho hok), Dev.badNode, fuKey_region g t f t.isLt f.isLt, fuKey_tile]
    rfl

/-! Output tokens. -/

theorem ptype_tyByte {pt : Nat} (h : pt < 16) (err hist replay : Bool) : ((tyByte pt err hist replay).extractLsb' 0 4).toNat = pt := by
  simp only [tyByte, BitVec.extractLsb'_toNat, BitVec.toNat_ofNat, Nat.shiftRight_zero]
  cases err <;> cases hist <;> cases replay <;> simp only [Bool.false_eq_true, if_false, if_true] <;> omega

theorem getLsbD_tyByte (pt : Nat) (err hist replay : Bool) (i : Nat) (hi : i < 8) : (tyByte pt err hist replay).getLsbD i =
    decide ((pt % 16 + (if hist then 16 else 0) + (if err then 32 else 0) + (if replay then 64 else 0)) / 2 ^ i % 2 = 1) := by
  rw [tyByte, BitVec.getLsbD_ofNat, Nat.testBit_eq_decide_div_mod_eq, decide_eq_true hi, Bool.true_and]

theorem err_tyByte (pt : Nat) (err hist replay : Bool) : (tyByte pt err hist replay).getLsbD 5 = err := by
  rw [getLsbD_tyByte _ _ _ _ _ (by omega)]
  cases err <;> cases hist <;> cases replay <;> simp only [Bool.false_eq_true, if_false, if_true, decide_eq_true_eq, decide_eq_false_iff_not] <;> omega

theorem replay_tyByte (pt : Nat) (err hist replay : Bool) : (tyByte pt err hist replay).getLsbD 6 = replay := by
  rw [getLsbD_tyByte _ _ _ _ _ (by omega)]
  cases err <;> cases hist <;> cases replay <;> simp only [Bool.false_eq_true, if_false, if_true, decide_eq_true_eq, decide_eq_false_iff_not] <;> omega

/-- The greatest PRIO of the tokens, from a start value. -/
theorem foldl_max_prio : ∀ (ts : List (Nat × Token)) (m : Nat), m ≤ ts.foldl (fun m p => max m p.2.tag.prio.toNat) m ∧
    (∀ p ∈ ts, p.2.tag.prio.toNat ≤ ts.foldl (fun m p => max m p.2.tag.prio.toNat) m) ∧
    (ts.foldl (fun m p => max m p.2.tag.prio.toNat) m = m ∨ ∃ p ∈ ts, p.2.tag.prio.toNat = ts.foldl (fun m p => max m p.2.tag.prio.toNat) m)
  | [], m => ⟨Nat.le_refl _, by simp, .inl rfl⟩
  | t :: ts, m => by
    obtain ⟨hle, hall, hex⟩ := foldl_max_prio ts (max m t.2.tag.prio.toNat)
    rw [List.foldl_cons]
    refine ⟨Nat.le_trans (Nat.le_max_left ..) hle, ?_, ?_⟩
    · rintro p hp
      rcases List.mem_cons.1 hp with rfl | hp
      · exact Nat.le_trans (Nat.le_max_right ..) hle
      · exact hall p hp
    · rcases hex with hex | ⟨p, hp, hpe⟩
      · rcases Nat.le_total t.2.tag.prio.toNat m with hm | hm
        · exact .inl (hex.trans (Nat.max_eq_left hm))
        · exact .inr ⟨t, by simp, by rw [hex, Nat.max_eq_right hm]⟩
      · exact .inr ⟨p, List.mem_cons_of_mem _ hp, hpe⟩

section
variable {f : Firing} (hf : f.toks ≠ [])
include hf

theorem prio_of_toks : (∀ p ∈ f.toks, p.2.tag.prio.toNat ≤ (Firing.prio f).toNat) ∧ ∃ p ∈ f.toks, p.2.tag.prio = Firing.prio f := by
  obtain ⟨-, hall, hex⟩ := foldl_max_prio f.toks 0
  have hone : ∃ p ∈ f.toks, p.2.tag.prio.toNat = f.toks.foldl (fun m p => max m p.2.tag.prio.toNat) 0 := by
    rcases hex with hex | hex
    · obtain ⟨p, hp⟩ := List.exists_mem_of_ne_nil _ hf
      exact ⟨p, hp, by have := hall p hp; omega⟩
    · exact hex
  obtain ⟨p, hp, hpe⟩ := hone
  have hval : (Firing.prio f).toNat = f.toks.foldl (fun m p => max m p.2.tag.prio.toNat) 0 := by
    rw [Firing.prio, BitVec.toNat_ofNat, ← hpe, Nat.mod_eq_of_lt p.2.tag.prio.isLt]
  exact ⟨fun q hq => hval ▸ hall q hq, p, hp, BitVec.eq_of_toNat_eq (by rw [hval, hpe])⟩

end

/-- The newest EPOCH of the tokens is one of theirs. -/
theorem foldl_newer : ∀ (ts : List (Nat × Token)) (m : BitVec 8),
    ts.foldl (fun m q => if newer q.2.tag.epoch m then q.2.tag.epoch else m) m = m ∨
    ∃ p ∈ ts, p.2.tag.epoch = ts.foldl (fun m q => if newer q.2.tag.epoch m then q.2.tag.epoch else m) m
  | [], _ => .inl rfl
  | t :: ts, m => by
    rw [List.foldl_cons]
    rcases foldl_newer ts (if newer t.2.tag.epoch m then t.2.tag.epoch else m) with h | ⟨p, hp, h⟩
    · by_cases hn : newer t.2.tag.epoch m = true
      · exact .inr ⟨t, by simp, by rw [h, if_pos hn]⟩
      · exact .inl (by rw [h, if_neg hn])
    · exact .inr ⟨p, List.mem_cons_of_mem _ hp, h⟩

theorem epoch_of_toks {f : Firing} (hf : f.toks ≠ []) : ∃ p ∈ f.toks, p.2.tag.epoch = Firing.epoch f := by
  obtain ⟨p, ps, hps⟩ := List.exists_cons_of_ne_nil hf
  rw [Firing.epoch, hps]
  rcases foldl_newer ps p.2.tag.epoch with h | ⟨q, hq, h⟩
  · exact ⟨p, by simp, h.symm⟩
  · exact ⟨q, List.mem_cons_of_mem _ hq, h⟩

theorem iterOp_eq (desc : BitVec 128) (i : BitVec 8) (h : dItop desc ≤ 2) : iterOp desc i = if dItop desc = 0 then i else if dItop desc = 1 then i + 1 else 0 := by
  obtain h | h | h : dItop desc = 0 ∨ dItop desc = 1 ∨ dItop desc = 2 := by omega
  all_goals simp [iterOp, h]

/-- Settles O21: the token's fields are those of the base tag and of the destination, sealed. -/
theorem outputTokensAreFormed : Obligations.OutputTokensAreFormed := by
  unfold Obligations.OutputTokensAreFormed
  intro d f desc dst pay pt err hf hpt hit o lead
  obtain ⟨hmax, hprio⟩ := prio_of_toks hf
  exact ⟨crcOk_seal _, rfl, rfl, rfl, rfl, rfl, rfl, rfl, rfl, rfl, rfl, rfl, iterOp_eq desc _ hit, hmax, hprio, epoch_of_toks hf, ptype_tyByte hpt .., err_tyByte .., replay_tyByte ..,
    rfl⟩

end Sys2Proof.Machine

/-! ### High-water marks, configuration, dispatch and firings that cannot be executed (SPEC R77, R81, R91, R92, R103, R104, R201, R241, R242, R328; obligations O15, O23) -/

namespace Sys2Proof.Machine

theorem exec_esHwmClr (g : Fin 16) (t : Fin 17) (f : Fin 8) (v : W32) (s : State) :
    exec (.esHwmClr g t f v) s = .next (s.withDev (s.dev.writes (fuReg g t f 0x14) (s.dev.esHwmClr (fuKey g t f) v))) := rfl
theorem exec_oflHwmClr (g : Fin 16) (v : W32) (s : State) : exec (.oflHwmClr g v) s = .next (s.withDev (s.dev.writes (ctxReg g 0x118) (s.dev.oflHwmClr g v))) := rfl
theorem exec_ctxLowClr (g : Fin 16) (v : W32) (s : State) : exec (.ctxLowClr g v) s = .next (s.withDev (s.dev.writes (ctxReg g 0xC) (s.dev.ctxLowClr g v))) := rfl
theorem exec_pacHwmClr (g : Fin 16) (v : W32) (s : State) : exec (.pacHwmClr g v) s = .next (s.withDev (s.dev.writes (pacReg g 0xC) (s.dev.pacHwmClr g v))) := rfl
theorem exec_holdHwmClr (g : Fin 16) (v : W32) (s : State) : exec (.holdHwmClr g v) s = .next (s.withDev (s.dev.writes (gwReg g 0x14) (s.dev.holdHwmClr g v))) := rfl
theorem exec_lckHwmClr (g : Fin 16) (v : W32) (s : State) : exec (.lckHwmClr g v) s = .next (s.withDev (s.dev.writes (lckReg g 0x14) (s.dev.lckHwmClr g v))) := rfl
theorem exec_hashSaltWrite (g : Fin 16) (t : Fin 17) (f : Fin 8) (v : W32) (s : State) :
    exec (.hashSaltWrite g t f v) s = .next (s.withDev (s.dev.writes (fuReg g t f 0x1C) (s.dev.saltWrite (fuKey g t f) v))) := rfl
theorem exec_oflConfigWrite (g : Fin 16) (a : BitVec 4) (v : W32) (s : State) :
    exec (.oflConfigWrite g a v) s = .next (s.withDev (s.dev.writes (ctxReg g (0x100 + a.toNat)) (s.dev.oflConfig g a.toNat v))) := rfl
theorem exec_firingDispatch (g : Fin 16) (t : Fin 17) (f : Fin 8) (e : Ecc) (w : Fin 4) (cy : Nat) (s : State) :
    exec (.firingDispatch g t f e w cy) s = .next (s.withDev (s.dev.dispatch (fuKey g t f) e w cy)) := rfl
theorem exec_undefinedOpcode (g : Fin 16) (t : Fin 17) (f : Fin 8) (s : State) :
    exec (.undefinedOpcode g t f) s = .next (s.withDev (s.dev.undefinedOp (fuKey g t f))) := rfl

section
variable {d : Dev} {g k : Nat} {v : W32}

theorem esHwmClr_set (h : v.getLsbD 0 = true) : d.esHwmClr k v =
    (let e := (d.setFld (fuRegK k 4) 11 0 (d.fu k).slice.length).setFld (fuRegK k 8) 14 8 ((d.fu k).slice.filter (fun c => c.2.st == 2)).length
     e.setFld (fuRegK k 0x10) 17 0 (e.rfld (fuRegK k 0xC) 17 0)) := if_pos h
theorem oflHwmClr_set (h : v.getLsbD 0 = true) : d.oflHwmClr g v = d.setFld (ctxReg g 0x110) 24 0 (d.rfld (ctxReg g 0x10C) 24 0) := if_pos h
theorem ctxLowClr_set (h : v.getLsbD 0 = true) : d.ctxLowClr g v = d.setFld (ctxReg g 4) 18 0 (Pool.freeCount (d.region g).pool) := if_pos h
theorem pacHwmClr_set (h : v.getLsbD 0 = true) : d.pacHwmClr g v = d.setFld (pacReg g 8) 16 0 (d.region g).pacer.length := if_pos h
theorem holdHwmClr_set (h : v.getLsbD 0 = true) : d.holdHwmClr g v = d.setFld (gwReg g 0x10) 18 0 (d.holdUsed g) := if_pos h
theorem lckHwmClr_set (h : v.getLsbD 0 = true) : d.lckHwmClr g v = d.setFld (lckReg g 0xC) 12 0 (d.lck g).leases.length := if_pos h

theorem esHwmClr_clear (h : v.getLsbD 0 = false) : d.esHwmClr k v = d := if_neg (Bool.eq_false_iff.1 h)
theorem oflHwmClr_clear (h : v.getLsbD 0 = false) : d.oflHwmClr g v = d := if_neg (Bool.eq_false_iff.1 h)
theorem ctxLowClr_clear (h : v.getLsbD 0 = false) : d.ctxLowClr g v = d := if_neg (Bool.eq_false_iff.1 h)
theorem pacHwmClr_clear (h : v.getLsbD 0 = false) : d.pacHwmClr g v = d := if_neg (Bool.eq_false_iff.1 h)
theorem holdHwmClr_clear (h : v.getLsbD 0 = false) : d.holdHwmClr g v = d := if_neg (Bool.eq_false_iff.1 h)
theorem lckHwmClr_clear (h : v.getLsbD 0 = false) : d.lckHwmClr g v = d := if_neg (Bool.eq_false_iff.1 h)

theorem saltWrite_empty (hs : (d.fu k).slice = []) (ho : d.rfld (fuRegK k 0xC) 17 0 = 0) : d.saltWrite k v = d.setFld (fuRegK k 0x1C) 15 0 (fld v 15 0) :=
  if_neg (by simp [hs, ho])

theorem saltWrite_used (h : (d.fu k).slice ≠ [] ∨ d.rfld (fuRegK k 0xC) 17 0 ≠ 0) : d.saltWrite k v = d :=
  if_pos (h.imp_left (fun hs => by simpa using hs))

section
variable (ho : d.regionOpen g = false) (hn : d.noneSpilled g = true)
include ho hn

theorem oflConfig_hi : d.oflConfig g 4 v = d.pairWrite (ctxReg g 0x100) v := by
  simp only [Dev.oflConfig, ho, hn, Bool.not_true, Bool.or_self, Bool.false_eq_true, if_false, Nat.reduceEqDiff, if_true]

theorem oflConfig_size : d.oflConfig g 8 v = d.setFld (ctxReg g 0x108) 2 0 (fld v 2 0) := by
  simp only [Dev.oflConfig, ho, hn, Bool.not_true, Bool.or_self, Bool.false_eq_true, if_false, Nat.reduceEqDiff, if_true, show ¬ (8 = 4) by omega]
  rfl

end

section
variable (h : d.regionOpen g = true ∨ d.noneSpilled g = false)
include h

theorem oflConfig_busy : (d.regionOpen g || !d.noneSpilled g) = true := by
  rcases h with h | h <;> simp [h]

theorem oflConfig_hi_busy : d.oflConfig g 4 v = { d with loHeld := mdel d.loHeld (ctxReg g 0x100) } := by
  simp only [Dev.oflConfig, oflConfig_busy h, Nat.reduceEqDiff, if_true, if_false]

theorem oflConfig_size_busy : d.oflConfig g 8 v = d := by
  simp only [Dev.oflConfig, oflConfig_busy h, Nat.reduceEqDiff, if_true, if_false, show ¬ (8 = 4) by omega]

end
end

/-- Settles O15: each mark takes the present count, and configuration is taken where nothing is held. -/
theorem highWaterAndConfiguration : Obligations.HighWaterAndConfiguration := by
  unfold Obligations.HighWaterAndConfiguration
  refine ⟨fun g t f v s h => ?_, fun g v s h => ⟨?_, ?_, ?_, ?_, ?_⟩, fun g t f v s h => ⟨?_, ?_, ?_, ?_, ?_, ?_⟩, fun g t f v s => ⟨fun hs ho => ?_, fun h => ?_⟩,
    fun g v s => ?_, fun g v s ho hn => ⟨?_, ?_⟩, fun g v s h => ⟨?_, ?_⟩⟩
  · rw [exec_esHwmClr, esHwmClr_set h]
  · rw [exec_oflHwmClr, oflHwmClr_set h]
  · rw [exec_ctxLowClr, ctxLowClr_set h]
  · rw [exec_pacHwmClr, pacHwmClr_set h]
  · rw [exec_holdHwmClr, holdHwmClr_set h]
  · rw [exec_lckHwmClr, lckHwmClr_set h]
  · rw [exec_esHwmClr, esHwmClr_clear h, writes_self, withDev_self]
  · rw [exec_oflHwmClr, oflHwmClr_clear h, writes_self, withDev_self]
  · rw [exec_ctxLowClr, ctxLowClr_clear h, writes_self, withDev_self]
  · rw [exec_pacHwmClr, pacHwmClr_clear h, writes_self, withDev_self]
  · rw [exec_holdHwmClr, holdHwmClr_clear h, writes_self, withDev_self]
  · rw [exec_lckHwmClr, lckHwmClr_clear h, writes_self, withDev_self]
  · rw [exec_hashSaltWrite, saltWrite_empty hs ho]
  · rw [exec_hashSaltWrite, saltWrite_used h, writes_self, withDev_self]
  · rw [exec_oflConfigWrite]
    rfl
  · rw [exec_oflConfigWrite, show (4 : BitVec 4).toNat = 4 from rfl, oflConfig_hi ho hn]
  · rw [exec_oflConfigWrite, show (8 : BitVec 4).toNat = 8 from rfl, oflConfig_size ho hn]
  · rw [exec_oflConfigWrite, show (4 : BitVec 4).toNat = 4 from rfl, oflConfig_hi_busy h]
  · rw [exec_oflConfigWrite, show (8 : BitVec 4).toNat = 8 from rfl, oflConfig_size_busy h, writes_self, withDev_self]

/-! An event leaves the other registers alone, whatever table lists them: what it writes is never a reset value. -/

theorem mget_mput_any {α : Type} {d v : α} : ∀ (m : SMap α) {k j : Nat}, j ≠ k → mget d (mput m k v) j = mget d m j
  | [], k, j, h => by simp [mput, mget, h.symm]
  | (i, w) :: m, k, j, h => by
    have ih := mget_mput_any (d := d) (v := v) m h
    unfold mput
    split
    · next hik =>
      subst hik
      simp only [mget, h.symm, if_false]
    split
    · simp only [mget, h.symm, if_false]
      by_cases hj : j < k
      · rw [if_pos hj, if_neg (by omega), if_pos (by omega)]
      · rw [if_neg hj]
    · simp only [mget, ih]

theorem reg_setReg_any {d : Dev} {a b : Nat} {v : W32} (hv : v ≠ regReset a) (hb : b ≠ a) : (d.setReg a v).reg b = d.reg b := by
  simp only [Dev.reg, Dev.setReg, mset, if_neg hv, mget_mput_any _ hb]

/-- A field set to another value than 0 leaves a register of value other than 0. -/
theorem putFld_ne_zero {n hi lo x : Nat} (v : BitVec n) (hn : hi < n) (hx : x < 2 ^ (hi + 1 - lo)) (h0 : x ≠ 0) : putFld v hi lo x ≠ 0 := by
  intro h
  have := fld_putFld_same v hn hx
  rw [h] at this
  simp [fld] at this
  exact h0 this.symm

theorem reg_setFld_any {d : Dev} {a b hi lo x : Nat} (hz : regReset a = 0) (hn : hi < 32) (hx : x < 2 ^ (hi + 1 - lo)) (h0 : x ≠ 0)
    (hb : b ≠ a) : (d.setFld a hi lo x).reg b = d.reg b :=
  reg_setReg_any (by rw [hz]; exact putFld_ne_zero _ hn hx h0) hb

/-- The address range of the event block's registers, of every source. -/
def evtAddr (b : Nat) : Prop := evtReg 0 ≤ b % 2 ^ 48 ∧ b % 2 ^ 48 < evtReg 0x1000

theorem ne_banked_evtReg {b o src : Nat} (h : ¬ evtAddr b) (ho : o < 0x1000) : b ≠ banked (evtReg o) src := by
  rintro rfl
  refine h ?_
  have : evtReg o < 2 ^ 48 := by simp only [evtReg, hubBase]; omega
  rw [evtAddr, banked, Nat.add_mul_mod_self_right, Nat.mod_eq_of_lt this]
  simp only [evtReg]
  omega

theorem ne_evtReg {b o : Nat} (h : ¬ evtAddr b) (ho : o < 0x1000) : b ≠ evtReg o := by
  simpa [banked] using ne_banked_evtReg (src := 0) h ho

/-! COUNT, CAUSE, the pending bits and the sticky bit reset to 0. -/

theorem regReset_evtCount : ∀ src < 256, regReset (banked (evtReg 0x18) src) = 0 := by decide +kernel
theorem regReset_evtCause : ∀ src < 256, regReset (banked (evtReg 0x14) src) = 0 := by decide +kernel
theorem regReset_evtPending : ∀ j < 22, regReset (evtReg (0x100 + 4 * j)) = 0 := by decide +kernel
theorem regReset_evtSticky : regReset (evtReg 0x1C) = 0 := by decide +kernel

theorem causeWord_lt (code index : Nat) : causeWord code index < 2 ^ 27 := Nat.mod_lt _ (by decide)

section
variable {d : Dev} {src b : Nat} (hs : src < 256) (hb : ¬ evtAddr b)
include hs hb

theorem reg_countEvent : (d.addSat16 (banked (evtReg 0x18) src) 1).reg b = d.reg b :=
  reg_setFld_any (regReset_evtCount src hs) (by omega) (by omega) (by omega) (ne_banked_evtReg hb (by omega))

theorem reg_setEvtPending : (d.setEvtPending src true).reg b = d.reg b :=
  reg_setFld_any (x := 1) (regReset_evtPending (src / 32) (by omega)) (by omega) (by simp) Nat.one_ne_zero (ne_evtReg hb (by omega))

omit hs in
theorem reg_setEvtSticky : (d.setBit (evtReg 0x1C) 0 true).reg b = d.reg b :=
  reg_setFld_any (x := 1) regReset_evtSticky (by omega) (by simp) Nat.one_ne_zero (ne_evtReg hb (by omega))

omit hs hb in
theorem reg_withEvtQ (e : Dev) (q : List (Nat × Token)) (b : Nat) : ({ e with evtQ := q } : Dev).reg b = e.reg b := rfl

omit hs hb in
theorem reg_withEvtWait (e : Dev) (q : List (Nat × Token)) (b : Nat) : ({ e with evtWait := q } : Dev).reg b = e.reg b := rfl

/-- Raising a cluster's source with a cause leaves every register outside the event block. -/
theorem reg_raise {code index : Nat} (hc : causeWord code index ≠ 0) : (d.raise src code index).reg b = d.reg b := by
  have h1 : ((d.addSat16 (banked (evtReg 0x18) src) 1).setFld (banked (evtReg 0x14) src) 26 0 (causeWord code index)).reg b = d.reg b :=
    (reg_setFld_any (regReset_evtCause src hs) (by omega) (causeWord_lt ..) hc (ne_banked_evtReg hb (by omega))).trans (reg_countEvent hs hb)
  unfold Dev.raise Dev.raiseWith
  extract_lets d1 d2 cfg
  have h2 : d2.reg b = d.reg b := h1
  clear_value d2 cfg
  split
  · exact h2
  split
  · rw [reg_setEvtPending hs hb, h2]
  split
  · rw [reg_setEvtSticky hb, reg_setEvtPending hs hb, h2]
  split
  · exact h2
  split
  · exact (reg_withEvtQ ..).trans ((reg_setEvtPending hs hb).trans h2)
  · exact (reg_withEvtWait ..).trans ((reg_setEvtPending hs hb).trans h2)

end

/-! An error token is the same before and after a tile's event. -/

theorem setEvtPending_graphs (d : Dev) (n : Nat) (b : Bool) : (d.setEvtPending n b).graphs = d.graphs := Dev.setBit_graphs ..

theorem raise_graphs (d : Dev) (src code index : Nat) : (d.raise src code index).graphs = d.graphs := by
  unfold Dev.raise Dev.raiseWith
  extract_lets d1 d2 cfg
  have h2 : d2.graphs = d.graphs := (Dev.setFld_graphs ..).trans (Dev.setFld_graphs ..)
  clear_value d2 cfg
  split
  · exact h2
  split
  · rw [setEvtPending_graphs, h2]
  split
  · rw [Dev.setBit_graphs, setEvtPending_graphs, h2]
  split
  · exact h2
  split
  · exact (setEvtPending_graphs d2 src true).trans h2
  · exact (setEvtPending_graphs d2 src true).trans h2

theorem not_evtAddr_rly : ¬ evtAddr (rlyReg 0) := by
  simp only [evtAddr, evtReg, rlyReg, hubBase]
  omega

theorem not_evtAddr_rgn {g o : Nat} (ho : o < 0x100) : ¬ evtAddr (rgnReg g o) := by
  simp only [evtAddr, evtReg, rgnReg, regionAddr, configBase, hubBase]
  omega

theorem logicalOf_lt {d : Dev} {g t c : Nat} (h : d.logicalOf g t = some c) : c < 16 := by
  exact List.mem_range.1 (List.mem_of_find?_eq_some h)

theorem clusterOf_lt {d : Dev} {g c : Nat} {t : Fin 17} (hg : g < 16) (h : d.clusterOf (tileKey g t) = some c) : c < 256 := by
  rw [Dev.clusterOf, tileKey_div] at h
  obtain ⟨x, hx, rfl⟩ := Option.map_eq_some_iff.1 h
  have := logicalOf_lt hx
  omega

theorem find?_congr_of_mem {α : Type} {p q : α → Bool} : ∀ {l : List α}, (∀ x ∈ l, p x = q x) → l.find? p = l.find? q
  | [], _ => rfl
  | x :: xs, h => by
    rw [List.find?_cons, List.find?_cons, h x (by simp), find?_congr_of_mem (fun y hy => h y (List.mem_cons_of_mem _ hy))]

theorem fuKey_div (g t : Nat) (f : Fin 8) : fuKey g t f / 8 = tileKey g t := by
  unfold fuKey tileKey
  omega

section
variable {d e : Dev}

theorem devNo_eq_of_reg (hrly : e.reg (rlyReg 0) = d.reg (rlyReg 0)) : e.devNo = d.devNo := by
  rw [Dev.devNo, Dev.rfld, hrly, Dev.devNo, Dev.rfld]

theorem baseTag_eq_of_reg (hrly : e.reg (rlyReg 0) = d.reg (rlyReg 0)) (fr : Firing) : e.baseTag fr = d.baseTag fr := by
  rw [Dev.baseTag, devNo_eq_of_reg hrly, Dev.baseTag]

variable {g : Nat} (hmap : ∀ o < 0x100, e.reg (rgnReg g o) = d.reg (rgnReg g o))
include hmap

theorem tileOf_eq_of_reg {c : Nat} (hc : c < 16) : e.tileOf g c = d.tileOf g c := by
  simp only [Dev.tileOf, Dev.rfld, hmap (0x10 + 4 * (c / 4)) (by omega)]

theorem logicalOf_eq_of_reg (t : Nat) : e.logicalOf g t = d.logicalOf g t := by
  simp only [Dev.logicalOf]
  exact find?_congr_of_mem (fun c hc => by rw [tileOf_eq_of_reg hmap (List.mem_range.1 hc)])

theorem clusterOf_eq_of_reg (t : Fin 17) : e.clusterOf (tileKey g t) = d.clusterOf (tileKey g t) := by
  simp only [Dev.clusterOf, tileKey_div, tileKey_mod, logicalOf_eq_of_reg hmap]

theorem originOf_eq_of_reg (t : Fin 17) (f : Fin 8) : e.originOf (fuKey g t f) = d.originOf (fuKey g t f) := by
  rw [Dev.originOf, fuKey_div, clusterOf_eq_of_reg hmap, Dev.originOf, fuKey_div]

theorem errOf_eq_of_reg (hrly : e.reg (rlyReg 0) = d.reg (rlyReg 0)) (hgr : e.graphs = d.graphs) {t : Fin 17} {f : Fin 8} (fr : Firing) (code detail : Nat) :
    e.errOf (fuKey g t f) fr code detail = d.errOf (fuKey g t f) fr code detail := by
  have hdst : ∀ n i, e.errDst n i = d.errDst n i := fun n i => by rw [Dev.errDst, Dev.errDst, Dev.graph, hgr, Dev.graph]
  rw [Dev.errOf, baseTag_eq_of_reg hrly, originOf_eq_of_reg hmap, Dev.errToken, hdst, devNo_eq_of_reg hrly, Dev.errOf, Dev.errToken]

end

theorem errOf_raiseTile {d : Dev} {g : Nat} {t : Fin 17} {f : Fin 8} (hg : g < 16) (fr : Firing) (code detail : Nat) :
    (d.raiseTile (tileKey g t) 3 0).errOf (fuKey g t f) fr code detail = d.errOf (fuKey g t f) fr code detail := by
  unfold Dev.raiseTile
  split
  · next c hc =>
    exact errOf_eq_of_reg (fun o ho => reg_raise (clusterOf_lt hg hc) (not_evtAddr_rgn ho) (by decide))
      (reg_raise (clusterOf_lt hg hc) not_evtAddr_rly (by decide)) (raise_graphs ..) fr code detail
  · rfl

/-! Dispatch, and firings that cannot be executed. -/

section
variable {d : Dev} {k cy : Nat} {w : Nat}

theorem dispatch_idle {e : Ecc} (h : (d.fu k).fetch.isSome = true ∨ topItem (d.fu k).issue = none) : d.dispatch k e w cy = d := by
  simp only [Dev.dispatch]
  rcases h with h | h
  · rw [if_pos h]
  · rw [h]
    exact ite_self d

section
variable {it : Item} (hf : (d.fu k).fetch = none) (ht : topItem (d.fu k).issue = some it) (ho : dOpc (d.descAt (k / 8) it.fir.slot.toNat) ≠ 0x203)
include hf ht ho

theorem dispatch_ok : d.dispatch k .ok w cy = (d.setFu k { d.fu k with
    issue := removeFirst (· == it) (d.fu k).issue
    fetch := some { fir := it.fir, desc := some (d.descAt (k / 8) it.fir.slot.toNat), ue := BitVec.ofNat 15 (it.fir.slot.toNat + w), cycle := cy } }).grantMove k := by
  simp only [Dev.dispatch, hf, ht, if_neg ho, Option.isSome_none, Bool.false_eq_true, if_false, reduceCtorEq, decide_false, Bool.false_and, List.range_zero, List.map_nil]

theorem dispatch_ue (b : Bool) : d.dispatch k (.ue b) 0 cy = (d.setFu k { d.fu k with
    issue := removeFirst (· == it) (d.fu k).issue
    fetch := some { fir := it.fir, desc := none, ue := it.fir.slot, cycle := cy } }).grantMove k := by
  have hslot : BitVec.ofNat 15 (it.fir.slot.toNat + 0) = it.fir.slot := by simp
  simp only [Dev.dispatch, hf, ht, if_neg ho, Option.isSome_none, Bool.false_eq_true, if_false, if_true, reduceCtorEq, decide_false, Bool.false_and, List.range_zero, List.map_nil,
    Nat.le_refl, decide_true, hslot]

end

theorem undefinedOp_undefined {x : Fetched} {desc : BitVec 128} (hx : (d.fu k).fetch = some x) (hd : x.desc = some desc) (ho : opDefined (dOpc desc) = false) (h27F : dOpc desc ≠ 0x27F) :
    d.undefinedOp k = (d.setBit (nodeReg (k / 136) (k / 8 % 17) 4) 1 true).failFiring k (d.errOf k x.fir stUNDEFINED_OPCODE (x.fir.slot.toNat + dOpc desc * 32768)) := by
  simp only [Dev.undefinedOp, hx, hd, ho, if_neg h27F, Bool.false_eq_true, if_false]

/-- The device after a descriptor's uncorrectable error: the sticky bit 0 and the slot captured. -/
def Dev.nodeUe (d : Dev) (g t : Nat) (ue : BitVec 15) : Dev := (d.setBit (nodeReg g t 4) 0 true).setReg (nodeReg g t 8) (ue.zeroExtend 32)

theorem undefinedOp_ue {x : Fetched} (hx : (d.fu k).fetch = some x) (hd : x.desc = none) :
    d.undefinedOp k = ((d.nodeUe (k / 136) (k / 8 % 17) x.ue).raiseTile (k / 8) 3 0).failFiring k
      ((d.nodeUe (k / 136) (k / 8 % 17) x.ue).errOf k x.fir stNODE_UE x.ue.toNat) := by
  simp only [Dev.undefinedOp, hx, hd, Dev.nodeUe]

theorem undefinedOp_executable {o : Nat} {fr : Firing} {desc : BitVec 128} {ext : List (BitVec 128)} (h : d.firesAt k o fr desc ext) (ho : opDefined o = true) : d.undefinedOp k = d := by
  obtain ⟨⟨x, hx, rfl, hd, rfl⟩, rfl, hok⟩ := h
  have h27F : dOpc desc ≠ 0x27F := by
    intro h
    rw [h] at ho
    exact absurd ho (by decide)
  simp only [Dev.undefinedOp, hx, hd, ho, hok, if_neg h27F, if_true]

end

/-- Settles O23: dispatch takes the top item with its descriptor; a firing without a valid one is reported. -/
theorem dispatchAndUndefinedFirings : Obligations.DispatchAndUndefinedFirings := by
  unfold Obligations.DispatchAndUndefinedFirings
  refine ⟨fun g t f w cy s it => ?_, fun g t f e w cy s h => ?_, fun g t f s x desc => ?_, fun g t f s x hx hd => ?_, fun g t f s o fr desc ext h ho => ?_⟩
  · intro k u desc hf ht ho left
    exact ⟨by rw [exec_firingDispatch, dispatch_ok hf ht ho], fun b => by rw [exec_firingDispatch]; exact congrArg (fun d => Host.Outcome.next (s.withDev d)) (dispatch_ue hf ht ho b)⟩
  · rw [exec_firingDispatch, dispatch_idle h, withDev_self]
  · intro k hx hd ho h27F
    rw [exec_undefinedOpcode, undefinedOp_undefined hx hd ho h27F, fuKey_region g t f t.isLt f.isLt, fuKey_tile]
    rfl
  · rw [exec_undefinedOpcode, undefinedOp_ue hx hd, fuKey_region g t f t.isLt f.isLt, fuKey_tile, fuKey_div, ← errOf_raiseTile g.isLt]
    rfl
  · rw [exec_undefinedOpcode, undefinedOp_executable h ho, withDev_self]

end Sys2Proof.Machine

/-! ### Steering and loop nodes (SPEC R107, R110, R115, R116, R129, R130; obligations O24, O25) -/

namespace Sys2Proof.Machine

/-! Steering. -/

theorem exec_switch (g : Fin 16) (t : Fin 17) (f : Fin 8) (s : State) : exec (.switch g t f) s = .next (s.withDev (s.dev.opSwitch (fuKey g t f))) := rfl
theorem exec_merge (g : Fin 16) (t : Fin 17) (f : Fin 8) (s : State) : exec (.merge g t f) s = .next (s.withDev (s.dev.opPass (fuKey g t f) 0x201 (fun x => x.port 0))) := rfl
theorem exec_gate (g : Fin 16) (t : Fin 17) (f : Fin 8) (s : State) : exec (.gate g t f) s = .next (s.withDev (s.dev.opPass (fuKey g t f) 0x202 (fun x => x.port 0))) := rfl
theorem exec_select (g : Fin 16) (t : Fin 17) (f : Fin 8) (s : State) : exec (.select g t f) s = .next (s.withDev (s.dev.opPass (fuKey g t f) 0x204 selectTok)) := rfl
theorem exec_fanout (g : Fin 16) (t : Fin 17) (f : Fin 8) (s : State) : exec (.fanout g t f) s = .next (s.withDev (s.dev.opFanout (fuKey g t f))) := rfl

section
variable {d : Dev} {k o : Nat} {fr : Firing} {desc : BitVec 128} {ext : List (BitVec 128)}

theorem typeError_none (h : mismatch fr desc = none) : d.typeError k fr desc = none := by
  rw [Dev.typeError, h, Option.map_none]

theorem typeError_some {p q : Nat} (h : mismatch fr desc = some (p, q)) :
    d.typeError k fr desc = some (d.failFiring k (d.errOf k fr stTYPE_MISMATCH (p + q * 8))) := by
  rw [Dev.typeError, h, Option.map_some]

section
variable {x c : Token} (h : d.firesAt k 0x200 fr desc ext) (hx : fr.port 0 = some x) (hc : fr.port 2 = some c)
include h hx hc

theorem opSwitch_passes (he : Token.err c = false) (hm : mismatch fr desc = none) :
    d.opSwitch k = d.finish k 1 1 { toks := [d.passTok fr desc (if c.pay = 0 then dDst1 desc else dDst0 desc) x] } := by
  simp only [Dev.opSwitch, checked_of_firesAt h, hx, hc, he, Bool.false_eq_true, if_false, typeError_none hm]

theorem opSwitch_mismatch (he : Token.err c = false) {p q : Nat} (hm : mismatch fr desc = some (p, q)) :
    d.opSwitch k = d.failFiring k (d.errOf k fr stTYPE_MISMATCH (p + q * 8)) := by
  simp only [Dev.opSwitch, checked_of_firesAt h, hx, hc, he, Bool.false_eq_true, if_false, typeError_some hm]

theorem opSwitch_err (he : Token.err c = true) :
    d.opSwitch k = d.failFiring k (d.errToken (k / 136) (d.baseTag fr) (if Token.err x then x.pay else c.pay) (Firing.replay fr)) := by
  simp only [Dev.opSwitch, checked_of_firesAt h, hx, hc, he, if_true, Dev.errToPort, apply_ite Token.pay]

end

/-! MERGE, GATE and SELECT pass on the token that they pick. -/

section
variable {pick : Firing → Option Token} (h : d.firesAt k o fr desc ext)
include h

theorem opPass_passes {t : Token} (hc : cleanFiring fr desc) (ht : pick fr = some t) :
    d.opPass k o pick = d.finish k 1 1 { toks := (dstsOf desc).map (fun y => d.passTok fr desc y t) } := by
  simp only [Dev.opPass, ready_of_firesAt h hc, ht]

theorem opPass_err (ho : o ≠ 0x203) {p : Nat} {e : Token} (he : fr.errTok = some (p, e)) :
    d.opPass k o pick = d.finish k 1 1 { toks := (dstsOf desc).map (fun y => d.outTok fr desc y e.pay.toNat 6 true) } := by
  simp only [Dev.opPass, ready_of_err h he, if_neg ho, fanDsts_nil]

theorem opPass_mismatch {p q : Nat} (he : fr.errTok = none) (hm : mismatch fr desc = some (p, q)) :
    d.opPass k o pick = d.failFiring k (d.errOf k fr stTYPE_MISMATCH (p + q * 8)) := by
  simp only [Dev.opPass, ready_of_mismatch h he hm]

end

theorem selectTok_eq {x y c : Token} (hx : fr.port 0 = some x) (hy : fr.port 1 = some y) (hc : fr.port 2 = some c) :
    selectTok fr = some (if c.pay = 0 then y else x) := by
  simp only [selectTok, hc, hx, hy, apply_ite some]

theorem opFanout_passes {x : Token} (h : d.firesAt k 0x203 fr desc ext) (hc : cleanFiring fr desc) (hx : fr.port 0 = some x) :
    d.opFanout k = d.finish k 1 1 { toks := (dstsOf desc ++ ext.flatMap dstsOf).map (fun y => d.passTok fr desc y x) } := by
  simp only [Dev.opFanout, ready_of_firesAt h hc, hx, fanDsts]

theorem opFanout_err (h : d.firesAt k 0x203 fr desc ext) {p : Nat} {e : Token} (he : fr.errTok = some (p, e)) :
    d.opFanout k = d.finish k 1 1 { toks := (dstsOf desc ++ ext.flatMap dstsOf).map (fun y => d.outTok fr desc y e.pay.toNat 6 true) } := by
  simp only [Dev.opFanout, ready_of_err h he, if_true, fanDsts]

end

theorem ptype_lt (t : Token) : Token.ptype t < 16 := (t.ty.extractLsb' 0 4).isLt

/-- Settles O24: the nodes' cases; a passed token keeps payload, type and ERR. -/
theorem steeringPassesTokens : Obligations.SteeringPassesTokens := by
  unfold Obligations.SteeringPassesTokens
  refine ⟨fun g t f s fr desc ext => ?_, fun d fr desc y x => ?_⟩
  · intro k passed errors refused
    refine ⟨fun h x c hx hc => ⟨fun he hm => ?_, fun he p q hm => ?_, fun he => ?_⟩, fun h => ⟨fun x hc hx => ?_, fun p e he => ?_⟩, fun h => ⟨fun x hc hx => ?_, fun p e he => ?_⟩,
      fun h => ⟨fun x y c hc hx hy hz => ?_, fun p e he => ?_, fun p q he hm => ?_⟩, fun h => ⟨fun x hc hx => ?_, fun p e he => ?_⟩⟩
    · rw [exec_switch, opSwitch_passes h hx hc he hm]
      rfl
    · rw [exec_switch, opSwitch_mismatch h hx hc he hm]
      rfl
    · rw [exec_switch, opSwitch_err h hx hc he]
      rfl
    · rw [exec_merge, opPass_passes h hc hx]
    · rw [exec_merge, opPass_err h (by decide) he]
    · rw [exec_gate, opPass_passes h hc hx]
    · rw [exec_gate, opPass_err h (by decide) he]
    · rw [exec_select, opPass_passes h hc (selectTok_eq hx hy hz)]
    · rw [exec_select, opPass_err h (by decide) he]
    · rw [exec_select, opPass_mismatch h he hm]
      rfl
    · rw [exec_fanout, opFanout_passes h hc hx]
    · rw [exec_fanout, opFanout_err h he]
  · exact ⟨BitVec.ofNat_toNat .., ptype_tyByte (ptype_lt x) .., err_tyByte .., rfl, rfl, crcOk_seal _⟩

/-! Loops. -/

theorem exec_loopent (g : Fin 16) (t : Fin 17) (f : Fin 8) (s : State) : exec (.loopent g t f) s = .next (s.withDev (s.dev.opLoop (fuKey g t f) 0x210 Dev.loopEnt)) := rfl
theorem exec_loopnext (g : Fin 16) (t : Fin 17) (f : Fin 8) (s : State) :
    exec (.loopnext g t f) s = .next (s.withDev (s.dev.opLoop (fuKey g t f) 0x211 (fun d => d.loopNext (fuKey g t f)))) := rfl
theorem exec_loopret (g : Fin 16) (t : Fin 17) (f : Fin 8) (s : State) :
    exec (.loopret g t f) s = .next (s.withDev (s.dev.opLoop (fuKey g t f) 0x212 (fun d => d.loopRet (fuKey g t f)))) := rfl
theorem exec_loopexit (g : Fin 16) (t : Fin 17) (f : Fin 8) (s : State) : exec (.loopexit g t f) s = .next (s.withDev (s.dev.opLoop (fuKey g t f) 0x213 Dev.loopExit)) := rfl

section
variable {d : Dev} {k o : Nat} {fr : Firing} {desc : BitVec 128} {ext : List (BitVec 128)} {out : Dev → Firing → BitVec 128 → List Token}
  (h : d.firesAt k o fr desc ext)
include h

theorem opLoop_clean (hc : cleanFiring fr desc) : d.opLoop k o out = d.finish k 1 (1 + (cdiv (out d fr desc).length 2 - 1)) { toks := out d fr desc } := by
  obtain ⟨he, hm⟩ := hc
  simp only [Dev.opLoop, checked_of_firesAt h, he, typeError_none hm]

/-- A loop node that sends one or two tokens takes one cycle. -/
theorem opLoop_short (hc : cleanFiring fr desc) {ts : List Token} (ht : out d fr desc = ts) (hl : ts.length = 1 ∨ ts.length = 2) :
    d.opLoop k o out = d.finish k 1 1 { toks := ts } := by
  rw [opLoop_clean h hc, ht]
  rcases hl with hl | hl <;> rw [hl] <;> rfl

theorem opLoop_err {p : Nat} {e : Token} (he : fr.errTok = some (p, e)) :
    d.opLoop k o out = d.finish k 1 1 { toks := [d.errToken (k / 136) (d.baseTag fr) e.pay (Firing.replay fr)], fault := true } := by
  simp only [Dev.opLoop, checked_of_firesAt h, he]
  rfl

end

/-- A node's signal where it has a second destination: at most one token. -/
theorem length_ite_two (p : Prop) [Decidable p] (a b : Token) : (a :: if p then [b] else []).length = 1 ∨ (a :: if p then [b] else []).length = 2 := by
  split
  · exact .inr rfl
  · exact .inl rfl

section
variable {d : Dev} {k : Nat} {fr : Firing} {desc : BitVec 128} {v : Token}

theorem loopNext_value (hv : fr.port 1 = some v) (hn : ¬ (Token.ptype v = 6 ∧ statusCode v.pay = stLOOP_DRAIN)) :
    d.loopNext k fr desc = d.loopTok fr (dDst0 desc) ((Firing.lead fr).tag.iter + 1) v.pay (Token.ptype v) false ::
      (if dNdst desc = 2 then [d.loopTok fr (dDst1 desc) (Firing.lead fr).tag.iter 0 7 false] else []) := by
  simp only [Dev.loopNext, hv, Option.getD_some, if_neg hn]

theorem loopNext_drain (hv : fr.port 1 = some v) (hd : Token.ptype v = 6 ∧ statusCode v.pay = stLOOP_DRAIN) (hr : 1 < statusDetail v.pay % 256) :
    d.loopNext k fr desc = [d.drainTok k fr (selfDst fr fr.slot 1) ((Firing.lead fr).tag.iter + 1) (statusDetail v.pay % 256 - 1)] := by
  simp only [Dev.loopNext, hv, Option.getD_some, if_pos hd, if_pos hr]

theorem loopNext_last (hv : fr.port 1 = some v) (hd : Token.ptype v = 6 ∧ statusCode v.pay = stLOOP_DRAIN) (hr : statusDetail v.pay % 256 ≤ 1) :
    d.loopNext k fr desc = [d.loopTok fr (selfDst fr (loopSlot desc) 2) ((Firing.lead fr).tag.iter - BitVec.ofNat 8 (loopK desc - 1)) 0 7 false] := by
  simp only [Dev.loopNext, hv, Option.getD_some, if_pos hd, if_neg (Nat.not_lt.2 hr)]

theorem loopRet_eq (hv : fr.port 0 = some v) : d.loopRet k fr desc =
    if v.pay = 0 then [d.loopTok fr (dDst0 desc) ((Firing.lead fr).tag.iter + BitVec.ofNat 8 (loopK desc - 1)) 0 7 false,
      d.drainTok k fr { dDst0 desc with port := 1 } (Firing.lead fr).tag.iter (loopK desc)]
    else [d.loopTok fr (selfDst fr fr.slot 2) ((Firing.lead fr).tag.iter + 1) 0 7 false,
      d.loopTok fr (dDst0 desc) ((Firing.lead fr).tag.iter + BitVec.ofNat 8 (loopK desc - 1)) 0 7 false] := by
  simp only [Dev.loopRet, hv, Option.getD_some]

theorem loopExit_eq (hv : fr.port 0 = some v) : d.loopExit fr desc = d.loopTok fr (dDst0 desc) 0 v.pay (Token.ptype v) false ::
    (if dNdst desc = 2 then [d.loopTok fr (dDst1 desc) (Firing.lead fr).tag.iter 0 7 false] else []) := by
  simp only [Dev.loopExit, hv, Option.getD_some]

end

/-- Settles O25: the tokens of each loop node, sent in one cycle but for a loop entry's permits. -/
theorem loopNodesCarryPermits : Obligations.LoopNodesCarryPermits := by
  unfold Obligations.LoopNodesCarryPermits
  intro g t f s fr desc ext k d i occ signal
  refine ⟨fun h hc => ?_, fun v h hc hv => ⟨fun hn => ?_, fun hd hr => ?_, fun hd hr => ?_⟩, fun v h hc hv => ?_, fun v h hc hv => ?_, fun p e he => ?_⟩
  · rw [exec_loopent, opLoop_clean h hc]
    rfl
  · rw [exec_loopnext, opLoop_short h hc (loopNext_value hv hn) (length_ite_two ..)]
  · rw [exec_loopnext, opLoop_short h hc (loopNext_drain hv hd hr) (.inl rfl)]
    rfl
  · rw [exec_loopnext, opLoop_short h hc (loopNext_last hv hd hr) (.inl rfl)]
  · rw [exec_loopret, opLoop_short h hc (loopRet_eq hv) (by split <;> exact .inr rfl)]
    rfl
  · rw [exec_loopexit, opLoop_short h hc (loopExit_eq hv) (length_ite_two ..)]
  · intro r
    exact ⟨fun h => by rw [exec_loopent, opLoop_err h he], fun h => by rw [exec_loopnext, opLoop_err h he], fun h => by rw [exec_loopret, opLoop_err h he],
      fun h => by rw [exec_loopexit, opLoop_err h he]⟩

end Sys2Proof.Machine

/-! ### Memory nodes (SPEC R117, R118, R280; obligation O26) -/

namespace Sys2Proof.Machine

theorem exec_memory : ∀ c ∈ memoryCommands, ∀ (g : Fin 16) (t : Fin 17) (f : Fin 8) (s : State),
    exec (c.2 g t f) s = .next (s.withDev (s.dev.opMem (fuKey g t f) c.1.1 c.1.2 (memKind c.1.2))) := by
  simp only [memoryCommands, List.forall_mem_cons, List.not_mem_nil, false_imp_iff, implies_true, and_true]
  exact ⟨fun _ _ _ _ => rfl, fun _ _ _ _ => rfl, fun _ _ _ _ => rfl, fun _ _ _ _ => rfl⟩

/-- The address of a memory node's access: its base plus IMM32, modulo 2^64. -/
def memAddr (fr : Firing) (desc : BitVec 128) : Nat := (((operand fr desc 0 : Int) + (dImm desc).toInt) % 2 ^ 64).toNat

/-- The request of a memory node. -/
def Dev.memReq (d : Dev) (k op a tag : Nat) (fr : Firing) (desc : BitVec 128) (v : W64) : MemReq :=
  { op := BitVec.ofNat 4 op, size := sizeCode (memWidth (dType desc)), addr := BitVec.ofNat 48 a, req := fuDest k, rtag := BitVec.ofNat 12 tag, prio := (d.baseTag fr).prio
    operand := v, ctx := (d.baseTag fr).ctx, graph := (d.baseTag fr).graph }

/-- The device with an outstanding operation of the firing under the next tag. -/
def Dev.outstanding (d : Dev) (k : Nat) (kind : OutKind) (fr : Firing) (desc : BitVec 128) (a : Nat) : Dev :=
  d.setFu k { d.fu k with
    nextTag := (d.fu k).nextTag + 1
    out := (d.fu k).out ++ [{ rtag := (d.fu k).nextTag % 4096, kind := kind, fir := fr, desc := desc, addr := a }] }

theorem addOut_eq (d : Dev) (k : Nat) (kind : OutKind) (fr : Firing) (desc : BitVec 128) (a : Nat) :
    d.addOut k kind fr desc a = (d.outstanding k kind fr desc a, (d.fu k).nextTag % 4096) := rfl

section
variable {d : Dev} {k o op : Nat} {kind : OutKind} {fr : Firing} {desc : BitVec 128} {ext : List (BitVec 128)} (h : d.firesAt k o fr desc ext) (hc : cleanFiring fr desc)
include h hc

theorem opMem_refused {code : Nat} (he : d.accessError (d.baseTag fr).graph.toNat (memAddr fr desc) (memWidth (dType desc)) (op != 1) (op != 0) (op == 0) = some code) :
    d.opMem k o op kind = d.failFiring k (d.errOf k fr code (memAddr fr desc)) := by
  unfold memAddr at he ⊢
  simp only [Dev.opMem, ready_of_firesAt h hc, he]

variable (he : d.accessError (d.baseTag fr).graph.toNat (memAddr fr desc) (memWidth (dType desc)) (op != 1) (op != 0) (op == 0) = none)
include he

theorem opMem_waits (hr : d.respRoom k = false) : d.opMem k o op kind = d := by
  unfold memAddr at he
  simp only [Dev.opMem, ready_of_firesAt h hc, he, hr, Bool.not_false, if_true]

theorem opMem_access (hr : d.respRoom k = true) (ha : memAddr fr desc < lockBase) :
    d.opMem k o op kind = ((d.outstanding k kind fr desc (memAddr fr desc)).access (fuNode k) (k / 8) (fuClass (memAddr fr desc)) (k % 8)
      (d.memReq k op (memAddr fr desc) ((d.fu k).nextTag % 4096) fr desc (BitVec.ofNat 64 (operand fr desc 1)))).depart k := by
  unfold memAddr at he ha ⊢
  simp only [Dev.opMem, ready_of_firesAt h hc, he, hr, Bool.not_true, Bool.false_eq_true, if_false, if_neg (Nat.not_le.2 ha), addOut_eq, Dev.memReq]

theorem opMem_acquire (hr : d.respRoom k = true) (ha : lockBase ≤ memAddr fr desc) :
    d.opMem k o op kind = ((d.outstanding k .acquire fr desc (memAddr fr desc)).request (fuNode k) (lockDest (lockWord (memAddr fr desc))) false
      { d.memReq k 4 (lockWord (memAddr fr desc)) ((d.fu k).nextTag % 4096) fr desc 0 with
        prio := BitVec.ofNat 4 ((d.outstanding k .acquire fr desc (memAddr fr desc)).eprio (k / 8) fr) }).depart k := by
  unfold memAddr at he ha ⊢
  simp only [Dev.opMem, ready_of_firesAt h hc, he, hr, Bool.not_true, Bool.false_eq_true, if_false, if_pos ha, addOut_eq, Dev.memReq]

end

/-- A misaligned address is the first error of R118. -/
theorem accessError_misaligned {d : Dev} {graph a w : Nat} {rd wr lockOk : Bool} (h : a % w ≠ 0) : d.accessError graph a w rd wr lockOk = some stMISALIGNED := by
  rw [Dev.accessError, if_pos]
  simp [h]

/-- Settles O26: one request, or the access's first error. -/
theorem memoryNodesIssueOneAccess : Obligations.MemoryNodesIssueOneAccess := by
  unfold Obligations.MemoryNodesIssueOneAccess
  intro c hcmd g t f s fr desc ext k d a w b h hc
  rw [exec_memory c hcmd]
  refine ⟨fun he => ?_, fun code he => ?_, accessError_misaligned⟩
  · intro tag held req
    refine ⟨fun hr ha => ?_, fun hr ha => ?_, fun hr => ?_⟩
    · rw [opMem_access h hc he hr ha]
      rfl
    · rw [opMem_acquire h hc he hr ha]
      rfl
    · rw [opMem_waits h hc he hr, withDev_self]
  · rw [opMem_refused h hc he]
    rfl

end Sys2Proof.Machine

/-! ### Context and call nodes (SPEC R84, R87, R110, R119 to R121; obligation O27) -/

namespace Sys2Proof.Machine

theorem exec_pass (g : Fin 16) (t : Fin 17) (f : Fin 8) (s : State) : exec (.pass g t f) s = .next (s.withDev (s.dev.opSendTo (fuKey g t f) 0x302 Dev.outPassCtx)) := rfl
theorem exec_call (g : Fin 16) (t : Fin 17) (f : Fin 8) (s : State) : exec (.call g t f) s = .next (s.withDev (s.dev.opSendTo (fuKey g t f) 0x303 Dev.outCall)) := rfl
theorem exec_ret (g : Fin 16) (t : Fin 17) (f : Fin 8) (s : State) : exec (.ret g t f) s = .next (s.withDev (s.dev.opSendTo (fuKey g t f) 0x304 Dev.outRet)) := rfl
theorem exec_relaysend (g : Fin 16) (t : Fin 17) (f : Fin 8) (s : State) : exec (.relaysend g t f) s = .next (s.withDev (s.dev.opSendTo (fuKey g t f) 0x310 Dev.outRelay)) := rfl
theorem exec_flagget (g : Fin 16) (t : Fin 17) (f : Fin 8) (s : State) : exec (.flagget g t f) s = .next (s.withDev (s.dev.opFlags (fuKey g t f) 0x320)) := rfl
theorem exec_flagclr (g : Fin 16) (t : Fin 17) (f : Fin 8) (s : State) : exec (.flagclr g t f) s = .next (s.withDev (s.dev.opFlags (fuKey g t f) 0x321)) := rfl
theorem exec_ctxalloc (g : Fin 16) (t : Fin 17) (f : Fin 8) (s : State) : exec (.ctxalloc g t f) s = .next (s.withDev (s.dev.opCtxAlloc (fuKey g t f))) := rfl
theorem exec_ctxfree (g : Fin 16) (t : Fin 17) (f : Fin 8) (s : State) : exec (.ctxfree g t f) s = .next (s.withDev (s.dev.opCtxFree (fuKey g t f))) := rfl

section
variable {d : Dev} {k o : Nat} {fr : Firing} {desc : BitVec 128} {ext : List (BitVec 128)}

/-- A node that sends to the context, link or address of port 1, where that has no ERR. -/
theorem opSendTo_sends {out : Dev → Firing → BitVec 128 → Token → W64 → List Token} {v c : Token} (h : d.firesAt k o fr desc ext) (hv : fr.port 0 = some v)
    (hc : fr.port 1 = some c) (he : Token.err c = false) (hm : mismatch fr desc = none) :
    d.opSendTo k o out = d.finish k 1 1 { toks := out d fr desc v c.pay, relay := o == 0x310 } := by
  simp only [Dev.opSendTo, checked_of_firesAt h, hv, hc, he, Bool.false_and, Bool.false_eq_true, if_false, typeError_none hm]

section
variable (h : d.firesAt k o fr desc ext) (hc : cleanFiring fr desc)
include h hc

theorem opFlags_home (ha : d.atPool k ((Firing.ctx fr).toNat / 2 ^ 18) = true) :
    d.opFlags k o = (d.flagsOf (Firing.ctx fr) (o == 0x321)).2.finish k 1 1
      { toks := (d.flagsOf (Firing.ctx fr) (o == 0x321)).2.flagToks fr desc (d.flagsOf (Firing.ctx fr) (o == 0x321)).1 } := by
  simp only [Dev.opFlags, ready_of_firesAt h hc, ha, if_true]

omit h hc in
theorem toNat_flags (v : W64) : (v.extractLsb' 56 5).toNat = fld v 60 56 := by
  rw [BitVec.extractLsb'_toNat, fld]

omit hc in
theorem opcode_of_firesAt : dOpc desc = o := h.2.1

theorem opFlags_away (ha : d.atPool k ((Firing.ctx fr).toNat / 2 ^ 18) = false) :
    d.opFlags k o = ((d.outstanding k .flags fr desc 0).sendMgmt (fuNode k) (poolDest ((Firing.ctx fr).toNat / 2 ^ 18))
      (.flagAsk k ((d.fu k).nextTag % 4096) (Firing.ctx fr) (o == 0x321))).depart k := by
  simp only [Dev.opFlags, ready_of_firesAt h hc, ha, Bool.false_eq_true, if_false, addOut_eq]

end

/-! CTXALLOC asks once. -/

/-- The firing at the execute stage marked with the tag of its request. -/
def Dev.askedAlloc (d : Dev) (k : Nat) : Dev :=
  d.setFu k { d.fu k with nextTag := (d.fu k).nextTag + 1, fetch := (d.fu k).fetch.map (fun y => { y with asked := some ((d.fu k).nextTag % 4096) }) }

section
variable (h : d.firesAt k 0x300 fr desc ext)
include h

theorem opCtxAlloc_asked (ha : (d.fu k).fetch.any (fun y => y.asked.isSome) = true) : d.opCtxAlloc k = d := by
  simp only [Dev.opCtxAlloc, checked_of_firesAt h, ha, if_true]

variable (ha : (d.fu k).fetch.any (fun y => y.asked.isSome) = false)
include ha

theorem opCtxAlloc_here (hp : (d.askedAlloc k).atPool k (allocRegion k desc) = true) :
    d.opCtxAlloc k = (d.askedAlloc k).ctxAlloc (allocRegion k desc)
      { fu := k, rtag := (d.fu k).nextTag % 4096, ctx := Firing.ctx fr, graph := (Firing.lead fr).tag.graph.toNat, prio := (Firing.prio fr).toNat } := by
  rw [Dev.askedAlloc] at hp ⊢
  simp only [Dev.opCtxAlloc, checked_of_firesAt h, ha, Bool.false_eq_true, if_false, Dev.modFu, hp, if_true]

theorem opCtxAlloc_away (hp : (d.askedAlloc k).atPool k (allocRegion k desc) = false) :
    d.opCtxAlloc k = (d.askedAlloc k).sendMgmt (fuNode k) (poolDest (allocRegion k desc))
      (.ctxReq k ((d.fu k).nextTag % 4096) (Firing.ctx fr) (Firing.lead fr).tag.graph (Firing.prio fr)) := by
  rw [Dev.askedAlloc] at hp ⊢
  simp only [Dev.opCtxAlloc, checked_of_firesAt h, ha, Bool.false_eq_true, if_false, Dev.modFu, hp]

end

/-! CTXFREE at the pool, by the context's state. -/

theorem opCtxFree_away (h : d.firesAt k 0x301 fr desc ext) (hp : d.atPool k ((Firing.ctx fr).toNat / 2 ^ 18) = false) :
    d.opCtxFree k = (d.finish k 1 1 {}).sendMgmt (fuNode k) (poolDest ((Firing.ctx fr).toNat / 2 ^ 18)) (.ctxFree k (d.baseTag fr) (Firing.replay fr)) := by
  simp only [Dev.opCtxFree, checked_of_firesAt h, hp, Bool.false_eq_true, if_false]

theorem opCtxFree_here (h : d.firesAt k 0x301 fr desc ext) (hp : d.atPool k ((Firing.ctx fr).toNat / 2 ^ 18) = true) :
    d.opCtxFree k = (d.finish k 1 1 {}).ctxFree (d.baseTag fr) (Firing.replay fr) := by
  simp only [Dev.opCtxFree, checked_of_firesAt h, hp, if_true]

section
variable {e : Tag} {replay : Bool}

theorem ctxFree_member (hs : cdState (d.ctxDesc e.ctx) = 1) (hf : cdFault (d.ctxDesc e.ctx) = false) (hr : ∃ r, r ≠ e.ctx ∧ d.rootOf e.ctx = some r) :
    d.ctxFree e replay = d.returnCtx e.ctx := by
  obtain ⟨r, hne, hr⟩ := hr
  have hroot : (d.rootOf e.ctx == some e.ctx || (d.rootOf e.ctx).isNone) = false := by
    simp [hr, hne]
  simp only [Dev.ctxFree, hs, hf, hroot, Bool.false_eq_true, if_false]

theorem ctxFree_faulted (hs : cdState (d.ctxDesc e.ctx) = 1) (hf : cdFault (d.ctxDesc e.ctx) = true) : d.ctxFree e replay = d.startSweep e.ctx := by
  simp only [Dev.ctxFree, hs, hf, if_true]

theorem ctxFree_sweeping (hs : cdState (d.ctxDesc e.ctx) = 2) : d.ctxFree e replay = d := by
  simp only [Dev.ctxFree, hs]

theorem ctxFree_free (hs : cdState (d.ctxDesc e.ctx) = 0) :
    d.ctxFree e replay =
      (let y := d.setBit (ctxReg (e.ctx.toNat / 2 ^ 18) 0x10) 1 true
       y.sendToken (poolNode (e.ctx.toNat / 2 ^ 18)) (y.errToken (e.ctx.toNat / 2 ^ 18) e (status stCTX_DOUBLE_FREE originBlock e.ctx.toNat) replay)) := by
  simp only [Dev.ctxFree, hs]

end
end

/-- Settles O27: each node by its cases. -/
theorem contextAndCallNodes : Obligations.ContextAndCallNodes := by
  unfold Obligations.ContextAndCallNodes
  intro g t f s fr desc ext v c k d caller
  refine ⟨fun hv hc he hm => ⟨fun h => ?_, fun h => ?_, fun h => ?_, fun h => ⟨?_, fun x hx => ?_⟩⟩, fun hc => ?_, fun h => ?_, fun h => ?_⟩
  · rw [exec_pass, opSendTo_sends h hv hc he hm]
    rfl
  · rw [exec_call, opSendTo_sends h hv hc he hm]
    rfl
  · rw [exec_ret, opSendTo_sends h hv hc he hm]
    rfl
  · rw [exec_relaysend, opSendTo_sends h hv hc he hm]
    rfl
  · obtain rfl := List.mem_singleton.1 hx
    exact ⟨rfl, rfl, rfl, rfl, rfl, crcOk_seal _⟩
  · intro home tag away
    refine ⟨fun h => ⟨fun ha => ?_, fun ha => ?_⟩, fun h => ⟨fun ha => ?_, fun ha => ?_⟩⟩
    · rw [exec_flagget, opFlags_home h hc ha, Dev.flagToks, if_pos (opcode_of_firesAt h), ← toNat_flags]
      rfl
    · rw [exec_flagget, opFlags_away h hc ha]
      rfl
    · rw [exec_flagclr, opFlags_home h hc ha, Dev.flagToks, if_neg (by rw [opcode_of_firesAt h]; decide)]
      rfl
    · rw [exec_flagclr, opFlags_away h hc ha]
      rfl
  · intro pool tag x
    refine ⟨fun ha => ?_, fun ha => ⟨fun hp => ?_, fun hp => ?_⟩⟩
    · rw [exec_ctxalloc, opCtxAlloc_asked h ha, withDev_self]
    · rw [exec_ctxalloc, opCtxAlloc_here h ha hp]
      rfl
    · rw [exec_ctxalloc, opCtxAlloc_away h ha hp]
      rfl
  · intro x ctx home
    refine ⟨fun hp => ?_, fun hp => ⟨fun hs hf hr => ?_, fun hs hf => ?_, fun hs => ?_, fun hs => ?_⟩⟩
    · rw [exec_ctxfree, opCtxFree_away h hp]
    · rw [exec_ctxfree, opCtxFree_here h hp, ctxFree_member hs hf hr]
    · rw [exec_ctxfree, opCtxFree_here h hp, ctxFree_faulted hs hf]
    · rw [exec_ctxfree, opCtxFree_here h hp, ctxFree_sweeping hs]
    · rw [exec_ctxfree, opCtxFree_here h hp, ctxFree_free hs]

end Sys2Proof.Machine

/-! ### Synchronisation, dispatch and output nodes (SPEC R110, R122, R123, R126, R168, R171, R190, R192, R222, R248, R322, R324, R573; obligations O28, O29) -/

namespace Sys2Proof.Machine

theorem exec_hurdle (g : Fin 16) (t : Fin 17) (f : Fin 8) (s : State) : exec (.hurdle g t f) s = .next (s.withDev (s.dev.opHurdle (fuKey g t f))) := rfl
theorem exec_delay (g : Fin 16) (t : Fin 17) (f : Fin 8) (s : State) : exec (.delay g t f) s = .next (s.withDev (s.dev.opDelay (fuKey g t f))) := rfl
theorem exec_strideEnqueue (g : Fin 16) (t : Fin 17) (f : Fin 8) (s : State) : exec (.strideEnqueue g t f) s = .next (s.withDev (s.dev.strideEnqueue (fuKey g t f))) := rfl

theorem exec_lock : ∀ c ∈ lockCommands, ∀ (g : Fin 16) (t : Fin 17) (f : Fin 8) (s : State),
    exec (c.2 g t f) s = .next (s.withDev (s.dev.opLock (fuKey g t f) c.1)) := by
  simp only [lockCommands, List.forall_mem_cons, List.not_mem_nil, false_imp_iff, implies_true, and_true]
  exact ⟨fun _ _ _ _ => rfl, fun _ _ _ _ => rfl⟩

theorem exec_code : ∀ c ∈ codeCommands, ∀ (g : Fin 16) (t : Fin 17) (f : Fin 8) (s : State),
    exec (c.2 g t f) s = .next (s.withDev (s.dev.opCode (fuKey g t f) c.1)) := by
  simp only [codeCommands, List.forall_mem_cons, List.not_mem_nil, false_imp_iff, implies_true, and_true]
  exact ⟨fun _ _ _ _ => rfl, fun _ _ _ _ => rfl, fun _ _ _ _ => rfl⟩

section
variable {d : Dev} {k o : Nat} {fr : Firing} {desc : BitVec 128} {ext : List (BitVec 128)}

theorem opHurdle_value (h : d.firesAt k 0x340 fr desc ext) (he : Token.err (Firing.lead fr) = false) :
    d.opHurdle k = (d.modRegion (k / 136) (fun r => { r with
      hrdIn := r.hrdIn ++ [{ fu := k, slot := fr.slot, entry := (dImm desc).toNat, tok := Firing.lead fr, rep := false }] })).finish k 1 1 {} := by
  simp only [Dev.opHurdle, checked_of_firesAt h, he, Bool.false_eq_true, if_false]

theorem opDelay_eq (h : d.firesAt k 0x343 fr desc ext) (hc : cleanFiring fr desc) :
    d.opDelay k = d.finish k 1 1 { toks := (dstsOf desc).map (fun x => d.passTok fr desc x (Firing.lead fr)), delay := if (dImm desc).toNat = 0 then none else some (dImm desc).toNat } := by
  simp only [Dev.opDelay, ready_of_firesAt h hc]

/-! The pacer takes a delayed result. -/

/-- The entry of a result at the pacer. -/
def Dev.pacEntry (d : Dev) (k n : Nat) (r : Result) : PacEnt :=
  { deadline := BitVec.ofNat 64 ((d.time.toNat / d.tickNs (k / 136) + n) * d.tickNs (k / 136)), ctx := r.ctx, toks := r.toks
    eprio := max (r.toks.foldl (fun m y => max m y.tag.prio.toNat) 0) (min 14 (boostOf (d.tile (k / 8)).sched.boosts r.ctx)) }

theorem region_hwm (d : Dev) (a hi lo x g : Nat) : (d.hwm a hi lo x).region g = d.region g := by
  unfold Dev.hwm
  split
  · rw [Dev.region, Dev.setFld_regions, Dev.region]
  · rfl

theorem region_modRegion {d : Dev} (hw : mwf {} d.regions = true) (g : Nat) (f : Region → Region) : (d.modRegion g f).region g = f (d.region g) := mget_mset_same hw g _

theorem pacer_paced (hw : mwf {} d.regions = true) (n : Nat) (r : Result) :
    ((d.paced k n r).region (k / 136)).pacer = (d.region (k / 136)).pacer ++ [d.pacEntry k n r] := by
  rw [Dev.paced, region_hwm, region_modRegion hw]
  rfl

theorem sendTakes_delayed {n : Nat} {r : Result} (hd : r.delay = some n) (ht : r.toks ≠ []) :
    d.sendTakes k r = true ↔ (d.region (k / 136)).pacer.length < 65536 := by
  have ht' : r.toks.isEmpty = false := by simpa using ht
  simp only [Dev.sendTakes, ht', hd, Option.isSome_some, if_true, Bool.false_or, pacerSize]
  exact decide_eq_true_iff

/-! Lock nodes. -/

/-- The addresses that a lock node may name. -/
def lockable (a : Nat) : Prop := a < hbmSize ∨ (spmBase ≤ a ∧ a < spmEnd)

/-- The request of a lock node. -/
def Dev.lockReq (d : Dev) (k : Nat) (acq : Bool) (fr : Firing) (desc : BitVec 128) : MemReq :=
  let x := d.outstanding k (if acq then .acquire else .release) fr desc (operand fr desc 0)
  { op := if acq then 4 else 5, size := 3, addr := BitVec.ofNat 48 (operand fr desc 0), req := fuDest k, rtag := BitVec.ofNat 12 ((d.fu k).nextTag % 4096)
    prio := BitVec.ofNat 4 (x.eprio (k / 8) fr), operand := BitVec.ofNat 64 (if acq then (dImm desc).toNat else operand fr desc 1)
    ctx := (d.baseTag fr).ctx, graph := (d.baseTag fr).graph }

section
variable (h : d.firesAt k o fr desc ext) (hc : cleanFiring fr desc)
include h hc

theorem opLock_misaligned (ha : operand fr desc 0 % 8 ≠ 0) : d.opLock k o = d.failFiring k (d.errOf k fr stMISALIGNED (operand fr desc 0)) := by
  obtain ⟨he, hm⟩ := hc
  simp only [Dev.opLock, checked_of_firesAt h, he, typeError_none hm, if_pos ha]

variable (ha : operand fr desc 0 % 8 = 0)
include ha

theorem opLock_outside (hu : ¬ lockable (operand fr desc 0)) : d.opLock k o = d.failFiring k (d.errOf k fr stADDR_RANGE (operand fr desc 0)) := by
  obtain ⟨he, hm⟩ := hc
  have hout : (!(decide (operand fr desc 0 < hbmSize) || decide (spmBase ≤ operand fr desc 0 ∧ operand fr desc 0 < spmEnd))) = true := by
    simpa only [lockable, Bool.not_eq_true', Bool.or_eq_false_iff, decide_eq_false_iff_not, not_or] using hu
  simp only [Dev.opLock, checked_of_firesAt h, he, typeError_none hm, ne_eq, ha, not_true_eq_false, if_false, hout, if_true]

variable (hu : lockable (operand fr desc 0))
include hu

omit h hc ha in
theorem lockable_test : (!(decide (operand fr desc 0 < hbmSize) || decide (spmBase ≤ operand fr desc 0 ∧ operand fr desc 0 < spmEnd))) = false := by
  simpa only [lockable, Bool.not_eq_false', Bool.or_eq_true, decide_eq_true_eq] using hu

theorem opLock_refused (ho : o = 0x341) (hp : d.permits (operand fr desc 0) (d.graphBits (d.baseTag fr).graph.toNat true false) = false) :
    d.opLock k o = d.failFiring k (d.errOf k fr stACCESS (operand fr desc 0)) := by
  obtain ⟨he, hm⟩ := hc
  subst ho
  simp only [Dev.opLock, checked_of_firesAt h, he, typeError_none hm, ne_eq, ha, not_true_eq_false, if_false, lockable_test hu, Bool.false_eq_true, hp, Bool.not_false,
    beq_self_eq_true, Bool.and_self, if_true]

variable (hp : o = 0x341 → d.permits (operand fr desc 0) (d.graphBits (d.baseTag fr).graph.toNat true false) = true)
include hp

omit h hc ha hu in
theorem permitted_test : (o == 0x341 && !d.permits (operand fr desc 0) (d.graphBits (d.baseTag fr).graph.toNat true false)) = false := by
  by_cases ho : o = 0x341
  · rw [hp ho, Bool.not_true, Bool.and_false]
  · rw [beq_eq_false_iff_ne.2 ho, Bool.false_and]

theorem opLock_waits (hr : d.respRoom k = false) : d.opLock k o = d := by
  obtain ⟨he, hm⟩ := hc
  simp only [Dev.opLock, checked_of_firesAt h, he, typeError_none hm, ne_eq, ha, not_true_eq_false, if_false, lockable_test hu, Bool.false_eq_true, permitted_test hp, hr,
    Bool.not_false, if_true]

theorem opLock_sends (hr : d.respRoom k = true) :
    d.opLock k o = ((d.outstanding k (if o == 0x341 then .acquire else .release) fr desc (operand fr desc 0)).request (fuNode k) (lockDest (operand fr desc 0)) false
      (d.lockReq k (o == 0x341) fr desc)).depart k := by
  obtain ⟨he, hm⟩ := hc
  simp only [Dev.opLock, checked_of_firesAt h, he, typeError_none hm, ne_eq, ha, not_true_eq_false, if_false, lockable_test hu, Bool.false_eq_true, permitted_test hp, hr,
    Bool.not_true, addOut_eq, Dev.lockReq]

end

/-! Dispatch nodes. -/

theorem opCode_room (h : d.firesAt k o fr desc ext) (hc : cleanFiring fr desc) (hr : queueRoom (d.tile (k / 8)).sched.runQ 64 8 (d.eprio (k / 8) fr) = true) :
    d.opCode k o = (d.modSched (k / 8) (fun x => { x with runQ := x.runQ ++ [{ lvl := d.eprio (k / 8) fr, fu := k, desc := desc, fir := fr }] })).depart k := by
  simp only [Dev.opCode, ready_of_firesAt h hc, hr, if_true]

theorem opCode_full (h : d.firesAt k o fr desc ext) (hc : cleanFiring fr desc) (hr : queueRoom (d.tile (k / 8)).sched.runQ 64 8 (d.eprio (k / 8) fr) = false) :
    d.opCode k o = d := by
  simp only [Dev.opCode, ready_of_firesAt h hc, hr, Bool.false_eq_true, if_false]

theorem strideEnqueue_eq (h : d.firesAt k o fr desc ext) (hlo : 0x380 ≤ o) (hhi : o ≤ 0x392) :
    d.strideEnqueue k = if queueRoom (d.tile (k / 8)).sched.strQ 32 4 (d.eprio (k / 8) fr) then
      ((d.modSched (k / 8) (fun x => { x with strQ := x.strQ ++ [{ lvl := d.eprio (k / 8) fr, fu := k, desc := desc, fir := fr }] })).depart k).strideNext (k / 8) else d := by
  have hck := checked_of_firesAt h
  obtain ⟨⟨x, hx, rfl, hd, rfl⟩, rfl, -⟩ := h
  obtain ⟨fir, xd, ext, ue, cycle⟩ := x
  cases hd
  have hrange : ¬ (dOpc desc < 0x380 ∨ 0x392 < dOpc desc) := by omega
  simp only [Dev.strideEnqueue, hx, if_neg hrange, hck]

/-! Output nodes. -/

/-- The device with the firing's I/O request on its way and the firing out of the stage. -/
def Dev.ioSent (d : Dev) (k o : Nat) (fr : Firing) (desc : BitVec 128) : Dev :=
  let x := d.outstanding k .io fr desc 0
  (x.send (fuNode k) { x.tokenPacket (x.passTok fr desc (ioDst o (dImm desc).toNat) (Firing.lead fr)) with src := ioSrc k ((d.fu k).nextTag % 4096) }).depart k

theorem ioRequest_eq : d.ioRequest k o fr desc = d.ioSent k o fr desc := rfl

theorem opIo_sends (h : d.firesAt k o fr desc ext) (hm : mismatch fr desc = none) : d.opIo k o = d.ioSent k o fr desc := by
  simp only [Dev.opIo, checked_of_firesAt h, typeError_none hm, ioRequest_eq]

theorem opBind_sends (h : d.firesAt k 0x3E0 fr desc ext) (hc : cleanFiring fr desc) : d.opBind k = d.ioSent k 0x3E0 fr desc := by
  simp only [Dev.opBind, ready_of_firesAt h hc, ioRequest_eq]

theorem opBind_err (h : d.firesAt k 0x3E0 fr desc ext) {p : Nat} {e : Token} (he : fr.errTok = some (p, e)) :
    d.opBind k = d.finish k 1 1 { toks := d.outAll fr desc e.pay.toNat 6 true } := by
  simp only [Dev.opBind, ready_of_err h he, if_neg (show ¬ 0x3E0 = 0x203 by decide), fanDsts_nil]
  rfl

end

/-- BIND checks for an ERR operand; the other output commands do not. -/
theorem exec_output : ∀ c ∈ outputCommands, ∀ (g : Fin 16) (t : Fin 17) (f : Fin 8) (s : State),
    exec (c.2 g t f) s = .next (s.withDev (if c.1 = 0x3E0 then s.dev.opBind (fuKey g t f) else s.dev.opIo (fuKey g t f) c.1)) := by
  simp only [outputCommands, List.forall_mem_cons, List.not_mem_nil, false_imp_iff, implies_true, and_true]
  exact ⟨fun _ _ _ _ => rfl, fun _ _ _ _ => rfl, fun _ _ _ _ => rfl, fun _ _ _ _ => rfl, fun _ _ _ _ => rfl⟩

/-- Settles O28: each node by its cases. -/
theorem synchronisationAndDispatchNodes : Obligations.SynchronisationAndDispatchNodes := by
  unfold Obligations.SynchronisationAndDispatchNodes
  intro g t f s fr desc ext hc k d passed
  refine ⟨fun h he => ?_, fun h => ⟨fun hn => ?_, fun hn => ?_⟩, fun hw n r => ⟨pacer_paced hw n r, fun hd ht => sendTakes_delayed hd ht⟩,
    fun c hcmd h => ?_, fun c hcmd h => ⟨fun hr => ?_, fun hr => ?_⟩, fun o hlo hhi h => ⟨fun hr => ?_, fun hr => ?_⟩⟩
  · rw [exec_hurdle, opHurdle_value h he]
  · rw [exec_delay, opDelay_eq h hc, if_pos hn]
  · rw [exec_delay, opDelay_eq h hc, if_neg hn]
  · intro a used
    rw [exec_lock c hcmd]
    refine ⟨fun ha => ?_, fun ha hu => ?_, fun ha hu ho hp => ?_, fun ha hu hp => ?_⟩
    · rw [opLock_misaligned h hc ha]
      rfl
    · rw [opLock_outside h hc ha hu]
      rfl
    · rw [opLock_refused h hc ha hu ho hp]
      rfl
    · intro tag x
      refine ⟨fun hr => ?_, fun hr => ?_⟩
      · rw [opLock_waits h hc ha hu hp hr, withDev_self]
      · rw [opLock_sends h hc ha hu hp hr]
        simp only [Dev.lockReq, beq_iff_eq]
        rfl
  · rw [exec_code c hcmd, opCode_room h hc hr]
  · rw [exec_code c hcmd, opCode_full h hc hr, withDev_self]
  · rw [exec_strideEnqueue, strideEnqueue_eq h hlo hhi, if_pos hr]
  · rw [exec_strideEnqueue, strideEnqueue_eq h hlo hhi, if_neg (Bool.eq_false_iff.1 hr), withDev_self]

/-- Settles O29: one request, but for a BIND with an ERR operand. -/
theorem outputNodesSendRequests : Obligations.OutputNodesSendRequests := by
  unfold Obligations.OutputNodesSendRequests
  intro c hcmd g t f s fr desc ext k d tag x tok sent h hm
  rw [exec_output c hcmd]
  have hio : d.opIo k c.1 = sent := opIo_sends h hm
  refine ⟨fun he => ?_, fun p e he => ?_⟩
  · split
    · next ho =>
      rw [ho] at h
      rw [opBind_sends h ⟨he, hm⟩, ← ho]
      rfl
    · rw [hio]
  · split
    · next ho =>
      rw [ho] at h
      rw [opBind_err h he]
    · rw [hio]

end Sys2Proof.Machine

/-! ### Scratchpad banks (SPEC R302, R303, R305, R308, R310 to R313; obligation O30) -/

namespace Sys2Proof.Machine

theorem exec_bankRequest (g : Fin 16) (t : Fin 17) (b : Fin 4) (sub : Fin 16) (e : Ecc) (s : State) :
    exec (.bankRequest g t b sub e) s = .next (s.withDev ((s.dev.portFill (tileKey g t)).bankTurn (tileKey g t) b sub e)) := rfl
theorem exec_spmPwrWrite (g : Fin 16) (t : Fin 17) (v : W32) (s : State) : exec (.spmPwrWrite g t v) s = .next (s.withDev (s.dev.spmPwr (tileKey g t) v)) := rfl
theorem exec_bankTransitionDone (g : Fin 16) (t : Fin 17) (b : Fin 4) (s : State) :
    exec (.bankTransitionDone g t b) s = .next (s.withDev (s.dev.bankDone (tileKey g t) b)) := rfl
theorem exec_spmScrub (g : Fin 16) (t : Fin 17) (b : Fin 4) (off : BitVec 18) (e : Ecc) (s : State) :
    exec (.spmScrub g t b off e) s = .next (s.withDev (s.dev.spmScrub (tileKey g t) b off.toNat e)) := rfl

section
variable {d : Dev} {tl b sub : Nat} {q : BankReq} {e : Ecc}

/-! The accesses of the memory. -/

theorem memAccess_load {r : MemReq} (ho : r.op = 0) (hn : accessBytes r.size ≤ 8) :
    d.memAccess r = (d, respOf r 0 (d.readLe r.addr.toNat (accessBytes r.size)) []) := by
  simp only [Dev.memAccess, ho, show (0 : BitVec 4).toNat = 0 from rfl, if_pos hn]

theorem memAccess_store {r : MemReq} (ho : r.op = 1) (hn : accessBytes r.size ≤ 8) :
    d.memAccess r = (d.writeLe r.addr.toNat (accessBytes r.size) r.operand.toNat, respOf r 0 0 []) := by
  simp only [Dev.memAccess, ho, show (1 : BitVec 4).toNat = 1 from rfl, if_pos hn]

theorem memAccess_add {r : MemReq} (ho : r.op = 2) :
    d.memAccess r = (d.writeLe r.addr.toNat (accessBytes r.size) (d.readLe r.addr.toNat (accessBytes r.size) + r.operand.toNat),
      respOf r 0 (d.readLe r.addr.toNat (accessBytes r.size)) []) := by
  simp only [Dev.memAccess, ho, show (2 : BitVec 4).toNat = 2 from rfl]

theorem memAccess_swap {r : MemReq} (ho : r.op = 3) :
    d.memAccess r = (d.writeLe r.addr.toNat (accessBytes r.size) r.operand.toNat, respOf r 0 (d.readLe r.addr.toNat (accessBytes r.size)) []) := by
  simp only [Dev.memAccess, ho, show (3 : BitVec 4).toNat = 3 from rfl]

/-! The turn of a sub-bank by the bank's state. -/

theorem bankTurn_second {c : Nat × BankReq} (h : (d.bank tl b).second.find? (fun c => c.1 == sub) = some c) : d.bankTurn tl b sub e = d.writeCycle tl b sub c.2 := by
  simp only [Dev.bankTurn, h]

section
variable (h : (d.bank tl b).second.find? (fun c => c.1 == sub) = none) (hq : d.competing tl b sub = [q])
include h

theorem bankTurn_turningOn (ht : (d.bank tl b).target = some 2) : d.bankTurn tl b sub e = d := by
  simp only [Dev.bankTurn, h, if_pos ht]

include hq

theorem bankTurn_refuses (ht : (d.bank tl b).target ≠ some 2) (hs : (d.bank tl b).state ≠ 2 ∨ (d.bank tl b).target ≠ none) (hp : q.pos = 0) :
    d.bankTurn tl b sub e = d.bankRefuse tl b q := by
  have hs' : (d.bank tl b).state ≠ 2 ∨ (d.bank tl b).target.isSome = true := hs.imp_right Option.isSome_iff_ne_none.2
  simp only [Dev.bankTurn, h, if_neg ht, if_pos hs', hq, hp, List.filter_cons, List.filter_nil, beq_self_eq_true, bne_self_eq_false, if_true, Bool.false_eq_true, if_false,
    List.foldl_cons, List.foldl_nil]

theorem bankTurn_serves (ht : (d.bank tl b).target = none) (hs : (d.bank tl b).state = 2) : d.bankTurn tl b sub e = d.winnerCycle tl b sub q [q] e := by
  simp only [Dev.bankTurn, h, ht, hs, hq, reduceCtorEq, if_false, ne_eq, not_true_eq_false, Option.isSome_none, Bool.false_eq_true, or_self, bestReq, List.foldl_cons, List.foldl_nil]

end

/-! A lone winner's cycle. -/

/-- The round-robin place after the FU that is served. -/
def Dev.servedNext (d : Dev) (tl b sub : Nat) (q : BankReq) : Dev :=
  if q.fu < 8 then d.modBank tl b (fun y => { y with rr := mset 0 y.rr sub ((q.fu + 1) % 8) }) else d

theorem sharers_load (last : Nat) (ho : q.req.op = 0) : sharers last q [q] = ([q], none) := by
  simp [sharers, ho, bestReq]

theorem sharers_write (last : Nat) (ho : q.req.op ≠ 0) : sharers last q [q] = ([], some q) := by
  simp only [sharers, List.filter_cons, List.filter_nil, beq_self_eq_true, if_true, beq_eq_false_iff_ne.2 ho, Bool.false_eq_true, if_false, if_neg ho]

theorem winnerCycle_load (ho : q.req.op = 0) : d.winnerCycle tl b sub q [q] .ok = (d.servedNext tl b sub q).bankServe tl b q := by
  simp only [Dev.winnerCycle, sharers_load _ ho, cycleReads, List.isEmpty_cons, Bool.not_false, Bool.true_or, Bool.not_true, Bool.false_eq_true, if_false, reduceCtorEq, isUe,
    List.foldl_cons, List.foldl_nil, Dev.servedNext]

theorem winnerCycle_load_ue (ho : q.req.op = 0) (y : Bool) :
    d.winnerCycle tl b sub q [q] (.ue y) = ((d.servedNext tl b sub q).spmUe tl (q.addr / 8 * 8 % 0x100000)).bankUe tl b q := by
  simp only [Dev.winnerCycle, sharers_load _ ho, cycleReads, List.isEmpty_cons, Bool.not_false, Bool.true_or, Bool.not_true, Bool.false_eq_true, if_false, reduceCtorEq, isUe, if_true,
    List.foldl_cons, List.foldl_nil, Dev.servedNext]

theorem winnerCycle_store (ho : q.req.op ≠ 0) (hw : twoCycles q.req = false) : d.winnerCycle tl b sub q [q] e = (d.servedNext tl b sub q).bankServe tl b q := by
  simp only [Dev.winnerCycle, sharers_write _ ho, cycleReads, List.isEmpty_nil, Bool.not_true, Bool.false_or, Option.any_some, hw, Bool.not_false, if_true,
    List.foldl_nil, Dev.servedNext]

theorem winnerCycle_twoCycles (ho : q.req.op ≠ 0) (hw : twoCycles q.req = true) :
    d.winnerCycle tl b sub q [q] .ok = ((d.servedNext tl b sub q).bankTake tl b q).modBank tl b (fun y => { y with second := mput y.second sub q }) := by
  simp only [Dev.winnerCycle, sharers_write _ ho, cycleReads, List.isEmpty_nil, Bool.not_true, Bool.false_or, Option.any_some, hw, Bool.false_eq_true, if_false, isUe, reduceCtorEq,
    List.foldl_nil, Dev.servedNext]

theorem bankServe_load (ho : q.req.op = 0) (hn : accessBytes q.req.size ≤ 8) :
    d.bankServe tl b q = (d.bankTake tl b q).bankAnswer tl q (respOf q.req 0 ((d.bankTake tl b q).readLe q.req.addr.toNat (accessBytes q.req.size)) []) := by
  simp only [Dev.bankServe, if_neg (Nat.not_lt.2 hn), memAccess_load ho hn, ho, if_true]

theorem bankServe_burst (ho : q.req.op = 0) (hn : 8 < accessBytes q.req.size) :
    d.bankServe tl b q = if accessBytes q.req.size ≤ q.pos + 8 then (d.bankTake tl b q).bankAnswer tl q (respOf q.req 0 0 (q.got ++ d.read q.addr 8))
      else d.bankPut tl b q (some { q with pos := q.pos + 8, got := q.got ++ d.read q.addr 8 }) := by
  have h1 : ¬ q.req.op = 1 := by rw [ho]; decide
  simp only [Dev.bankServe, if_pos hn, Dev.burstWord, if_neg h1]

theorem bankServe_store (ho : q.req.op = 1) (hn : accessBytes q.req.size ≤ 8) :
    d.bankServe tl b q = (((d.bankTake tl b q).writeLe q.req.addr.toNat (accessBytes q.req.size) q.req.operand.toNat).noteWrite q.addr).bankAnswer tl q (respOf q.req 0 0 []) := by
  have h0 : ¬ q.req.op = 0 := by rw [ho]; decide
  simp only [Dev.bankServe, if_neg (Nat.not_lt.2 hn), memAccess_store ho hn, if_neg h0]

/-- A store of a word or two takes one cycle. -/
theorem twoCycles_store {r : MemReq} (ho : r.op = 1) (hn : accessBytes r.size = 4 ∨ accessBytes r.size = 8) : twoCycles r = false := by
  have hsize : ¬ r.size.toNat ≤ 1 := by
    intro hle
    have : accessBytes r.size = 1 ∨ accessBytes r.size = 2 := by
      obtain h | h : r.size.toNat = 0 ∨ r.size.toNat = 1 := by omega
      · simp [accessBytes, h]
      · simp [accessBytes, h]
    omega
  simp [twoCycles, ho, hsize]

theorem twoCycles_of {r : MemReq} (h : r.op = 2 ∨ r.op = 3 ∨ (r.op = 1 ∧ r.size.toNat ≤ 1)) : twoCycles r = true := by
  simpa [twoCycles, or_assoc] using h

/-! The write cycle. -/

theorem writeCycle_eq (x : Dev × MemResp) (hx : (d.modBank tl b (fun y => { y with second := mdel y.second sub })).memAccess q.req = x) :
    d.writeCycle tl b sub q = (x.1.noteWrite q.addr).bankAnswer tl q x.2 := by
  rw [Dev.writeCycle, hx]

/-! Bank power. -/

/-- The effect of a write of SPM.PWR on one bank. -/
def Dev.powerBank (d : Dev) (tl : Nat) (v : W32) (b : Nat) : Dev :=
  if fld v (2 * b + 1) (2 * b) = 3 then d
  else
    (d.setFld (spmR tl 0) (2 * b + 1) (2 * b) (fld v (2 * b + 1) (2 * b))).modBank tl b (fun y =>
      if y.target.isSome then { y with next := some (fld v (2 * b + 1) (2 * b)) } else if y.state = fld v (2 * b + 1) (2 * b) then y
      else { y with target := some (fld v (2 * b + 1) (2 * b)) })

theorem powerBank_keep {v : W32} (h : fld v (2 * b + 1) (2 * b) = 3) : d.powerBank tl v b = d := if_pos h

theorem spmPwr_eq (v : W32) : d.spmPwr tl v = (((d.powerBank tl v 0).powerBank tl v 1).powerBank tl v 2).powerBank tl v 3 := rfl

theorem spmPwr_keeps {v : W32} (h : ∀ j < 4, fld v (2 * j + 1) (2 * j) = 3) : d.spmPwr tl v = d := by
  rw [spmPwr_eq, powerBank_keep (h 0 (by omega)), powerBank_keep (h 1 (by omega)), powerBank_keep (h 2 (by omega)), powerBank_keep (h 3 (by omega))]

theorem spmPwr_one {v : W32} (b : Fin 4) (h : ∀ j < 4, j ≠ b.val → fld v (2 * j + 1) (2 * j) = 3) : d.spmPwr tl v = d.powerBank tl v b := by
  have keep : ∀ (e : Dev) (j : Nat), j < 4 → j ≠ b.val → e.powerBank tl v j = e := fun e j hj hne => powerBank_keep (h j hj hne)
  rw [spmPwr_eq]
  match b, keep with
  | 0, keep => rw [keep _ 1 (by omega) (by decide), keep _ 2 (by omega) (by decide), keep _ 3 (by omega) (by decide)]; rfl
  | 1, keep => rw [keep _ 0 (by omega) (by decide), keep _ 2 (by omega) (by decide), keep _ 3 (by omega) (by decide)]; rfl
  | 2, keep => rw [keep _ 0 (by omega) (by decide), keep _ 1 (by omega) (by decide), keep _ 3 (by omega) (by decide)]; rfl
  | 3, keep => rw [keep _ 0 (by omega) (by decide), keep _ 1 (by omega) (by decide), keep _ 2 (by omega) (by decide)]; rfl

theorem bankDone_enters {y : Nat} (ht : (d.bank tl b).target = some y) (hs : (d.bank tl b).second = []) (hb : d.burstAt tl b = false) (hn : (d.bank tl b).next = none) :
    d.bankDone tl b = (if y = 0 ∨ (d.bank tl b).state = 0 then d.clearBank tl b else d).modBank tl b (fun q => { q with state := y, target := none, next := none }) := by
  simp only [Dev.bankDone, ht, hs, hb, hn, List.isEmpty_nil, Bool.not_true, Bool.false_eq_true, or_self, if_false]

theorem bankDone_waits (h : (d.bank tl b).target = none ∨ (d.bank tl b).second ≠ [] ∨ d.burstAt tl b = true) : d.bankDone tl b = d := by
  simp only [Dev.bankDone]
  split
  · rfl
  · next y hy =>
    refine if_pos ?_
    rcases h with h | h | h
    · rw [h] at hy
      cases hy
    · exact .inl (by simpa using h)
    · exact .inr h

theorem spmScrub_ce {off : Nat} (hs : (d.bank tl b).state = 2) (ht : (d.bank tl b).target = none) : d.spmScrub tl b off .ce = d.addSat16 (spmR tl 8) 1 := by
  simp only [Dev.spmScrub, hs, ht, ne_eq, not_true_eq_false, or_self, if_false]

end

theorem spmR_tileKey (g : Nat) (t : Fin 17) (o : Nat) : spmR (tileKey g t) o = spmReg g t o := by
  rw [spmR, tileKey_div, tileKey_mod]

/-- Settles O30: a sub-bank's turn by the bank's state and the kind of the one request. -/
theorem banksServeTheirRequests : Obligations.BanksServeTheirRequests := by
  unfold Obligations.BanksServeTheirRequests
  intro g t b sub s tl d x after
  refine ⟨fun q hsec hq => ?_, fun q j e hsec => ?_, fun v h => ?_, fun v h hb => ?_, ⟨fun y ht hs hb hn => ?_, fun h => ?_, fun off hs ht => ?_⟩⟩
  · intro n a on took touched
    refine ⟨fun ht hs => ⟨fun ho hn => ?_, fun ho hn => ?_, fun e ho hn => ?_, fun y ho => ?_, fun ho => ?_⟩, fun e ht => ?_, fun e ht hs hp => ?_⟩
    · rw [exec_bankRequest, bankTurn_serves hsec hq ht hs, winnerCycle_load ho, bankServe_load ho hn]
      rfl
    · rw [exec_bankRequest, bankTurn_serves hsec hq ht hs, winnerCycle_load ho, bankServe_burst ho hn]
      rfl
    · rw [exec_bankRequest, bankTurn_serves hsec hq ht hs, winnerCycle_store (by rw [ho]; decide) (twoCycles_store ho hn),
        bankServe_store ho (hn.elim (fun h => Nat.le_trans (Nat.le_of_eq h) (by omega)) (fun h => Nat.le_of_eq h))]
      rfl
    · rw [exec_bankRequest, bankTurn_serves hsec hq ht hs, winnerCycle_load_ue ho, Dev.spmUe, spmR_tileKey, spmR_tileKey]
      rfl
    · rw [exec_bankRequest, bankTurn_serves hsec hq ht hs, winnerCycle_twoCycles (by rcases ho with ho | ho | ⟨ho, -⟩ <;> rw [ho] <;> decide) (twoCycles_of ho)]
      rfl
    · rw [exec_bankRequest, bankTurn_turningOn hsec ht]
    · rw [exec_bankRequest, bankTurn_refuses hsec hq ht hs hp, Dev.bankRefuse, spmR_tileKey]
  · intro n a done answered
    rw [exec_bankRequest, bankTurn_second hsec]
    refine ⟨fun ho => ?_, fun ho => ?_, fun ho hn => ?_⟩
    · rw [writeCycle_eq _ (memAccess_add ho)]
    · rw [writeCycle_eq _ (memAccess_swap ho)]
    · rw [writeCycle_eq _ (memAccess_store ho hn)]
  · rw [exec_spmPwrWrite, spmPwr_keeps h, withDev_self]
  · rw [exec_spmPwrWrite, spmPwr_one b h, Dev.powerBank, if_neg hb, spmR_tileKey]
  · rw [exec_bankTransitionDone, bankDone_enters ht hs hb hn]
  · rw [exec_bankTransitionDone, bankDone_waits h, withDev_self]
  · rw [exec_spmScrub, spmScrub_ce hs ht, spmR_tileKey]

end Sys2Proof.Machine

/-! ### HBM controllers (SPEC R208, R308, R314 to R317; obligation O31) -/

namespace Sys2Proof.Machine

theorem exec_hbmRequest (k : Fin 2) (e : Ecc) (s : State) : exec (.hbmRequest k e) s = .next (s.withDev (s.dev.hbmRequest k e)) := rfl
theorem exec_hbmScrub (k : Fin 2) (off : Fin 0x600000000) (e : Ecc) (last : Bool) (s : State) :
    exec (.hbmScrub k off e last) s = .next (s.withDev (s.dev.hbmScrub k off e last)) := rfl
theorem exec_spareRowDone (k : Fin 2) (s : State) : exec (.spareRowDone k) s = .next (s.withDev (s.dev.spareDone k)) := rfl
theorem exec_hbmTrainingDone (k : Fin 2) (s : State) : exec (.hbmTrainingDone k) s = .next (s.withDev (s.dev.hbmTrained k)) := rfl

section
variable {d took : Dev} {k : Nat} {r : MemReq} {e : Ecc}

/-! Which request is served. -/

theorem hbmRequest_notReady (h : d.rbit (hbmReg k 0) 0 = false) : d.hbmRequest k e = d := by
  simp only [Dev.hbmRequest, h, Bool.not_false, if_true]

theorem hbmRequest_held (h : d.rbit (hbmReg k 0) 0 = true) (hh : (d.hbmOf k).held.find? (fun r => !d.rowCopies k r.addr.toNat) = some r) :
    d.hbmRequest k e = (d.modHbm k (fun x => { x with held := removeFirst (· == r) x.held })).hbmAnswer k r e := by
  simp only [Dev.hbmRequest, h, Bool.not_true, Bool.false_eq_true, if_false, hh]

section
variable {p : Packet} (h : d.rbit (hbmReg k 0) 0 = true) (hh : (d.hbmOf k).held.find? (fun r => !d.rowCopies k r.addr.toNat) = none)
  (ht : d.takeInbox (hbmNode k) 1 = some (p, took)) (hp : p.body = .req r)
include h hh ht hp

theorem hbmRequest_next : d.hbmRequest k e = if took.rowCopies k r.addr.toNat then took.modHbm k (fun x => { x with held := x.held ++ [r] }) else took.hbmAnswer k r e := by
  obtain ⟨⟩ := p
  cases hp
  simp only [Dev.hbmRequest, h, Bool.not_true, Bool.false_eq_true, if_false, hh, ht]

end

/-- What a served request takes: the oldest held whose row is not being copied, or else the next of L1 whose row is not. -/
theorem hbmRequest_served (h : d.rbit (hbmReg k 0) 0 = true)
    (hs : ((d.hbmOf k).held.find? (fun r => !d.rowCopies k r.addr.toNat) = some r ∧ took = d.modHbm k (fun x => { x with held := removeFirst (· == r) x.held })) ∨
        ((d.hbmOf k).held.find? (fun r => !d.rowCopies k r.addr.toNat) = none ∧ (∃ p, d.takeInbox (hbmNode k) 1 = some (p, took) ∧ p.body = .req r) ∧
          took.rowCopies k r.addr.toNat = false)) :
    d.hbmRequest k e = took.hbmAnswer k r e := by
  rcases hs with ⟨hh, rfl⟩ | ⟨hh, ⟨p, ht, hp⟩, hc⟩
  · exact hbmRequest_held h hh
  · rw [hbmRequest_next h hh ht hp, if_neg (Bool.eq_false_iff.1 hc)]

theorem hbmAnswer_eq {x : Dev × MemResp} (h : d.hbmServe k r e = x) : d.hbmAnswer k r e = x.1.send (hbmNode k) { dest := r.req, prio := r.prio, body := .resp x.2 } := by
  rw [Dev.hbmAnswer, h]

/-! What serving does, by the kind of request. -/

/-- A request of length `n` within the stack. -/
def inStack (k a n : Nat) : Prop := stackBase k ≤ a ∧ a + n ≤ stackBase (k + 1)

theorem inStack_test {a n : Nat} (h : inStack k a n) {p : Prop} (hp : ¬ p) : ¬ (a < stackBase k ∨ stackBase (k + 1) < a + n ∨ p) := by
  obtain ⟨h1, h2⟩ := h
  rintro (h | h | h)
  · exact absurd h1 (Nat.not_le.2 h)
  · exact absurd h2 (Nat.not_le.2 h)
  · exact hp h

theorem op_served {n : Nat} {o : BitVec 4} (ho : o = BitVec.ofNat 4 n) (hn : n < 16) (h8 : n ≤ 8) (h4 : n ≠ 4) (h5 : n ≠ 5) : ¬ (8 < o.toNat ∨ o = 4 ∨ o = 5) := by
  have : o.toNat = n := by rw [ho, BitVec.toNat_ofNat, Nat.mod_eq_of_lt hn]
  rintro (h | h | h)
  · omega
  · rw [h] at this
    exact h4 this.symm
  · rw [h] at this
    exact h5 this.symm

theorem readsOld_load (ho : r.op = 0) : readsOld r = true := by simp [readsOld, ho]

theorem hbmServe_load (ho : r.op = 0) (hin : inStack k r.addr.toNat (accessBytes r.size)) : d.hbmServe k r .ok = d.memAccess r := by
  have hop : ¬ (r.op = 6 ∨ r.op = 8) := by rw [ho]; decide
  have hserved := op_served (n := 0) ho (by omega) (by omega) (by omega) (by omega)
  simp only [Dev.hbmServe, if_neg hop, readsOld_load ho, Bool.true_or, Dev.hbmEcc, isUe, Bool.false_and, Bool.false_eq_true, if_false, if_neg (inStack_test hin hserved), ite_self]
  rw [ho]
  rfl

theorem hbmServe_load_ue (ho : r.op = 0) (x : Bool) (hin : inStack k r.addr.toNat (accessBytes r.size)) : d.hbmServe k r (.ue x) = (d.hbmEcc k r.addr.toNat (.ue x), respOf r 1 0 []) := by
  have hop : ¬ (r.op = 6 ∨ r.op = 8) := by rw [ho]; decide
  have hserved := op_served (n := 0) ho (by omega) (by omega) (by omega) (by omega)
  simp only [Dev.hbmServe, if_neg hop, readsOld_load ho, Bool.true_or, isUe, Bool.true_and, if_true, if_neg (inStack_test hin hserved)]
  rw [ho]
  rfl

theorem hbmServe_store (ho : r.op = 1) (hin : inStack k r.addr.toNat (accessBytes r.size)) : d.hbmServe k r .ok = d.memAccess r := by
  have hop : ¬ (r.op = 6 ∨ r.op = 8) := by rw [ho]; decide
  have hserved := op_served (n := 1) ho (by omega) (by omega) (by omega) (by omega)
  simp only [Dev.hbmServe, if_neg hop, Dev.hbmEcc, isUe, Bool.false_and, Bool.false_eq_true, if_false, if_neg (inStack_test hin hserved), ite_self]
  rw [ho]
  rfl

theorem hbmServe_spill (ho : r.op = 6) (hin : inStack k r.addr.toNat 32) :
    d.hbmServe k r e = (d.write r.addr.toNat (entryBytes { entryOfBytes r.data with st := 1 }), respOf r 0 0 []) := by
  have hserved := op_served (n := 6) ho (by omega) (by omega) (by omega) (by omega)
  have hreads : (readsOld r || r.op == 7 || r.op == 8) = false := by simp [readsOld, ho]
  simp only [Dev.hbmServe, if_pos (Or.inl ho : r.op = 6 ∨ r.op = 8), hreads, Bool.and_false, Bool.false_eq_true, if_false, if_neg (inStack_test hin hserved)]
  rw [ho]
  rfl

theorem hbmServe_delete (ho : r.op = 8) (hin : inStack k r.addr.toNat 32) :
    d.hbmServe k r e = ((d.hbmEcc k r.addr.toNat e).emptySlotAt r.addr.toNat, respOf r (if isUe e then 1 else 0) 0 []) := by
  have hserved := op_served (n := 8) ho (by omega) (by omega) (by omega) (by omega)
  have hreads : (readsOld r || r.op == 7 || r.op == 8) = true := by simp [ho]
  simp only [Dev.hbmServe, if_pos (Or.inr ho : r.op = 6 ∨ r.op = 8), hreads, Bool.and_true, if_true, if_neg (inStack_test hin hserved)]
  rw [ho]
  rfl

theorem hbmServe_fill (ho : r.op = 7) (hin : inStack k r.addr.toNat (accessBytes r.size)) :
    d.hbmServe k r e = (((d.hbmEcc k r.addr.toNat e).hbmFill r).1, { ((d.hbmEcc k r.addr.toNat e).hbmFill r).2 with status := BitVec.ofNat 4 (if isUe e then 1 else 0) }) := by
  have hop : ¬ (r.op = 6 ∨ r.op = 8) := by rw [ho]; decide
  have hserved := op_served (n := 7) ho (by omega) (by omega) (by omega) (by omega)
  have hreads : (readsOld r || r.op == 7 || r.op == 8) = true := by simp [ho]
  simp only [Dev.hbmServe, if_neg hop, hreads, Bool.and_true, if_true, if_neg (inStack_test hin hserved)]
  simp only [show r.op.toNat = 7 by rw [ho]; rfl]

theorem hbmServe_outside (ho : r.op = 0) (hout : r.addr.toNat < stackBase k ∨ stackBase (k + 1) < r.addr.toNat + accessBytes r.size) :
    d.hbmServe k r .ok = (d, respOf r 2 0 []) := by
  have hop : ¬ (r.op = 6 ∨ r.op = 8) := by rw [ho]; decide
  have hout' : r.addr.toNat < stackBase k ∨ stackBase (k + 1) < r.addr.toNat + accessBytes r.size ∨ 8 < r.op.toNat ∨ r.op = 4 ∨ r.op = 5 := hout.imp id .inl
  simp only [Dev.hbmServe, if_neg hop, Dev.hbmEcc, if_pos hout', ite_self]

/-! Scrubbing, spare rows, training. -/

theorem hbmScrub_on {off : Nat} (h0 : d.rfld (hbmReg k 0x14) 7 0 ≠ 0) (hr : d.rbit (hbmReg k 0) 0 = true) :
    d.hbmScrub k off .ok false = d.setFld (hbmReg k 0x18) 7 0 (off * 256 / 0x600000000) := by
  simp only [Dev.hbmScrub, h0, hr, Bool.not_true, Bool.false_eq_true, or_self, if_false, Dev.hbmEcc]

theorem hbmScrub_wraps {off : Nat} (h0 : d.rfld (hbmReg k 0x14) 7 0 ≠ 0) (hr : d.rbit (hbmReg k 0) 0 = true) :
    d.hbmScrub k off .ok true = ((d.setFld (hbmReg k 0x18) 7 0 0).setBit (hbmReg k 0x18) 8 true).modHbm k (fun x => { x with ce := [] }) := by
  simp only [Dev.hbmScrub, h0, hr, Bool.not_true, Bool.false_eq_true, or_self, if_false, if_true, Dev.hbmEcc]

theorem spareDone_next {row : Nat} {rest : List Nat} (h : (d.hbmOf k).copying = row :: rest) :
    d.spareDone k = (d.modHbm k (fun x => { x with copying := rest, ce := mdel x.ce row })).raiseFree 335 k := by
  simp only [Dev.spareDone, h]

theorem hbmTrained_done (ht : d.rbit (hbmReg k 0) 1 = true) (hp : d.rfld (pwrReg (0x100 + 4 * (39 + k))) 3 2 ≠ 0) (hi : d.islands.contains (303 + k) = true) :
    d.hbmTrained k = (d.setBit (hbmReg k 0) 1 false).setBit (hbmReg k 0) 0 true := by
  simp only [Dev.hbmTrained, ht, hi, bne_iff_ne.2 hp, Bool.and_self, if_true]

end

/-- Settles O31: the served request, by its kind. -/
theorem hbmServesInOrder : Obligations.HbmServesInOrder := by
  unfold Obligations.HbmServesInOrder
  intro k s d node
  refine ⟨fun h => ⟨fun r took hs => ?_, fun p r took e hh ht hp hc => ?_⟩, fun h e => ?_, fun off h0 hr => ⟨?_, ?_⟩, fun row rest h => ?_, fun ht hp hi => ?_⟩
  · intro a n answer
    refine ⟨fun ho hn h1 h2 => ?_, fun ho hn h1 h2 => ?_, fun x ho h1 h2 => ?_, fun e ho h1 h2 => ?_, fun e ho h1 h2 => ?_, fun e ho h1 h2 => ?_, fun ho hout => ?_⟩
    · rw [exec_hbmRequest, hbmRequest_served h hs, hbmAnswer_eq ((hbmServe_load ho ⟨h1, h2⟩).trans (memAccess_load ho hn))]
    · rw [exec_hbmRequest, hbmRequest_served h hs, hbmAnswer_eq (hbmServe_store ho ⟨h1, h2⟩), Dev.memAccess, ho]
      rfl
    · rw [exec_hbmRequest, hbmRequest_served h hs, hbmAnswer_eq (hbmServe_load_ue ho x ⟨h1, h2⟩)]
    · rw [exec_hbmRequest, hbmRequest_served h hs, hbmAnswer_eq (hbmServe_spill ho ⟨h1, h2⟩)]
    · rw [exec_hbmRequest, hbmRequest_served h hs, hbmAnswer_eq (hbmServe_fill ho ⟨h1, h2⟩)]
      rfl
    · rw [exec_hbmRequest, hbmRequest_served h hs, hbmAnswer_eq (hbmServe_delete ho ⟨h1, h2⟩)]
    · rw [exec_hbmRequest, hbmRequest_served h hs, hbmAnswer_eq (hbmServe_outside ho hout)]
  · rw [exec_hbmRequest, hbmRequest_next h hh ht hp, if_pos hc]
  · rw [exec_hbmRequest, hbmRequest_notReady h, withDev_self]
  · rw [exec_hbmScrub, hbmScrub_on h0 hr]
  · rw [exec_hbmScrub, hbmScrub_wraps h0 hr]
  · rw [exec_spareRowDone, spareDone_next h]
  · rw [exec_hbmTrainingDone, hbmTrained_done ht hp hi]

end Sys2Proof.Machine

/-! ### O32: the lock units -/

namespace Sys2Proof.Machine

theorem exec_lockAcquire (g : Fin 16) (s : State) :
    exec (.lockAcquire g) s = .next (s.withDev (s.dev.lockAcquire g)) := rfl

theorem exec_lockRelease (g : Fin 16) (s : State) :
    exec (.lockRelease g) s = .next (s.withDev (s.dev.lockRelease g)) := rfl

theorem exec_leaseExpiry (g : Fin 16) (a : BitVec 48) (s : State) :
    exec (.leaseExpiry g a) s = .next (s.withDev (s.dev.leaseExpiry g a.toNat)) := rfl

theorem exec_lockWaitTimeout (g : Fin 16) (n : BitVec 13) (s : State) :
    exec (.lockWaitTimeout g n) s = .next (s.withDev (s.dev.lockTimeout g n.toNat)) := rfl

theorem exec_lckForce (g : Fin 16) (v : W32) (s : State) :
    exec (.lckForce g v) s = .next (s.withDev (s.dev.writes (lckReg g 0x1C) (s.dev.lockForce g v))) := rfl

theorem exec_ownerReset (g : Fin 16) (s : State) :
    exec (.ownerReset g) s = .next (s.withDev (s.dev.ownerResetAt g)) := rfl

/-- The unit's place in the line of a lock word. -/
def Dev.lockWaits (d : Dev) (g : Nat) (r : MemReq) : Dev :=
  d.modLck g (fun u => { u with wait := u.wait ++ [{ addr := r.addr.toNat, req := r, prio := r.prio.toNat }] })

section Front
variable {d took : Dev} {g : Nat} {p : Packet} {r : MemReq}

/-- The request at the front of a unit's queue is the one it serves. -/
theorem lockFront_of_takeInbox (h : d.takeInbox (lckNode g) 1 = some (p, took)) (hb : p.body = .req r) :
    d.lockFront g r.op.toNat = some (r, took) := by
  obtain ⟨⟩ := p
  cases hb
  simp only [Dev.lockFront, h, if_true]

variable (hf : d.lockFront g 4 = some (r, took))
include hf

theorem lockAcquire_closed (ho : took.regionOpen g = false) : d.lockAcquire g = took.lockAnswer g r 0 0 := by
  simp only [Dev.lockAcquire, hf, ho, Bool.not_false, if_true]

theorem lockAcquire_grant (ho : took.regionOpen g = true) (hl : (took.lck g).leaseOn r.addr.toNat = none)
    (hn : (took.lck g).leases.length < 4096) : d.lockAcquire g = took.lockGrant g r.addr.toNat r := by
  simp only [Dev.lockAcquire, hf, ho, hl, hn, Bool.not_true, Bool.false_eq_true, if_false, if_true]

theorem lockAcquire_full_waits (ho : took.regionOpen g = true) (hl : (took.lck g).leaseOn r.addr.toNat = none)
    (hn : 4096 ≤ (took.lck g).leases.length) (hw : (took.lck g).wait.length < 8192) :
    d.lockAcquire g = took.lockWaits g r := by
  simp only [Dev.lockAcquire, Dev.lockWaits, hf, ho, hl, Nat.not_lt.mpr hn, hw, Bool.not_true, Bool.false_eq_true, if_false, if_true]

theorem lockAcquire_full_refused (ho : took.regionOpen g = true) (hl : (took.lck g).leaseOn r.addr.toNat = none)
    (hn : 4096 ≤ (took.lck g).leases.length) (hw : 8192 ≤ (took.lck g).wait.length) :
    d.lockAcquire g = (took.setBit (lckReg g 0x20) 5 true).lockAnswer g r 0 0 := by
  simp only [Dev.lockAcquire, lckStatus, hf, ho, hl, Nat.not_lt.mpr hn, Nat.not_lt.mpr hw, Bool.not_true, Bool.false_eq_true, if_false]

variable {l : Lease} (ho : took.regionOpen g = true) (hl : (took.lck g).leaseOn r.addr.toNat = some l)
include ho hl

theorem lockAcquire_self (hc : l.owner = r.ctx) :
    d.lockAcquire g = (took.setBit (lckReg g 0x20) 4 true).lockAnswer g r 0 0 := by
  simp only [Dev.lockAcquire, lckStatus, hf, ho, hl, hc, Bool.not_true, Bool.false_eq_true, if_false, if_true]

theorem lockAcquire_held_waits (hc : l.owner ≠ r.ctx) (hw : (took.lck g).wait.length < 8192) :
    d.lockAcquire g = (took.lockWaits g r).lockBoosts g := by
  simp only [Dev.lockAcquire, Dev.lockWaits, hf, ho, hl, hc, hw, Bool.not_true, Bool.false_eq_true, if_false, if_true]

theorem lockAcquire_held_refused (hc : l.owner ≠ r.ctx) (hw : 8192 ≤ (took.lck g).wait.length) :
    d.lockAcquire g = (took.setBit (lckReg g 0x20) 5 true).lockAnswer g r 0 0 := by
  simp only [Dev.lockAcquire, lckStatus, hf, ho, hl, hc, Nat.not_lt.mpr hw, Bool.not_true, Bool.false_eq_true, if_false]

end Front

section Release
variable {d took : Dev} {g : Nat} {r : MemReq} {l : Lease} (hf : d.lockFront g 5 = some (r, took))
include hf

theorem lockRelease_matching (hl : (took.lck g).leaseOn r.addr.toNat = some l)
    (ho : r.operand.extractLsb' 39 22 = l.owner) (hq : r.operand.extractLsb' 32 7 = l.seq) :
    d.lockRelease g = (took.lockAnswer g r 0 0).leaseEnd g r.addr.toNat false false := by
  simp only [Dev.lockRelease, hf, hl]
  exact if_pos ⟨ho, hq⟩

theorem lockRelease_bad (hl : (took.lck g).leaseOn r.addr.toNat = none ∨ ∃ l, (took.lck g).leaseOn r.addr.toNat = some l ∧
      ¬ (r.operand.extractLsb' 39 22 = l.owner ∧ r.operand.extractLsb' 32 7 = l.seq)) :
    d.lockRelease g = (took.setBit (lckReg g 0x20) 3 true).lockAnswer g r 3 0 := by
  obtain hl | ⟨l, hl, hne⟩ := hl
  · simp only [Dev.lockRelease, lckStatus, hf, hl]
  · simp only [Dev.lockRelease, lckStatus, hf, hl, if_neg hne]

end Release

theorem leaseExpiry_held {d : Dev} {g a : Nat} {l : Lease} (h : (d.lck g).leaseOn a = some l) :
    d.leaseExpiry g a = ((d.setBit (lckReg g 0x20) 1 true).raise (258 + 4 * g) 1 0).leaseEnd g a false true := by
  simp only [Dev.leaseExpiry, lckStatus, h]

theorem lockTimeout_waiter {d : Dev} {g n : Nat} {w : LockWait} (h : (d.lck g).wait[n]? = some w) :
    d.lockTimeout g n =
      ((d.modLck g (fun u => { u with wait := u.wait.eraseIdx n })).lockAnswer g w.req 4 0).lockBoosts g := by
  simp only [Dev.lockTimeout, h]

theorem lockForce_held {d : Dev} {g : Nat} {v : W32} {l : Lease}
    (h : ((d.pairWrite (lckReg g 0x18) v).lck g).leaseOn ((d.pairWrite (lckReg g 0x18) v).pair (lckReg g 0x18)) = some l) :
    d.lockForce g v = ((d.pairWrite (lckReg g 0x18) v).setBit (lckReg g 0x20) 2 true).leaseEnd g
      ((d.pairWrite (lckReg g 0x18) v).pair (lckReg g 0x18)) false true := by
  simp only [Dev.lockForce, lckStatus, h]

theorem ownerResetAt_of_takeMgmt {d d1 : Dev} {g : Nat} {c : BitVec 22} (h : d.takeMgmt (lckNode g) isOwnerReset = some (.ownerReset c, d1)) :
    d.ownerResetAt g = d1.ownerGone g c := by
  simp only [Dev.ownerResetAt, h]

/-- Settles O32: the case of each command of a lock unit, by the request at its front. -/
theorem lockLeases : Obligations.LockLeases := by
  intro g s d u node
  refine ⟨fun p r took hp hb => ?_, fun a l h => ?_, fun n w h => ?_, fun v l => ?_, fun c d1 h => ?_, rfl⟩
  · have hfront := lockFront_of_takeInbox hp hb
    intro a u waits after
    refine ⟨fun hop => ?_, fun hop => ?_⟩
    · rw [hop, show (4 : BitVec 4).toNat = 4 from rfl] at hfront
      refine ⟨fun ho => ?_, fun ho => ⟨fun hl hn => ?_, fun hl hn hw => ?_, fun l hl hc => ?_, fun l hl hc hw => ?_, fun hl hw => ?_⟩⟩
      · rw [exec_lockAcquire, lockAcquire_closed hfront ho]
      · intro h l d1
        rw [exec_lockAcquire, lockAcquire_grant hfront ho hl hn]
        rfl
      · rw [exec_lockAcquire, lockAcquire_full_waits hfront ho hl hn hw]
        rfl
      · rw [exec_lockAcquire, lockAcquire_self hfront ho hl hc]
      · rw [exec_lockAcquire, lockAcquire_held_waits hfront ho hl hc hw]
        rfl
      · obtain ⟨hl, hn⟩ | ⟨l, hl, hc⟩ := hl
        · rw [exec_lockAcquire, lockAcquire_full_refused hfront ho hl hn hw]
        · rw [exec_lockAcquire, lockAcquire_held_refused hfront ho hl hc hw]
    · rw [hop, show (5 : BitVec 4).toNat = 5 from rfl] at hfront
      refine ⟨fun l hl ho hq => ?_, fun hl => ?_⟩
      · rw [exec_lockRelease, lockRelease_matching hfront hl ho hq]
      · rw [exec_lockRelease, lockRelease_bad hfront hl]
  · rw [exec_leaseExpiry, leaseExpiry_held h]
  · rw [exec_lockWaitTimeout, lockTimeout_waiter h]
  · intro d1 h
    rw [exec_lckForce, lockForce_held h]
  · rw [exec_ownerReset, ownerResetAt_of_takeMgmt h]
    rfl

end Sys2Proof.Machine

/-! ### O33: block operations of the Stride engine -/

namespace Sys2Proof.Machine

/-- Every block operation is one run of the engine with its own code, checks and function. -/
theorem exec_strideCommand : ∀ op ∈ strideCommands, ∀ (g : Fin 16) (t : Fin 17) (e : Ecc) (w : BitVec 16) (s : State),
    exec (op.2 g t e w) s = .next (s.withDev (s.dev.seRun (tileKey g t) op.1.1 e w op.1.2.1 op.1.2.2)) := by
  simp only [strideCommands, List.cons_append, List.nil_append, List.forall_mem_cons, List.not_mem_nil, false_imp_iff, implies_true, and_true]
  exact ⟨fun _ _ _ _ _ => rfl, fun _ _ _ _ _ => rfl, fun _ _ _ _ _ => rfl, fun _ _ _ _ _ => rfl, fun _ _ _ _ _ => rfl,
    fun _ _ _ _ _ => rfl, fun _ _ _ _ _ => rfl, fun _ _ _ _ _ => rfl, fun _ _ _ _ _ => rfl, fun _ _ _ _ _ => rfl,
    fun _ _ _ _ _ => rfl, fun _ _ _ _ _ => rfl, fun _ _ _ _ _ => rfl, fun _ _ _ _ _ => rfl, fun _ _ _ _ _ => rfl,
    fun _ _ _ _ _ => rfl, fun _ _ _ _ _ => rfl, fun _ _ _ _ _ => rfl, fun _ _ _ _ _ => rfl⟩

theorem exec_blockOperationEnd (g : Fin 16) (t : Fin 17) (s : State) :
    exec (.blockOperationEnd g t) s = .next (s.withDev (s.dev.strideEnd (tileKey g t))) := rfl

theorem exec_seSrstWrite (g : Fin 16) (t : Fin 17) (v : W32) (s : State) :
    exec (.seSrstWrite g t v) s = .next (s.withDev (s.dev.writes (seReg g t 0) (s.dev.seSrst (tileKey g t) v))) := rfl

/-! The status tokens do not see what the engine notes in its own registers. -/

theorem outAll_eq_of_reg {d e : Dev} (h : e.reg (rlyReg 0) = d.reg (rlyReg 0)) (f : Firing) (desc : BitVec 128) (pay pt : Nat) (err : Bool) :
    e.outAll f desc pay pt err = d.outAll f desc pay pt err := by
  simp only [Dev.outAll, Dev.outTok, baseTag_eq_of_reg h]

theorem tileAddr_ne_rgnReg (g : Fin 16) (t : Fin 17) {o o' g' : Nat} (ho : o < 0x20000) (ho' : o' < 0x100) : rgnReg g' o' ≠ tileAddr g t o := by
  simp only [rgnReg, tileAddr, regionAddr, configBase]
  omega

theorem tileAddr_ne_rlyReg (g : Fin 16) (t : Fin 17) {o : Nat} (ho : o < 0x20000) : rlyReg 0 ≠ tileAddr g t o := by
  simp only [rlyReg, hubBase, tileAddr, regionAddr, configBase]
  omega

theorem regReset_seReg : ∀ (g : Fin 16) (t : Fin 17), regReset (seReg g t 0) = 0 ∧ regReset (seReg g t 8) = 0 ∧ regReset (spmReg g t 0xC) = 0 := by
  decide +kernel

section Run
variable {d : Dev} {tl code c zoff header : Nat} {e : Ecc} {w : BitVec 16} {spec : Nat → Frame → (Nat → Nat) → SeSpec}
  {run : SeIn → SeRes} {it : Item} {t0 : Token} {x : Frame} {y : Option Frame} {sp : SeSpec}
  (hrun : (d.tile tl).stride.run = some it) (hdone : (d.tile tl).stride.done = false) (hopc : dOpc it.desc = code) (hp : it.fir.port 0 = some t0)
include hrun hdone hopc hp

omit hp in
theorem seRun_err {p : Nat} {z : Token} (he : it.fir.errTok = some (p, z)) :
    d.seRun tl code e w spec run = d.seDone tl (d.outAll it.fir it.desc z.pay.toNat 6 true) false 0 := by
  simp only [Dev.seRun, hrun, hdone, hopc, he, ne_eq, not_true_eq_false, Bool.false_eq_true, or_self, if_false]

variable (he : it.fir.errTok = none)
include he

theorem seRun_record (h6 : Token.ptype t0 = 6) :
    d.seRun tl code e w spec run = d.seDone tl ((dstsOf it.desc).map (fun z => d.passTok it.fir it.desc z t0)) false 0 := by
  simp only [Dev.seRun, hrun, hdone, hopc, he, hp, h6, Option.getD_some, ne_eq, not_true_eq_false, Bool.false_eq_true, or_self, if_false, if_true]

variable (h5 : ∀ p ∈ it.fir.toks, Token.ptype p.2 = 5) (h0 : Token.ptype t0 = 5)
  (hc : regionOf t0.tag.die.toNat t0.tag.rgn.toNat * 16 + t0.tag.clu.toNat = c) (hx : Frame.ofBits t0.pay = x)
  (hz : (dImm it.desc).toNat / 65536 = zoff)
  (hsp : spec ((dImm it.desc).toNat % 65536) x (fun i => d.readLe (bankAddr c 0 (4 * (zoff + i))) 4) = sp)
  (hy : (if sp.y then (it.fir.port 1).map (fun t => Frame.ofBits t.pay) else none) = y)
  (hh : (if sp.s = 0 then 0 else d.readLe (bankAddr c 0 (4 * (zoff + 0))) 4) = header)
include h5 h0 hc hx hz hsp hy hh

theorem seRun_oddParam {r : Nat × Nat × Nat} (hs : strideParam code (dImm it.desc).toNat = false)
    (hr : seCheck c x y zoff sp header (some ((Config.freeValue d.fresh).toNat % 65536)) = some r) :
    d.seRun tl code e w spec run = ({ d with fresh := d.fresh + 1 } : Dev).seFail tl it r.1 r.2.1 r.2.2 false := by
  have hf : it.fir.toks.find? (fun p => Token.ptype p.2 != 5) = none := by simpa using h5
  simp only [Dev.seRun, hrun, hdone, hopc, he, hp, h0, hf, hc, hx, hz, hsp, hy, hh, hs, hr, Option.getD_some, Option.isSome_some, ne_eq, not_true_eq_false, Bool.false_eq_true, or_self, if_false, if_true,
    show ¬ (5 = 6) by decide]

variable (hs : strideParam code (dImm it.desc).toNat = true)
include hs

theorem seRun_check {r : Nat × Nat × Nat} (hr : seCheck c x y zoff sp header none = some r) :
    d.seRun tl code e w spec run = d.seFail tl it r.1 r.2.1 r.2.2 false := by
  have hf : it.fir.toks.find? (fun p => Token.ptype p.2 != 5) = none := by simpa using h5
  simp only [Dev.seRun, hrun, hdone, hopc, he, hp, h0, hf, hc, hx, hz, hsp, hy, hh, hs, hr, Option.getD_some, Option.isSome_none, ne_eq, not_true_eq_false, Bool.false_eq_true, or_self, if_false, if_true,
    show ¬ (5 = 6) by decide]

variable (hr : seCheck c x y zoff sp header none = none)
include hr

theorem seRun_waits (hb : (d.bank tl 0).target = some 2 ∨ (d.bank tl 0).second ≠ []) : d.seRun tl code e w spec run = d := by
  have hf : it.fir.toks.find? (fun p => Token.ptype p.2 != 5) = none := by simpa using h5
  simp only [Dev.seRun, hrun, hdone, hopc, he, hp, h0, hf, hc, hx, hz, hsp, hy, hh, hs, hr, Option.getD_some, Option.isSome_none, ne_eq, not_true_eq_false, Bool.false_eq_true, or_self, if_false, if_true,
    show ¬ (5 = 6) by decide]
  exact if_pos (hb.imp_right (by simp))

theorem seRun_off (hb2 : (d.bank tl 0).second = []) (hbt : (d.bank tl 0).target ≠ some 2)
    (hoff : (d.bank tl 0).state ≠ 2 ∨ (d.bank tl 0).target ≠ none) :
    d.seRun tl code e w spec run =
      (let d1 := (d.setBit (spmR tl 0xC) 1 true).seLast tl stACCESS code
       d1.seDone tl (d1.outAll it.fir it.desc (status stACCESS (d1.originOf it.fu) (bankAddr c 0 (4 * x.off))).toNat 6 true) true 0) := by
  have hf : it.fir.toks.find? (fun p => Token.ptype p.2 != 5) = none := by simpa using h5
  simp only [Dev.seRun, hrun, hdone, hopc, he, hp, h0, hf, hc, hx, hz, hsp, hy, hh, hs, hr, hb2, hbt, Option.getD_some, Option.isSome_none, ne_eq, not_true_eq_false, Bool.false_eq_true, or_self, if_false, if_true,
    show ¬ (5 = 6) by decide, List.isEmpty_nil, Bool.not_true]
  exact if_pos (hoff.imp_right (fun h => Option.isSome_iff_ne_none.mpr h))

/-- What the engine reads for its function, with the copy of the state that the operation starts from. -/
def Dev.seIn (d : Dev) (c code zoff imm header : Nat) (sp : SeSpec) (x : Frame) (src : Nat) : SeIn :=
  { imm := imm, x := x, xs := d.elems c x, z := d.bankWords c zoff (if code = 0x38D ∨ sp.s = 0 then sp.zlen else 4 + sp.p)
    st := d.bankWords c (zoff + 4 + sp.p + (if code = 0x391 then header / 2 ^ 31 % 2 else src) * sp.s) sp.s }

theorem seRun_computes {d1 : Dev} {cp : Nat × Nat} {r : SeRes} (hb2 : (d.bank tl 0).second = []) (hbt : (d.bank tl 0).target = none)
    (hon : (d.bank tl 0).state = 2) (hok : e = .ok ∨ e = .ce) (hd1 : (if e = .ce then d.addSat16 (spmR tl 8) 1 else d) = d1)
    (hcp : seCopies header (Token.replay t0) x.stamp = cp)
    (hrr : run (d1.seIn c code zoff ((dImm it.desc).toNat % 65536) header sp x cp.1) = r) :
    d.seRun tl code e w spec run =
      if seTouched (d1.tile tl).stride.hits x y zoff sp.zlen then
        ({ d1 with fresh := d1.fresh + r.size } : Dev).seWrite tl c it x y zoff sp cp.2 (r.undefined d1.fresh)
      else d1.seWrite tl c it x y zoff sp cp.2 r := by
  subst hcp hrr hd1
  have hf : it.fir.toks.find? (fun p => Token.ptype p.2 != 5) = none := by simpa using h5
  have hz1 : ∀ d : Dev, (if code = 0x38D then d.bankWords c zoff sp.zlen else d.bankWords c zoff (if sp.s = 0 then sp.zlen else 4 + sp.p)) =
      d.bankWords c zoff (if code = 0x38D ∨ sp.s = 0 then sp.zlen else 4 + sp.p) := fun d => by
    by_cases h : code = 0x38D <;> simp only [h, true_or, false_or, if_true, if_false]
  obtain rfl | rfl := hok <;>
  simp only [Dev.seRun, hrun, hdone, hopc, he, hp, h0, hf, hc, hx, hz, hsp, hy, hh, hs, hr, hb2, hbt, hon, hz1, Dev.seIn, Option.getD_some, Option.isSome_none, ne_eq, not_true_eq_false, Bool.false_eq_true,
    or_self, if_false, if_true, show ¬ (5 = 6) by decide, List.isEmpty_nil, Bool.not_true, reduceCtorEq]

end Run

/-! Which copy of the state an operation starts from and writes. -/

theorem seCopies_one (header stamp : Nat) (replay : Bool) : (seCopies header replay stamp).1 + (seCopies header replay stamp).2 = 1 ∧
    (seCopies header replay stamp).2 < 2 := by
  unfold seCopies
  extract_lets cur
  have : cur < 2 := Nat.mod_lt _ Nat.two_pos
  clear_value cur
  split <;> dsimp only <;> omega

theorem seCopies_first (header stamp : Nat) : (seCopies header false stamp).1 = header / 2 ^ 31 % 2 := by
  simp only [seCopies, Bool.false_and, Bool.false_eq_true, if_false]

section Copies
variable {c stamp : Nat} (hc : c < 2) (hs : stamp < 2 ^ 17)
include hc hs

theorem header_fields : (c * 2 ^ 31 + 2 ^ 17 + stamp) / 2 ^ 31 % 2 = c ∧ (c * 2 ^ 31 + 2 ^ 17 + stamp) / 2 ^ 17 % 2 = 1 ∧
    (c * 2 ^ 31 + 2 ^ 17 + stamp) % 2 ^ 17 = stamp := by omega

theorem seCopies_replay : seCopies (c * 2 ^ 31 + 2 ^ 17 + stamp) true stamp = (1 - c, c) := by
  obtain ⟨h1, h2, h3⟩ := header_fields hc hs
  simp only [seCopies, h1, h2, h3, beq_self_eq_true, Bool.and_self, if_true]

theorem seCopies_later {later : Nat} (hne : later ≠ stamp) : seCopies (c * 2 ^ 31 + 2 ^ 17 + stamp) true later = (c, 1 - c) := by
  obtain ⟨h1, h2, h3⟩ := header_fields hc hs
  simp only [seCopies, h1, h2, h3, beq_self_eq_true, Bool.true_and, beq_false_of_ne hne.symm, Bool.false_eq_true, if_false]

end Copies

/-! The end of an operation, and an engine reset. -/

section End
variable {d : Dev} {tl : Nat} {it : Item}

theorem strideEnd_computed (hrun : (d.tile tl).stride.run = some it) (hdone : (d.tile tl).stride.done = true) :
    d.strideEnd tl = (((({ d with pulses := d.pulses ++ [(4, (d.logicalOf (tl / 17) (tl % 17)).getD 0, tl / 17)] } : Dev).modStride tl (fun _ => {})).sendFiring
      (seNode tl) tl it.fir (d.tile tl).stride.toks (d.tile tl).stride.flags (d.tile tl).stride.fault).strideNext tl) := by
  simp only [Dev.strideEnd, hrun, hdone, Bool.not_true, Bool.false_eq_true, if_false]

theorem strideEnd_running (h : (d.tile tl).stride.run = none ∨ (d.tile tl).stride.done = false) : d.strideEnd tl = d := by
  unfold Dev.strideEnd
  extract_lets x
  split
  · rfl
  · next it hrun =>
    obtain h | h := h
    · cases hrun.symm.trans h
    · exact if_pos (by rw [h]; rfl)

theorem seSrst_resetting {v : W32} (h : d.rst.phase ≠ 0) : d.seSrst tl v = d :=
  if_pos (bne_iff_ne.2 h)

variable {v : W32} (h : d.rst.phase = 0)
include h

theorem seSrst_set (hv : v.getLsbD 0 = true) : d.seSrst tl v = (d.setBit (seReg (tl / 17) (tl % 17) 0) 0 true).strideAbandon tl := by
  simp only [Dev.seSrst, Dev.resetting, h, hv, bne_self_eq_false, Bool.false_eq_true, if_false, if_true]

theorem seSrst_clear (hv : v.getLsbD 0 = false) : d.seSrst tl v = (d.setBit (seReg (tl / 17) (tl % 17) 0) 0 false).strideNext tl := by
  simp only [Dev.seSrst, Dev.resetting, h, hv, bne_self_eq_false, Bool.false_eq_true, if_false]

end End

/-- What the end of an abandoned operation leaves: the engine idle, ABANDONED, and its context for replay. -/
def Dev.strideEnded (d : Dev) (tl : Nat) (it : Item) : Dev :=
  (((d.modStride tl (fun _ => {})).setBit (seStatusReg tl) 8 true).abandonCtx (Firing.ctx it.fir)).releaseFlow tl (Firing.flow it.fir)

theorem strideEnded_tileKey (d : Dev) (g : Nat) (t : Fin 17) (it : Item) : d.strideEnded (tileKey g t) it =
    (((d.modStride (tileKey g t) (fun _ => {})).setBit (seReg g t 4) 8 true).abandonCtx (Firing.ctx it.fir)).releaseFlow (tileKey g t) (Firing.flow it.fir) := by
  rw [Dev.strideEnded, seStatusReg, tileKey_div, tileKey_mod]

section Abandon
variable {d : Dev} {tl : Nat} {it : Item} {y : Token}

theorem strideAbandon_idle (h : (d.tile tl).stride.run = none) : d.strideAbandon tl = d := by
  simp only [Dev.strideAbandon, h]

variable (h : (d.tile tl).stride.run = some it)
include h

theorem strideAbandon_noOutput (hp : it.fir.port 1 = none) : d.strideAbandon tl = d.strideEnded tl it := by
  simp only [Dev.strideAbandon, h, hp, Dev.strideEnded]

variable (hp : it.fir.port 1 = some y)
include hp

theorem strideAbandon_placed (hy : (Frame.ofBits y.pay).placed ((d.clusterOf tl).getD 0) = true) :
    d.strideAbandon tl = (d.freeWords ((d.clusterOf tl).getD 0) (Frame.ofBits y.pay).off ((Frame.ofBits y.pay).bytes / 4)).strideEnded tl it := by
  simp only [Dev.strideAbandon, h, hp, hy, if_true, Dev.strideEnded]

theorem strideAbandon_unplaced (hy : (Frame.ofBits y.pay).placed ((d.clusterOf tl).getD 0) = false) :
    d.strideAbandon tl = d.strideEnded tl it := by
  simp only [Dev.strideAbandon, h, hp, hy, Bool.false_eq_true, if_false, Dev.strideEnded]

end Abandon

/-- The engine's reset bit does not change which cluster its tile is. -/
theorem clusterOf_seSrst (d : Dev) (g : Fin 16) (t : Fin 17) :
    (d.setBit (seReg g t 0) 0 true).clusterOf (tileKey g t) = d.clusterOf (tileKey g t) :=
  clusterOf_eq_of_reg (fun o ho => reg_setFld_any (x := 1) (regReset_seReg g t).1 (by omega) (by simp) Nat.one_ne_zero (tileAddr_ne_rgnReg g t (by omega) ho)) t

/-- Noting that bank A is off changes no register but the bank's and the engine's own. -/
theorem reg_bankOff (d : Dev) (g : Fin 16) (t : Fin 17) {code b : Nat} (hcode : code < 2 ^ 16) (h1 : b ≠ seReg g t 8) (h2 : b ≠ spmReg g t 0xC) :
    ((d.setBit (spmReg g t 0xC) 1 true).seLast (tileKey g t) stACCESS code).reg b = d.reg b := by
  obtain ⟨-, hlast, hacc⟩ := regReset_seReg g t
  have hne : BitVec.ofNat 32 (stACCESS * 65536 + code) ≠ 0 := by
    simp only [ne_eq, ← BitVec.toNat_inj, BitVec.toNat_ofNat, stACCESS, BitVec.ofNat_eq_ofNat, Nat.zero_mod]
    omega
  rw [Dev.seLast, seLastErr, tileKey_div, tileKey_mod, reg_setReg_any (by rwa [hlast]) h1]
  exact reg_setFld_any (x := 1) hacc (by omega) (by simp) Nat.one_ne_zero h2

theorem originOf_bankOff (d : Dev) (g : Fin 16) (t : Fin 17) {code : Nat} (hcode : code < 2 ^ 16) (k : Nat) :
    ((d.setBit (spmReg g t 0xC) 1 true).seLast (tileKey g t) stACCESS code).originOf k = d.originOf k := by
  have hmap : ∀ o < 0x100, ((d.setBit (spmReg g t 0xC) 1 true).seLast (tileKey g t) stACCESS code).reg (rgnReg (k / 8 / 17) o) = d.reg (rgnReg (k / 8 / 17) o) :=
    fun o ho => reg_bankOff d g t hcode (by rw [seReg]; exact tileAddr_ne_rgnReg g t (by omega) ho) (by rw [spmReg]; exact tileAddr_ne_rgnReg g t (by omega) ho)
  rw [Dev.originOf, Dev.clusterOf, logicalOf_eq_of_reg hmap, Dev.originOf, Dev.clusterOf]

theorem outAll_bankOff (d : Dev) (g : Fin 16) (t : Fin 17) {code : Nat} (hcode : code < 2 ^ 16) (f : Firing) (desc : BitVec 128) (pay pt : Nat) (err : Bool) :
    ((d.setBit (spmReg g t 0xC) 1 true).seLast (tileKey g t) stACCESS code).outAll f desc pay pt err = d.outAll f desc pay pt err :=
  outAll_eq_of_reg (reg_bankOff d g t hcode (by rw [seReg]; exact tileAddr_ne_rlyReg g t (by omega)) (by rw [spmReg]; exact tileAddr_ne_rlyReg g t (by omega))) f desc pay pt err

theorem seNode_tileKey (g : Nat) (t : Fin 17) : seNode (tileKey g t) = .tileUnit g t 9 := by
  rw [seNode, tileKey_div, tileKey_mod]

theorem setBit_tile (d : Dev) (a n : Nat) (b : Bool) (k : Nat) : (d.setBit a n b).tile k = d.tile k := by
  rw [Dev.tile, Dev.setBit_tiles, Dev.tile]

theorem addSat16_tile (d : Dev) (a n k : Nat) : (d.addSat16 a n).tile k = d.tile k := by
  rw [Dev.tile, Dev.addSat16, Dev.setFld_tiles, Dev.tile]

theorem seDone_bankOff (d : Dev) (g : Fin 16) (t : Fin 17) {code : Nat} (hcode : code < 2 ^ 16) (f : Firing) (desc : BitVec 128) (k a : Nat) :
    (let d1 := (d.setBit (spmReg g t 0xC) 1 true).seLast (tileKey g t) stACCESS code
     d1.seDone (tileKey g t) (d1.outAll f desc (status stACCESS (d1.originOf k) a).toNat 6 true) true 0) =
    ((d.setBit (spmReg g t 0xC) 1 true).seLast (tileKey g t) stACCESS code).seDone (tileKey g t)
      (d.outAll f desc (status stACCESS (d.originOf k) a).toNat 6 true) true 0 := by
  dsimp only
  rw [outAll_bankOff d g t hcode, originOf_bankOff d g t hcode]

/-- A parameter out of range fails the checks, at the latest as a check of its own. -/
theorem seCheck_param (c : Nat) (x : Frame) (y : Option Frame) (zoff : Nat) (sp : SeSpec) (header i : Nat) :
    ∃ r, seCheck c x y zoff sp header (some i) = some r := by
  unfold seCheck
  extract_lets zin ov
  simp only [Option.some_or]
  repeat' split
  all_goals exact ⟨_, rfl⟩

/-- Settles O33: the engine's run case by case, the arithmetic of the two copies, its end and its reset. -/
theorem blockOperationsCompute : Obligations.BlockOperationsCompute := by
  refine ⟨fun op hop g t e w s it t0 => ?_, fun header stamp replay hs => ?_, fun g t s => ?_⟩
  · intro tl d f code c x imm zoff zw sp y header hrun hdone hopc hp
    rw [exec_strideCommand op hop]
    refine ⟨fun p z he => ?_, fun he h6 => ?_, fun he h5 h0 => ?_⟩
    · rw [seRun_err hrun hdone hopc he]
    · rw [seRun_record hrun hdone hopc hp he h6]
    · intro bank
      have hcode : code < 2 ^ 16 := by
        rw [← hopc]
        exact Nat.lt_trans (BitVec.isLt _) (by decide)
      refine ⟨fun hs => ?_, fun hs => ⟨fun r hr => ?_, fun hr => ⟨fun hb => ?_, fun hb2 hbt hoff => ?_, fun hb2 hbt hon hok => ?_⟩⟩⟩
      · intro d1
        obtain ⟨r, hr⟩ := seCheck_param c x y zoff sp header ((Config.freeValue d.fresh).toNat % 65536)
        exact ⟨r, hr, by rw [seRun_oddParam hrun hdone hopc hp he h5 h0 rfl rfl rfl rfl rfl rfl hs hr]⟩
      · rw [seRun_check hrun hdone hopc hp he h5 h0 rfl rfl rfl rfl rfl rfl hs hr]
      · rw [seRun_waits hrun hdone hopc hp he h5 h0 rfl rfl rfl rfl rfl rfl hs hr hb, withDev_self]
      · rw [seRun_off hrun hdone hopc hp he h5 h0 rfl rfl rfl rfl rfl rfl hs hr hb2 hbt hoff, spmR_tileKey]
        exact congrArg (fun x => Host.Outcome.next (s.withDev x)) (seDone_bankOff _ g t hcode ..)
      · intro d1 cp z src r
        have htile : d1.tile tl = d.tile tl := by
          clear_value cp z src r
          by_cases hce : e = .ce
          · rw [show d1 = d.addSat16 (spmReg g t 8) 1 from if_pos hce, addSat16_tile]
          · rw [show d1 = d from if_neg hce]
        rw [seRun_computes hrun hdone hopc hp he h5 h0 rfl rfl rfl rfl rfl rfl hs hr hb2 hbt hon hok (by rw [spmR_tileKey]) rfl rfl, htile]
        exact ⟨fun ht => congrArg (fun x => Host.Outcome.next (s.withDev x)) (if_neg (Bool.eq_false_iff.1 ht)),
          fun ht => congrArg (fun x => Host.Outcome.next (s.withDev x)) (if_pos ht)⟩
  · intro cp
    obtain ⟨hsum, hlt⟩ := seCopies_one header stamp replay
    have hfst : cp.1 = 1 - cp.2 := Nat.eq_sub_of_add_eq hsum
    refine ⟨?_, fun hr => ?_, hsum, fun later _ hne => ?_⟩
    · rw [seCopies_replay hlt hs, ← hfst]
    · subst hr
      exact seCopies_first header stamp
    · rw [seCopies_later hlt hs hne, ← hfst]
  · intro tl d
    refine ⟨fun it hrun hdone => ?_, fun h => ?_, fun v h => ?_, fun v h => ?_⟩
    · intro x d1
      rw [exec_blockOperationEnd, strideEnd_computed hrun hdone, seNode_tileKey, tileKey_div, tileKey_mod]
    · rw [exec_blockOperationEnd, strideEnd_running h, withDev_self]
    · rw [exec_seSrstWrite, seSrst_resetting h, writes_self, withDev_self]
    · intro after
      refine ⟨fun hv => ?_, fun hv => ?_⟩
      · intro d1 ended
        have hs : exec (.seSrstWrite g t v) s = after (d1.strideAbandon tl) := by
          rw [exec_seSrstWrite, seSrst_set h hv, tileKey_div, tileKey_mod]
        have htile : d1.tile tl = d.tile tl := setBit_tile ..
        have hcl : d1.clusterOf tl = d.clusterOf tl := clusterOf_seSrst d g t
        rw [hs]
        clear_value d1
        refine ⟨fun hrun => ?_, fun it hrun hp => ?_, fun it y hrun hp hy => ?_, fun it y hrun hp hy => ?_⟩
        all_goals rw [← htile] at hrun
        · rw [strideAbandon_idle hrun]
        · rw [strideAbandon_noOutput hrun hp, strideEnded_tileKey]
        · rw [← hcl] at hy
          rw [strideAbandon_placed hrun hp hy, hcl, strideEnded_tileKey]
        · rw [← hcl] at hy
          rw [strideAbandon_unplaced hrun hp hy, strideEnded_tileKey]
      · rw [exec_seSrstWrite, seSrst_clear h hv, tileKey_div, tileKey_mod]

end Sys2Proof.Machine

/-! ### The step of a core, and O34: instructions that compute in registers -/

namespace Sys2Proof.Machine

/-! What a core's step shares: no fatal trap, the instruction it executes, and its core read back. -/

theorem stewFatal_none {d : Dev} (h : d.stew.fatal = none) : d.stewFatal = d := by
  simp only [Dev.stewFatal, h]

theorem coreDone_eq (s : State) {d : Dev} (h : d.stew.fatal = none) : coreDone s d = .next (s.put d) := by
  rw [coreDone, stewFatal_none h]

theorem raise_stew (d : Dev) (src code index : Nat) : (d.raise src code index).stew = d.stew := by
  unfold Dev.raise Dev.raiseWith
  extract_lets d1 d2 cfg
  have h2 : d2.stew = d.stew := (Dev.setFld_stew ..).trans (Dev.setFld_stew ..)
  clear_value d2 cfg
  have hp : (d2.setEvtPending src true).stew = d.stew := (Dev.setBit_stew ..).trans h2
  split
  · exact h2
  split
  · exact hp
  split
  · exact (Dev.setBit_stew ..).trans hp
  split
  · exact h2
  split
  · exact hp
  · exact hp

theorem raiseTile_stew (d : Dev) (k code index : Nat) : (d.raiseTile k code index).stew = d.stew := by
  unfold Dev.raiseTile
  split
  · exact raise_stew ..
  · rfl

theorem spmUe_stew (d : Dev) (tl off : Nat) : (d.spmUe tl off).stew = d.stew := by
  rw [Dev.spmUe, raiseTile_stew, Dev.setFld_stew, Dev.setBit_stew]

theorem modCore_fatal (d : Dev) (n : Nat) (f : Runner → Runner) : (d.modCore n f).stew.fatal = d.stew.fatal := by
  unfold Dev.modCore
  split <;> rfl

theorem rcNext_fatal (d : Dev) (n : Nat) (f : Runner → Runner) : (d.rcNext n f).stew.fatal = d.stew.fatal := modCore_fatal ..

theorem fetchNote_stew (d : Dev) (n : Nat) (e : Ecc) : (d.fetchNote n e).stew = d.stew := by
  unfold Dev.fetchNote
  split
  · rfl
  split
  · exact Dev.setBit_stew ..
  · exact spmUe_stew ..
  · split
    · exact Dev.setFld_stew ..
    · rfl
  · rfl

theorem awake_fatal (d : Dev) (n : Nat) (e : Ecc) : (d.awake n e).stew.fatal = d.stew.fatal := by
  unfold Dev.awake
  extract_lets d1
  have h : d1.stew = d.stew := fetchNote_stew ..
  have h2 : d1.stew.fatal = d.stew.fatal := by rw [h]
  split <;> exact h2

section Step
variable {d : Dev} {n : Nat} {e : Ecc} {i : RcIns} (h : d.executes n e i)
include h

/-- A core that executes an instruction of the kind does what the instruction does. -/
theorem rcStep_executes {k : RcKind} (hk : i.kind = k) (act : Dev → RcIns → Runner → Dev) :
    d.rcStep n e k act = act (d.awake n e) i (d.core n) := by
  obtain ⟨hruns, -, hfetch, hdec, href⟩ := h
  rw [Dev.awake] at hdec href ⊢
  simp only [Dev.rcStep, hruns, hfetch, hdec, href, hk, Bool.not_true, Bool.false_eq_true, if_false, if_true]

theorem awake_fatal_none : (d.awake n e).stew.fatal = none := (awake_fatal d n e).trans h.2.1

/-- An instruction that goes on to the next word with an update of its core. -/
theorem coreDone_rcNext {s : State} {k : RcKind} (hk : i.kind = k) {act : Dev → RcIns → Runner → Dev} {f : Runner → Runner}
    (ha : act (d.awake n e) i (d.core n) = (d.awake n e).rcNext n f) :
    coreDone s (d.rcStep n e k act) = .next (s.put ((d.awake n e).rcNext n f)) := by
  rw [rcStep_executes h hk, ha, coreDone_eq]
  rw [rcNext_fatal, awake_fatal_none h]

end Step

/-! What the decoder guarantees. -/

/-- The kinds whose distance is an immediate of 7 bits (R272). -/
def RcKind.isShift : RcKind → Bool
  | .shli | .shri | .srai => true
  | _ => false

/-- What every decoded instruction keeps to: an integer word names a defined operation with a TY that it accepts (R273), and a
shift distance is below 128 (R272). -/
structure RcIns.Legal (i : RcIns) : Prop where
  int : i.kind = .intOp → intLegal i.fn i.rb = true ∧ i.fn < 2048
  shift : i.kind.isShift = true → i.imm.toNat < 128

/-- The kinds of which `RcIns.Legal` asks nothing. -/
def RcKind.free (k : RcKind) : Bool := k != .intOp && !k.isShift

theorem RcIns.legal_of_free {i : RcIns} (h : i.kind.free = true) : i.Legal := by
  simp only [RcKind.free, Bool.and_eq_true, bne_iff_ne, Bool.not_eq_true'] at h
  exact ⟨fun hk => absurd hk h.1, fun hk => absurd hk (Bool.eq_false_iff.1 h.2)⟩

theorem RcIns.legal_of_ite {i : RcIns} {b : Bool} {k : RcKind} (hi : i.kind = if b then k else .illegal) (h : k.free = true) : i.Legal := by
  refine legal_of_free ?_
  rw [hi]
  cases b
  · rfl
  · exact h

/-- The words that control the core are none of the checked kinds. -/
theorem sysKind_free (rd ra rb fn : Nat) : (sysKind rd ra rb fn).free = true := by
  unfold sysKind
  extract_lets pick none3
  have hpick : ∀ ok k, k.free = true → (pick ok k).free = true := fun ok k hk => by
    cases ok
    · rfl
    · exact hk
  clear_value pick
  split
  · rfl
  split
  case h_8 => exact hpick _ _ (by split <;> rfl)
  case h_13 => rfl
  all_goals exact hpick _ _ rfl

theorem rcDecode_legal (w : W32) : (rcDecode w).Legal := by
  unfold rcDecode
  extract_lets n major rd ra rb fn imm rr ri sh br
  have hfn : fn < 2048 := Nat.mod_lt _ (by decide)
  have hsh : ∀ k, k ≠ .intOp → (sh k).Legal := fun k hk => by
    by_cases hn : n % 65536 < 128
    · rw [show sh k = ri k from if_pos hn]
      have himm : (ri k).imm.toNat = n % 65536 := by simp [ri, imm, n, BitVec.extractLsb'_toNat]
      exact ⟨fun h => absurd h hk, fun _ => himm ▸ hn⟩
    · rw [show sh k = {} from if_neg hn]
      exact RcIns.legal_of_free rfl
  clear_value n major fn rd ra rb
  split
  case h_1 =>
    cases hl : intLegal fn rb
    · exact RcIns.legal_of_free rfl
    · exact ⟨fun _ => ⟨hl, hfn⟩, fun h => by cases h⟩
  case h_2 => exact RcIns.legal_of_ite rfl rfl
  case h_3 => exact RcIns.legal_of_free (sysKind_free ..)
  case h_10 | h_11 | h_12 => exact hsh _ (by decide)
  case h_25 | h_26 | h_27 => exact RcIns.legal_of_ite rfl rfl
  case h_28 | h_31 | h_33 => split <;> exact RcIns.legal_of_free rfl
  all_goals exact RcIns.legal_of_free rfl
theorem legal_of_executes {d : Dev} {n : Nat} {e : Ecc} {i : RcIns} (h : d.executes n e i) : i.Legal := by
  obtain ⟨-, -, -, hdec, -⟩ := h
  exact hdec ▸ rcDecode_legal _

/-! O34 -/

/-- An instruction with an immediate computes a function of ra and the immediate. -/
theorem coreDone_immExec {s : State} {n : Nat} {e : Ecc} {k : RcKind} {i : RcIns} (h : s.dev.executes n e i) (hk : i.kind = k)
    {op : RcIns → W64 → W64} {v : W64} (hv : op i ((s.dev.core n).get i.ra) = v) :
    immExec n e k op s = .next (s.put ((s.dev.awake n e).rcNext n (fun r => r.set i.rd v))) := by
  rw [immExec, Dev.rcWrite]
  exact coreDone_rcNext h hk (by rw [hv])

section
variable (n : Fin 273) (e : Ecc) (s : State)

theorem exec_addi : exec (.addi n e) s = immExec n e .addi (fun i a => a + simm i) s := rfl
theorem exec_andi : exec (.andi n e) s = immExec n e .andi (fun i a => a &&& zimm i) s := rfl
theorem exec_ori : exec (.ori n e) s = immExec n e .ori (fun i a => a ||| zimm i) s := rfl
theorem exec_xori : exec (.xori n e) s = immExec n e .xori (fun i a => a ^^^ zimm i) s := rfl
theorem exec_slti : exec (.slti n e) s = immExec n e .slti (fun i a => if a.toInt < (simm i).toInt then 1 else 0) s := rfl
theorem exec_sltiu : exec (.sltiu n e) s = immExec n e .sltiu (fun i a => if a.toNat < (simm i).toNat then 1 else 0) s := rfl
theorem exec_shli : exec (.shli n e) s = immExec n e .shli (fun i a => a <<< shiftAmt i) s := rfl
theorem exec_shri : exec (.shri n e) s = immExec n e .shri (fun i a => a >>> shiftAmt i) s := rfl
theorem exec_srai : exec (.srai n e) s = immExec n e .srai (fun i a => a.sshiftRight (shiftAmt i)) s := rfl
theorem exec_shori : exec (.shori n e) s = immExec n e .shori (fun i a => (a <<< 16) ||| zimm i) s := rfl

end

/-- The model's function of each instruction with an immediate is the statement's, for every decoded instruction of its kind. -/
theorem exec_immCommand : ∀ op ∈ immCommands, ∃ f : RcIns → W64 → W64, (∀ (n : Fin 273) (e : Ecc) (s : State), exec (op.2 n e) s = immExec n e op.1.1 f s) ∧
    ∀ i a, i.Legal → i.kind = op.1.1 → f i a = op.1.2 a i.imm := by
  have hshift : ∀ i : RcIns, i.Legal → i.kind.isShift = true → shiftAmt i = i.imm.toNat := fun i h hk => Nat.mod_eq_of_lt (h.shift hk)
  simp only [immCommands, List.forall_mem_cons, List.not_mem_nil, false_imp_iff, implies_true, and_true]
  refine ⟨⟨_, exec_addi, fun _ _ _ _ => rfl⟩,
    ⟨_, exec_andi, fun _ _ _ _ => rfl⟩,
    ⟨_, exec_ori, fun _ _ _ _ => rfl⟩,
    ⟨_, exec_xori, fun _ _ _ _ => rfl⟩,
    ⟨_, exec_slti, fun i a _ _ => ?_⟩,
    ⟨_, exec_sltiu, fun i a _ _ => ?_⟩,
    ⟨_, exec_shli, fun i a h hk => ?_⟩,
    ⟨_, exec_shri, fun i a h hk => ?_⟩,
    ⟨_, exec_srai, fun i a h hk => ?_⟩,
    ⟨_, exec_shori, fun _ _ _ _ => rfl⟩⟩
  · exact ite_congr (propext (decide_eq_true_iff (p := a.toInt < (simm i).toInt)).symm) (fun _ => rfl) (fun _ => rfl)
  · exact ite_congr (propext (decide_eq_true_iff (p := a.toNat < (simm i).toNat)).symm) (fun _ => rfl) (fun _ => rfl)
  all_goals simp only [hshift i h (by rw [hk]; rfl)]

theorem exec_mfs (n : Fin 273) (e : Ecc) (s : State) : exec (.mfs n e) s = coreDone s (s.dev.rcMfs n e) := rfl

theorem mem_intCommands : ∀ o < 0x100, opDefined o = true → o ∈ intCommands.map (·.1) := by decide +kernel

/-- The integer word computes the two's complement result of its operation. -/
theorem rcInt_value {i : RcIns} (hl : intLegal i.fn i.rb = true) (a b : Nat) :
    (BitVec.ofNat 64 (intRes (i.fn % 256) (i.fn / 512) (i.fn.testBit 8) a b).pay, (intRes (i.fn % 256) (i.fn / 512) (i.fn.testBit 8) a b).fl) =
      intSpec (i.fn % 256) (i.fn / 512) a b := by
  obtain ⟨⟨⟨ho, hdef⟩, -⟩, hty⟩ : ((i.fn % 256 < 0x100 ∧ opDefined (i.fn % 256) = true) ∧ _) ∧ i.fn / 512 ∈ opTypes (i.fn % 256) := by
    simpa only [intLegal, Bool.and_eq_true, decide_eq_true_eq, List.contains_iff_mem] using hl
  have hmem := mem_intCommands _ ho hdef
  simp only [intRes, intOp_eq_intSpec hmem hty, BitVec.ofNat_toNat, BitVec.setWidth_eq]

theorem special_fatal (d : Dev) (n num : Nat) : (d.special n num).2.stew.fatal = d.stew.fatal := by
  unfold Dev.special
  extract_lets r
  split
  · exact modCore_fatal ..
  · rfl
  · rfl
  · split <;> rfl
  · rfl

/-! A core's registers after an instruction. -/

theorem core_modCore {d : Dev} (hw : mwf {} d.tiles = true) (n : Nat) (f : Runner → Runner) : (d.modCore n f).core n = f (d.core n) := by
  by_cases h : n = stewCore
  · simp only [Dev.modCore, Dev.core, h, if_true, Dev.modStew]
  · simp only [Dev.modCore, Dev.core, h, if_false, Dev.modRunner, Dev.modTile, tile_setTile hw]

theorem get_set {r : Runner} (hw : mwf 0 r.g = true) (rd : Nat) (v : W64) (j : Nat) :
    (r.set rd v).get j = if j = rd ∧ j ≠ 0 then v else r.get j := by
  by_cases hj : j = 0
  · simp only [Runner.get, hj, if_true, ne_eq, not_true_eq_false, and_false, if_false]
  by_cases hrd : j = rd
  · subst hrd
    simp only [Runner.get, Runner.set, hj, if_false, ne_eq, not_false_eq_true, and_self, if_true, mget_mset_same hw]
  · by_cases h0 : rd = 0
    · simp only [Runner.set, h0, if_true, hj, false_and, if_false]
    · simp only [Runner.get, Runner.set, hj, h0, hrd, if_false, false_and, mget_mset_other hw v hrd]

theorem get_withPc (r : Runner) (n j : Nat) : ({ r with pc := n } : Runner).get j = r.get j := rfl

theorem set_keeps (r : Runner) (rd : Nat) (v : W64) : (r.set rd v).pc = r.pc ∧ { r.set rd v with pc := r.pc, g := r.g } = r := by
  by_cases h : rd = 0 <;> simp only [Runner.set, h, if_true, if_false, and_self]

/-- Settles O34: each instruction is one update of its core, and the update's registers read back. -/
theorem coreRegisterInstructions : Obligations.CoreRegisterInstructions := by
  refine ⟨fun op hop n e s i h hk => ?_, fun n e s i h => ?_, fun d n rd v hw hg => ?_⟩
  · obtain ⟨f, hf, hv⟩ := exec_immCommand op hop
    rw [hf]
    exact coreDone_immExec h hk (hv _ _ (legal_of_executes h) hk)
  · refine ⟨fun hk => ?_, fun hk => ?_, fun hk => ?_, fun hk => ?_⟩
    · intro v
      have hv := rcInt_value ((legal_of_executes h).int hk).1 ((s.dev.core n).get i.ra).toNat ((s.dev.core n).get i.rb).toNat
      exact coreDone_rcNext h hk (congrArg (fun v : W64 × BitVec 5 => (s.dev.awake n e).rcNext n (fun x => { x.set i.rd v.1 with fflags := x.fflags ||| v.2 })) hv)
    · exact coreDone_rcNext h hk rfl
    · intro v
      rw [exec_mfs, Dev.rcMfs, rcStep_executes h hk, coreDone_eq]
      rw [rcNext_fatal, special_fatal, awake_fatal_none h]
    · exact coreDone_rcNext h hk rfl
  · intro r
    have hr : r = { (d.core n).set rd v with pc := ((d.core n).set rd v).pc + 1 } := core_modCore hw n _
    obtain ⟨hpc, hrest⟩ := set_keeps (d.core n) rd v
    rw [hr]
    refine ⟨congrArg (· + 1) hpc, fun j => ?_, hrest⟩
    rw [get_withPc, get_set hg]

end Sys2Proof.Machine

/-! ### What a core's fetch leaves unchanged, and accesses that do not trap -/

namespace Sys2Proof.Machine

/-! A fetch of an instruction changes one counter of the core's tile, and the Steward's sleep. -/

theorem regReset_spmCe : ∀ (g : Fin 16) (t : Fin 17), regReset (spmReg g t 8) = 0 := by decide +kernel

/-- Not the counter of corrected errors of a tile's banks. -/
def notCeReg (b : Nat) : Prop := ∀ (g : Fin 16) (t : Fin 17), b ≠ spmReg g t 8

theorem notCeReg_rgn {g o : Nat} (ho : o < 0x100) : notCeReg (rgnReg g o) := fun g' t => by
  rw [spmReg]
  exact tileAddr_ne_rgnReg g' t (by omega) ho

theorem notCeReg_sec {o w : Nat} (ho : o < 0x100) : notCeReg (banked (secReg o) w) := fun g t => by
  simp only [banked, secReg, hubBase, spmReg, tileAddr, regionAddr, configBase]
  omega

theorem notCeReg_secHi {o w : Nat} (ho : o < 0x100) : notCeReg (banked (secReg o) w + 4) := fun g t => by
  simp only [banked, secReg, hubBase, spmReg, tileAddr, regionAddr, configBase]
  omega

theorem notCeReg_noc {g o : Nat} (hg : g < 16) (ho : o < 0x100) : notCeReg (nocReg (g / 4) o) := fun g' t => by
  simp only [nocReg, show ¬ g / 4 = 4 by omega, if_false, spmReg, tileAddr, regionAddr, configBase]
  omega

section Fetch
variable {d : Dev} {e : Ecc} {i : RcIns}

/-- Of a word that is fetched, a corrected error is counted, and nothing else is noted. -/
theorem fetchNote_word {n : Nat} (h : d.rcFetch n e = .word) :
    d.fetchNote n e = d ∨ n ≠ stewCore ∧ d.fetchNote n e = d.addSat16 (spmR n 8) 1 := by
  unfold Dev.fetchNote
  split
  · exact .inl rfl
  · next hn =>
    rw [h]
    by_cases he : e = .ce
    · exact .inr ⟨fun hc => hn (.inl hc), if_pos he⟩
    · exact .inl (if_neg he)

/-- What the awakening of the Steward leaves of a device. -/
theorem awake_eq (d : Dev) (n : Nat) (e : Ecc) : d.awake n e = d.fetchNote n e ∨
    n = stewCore ∧ d.awake n e = (d.fetchNote n e).modStew (fun s => { s with wfi := false }) := by
  unfold Dev.awake
  extract_lets d1
  by_cases hn : n = stewCore
  · exact .inr ⟨hn, if_pos hn⟩
  · exact .inl (if_neg hn)

variable {n : Fin 273} (h : d.executes n e i)
include h

theorem awake_reg {b : Nat} (hb : notCeReg b) : (d.awake n e).reg b = d.reg b := by
  have hfetch : (d.fetchNote n e).reg b = d.reg b := by
    obtain hw | ⟨hn, hw⟩ := fetchNote_word h.2.2.1
    · rw [hw]
    · have hlt : n.val < 272 := by
        have := n.isLt
        rw [stewCore] at hn
        omega
      rw [hw, Dev.addSat16, spmR]
      exact reg_setFld_any (regReset_spmCe ⟨n / 17, by omega⟩ ⟨n % 17, by omega⟩) (by omega) (by omega) (by omega) (hb ⟨n / 17, by omega⟩ ⟨n % 17, by omega⟩)
  obtain hw | ⟨-, hw⟩ := awake_eq d n e
  · rw [hw, hfetch]
  · rw [hw]
    exact hfetch

theorem awake_tile (k : Nat) : (d.awake n e).tile k = d.tile k := by
  have hfetch : (d.fetchNote n e).tile k = d.tile k := by
    obtain hw | ⟨-, hw⟩ := fetchNote_word h.2.2.1
    · rw [hw]
    · rw [hw, addSat16_tile]
  obtain hw | ⟨-, hw⟩ := awake_eq d n e
  · rw [hw, hfetch]
  · rw [hw]
    exact hfetch

theorem awake_graphs : (d.awake n e).graphs = d.graphs := by
  have hfetch : (d.fetchNote n e).graphs = d.graphs := by
    obtain hw | ⟨-, hw⟩ := fetchNote_word h.2.2.1
    · rw [hw]
    · rw [hw, Dev.addSat16, Dev.setFld_graphs]
  obtain hw | ⟨-, hw⟩ := awake_eq d n e
  · rw [hw, hfetch]
  · rw [hw]
    exact hfetch

theorem awake_core : (d.awake n e).core n = d.core n := by
  unfold Dev.core
  rw [awake_tile h]
  congr 1
  obtain hw | ⟨-, hw⟩ := awake_eq d n e
  · rw [hw, fetchNote_stew]
  · rw [hw]
    show (d.fetchNote n e).stew.core = d.stew.core
    rw [fetchNote_stew]

/-! So the tests of an address come out as before the fetch. -/

theorem awake_tileOfCluster (c : Nat) : (d.awake n e).tileOfCluster c = d.tileOfCluster c := by
  rw [Dev.tileOfCluster, tileOf_eq_of_reg (fun o ho => awake_reg h (notCeReg_rgn ho)) (by omega), Dev.tileOfCluster]

theorem awake_rcCluster (k : Nat) : (d.awake n e).rcCluster k = d.rcCluster k := by
  rw [Dev.rcCluster, Dev.clusterOf, logicalOf_eq_of_reg (fun o ho => awake_reg h (notCeReg_rgn ho)), Dev.rcCluster, Dev.clusterOf]

theorem awake_isoTiles {g : Nat} (hg : g < 16) : (d.awake n e).isoTiles g = d.isoTiles g := by
  simp only [Dev.isoTiles, Dev.rbit, awake_reg h (notCeReg_noc hg (show 0x28 + 4 * (g % 4) < 0x100 by omega))]

theorem awake_windowPerm (a : Nat) : (d.awake n e).windowPerm a = d.windowPerm a := by
  have hpair : ∀ o < 0x100, ∀ w, (d.awake n e).pair (banked (secReg o) w) = d.pair (banked (secReg o) w) := fun o ho w => by
    rw [Dev.pair, awake_reg h (notCeReg_sec ho), awake_reg h (notCeReg_secHi ho), Dev.pair]
  have hctl : ∀ w, (d.awake n e).reg (banked (secReg 0x24) w) = d.reg (banked (secReg 0x24) w) := fun w => awake_reg h (notCeReg_sec (by omega))
  have hfld : (fun w => (d.awake n e).rfld (banked (secReg 0x24) w) 7 0) = fun w => d.rfld (banked (secReg 0x24) w) 7 0 := funext fun w => by
    rw [Dev.rfld, hctl, Dev.rfld]
  rw [Dev.windowPerm, Dev.windowPerm, hfld]
  refine congrArg _ (find?_congr_of_mem fun w _ => ?_)
  rw [Dev.rbit, hctl, hpair _ (by omega), hpair _ (by omega), Dev.rbit]

theorem awake_permits (a : Nat) (bits : List Nat) : (d.awake n e).permits a bits = d.permits a bits := by
  rw [Dev.permits, awake_windowPerm h, Dev.permits]

theorem awake_graphBits (g : Nat) (rd wr : Bool) : (d.awake n e).graphBits g rd wr = d.graphBits g rd wr := by
  rw [Dev.graphBits, Dev.graph, awake_graphs h, Dev.graphBits, Dev.graph]

theorem awake_rcGraph : (d.awake n e).rcGraph n = d.rcGraph n := by
  rw [Dev.rcGraph, awake_core h, Dev.rcGraph]

theorem awake_rcTest (a w op : Nat) : (d.awake n e).rcTest n a w op = d.rcTest n a w op := by
  simp only [Dev.rcTest, Dev.accessError, awake_permits h, awake_graphBits h, awake_rcGraph h]

theorem awake_acts (a : Nat) : (d.awake n e).acts n a = d.acts n a := by
  simp only [Dev.acts, Dev.ownBankB, awake_rcCluster h]

end Fetch

/-! No access traps fatally: what it changes of the Steward is at most its core. -/

theorem modTile_stew (d : Dev) (k : Nat) (f : Tile → Tile) : (d.modTile k f).stew = d.stew := rfl
theorem sendMgmt_stew (d : Dev) (src : Node) (dst : Dest) (m : Mgmt) : (d.sendMgmt src dst m).stew = d.stew := rfl
theorem sendToken_stew (d : Dev) (src : Node) (t : Token) : (d.sendToken src t).stew = d.stew := rfl
theorem faultCtx_stew (d : Dev) (src : Node) (c : BitVec 22) : (d.faultCtx src c).stew = d.stew := rfl
theorem request_stew (d : Dev) (src : Node) (dst : Dest) (log : Bool) (r : MemReq) : (d.request src dst log r).stew = d.stew := rfl
theorem writeLe_stew (d : Dev) (a n v : Nat) : (d.writeLe a n v).stew = d.stew := rfl

theorem access_stew (d : Dev) (src : Node) (tl cls who : Nat) (r : MemReq) : (d.access src tl cls who r).stew = d.stew := by
  unfold Dev.access
  extract_lets a c
  split
  · split <;> rfl
  · rfl

theorem noteWrite_stew (d : Dev) (a : Nat) : (d.noteWrite a).stew = d.stew := by
  unfold Dev.noteWrite
  extract_lets tl s
  split
  · split <;> rfl
  · rfl

theorem nodeWrite_stew (d : Dev) (c slot w : Nat) (v : W32) : (d.nodeWrite c slot w v).stew = d.stew := by
  unfold Dev.nodeWrite
  extract_lets k hs word d1
  have hword : ∀ (d : Dev) j, (word d j).stew = d.stew := fun d j => by
    dsimp only [word]
    split <;> rfl
  split
  · rfl
  · rw [modTile_stew]
    dsimp only [d1]
    rw [writeLe_stew, hword, hword, hword]

theorem nodeStore_stew (d : Dev) (a w v : Nat) : (d.nodeStore a w v).stew = d.stew := by
  unfold Dev.nodeStore
  extract_lets c o put old
  have hput : ∀ (d : Dev) o v, (put d o v).stew = d.stew := fun d o v => nodeWrite_stew ..
  split
  · rw [hput, hput]
  split
  · exact hput ..
  · exact hput ..

theorem rcSend_fatal (d : Dev) (n : Nat) (i : RcIns) (a w op v : Nat) (sext : Bool) : (d.rcSend n i a w op v sext).stew.fatal = d.stew.fatal := by
  have hsent : ∀ q, ((d.access (rcNode n) n (rcClass a) 8 q).nextRtag n).stew.fatal = d.stew.fatal := fun q => by
    rw [Dev.nextRtag, modCore_fatal, access_stew]
  unfold Dev.rcSend
  extract_lets q tag d1
  split
  · exact (rcNext_fatal ..).trans (hsent q)
  · exact (modCore_fatal ..).trans (hsent q)

theorem rcLock_fatal (d : Dev) (n : Nat) (i : RcIns) (x op v : Nat) : (d.rcLock n i x op v).stew.fatal = d.stew.fatal := by
  rw [Dev.rcLock, modCore_fatal, Dev.nextRtag, modCore_fatal, request_stew]

theorem setPair_stew (d : Dev) (a v : Nat) : (d.setPair a v).stew = d.stew := rfl

theorem toFlowHome_stew (d : Dev) (tl : Nat) (fl : BitVec 20) (m : Mgmt) : (d.toFlowHome tl fl m).stew = d.stew := by
  rw [Dev.toFlowHome, Dev.send_stew]

theorem releaseFlow_stew (d : Dev) (tl : Nat) (fl : BitVec 20) : (d.releaseFlow tl fl).stew = d.stew := by
  unfold Dev.releaseFlow
  split
  · rfl
  · exact toFlowHome_stew ..

theorem rcEnd_fatal (d : Dev) (n : Nat) (it : Item) : (d.rcEnd n it).stew.fatal = d.stew.fatal := by
  rw [Dev.rcEnd]
  exact (congrArg Steward.fatal (releaseFlow_stew ..)).trans (modCore_fatal ..)

theorem rcReturn_fatal (d : Dev) (n : Nat) (it : Item) : (d.rcReturn n it).stew.fatal = d.stew.fatal := by
  unfold Dev.rcReturn
  extract_lets r
  split
  · exact rcEnd_fatal ..
  · exact modCore_fatal ..

theorem rcFlags_stew (d : Dev) (n : Nat) (it : Item) : (d.rcFlags n it).stew = d.stew := by
  unfold Dev.rcFlags
  extract_lets fl c
  split
  · rfl
  · exact sendMgmt_stew ..

theorem firingFault_fatal (d : Dev) (n cause addr : Nat) : (d.firingFault n cause addr).stew.fatal = d.stew.fatal := by
  unfold Dev.firingFault
  split
  · rfl
  · next it _ =>
    extract_lets pc x
    split
    rw [rcReturn_fatal]
    have hx : x.stew = d.stew := rcFlags_stew d n it
    clear_value x
    split
    · rw [setPair_stew, Dev.setReg_stew, Dev.setBit_stew, faultCtx_stew, sendToken_stew, hx]
    · rw [Dev.setReg_stew, Dev.setBit_stew, faultCtx_stew, sendToken_stew, hx]

end Sys2Proof.Machine

/-! ### O35: loads, stores, atomics and lock accesses of the cores -/

namespace Sys2Proof.Machine

/-! The commands. -/

theorem exec_loadCommand : ∀ op ∈ loadCommands, ∀ (n : Fin 273) (e x : Ecc) (s : State),
    exec (op.2 n e x) s = memExec n e x op.1.1 0 op.1.2.1 op.1.2.2 s := by
  simp only [loadCommands, List.forall_mem_cons, List.not_mem_nil, false_imp_iff, implies_true, and_true]
  exact ⟨fun _ _ _ _ => rfl, fun _ _ _ _ => rfl, fun _ _ _ _ => rfl, fun _ _ _ _ => rfl, fun _ _ _ _ => rfl, fun _ _ _ _ => rfl, fun _ _ _ _ => rfl⟩

/-- A store of a word or wider has no stored data to read, so no error of its reading counts. -/
theorem exec_storeCommand : ∀ op ∈ storeCommands, ∀ (n : Fin 273) (e x : Ecc) (s : State),
    (exec (op.2 n e x) s = memExec n e x op.1.1 1 op.1.2 false s ∨ exec (op.2 n e x) s = memExec n e .ok op.1.1 1 op.1.2 false s) ∧
    exec (op.2 n e .ok) s = memExec n e .ok op.1.1 1 op.1.2 false s := by
  simp only [storeCommands, List.forall_mem_cons, List.not_mem_nil, false_imp_iff, implies_true, and_true]
  exact ⟨fun _ _ _ _ => ⟨.inr rfl, rfl⟩, fun _ _ _ _ => ⟨.inr rfl, rfl⟩, fun _ _ _ _ => ⟨.inl rfl, rfl⟩, fun _ _ _ _ => ⟨.inl rfl, rfl⟩⟩

theorem exec_atomicCommand : ∀ op ∈ atomicCommands, ∀ (n : Fin 273) (e x : Ecc) (s : State),
    exec (op.2 n e x) s = memExec n e x op.1.1 op.1.2 8 false s := by
  simp only [atomicCommands, List.forall_mem_cons, List.not_mem_nil, false_imp_iff, implies_true, and_true]
  exact ⟨fun _ _ _ _ => rfl, fun _ _ _ _ => rfl⟩

theorem exec_rcLockrel (n : Fin 273) (e : Ecc) (s : State) : exec (.rcLockrel n e) s = coreDone s (s.dev.rcLockRel n e) := rfl

/-- The widths of R279. -/
theorem load_width : ∀ op ∈ loadCommands, op.1.2.1 ∈ [1, 2, 4, 8] := by decide
theorem store_width : ∀ op ∈ storeCommands, op.1.2 ∈ [1, 2, 4, 8] := by decide
theorem atomic_op : ∀ op ∈ atomicCommands, op.1.2 = 2 ∨ op.1.2 = 3 := by decide

theorem accessBytes_sizeCode {w : Nat} (h : w ∈ [1, 2, 4, 8]) : accessBytes (sizeCode w) = w := by
  revert w
  decide

/-- A register's extension takes only the access's own bytes. -/
theorem extend_ofNat {w : Nat} (h : w ∈ [1, 2, 4, 8]) (v : Nat) (sext : Bool) : extend w (BitVec.ofNat 64 v).toNat sext = extend w v sext := by
  have hw : 8 * w ≤ 64 := by
    revert w
    decide
  simp only [extend, BitVec.toNat_ofNat, Nat.mod_mod_of_dvd _ (Nat.pow_dvd_pow 2 hw)]

theorem rcFault_runner (d : Dev) {n : Nat} (hn : n < stewCore) (cause addr : Nat) : d.rcFault n cause addr = d.firingFault n cause addr :=
  if_neg (Nat.ne_of_lt hn)

/-! An access by the test of its address. -/

section Access
variable {d : Dev} {f : Fuses} {n : Fin 273} {e x : Ecc} {i : RcIns} {k : RcKind} {op w w' a v : Nat} {sext : Bool} (h : d.executes n e i) (hk : i.kind = k)
  (hw' : (if 2 ≤ op then (if i.fn.testBit 0 then 4 else 8) else w) = w')
  (ha : (if 2 ≤ op then (d.core n).get i.ra else (d.core n).get i.ra + simm i).toNat = a)
include h hk hw' ha

theorem rcMem_misaligned (hm : a % w' ≠ 0) (hn : n.val < stewCore) : d.rcMem f n e x k op w sext = (d.awake n e).firingFault n 7 a := by
  have ht : (d.awake n e).rcTest n a w' op = some 7 := if_pos hm
  simp only [Dev.rcMem, rcStep_executes h hk, hw', ha, ht]
  exact rcFault_runner _ hn ..

variable (hv : (if op = 1 then ((d.core n).get i.rd).toNat else ((d.core n).get i.rb).toNat) = v) (ht : d.rcTest n a w' op = none)
include hv ht

theorem rcMem_lock (hlo : lockBase ≤ a) (hhi : a < lockEnd) : d.rcMem f n e x k op w sext = (d.awake n e).rcLock n i (lockWord a) 4 0 := by
  simp only [Dev.rcMem, rcStep_executes h hk, hw', ha, hv, awake_rcTest h, ht, hlo, hhi, and_self, if_true]

variable (hl : a < lockBase ∨ lockEnd ≤ a)
include hl

theorem rcMem_send (hact : d.acts n a = false) : d.rcMem f n e x k op w sext = (d.awake n e).rcSend n i a w' op v sext := by
  have hl' : ¬ (lockBase ≤ a ∧ a < lockEnd) := by omega
  simp only [Dev.rcMem, rcStep_executes h hk, hw', ha, hv, awake_rcTest h, ht, hl', awake_acts h, hact, if_false, Bool.not_false, if_true]

/-- An access that acts at once and neither waits nor fails. -/
theorem rcMem_sync {y : Acc} (hact : d.acts n a = true) (hcfg : isConfig a = false) (hy : (d.awake n e).memSync f n a w' op v x = y)
    (hstall : y.stall = false) (hc : y.cause = 0) :
    d.rcMem f n e x k op w sext = y.d.rcNext n (fun r => if op = 1 then r else r.set i.rd (extend w' y.v sext)) := by
  have hl' : ¬ (lockBase ≤ a ∧ a < lockEnd) := by omega
  simp only [Dev.rcMem, rcStep_executes h hk, hw', ha, hv, awake_rcTest h, ht, hl', awake_acts h, hact, hcfg, hy, hstall, hc, if_false, Bool.not_true, Bool.false_eq_true,
    Bool.false_and, ne_eq, not_true_eq_false]

end Access

/-! The own bank B, when it is on. -/

section BankB
variable {d : Dev} {n a : Nat} (hb : d.bankBReady n a)
include hb

theorem bankB_range : spmBase ≤ a ∧ a < spmEnd := by
  obtain ⟨-, -, -, hspm, -⟩ := hb
  simpa only [isSpm, decide_eq_true_eq] using hspm

theorem bankB_acts : d.acts n a = true := by
  obtain ⟨hn, hlo, hhi, -⟩ := hb
  have hne : (n != stewCore) = true := bne_iff_ne.2 (Nat.ne_of_lt hn)
  have hhi' : a < bankAddr (d.rcCluster n) 1 0 + 0x40000 := by simpa only [bankAddr, Nat.add_zero] using hhi
  simp only [Dev.acts, Dev.ownBankB, hne, hlo, hhi', and_self, decide_true, Bool.and_self, Bool.or_true, Bool.true_or]

theorem bankB_notConfig : isConfig a = false := by
  have := bankB_range hb
  simp only [spmBase, spmEnd] at this
  rw [Bool.eq_false_iff]
  simp only [isConfig, ne_eq, Bool.or_eq_true, decide_eq_true_eq]
  simp only [configBase, bakBase, lockBase]
  omega

theorem bankB_notLock : a < lockBase ∨ lockEnd ≤ a := by
  have := bankB_range hb
  simp only [lockBase, spmEnd] at this ⊢
  omega

/-- The bank serves the access in this cycle. -/
theorem memSync_bankB (f : Fuses) {w op v : Nat} (r : MemReq)
    (hr : r = { op := BitVec.ofNat 4 op, size := sizeCode w, addr := BitVec.ofNat 48 a, operand := BitVec.ofNat 64 v }) :
    d.memSync f n a w op v .ok =
      { d := if r.op = 0 then (d.memAccess r).1 else (d.memAccess r).1.noteWrite a, v := (d.memAccess r).2.result.toNat } := by
  subst hr
  have hrange := bankB_range hb
  have hown : d.ownBankB n a = true := by
    obtain ⟨hn, hlo, hhi, -⟩ := hb
    have hhi' : a < bankAddr (d.rcCluster n) 1 0 + 0x40000 := by simpa only [bankAddr, Nat.add_zero] using hhi
    simp only [Dev.ownBankB, hlo, hhi', and_self, decide_true, Bool.and_true, bne_iff_ne]
    exact Nat.ne_of_lt hn
  obtain ⟨hn, hlo, hhi, hspm, htile, hiso, hst, htg, hsec⟩ := hb
  have haddr : (BitVec.ofNat 48 a).toNat = a := by
    rw [BitVec.toNat_ofNat, Nat.mod_eq_of_lt]
    simp only [spmEnd] at hrange
    omega
  have hbank : a / 0x40000 % 4 = 1 := by
    simp only [bankAddr, spmBase] at hlo hhi
    omega
  have hhbm : ¬ a < hbmSize := by
    simp only [hbmSize, spmBase] at hrange ⊢
    omega
  have hwaits : d.bankWaits n a true = false := by
    simp only [Dev.bankWaits, bankOf, hbank, htg, hsec, Bool.not_true, Bool.false_and, Bool.or_false]
    rfl
  simp only [Dev.memSync, if_neg hhbm, hspm, if_true, if_neg (Nat.ne_of_lt hn), Dev.spmSync, haddr, htile, hiso, hbank, hst, htg, hown, hwaits, bne_self_eq_false, Bool.false_and,
    Bool.false_eq_true, if_false, ne_eq, not_true_eq_false, false_and, Option.any_none, or_self, reduceCtorEq, decide_false]

end BankB

theorem awake_bankBReady {d : Dev} {n : Fin 273} {e : Ecc} {i : RcIns} (h : d.executes n e i) {a : Nat} (hb : d.bankBReady n a) : (d.awake n e).bankBReady n a := by
  have hn : n.val / 17 < 16 := by
    have := hb.1
    simp only [stewCore] at this
    omega
  simpa only [Dev.bankBReady, awake_rcCluster h, awake_tileOfCluster h, awake_isoTiles h hn, Dev.bank, awake_tile h] using hb


/-! Accesses that always act at once: node memory, and the Steward's own memories. -/

section AtOnce
variable {d : Dev} {f : Fuses} {n a w op v : Nat} {x : Ecc}

theorem node_range (hn : isNode a = true) : nodeBase ≤ a ∧ a < nodeEnd := by
  simpa only [isNode, decide_eq_true_eq] using hn

theorem node_notLock (hn : isNode a = true) : a < lockBase ∨ lockEnd ≤ a := by
  have := node_range hn
  simp only [nodeEnd, lockBase] at this ⊢
  omega

theorem node_notConfig (hn : isNode a = true) : isConfig a = false := by
  have := node_range hn
  simp only [nodeBase, nodeEnd] at this
  rw [Bool.eq_false_iff]
  simp only [isConfig, ne_eq, Bool.or_eq_true, decide_eq_true_eq]
  simp only [configBase, bakBase, lockBase]
  omega

theorem node_notMemory (hn : isNode a = true) : ¬ a < hbmSize ∧ isSpm a = false := by
  have := node_range hn
  simp only [nodeBase, nodeEnd] at this
  rw [Bool.eq_false_iff]
  simp only [isSpm, ne_eq, decide_eq_true_eq]
  simp only [hbmSize, spmBase, spmEnd]
  omega

theorem memSync_node_load (hn : isNode a = true) (hx : isUe x = false) : d.memSync f n a w 0 v x = { d := d, v := d.readLe a w } := by
  obtain ⟨h1, h2⟩ := node_notMemory hn
  simp only [Dev.memSync, h1, h2, hn, hx, if_false, if_true, Bool.false_eq_true, Nat.zero_ne_one]

theorem memSync_node_store (hn : isNode a = true) : d.memSync f n a w 1 v x = { d := d.nodeStore a w v } := by
  obtain ⟨h1, h2⟩ := node_notMemory hn
  simp only [Dev.memSync, h1, h2, hn, if_false, if_true, Bool.false_eq_true]

theorem local_range (hl : isLocal a = true) : (romBase ≤ a ∧ a < romBase + 0x40000) ∨ (sramBase ≤ a ∧ a < sramBase + 0x800000) := by
  simpa only [isLocal, Bool.or_eq_true, decide_eq_true_eq] using hl

/-- The Steward's own memories lie outside every other range. -/
theorem local_outside (hl : isLocal a = true) :
    (¬ a < hbmSize ∧ isSpm a = false ∧ isNode a = false) ∧ isConfig a = false ∧ (a < lockBase ∨ lockEnd ≤ a) ∧ ¬ (0x4003000000 ≤ a ∧ a < 0x4003010000) := by
  have := local_range hl
  simp only [romBase, sramBase] at this
  rw [Bool.eq_false_iff, Bool.eq_false_iff, Bool.eq_false_iff]
  simp only [isSpm, isNode, isConfig, ne_eq, Bool.or_eq_true, decide_eq_true_eq]
  simp only [hbmSize, spmBase, spmEnd, nodeBase, nodeEnd, configBase, bakBase, lockBase, lockEnd]
  omega

theorem memSync_local_load (hl : isLocal a = true) (hx : isUe x = false) : d.memSync f n a w 0 v x = { d := d, v := d.readLe a w } := by
  obtain ⟨⟨h1, h2, h3⟩, h4, -, h5⟩ := local_outside hl
  simp only [Dev.memSync, h1, h2, h3, h4, h5, hl, hx, if_false, if_true, Bool.false_eq_true, Bool.not_true]

theorem memSync_sram_store (hlo : sramBase ≤ a) (hhi : a < sramBase + 0x800000) : d.memSync f n a w 1 v x = { d := d.writeLe a w v } := by
  have hl : isLocal a = true := by simp only [isLocal, hlo, hhi, and_self, decide_true, Bool.or_true]
  obtain ⟨⟨h1, h2, h3⟩, h4, -⟩ := local_outside hl
  simp only [Dev.memSync, h1, h2, h3, h4, hlo, hhi, and_self, if_false, if_true, Bool.false_eq_true, Nat.one_ne_zero]

theorem memSync_unmapped_load (h1 : hbmSize ≤ a) (h2 : isSpm a = false) (h3 : isNode a = false) (h4 : isConfig a = false) (h5 : isLocal a = false)
    (h6 : a < 0x4003000000 ∨ 0x4003010000 ≤ a) : d.memSync f n a w 0 v x = { d := d } := by
  have h6' : ¬ (0x4003000000 ≤ a ∧ a < 0x4003010000) := by omega
  simp only [Dev.memSync, Nat.not_lt.2 h1, h2, h3, h4, h5, h6', if_false, if_true, Bool.false_eq_true, Bool.not_false]

end AtOnce

theorem acts_node {d : Dev} {n a : Nat} (hn : isNode a = true) : d.acts n a = true := by
  simp only [Dev.acts, hn, Bool.true_or]

theorem acts_steward {d : Dev} {n a : Nat} (hn : n = stewCore) (h1 : ¬ a < hbmSize) (h2 : isSpm a = false) : d.acts n a = true := by
  subst hn
  simp only [Dev.acts, h1, h2, decide_false, Bool.or_self, Bool.not_false, beq_self_eq_true, Bool.and_self, Bool.or_true]

/-! The access at each place, as the statement has it. -/

section Load
variable {s : State} {n : Fin 273} {e x : Ecc} {i : RcIns} {k : RcKind} {w : Nat} {sext : Bool} (h : s.dev.executes n e i) (hk : i.kind = k)
  {a : Nat} (ha : ((s.dev.core n).get i.ra + i.imm.signExtend 64).toNat = a)
include h hk ha

theorem memExec_load_misaligned (hm : a % w ≠ 0) (hn : n.val < stewCore) :
    memExec n e x k 0 w sext s = .next (s.put ((s.dev.awake n e).firingFault n 7 a)) := by
  rw [memExec, rcMem_misaligned (op := 0) h hk rfl ha hm hn, coreDone_eq]
  rw [firingFault_fatal, awake_fatal_none h]

variable (ht : s.dev.rcTest n a w 0 = none)
include ht

theorem memExec_load_lock (hlo : lockBase ≤ a) (hhi : a < lockEnd) :
    memExec n e x k 0 w sext s = .next (s.put ((s.dev.awake n e).rcLock n i (lockWord a) 4 0)) := by
  rw [memExec, rcMem_lock (op := 0) h hk rfl ha rfl ht hlo hhi, coreDone_eq]
  rw [rcLock_fatal, awake_fatal_none h]

theorem memExec_load_send (hl : a < lockBase ∨ lockEnd ≤ a) (hact : s.dev.acts n a = false) :
    memExec n e x k 0 w sext s = .next (s.put ((s.dev.awake n e).rcSend n i a w 0 ((s.dev.core n).get i.rb).toNat sext)) := by
  rw [memExec, rcMem_send (op := 0) h hk rfl ha rfl ht hl hact, coreDone_eq]
  · rfl
  · rw [rcSend_fatal, awake_fatal_none h]

/-- A load that acts at once writes its value to rd. -/
theorem memExec_load_sync {v : Nat} (hl : a < lockBase ∨ lockEnd ≤ a) (hact : s.dev.acts n a = true) (hcfg : isConfig a = false)
    (hy : ∃ b, (s.dev.awake n e).memSync s.fuses n a w 0 ((s.dev.core n).get i.rb).toNat x = { d := s.dev.awake n e, v := b } ∧ extend w b sext = extend w v sext) :
    memExec n e x k 0 w sext s = .next (s.put ((s.dev.awake n e).rcNext n (fun y => y.set i.rd (extend w v sext)))) := by
  obtain ⟨b, hy, hb⟩ := hy
  rw [memExec, rcMem_sync (op := 0) h hk rfl ha rfl ht hl hact hcfg hy rfl rfl, coreDone_eq]
  · simp only [if_neg Nat.zero_ne_one, if_neg (show ¬ 2 ≤ 0 by decide), hb]
  · rw [rcNext_fatal, awake_fatal_none h]

end Load

section Store
variable {s : State} {n : Fin 273} {e x : Ecc} {i : RcIns} {k : RcKind} {w : Nat} (h : s.dev.executes n e i) (hk : i.kind = k)
  {a : Nat} (ha : ((s.dev.core n).get i.ra + i.imm.signExtend 64).toNat = a)
include h hk ha

theorem memExec_store_misaligned (hm : a % w ≠ 0) (hn : n.val < stewCore) :
    memExec n e x k 1 w false s = .next (s.put ((s.dev.awake n e).firingFault n 7 a)) := by
  rw [memExec, rcMem_misaligned (op := 1) h hk rfl ha hm hn, coreDone_eq]
  rw [firingFault_fatal, awake_fatal_none h]

variable (ht : s.dev.rcTest n a w 1 = none) (hl : a < lockBase ∨ lockEnd ≤ a)
include ht hl

theorem memExec_store_send (hact : s.dev.acts n a = false) :
    memExec n e x k 1 w false s = .next (s.put ((s.dev.awake n e).rcSend n i a w 1 ((s.dev.core n).get i.rd).toNat false)) := by
  rw [memExec, rcMem_send (op := 1) h hk rfl ha rfl ht hl hact, coreDone_eq]
  · rfl
  · rw [rcSend_fatal, awake_fatal_none h]

/-- A store that acts at once goes on to the next word. -/
theorem memExec_store_sync {d : Dev} (hact : s.dev.acts n a = true) (hcfg : isConfig a = false) (hfat : d.stew = (s.dev.awake n e).stew)
    (hy : ∃ b, (s.dev.awake n e).memSync s.fuses n a w 1 ((s.dev.core n).get i.rd).toNat x = { d := d, v := b }) :
    memExec n e x k 1 w false s = .next (s.put (d.rcNext n id)) := by
  obtain ⟨b, hy⟩ := hy
  rw [memExec, rcMem_sync (op := 1) h hk rfl ha rfl ht hl hact hcfg hy rfl rfl, coreDone_eq]
  · rfl
  · rw [rcNext_fatal, hfat, awake_fatal_none h]

end Store

section Atomic
variable {s : State} {n : Fin 273} {e x : Ecc} {i : RcIns} {k : RcKind} {op : Nat} (h : s.dev.executes n e i) (hk : i.kind = k) (hop : op = 2 ∨ op = 3)
  {a w : Nat} (ha : ((s.dev.core n).get i.ra).toNat = a) (hw : (if i.fn.testBit 0 then 4 else 8) = w)
include h hk hop ha hw

theorem memExec_atomic_misaligned (hm : a % w ≠ 0) (hn : n.val < stewCore) :
    memExec n e x k op 8 false s = .next (s.put ((s.dev.awake n e).firingFault n 7 a)) := by
  have h2 : 2 ≤ op := by omega
  rw [memExec, rcMem_misaligned h hk ((if_pos h2).trans hw) (by rw [if_pos h2, ha]) hm hn, coreDone_eq]
  rw [firingFault_fatal, awake_fatal_none h]

variable (ht : s.dev.rcTest n a w op = none) (hl : a < lockBase ∨ lockEnd ≤ a)
include ht hl

theorem memExec_atomic_send (hact : s.dev.acts n a = false) :
    memExec n e x k op 8 false s = .next (s.put ((s.dev.awake n e).rcSend n i a w op ((s.dev.core n).get i.rb).toNat false)) := by
  have h2 : 2 ≤ op := by omega
  rw [memExec, rcMem_send h hk ((if_pos h2).trans hw) (by rw [if_pos h2, ha]) (if_neg (by omega)) ht hl hact, coreDone_eq]
  rw [rcSend_fatal, awake_fatal_none h]

/-- An atomic that acts at once writes the old value to rd. -/
theorem memExec_atomic_sync {d : Dev} {v : Nat} (hact : s.dev.acts n a = true) (hcfg : isConfig a = false) (hfat : d.stew = (s.dev.awake n e).stew)
    (hy : ∃ b, (s.dev.awake n e).memSync s.fuses n a w op ((s.dev.core n).get i.rb).toNat x = { d := d, v := b } ∧ extend w b false = extend w v false) :
    memExec n e x k op 8 false s = .next (s.put (d.rcNext n (fun y => y.set i.rd (extend w v false)))) := by
  have h2 : 2 ≤ op := by omega
  obtain ⟨b, hy, hb⟩ := hy
  rw [memExec, rcMem_sync h hk ((if_pos h2).trans hw) (by rw [if_pos h2, ha]) (if_neg (by omega)) ht hl hact hcfg hy rfl rfl, coreDone_eq]
  · simp only [if_neg (show ¬ op = 1 by omega), hb]
  · rw [rcNext_fatal, hfat, awake_fatal_none h]

end Atomic

/-! What the own bank B answers, by operation. -/

section BankValue
variable {d : Dev} {n a w : Nat} (hb : d.bankBReady n a) (hw : w ∈ [1, 2, 4, 8]) (f : Fuses)
include hb hw

omit hw in
theorem addr_bankB : (BitVec.ofNat 48 a).toNat = a := by
  have := bankB_range hb
  rw [BitVec.toNat_ofNat, Nat.mod_eq_of_lt]
  simp only [spmEnd] at this
  omega

theorem memSync_bankB_load (v : Nat) (sext : Bool) :
    ∃ b, d.memSync f n a w 0 v .ok = { d := d, v := b } ∧ extend w b sext = extend w (d.readLe a w) sext := by
  have h8 : accessBytes (sizeCode w) ≤ 8 := by
    rw [accessBytes_sizeCode hw]
    revert w
    decide
  refine ⟨_, ?_, extend_ofNat hw ..⟩
  rw [memSync_bankB hb f _ rfl, memAccess_load rfl h8, accessBytes_sizeCode hw, addr_bankB hb]
  rfl

theorem memSync_bankB_store (v : W64) :
    ∃ b, d.memSync f n a w 1 v.toNat .ok = { d := (d.writeLe a w v.toNat).noteWrite a, v := b } := by
  have h8 : accessBytes (sizeCode w) ≤ 8 := by
    rw [accessBytes_sizeCode hw]
    revert w
    decide
  refine ⟨0, ?_⟩
  rw [memSync_bankB hb f _ rfl, memAccess_store rfl h8, accessBytes_sizeCode hw, addr_bankB hb, BitVec.ofNat_toNat, BitVec.setWidth_eq]
  rfl

theorem memSync_bankB_atomic (v : W64) {op : Nat} (hop : op = 2 ∨ op = 3) :
    ∃ b, d.memSync f n a w op v.toNat .ok =
        { d := (d.writeLe a w (if op = 2 then d.readLe a w + v.toNat else v.toNat)).noteWrite a, v := b } ∧
      extend w b false = extend w (d.readLe a w) false := by
  refine ⟨_, ?_, extend_ofNat hw ..⟩
  rw [memSync_bankB hb f _ rfl]
  obtain rfl | rfl := hop
  · rw [memAccess_add rfl, accessBytes_sizeCode hw, addr_bankB hb, BitVec.ofNat_toNat, BitVec.setWidth_eq]
    rfl
  · rw [memAccess_swap rfl, accessBytes_sizeCode hw, addr_bankB hb, BitVec.ofNat_toNat, BitVec.setWidth_eq]
    rfl

end BankValue

/-! LOCKREL. -/

section LockRel
variable {s : State} {n : Fin 273} {e : Ecc} {i : RcIns} (h : s.dev.executes n e i) (hk : i.kind = .lockrel)
include h hk

theorem lockrel_releases (hm : ((s.dev.core n).get i.ra).toNat % 8 = 0)
    (ha : ((s.dev.core n).get i.ra).toNat < hbmSize ∨ isSpm ((s.dev.core n).get i.ra).toNat = true) :
    exec (.rcLockrel n e) s = .next (s.put ((s.dev.awake n e).rcLock n i ((s.dev.core n).get i.ra).toNat 5 ((s.dev.core n).get i.rb).toNat)) := by
  have ha' : (decide (((s.dev.core n).get i.ra).toNat < hbmSize) || isSpm ((s.dev.core n).get i.ra).toNat) = true := by
    simpa only [Bool.or_eq_true, decide_eq_true_eq] using ha
  rw [exec_rcLockrel, Dev.rcLockRel, rcStep_executes h hk]
  simp only [hm, ha', ne_eq, not_true_eq_false, if_false, Bool.not_true, Bool.false_eq_true]
  rw [coreDone_eq]
  rw [rcLock_fatal, awake_fatal_none h]

variable (hn : n.val < stewCore)
include hn

theorem lockrel_misaligned (hm : ((s.dev.core n).get i.ra).toNat % 8 ≠ 0) :
    exec (.rcLockrel n e) s = .next (s.put ((s.dev.awake n e).firingFault n 7 ((s.dev.core n).get i.ra).toNat)) := by
  rw [exec_rcLockrel, Dev.rcLockRel, rcStep_executes h hk, if_pos hm, rcFault_runner _ hn, coreDone_eq]
  rw [firingFault_fatal, awake_fatal_none h]

theorem lockrel_outside (hm : ((s.dev.core n).get i.ra).toNat % 8 = 0) (ha : hbmSize ≤ ((s.dev.core n).get i.ra).toNat)
    (hs : isSpm ((s.dev.core n).get i.ra).toNat = false) :
    exec (.rcLockrel n e) s = .next (s.put ((s.dev.awake n e).firingFault n 8 ((s.dev.core n).get i.ra).toNat)) := by
  rw [exec_rcLockrel, Dev.rcLockRel, rcStep_executes h hk]
  simp only [hm, hs, decide_eq_false (Nat.not_lt.2 ha), ne_eq, not_true_eq_false, if_false, Bool.or_self, Bool.not_false, if_true]
  rw [rcFault_runner _ hn, coreDone_eq]
  rw [firingFault_fatal, awake_fatal_none h]

end LockRel

/-- Settles O35: each access by the place of its address. -/
theorem coreMemoryInstructions : Obligations.CoreMemoryInstructions := by
  refine ⟨fun n e x s i h => ?_, fun d a w v k hw hk => ?_⟩
  · intro d dw r a b aw
    have haw : aw ∈ [1, 2, 4, 8] := by
      by_cases hb : i.fn.testBit 0 = true
      · simp [aw, hb]
      · simp [aw, hb]
    refine ⟨fun op hop hk => ?_, fun op hop hk => ?_, fun op hop hk => ?_, fun hk => ⟨fun hm hb => ?_, fun hm hn => ?_, fun hm hb hs hn => ?_⟩⟩
    · intro w gets
      have hw := load_width op hop
      rw [exec_loadCommand op hop]
      refine ⟨fun ht => ⟨fun hb hx => ?_, fun hact hl => ?_, fun hlo hhi => ?_, fun hat hx => ?_, fun hn h1 h2 h3 h4 h5 h6 h7 => ?_⟩, fun hm hn => ?_⟩
      · subst hx
        have hb' := awake_bankBReady h hb
        exact memExec_load_sync h hk rfl ht (bankB_notLock hb) (bankB_acts hb) (bankB_notConfig hb) (memSync_bankB_load hb' hw _ _ _)
      · exact memExec_load_send h hk rfl ht hl hact
      · exact memExec_load_lock h hk rfl ht hlo hhi
      · obtain ⟨hn, hloc⟩ | hnode := hat
        · obtain ⟨⟨h1, h2, -⟩, hcfg, hl, -⟩ := local_outside hloc
          exact memExec_load_sync h hk rfl ht hl (acts_steward hn h1 h2) hcfg ⟨_, memSync_local_load hloc hx, rfl⟩
        · exact memExec_load_sync h hk rfl ht (node_notLock hnode) (acts_node hnode) (node_notConfig hnode) ⟨_, memSync_node_load hnode hx, rfl⟩
      · exact memExec_load_sync h hk rfl ht h6 (acts_steward hn (Nat.not_lt.2 h1) h2) h4 ⟨_, memSync_unmapped_load h1 h2 h3 h4 h5 h7, rfl⟩
      · exact memExec_load_misaligned h hk rfl hm hn
    · intro w
      have hw := store_width op hop
      obtain ⟨hx, hok⟩ := exec_storeCommand op hop n e x s
      have hany : ∀ o, (∀ y, memExec n e y op.1.1 1 w false s = o) → exec (op.2 n e x) s = o := fun o ho => hx.elim (·.trans (ho _)) (·.trans (ho _))
      refine ⟨fun ht => ⟨fun hb => ?_, fun hact hl => hany _ fun y => ?_, fun hnode => hany _ fun y => ?_, fun hn hlo hhi => hany _ fun y => ?_⟩,
        fun hm hn => hany _ fun y => ?_⟩
      · rw [hok]
        have hb' := awake_bankBReady h hb
        exact memExec_store_sync h hk rfl ht (bankB_notLock hb) (bankB_acts hb) (bankB_notConfig hb) (noteWrite_stew ..) (memSync_bankB_store hb' hw _ _)
      · exact memExec_store_send h hk rfl ht hl hact
      · exact memExec_store_sync h hk rfl ht (node_notLock hnode) (acts_node hnode) (node_notConfig hnode) (nodeStore_stew ..) ⟨_, memSync_node_store hnode⟩
      · have hloc : isLocal a = true := by simp only [isLocal, hlo, hhi, and_self, decide_true, Bool.or_true]
        obtain ⟨⟨h1, h2, -⟩, hcfg, hl, -⟩ := local_outside hloc
        exact memExec_store_sync h hk rfl ht hl (acts_steward hn h1 h2) hcfg (writeLe_stew ..) ⟨_, memSync_sram_store hlo hhi⟩
      · exact memExec_store_misaligned h hk rfl hm hn
    · have hop23 := atomic_op op hop
      refine ⟨fun ht => ⟨fun hb => ?_, fun hact hl => ?_⟩, fun hm hn => ?_⟩
      · rw [exec_atomicCommand op hop]
        have hb' := awake_bankBReady h hb
        exact memExec_atomic_sync h hk hop23 rfl rfl ht (bankB_notLock hb) (bankB_acts hb) (bankB_notConfig hb) (noteWrite_stew ..)
          (memSync_bankB_atomic hb' haw _ _ hop23)
      · rw [exec_atomicCommand op hop]
        exact memExec_atomic_send h hk hop23 rfl rfl ht hl hact
      · rw [exec_atomicCommand op hop]
        exact memExec_atomic_misaligned h hk hop23 rfl rfl hm hn
    · exact lockrel_releases h hk hm hb
    · exact lockrel_misaligned h hk hn hm
    · exact lockrel_outside h hk hn hm hb hs
  · exact byte_write_other d a k _ hw (by rwa [leBytes_length])

end Sys2Proof.Machine

/-! ### O36: branches, jumps, calls and returns -/

namespace Sys2Proof.Machine

/-! A jump, taken or refused. -/

section Jump
variable {d : Dev} {n : Nat} {target : Int}

theorem rcJump_valid (h0 : 0 ≤ target) (hv : pcValid n target.toNat = true) (f : Runner → Runner) :
    d.rcJump n target f = d.modCore n (fun r => { f r with pc := target.toNat }) :=
  if_pos ⟨h0, hv⟩

theorem rcJump_invalid (h : ¬ (0 ≤ target ∧ pcValid n target.toNat = true)) (f : Runner → Runner) : d.rcJump n target f = d.rcFault n 3 0 :=
  if_neg h

end Jump

section Flow
variable {s : State} {n : Fin 273} {e : Ecc} {i : RcIns} {k : RcKind} (h : s.dev.executes n e i) (hk : i.kind = k)
include h hk

/-- A step that goes to a target in the fetch range. -/
theorem coreDone_jump {act : Dev → RcIns → Runner → Dev} {target : Int} (h0 : 0 ≤ target) (hv : pcValid n target.toNat = true)
    (ha : act (s.dev.awake n e) i (s.dev.core n) = (s.dev.awake n e).rcJump n target id) :
    coreDone s (s.dev.rcStep n e k act) = .next (s.put ((s.dev.awake n e).modCore n (fun x => { x with pc := target.toNat }))) := by
  rw [rcStep_executes h hk, ha, rcJump_valid h0 hv, coreDone_eq]
  · rfl
  · rw [modCore_fatal, awake_fatal_none h]

/-- A step of a Runner core that ends in a fault. -/
theorem coreDone_fault {act : Dev → RcIns → Runner → Dev} {cause addr : Nat} (hn : n.val < stewCore)
    (ha : act (s.dev.awake n e) i (s.dev.core n) = (s.dev.awake n e).rcFault n cause addr) :
    coreDone s (s.dev.rcStep n e k act) = .next (s.put ((s.dev.awake n e).firingFault n cause addr)) := by
  rw [rcStep_executes h hk, ha, rcFault_runner _ hn, coreDone_eq]
  rw [firingFault_fatal, awake_fatal_none h]

/-- A step that waits. -/
theorem coreDone_stay {act : Dev → RcIns → Runner → Dev} (ha : act (s.dev.awake n e) i (s.dev.core n) = s.dev.awake n e) :
    coreDone s (s.dev.rcStep n e k act) = .next (s.put (s.dev.awake n e)) := by
  rw [rcStep_executes h hk, ha, coreDone_eq]
  exact awake_fatal_none h

end Flow

/-! The frame of a call (R284, R285). -/

/-- The bytes of a frame: the header and a word for each register that the mask names. -/
def frameSize (i : RcIns) : Nat := 8 * ((maskRegs i.mask).length + 1)

/-- The address below which no frame may go. -/
def Dev.frameLimit (d : Dev) (n : Nat) (r : Runner) : Nat :=
  if n = stewCore then d.stew.stklim.toNat else bankAddr (d.rcCluster n) 1 (8 * r.limit)

/-- The words of a frame with their addresses. -/
def Dev.frameWords (d : Dev) (n : Nat) (i : RcIns) (r : Runner) : List (Nat × Nat) :=
  let js := maskRegs i.mask
  let nsp := r.get 30 - BitVec.ofNat 64 (frameSize i)
  (nsp.toNat, (if d.stackMode n then 0xC0 else 0xC1) * 2 ^ 40 + i.mask * 2 ^ 32 + (r.pc + 1) % 2 ^ 32) ::
    (List.range js.length).map (fun q => (nsp.toNat + 8 * (1 + q), (r.get (20 + js.getD q 0)).toNat))

/-- Where CALL and CALLR go to. -/
def callTarget (k : RcKind) (i : RcIns) (r : Runner) : Int := if k = .callr then (r.get i.ra).toNat else r.pc + 1 + i.off

section Call
variable {s : State} {n : Fin 273} {e : Ecc} {i : RcIns} {k : RcKind} (h : s.dev.executes n e i) (hk : i.kind = k)
include h hk

theorem rcCall_overflow (hn : n.val < stewCore)
    (ho : ((s.dev.core n).get 30).toNat < (s.dev.awake n e).frameLimit n (s.dev.core n) + frameSize i) :
    coreDone s (s.dev.rcCall s.fuses n e k) = .next (s.put ((s.dev.awake n e).firingFault n 4 0)) :=
  coreDone_fault h hk hn (if_pos ⟨.inl (Nat.ne_of_lt hn), ho⟩)

section Fits
variable (hfit : (n.val = stewCore ∧ (s.dev.awake n e).frameLimit n (s.dev.core n) = 0) ∨
    (s.dev.awake n e).frameLimit n (s.dev.core n) + frameSize i ≤ ((s.dev.core n).get 30).toNat)
  (h0 : 0 ≤ callTarget k i (s.dev.core n)) (hv : pcValid n (callTarget k i (s.dev.core n)).toNat = true) {y : Acc}
  (hy : (s.dev.awake n e).frameWrite s.fuses n ((s.dev.awake n e).frameWords n i (s.dev.core n)) = .ok y)
include hfit h0 hv hy

/-- A frame that fits is written, and its writing decides. -/
theorem rcCall_fits : s.dev.rcCall s.fuses n e k =
    if y.stall then s.dev.awake n e
    else y.d.rcJump n (callTarget k i (s.dev.core n)) (fun r => r.set 30 ((s.dev.core n).get 30 - BitVec.ofNat 64 (frameSize i))) := by
  have hno : ¬ ((n.val ≠ stewCore ∨ (s.dev.awake n e).frameLimit n (s.dev.core n) ≠ 0) ∧
      ((s.dev.core n).get 30).toNat < (s.dev.awake n e).frameLimit n (s.dev.core n) + frameSize i) := by omega
  have hok : ¬ (!(decide (0 ≤ callTarget k i (s.dev.core n)) && pcValid n (callTarget k i (s.dev.core n)).toNat)) = true := by
    simp only [h0, hv, decide_true, Bool.and_self, Bool.not_true, Bool.false_eq_true, not_false_eq_true]
  rw [Dev.rcCall, rcStep_executes h hk]
  refine (if_neg hno).trans ((if_neg hok).trans ?_)
  dsimp only [Dev.frameWords, frameSize, callTarget] at hy ⊢
  rw [hy]

theorem rcCall_writes (hstall : y.stall = false) (hfat : y.d.stew.fatal = none) :
    coreDone s (s.dev.rcCall s.fuses n e k) = .next (s.put (y.d.modCore n
      (fun x => { x.set 30 ((s.dev.core n).get 30 - BitVec.ofNat 64 (frameSize i)) with pc := (callTarget k i (s.dev.core n)).toNat }))) := by
  rw [rcCall_fits h hk hfit h0 hv hy, hstall, if_neg Bool.false_ne_true, rcJump_valid h0 hv, coreDone_eq]
  rw [modCore_fatal, hfat]

theorem rcCall_waits (hstall : y.stall = true) : coreDone s (s.dev.rcCall s.fuses n e k) = .next (s.put (s.dev.awake n e)) := by
  rw [rcCall_fits h hk hfit h0 hv hy, hstall, if_pos rfl, coreDone_eq]
  exact awake_fatal_none h

end Fits

end Call

section Ret
variable {s : State} {n : Fin 273} {e x : Ecc} {i : RcIns} (h : s.dev.executes n e i) (hk : i.kind = .ret) {hd : Nat} {d1 : Dev}
  (hr : (s.dev.awake n e).frameRead s.fuses n x [((s.dev.core n).get 30).toNat] = .ok ([hd], false, d1))
include h hk hr

theorem rcRet_badHeader (hn : n.val < stewCore) (hb : hd / 2 ^ 40 ≠ (if (s.dev.awake n e).stackMode n then 0xC0 else 0xC1)) :
    coreDone s (s.dev.rcRet s.fuses n e x) = .next (s.put ((s.dev.awake n e).firingFault n 5 0)) := by
  refine coreDone_fault h hk hn ?_
  have hbad : (hd / 2 ^ 48 != 0 || hd / 2 ^ 40 % 256 != (if (s.dev.awake n e).stackMode n then 0xC0 else 0xC1)) = true := by
    rw [Bool.or_eq_true, bne_iff_ne, bne_iff_ne]
    generalize (if (s.dev.awake n e).stackMode n = true then 0xC0 else 0xC1) = c at hb ⊢
    omega
  simp only [hr, List.getD_cons_zero, hbad, Bool.true_or, if_true]

theorem rcRet_restores (hh : hd / 2 ^ 40 = (if (s.dev.awake n e).stackMode n then 0xC0 else 0xC1))
    (hm : (s.dev.awake n e).stackMode n = true → hd / 2 ^ 32 % 256 = 0) (hp : pcValid n (hd % 2 ^ 32) = true) {vs : List Nat} {d2 : Dev}
    (hrs : d1.frameRead s.fuses n x
      ((List.range (maskRegs (hd / 2 ^ 32 % 256)).length).map (fun q => ((s.dev.core n).get 30).toNat + 8 * (1 + q))) = .ok (vs, false, d2))
    (hfat : d2.stew.fatal = none) :
    coreDone s (s.dev.rcRet s.fuses n e x) = .next (s.put (d2.modCore n (fun y =>
      { ((List.zip (maskRegs (hd / 2 ^ 32 % 256)) vs).foldl (fun (y : Runner) p => y.set (20 + p.1) (BitVec.ofNat 64 p.2)) y).set 30
          (BitVec.ofNat 64 (((s.dev.core n).get 30).toNat + 8 * ((maskRegs (hd / 2 ^ 32 % 256)).length + 1))) with
        pc := hd % 2 ^ 32 }))) := by
  have hgood : (hd / 2 ^ 48 != 0 || hd / 2 ^ 40 % 256 != (if (s.dev.awake n e).stackMode n then 0xC0 else 0xC1) ||
      ((s.dev.awake n e).stackMode n && hd / 2 ^ 32 % 256 != 0) || !pcValid n (hd % 2 ^ 32)) = false := by
    have h48 : hd / 2 ^ 48 = 0 ∧ hd / 2 ^ 40 % 256 = hd / 2 ^ 40 := by
      split at hh <;> omega
    have hmask : ((s.dev.awake n e).stackMode n && hd / 2 ^ 32 % 256 != 0) = false := by
      cases hs : (s.dev.awake n e).stackMode n
      · rfl
      · simp only [hm hs, bne_self_eq_false, Bool.and_false]
    rw [h48.1, h48.2, hh, hmask, hp]
    simp only [bne_self_eq_false, Bool.or_self, Bool.not_true]
  rw [Dev.rcRet, rcStep_executes h hk]
  simp only [hr, List.getD_cons_zero, hgood, Bool.false_eq_true, if_false, hrs]
  rw [rcJump_valid (Int.natCast_nonneg _) (by rwa [Int.toNat_natCast]), coreDone_eq]
  · rfl
  · rw [modCore_fatal, hfat]

end Ret

/-- Settles O36: each instruction by its condition, its target's range and its frame. -/
theorem coreControlFlow : Obligations.CoreControlFlow := by
  intro n e s i h d r go target ok stay
  refine ⟨fun hk => ⟨fun hz hok => ?_, fun hz => ?_⟩, fun hk => ⟨fun hz hok => ?_, fun hz => ?_⟩, fun hk => ⟨fun hok => ?_, fun hok hn => ?_⟩,
    fun hk => ⟨fun hv => ?_, fun hv hn => ?_⟩, fun hk => ?_, fun hk => ?_⟩
  · exact coreDone_jump h hk hok.1 hok.2 (if_pos (beq_iff_eq.2 hz))
  · exact coreDone_rcNext h hk (if_neg (by rwa [beq_iff_eq]))
  · exact coreDone_jump h hk hok.1 hok.2 (if_pos (bne_iff_ne.2 hz))
  · exact coreDone_rcNext h hk (if_neg (by rw [bne_iff_ne]; exact Classical.not_not.2 hz))
  · exact coreDone_jump h hk hok.1 hok.2 rfl
  · exact coreDone_fault h hk hn (rcJump_invalid hok id)
  · exact coreDone_jump h hk (Int.natCast_nonneg _) hv rfl
  · exact coreDone_fault h hk hn (rcJump_invalid (fun hj => Bool.eq_false_iff.1 hv hj.2) id)
  · intro js size sp goal limit nsp header words answer
    have key : ∀ k, i.kind = k → answer = coreDone s (s.dev.rcCall s.fuses n e k) → goal = callTarget k i r →
        (n.val < stewCore → sp.toNat < limit + size → answer = .next (s.put (d.firingFault n 4 0))) ∧
        ((n.val = stewCore ∧ limit = 0) ∨ limit + size ≤ sp.toNat → 0 ≤ goal → pcValid n goal.toNat = true → ∀ y, d.frameWrite s.fuses n words = .ok y →
          y.stall = false → y.d.stew.fatal = none →
          answer = .next (s.put (y.d.modCore n (fun x => { x.set 30 nsp with pc := goal.toNat })))) ∧
        ((n.val = stewCore ∧ limit = 0) ∨ limit + size ≤ sp.toNat → 0 ≤ goal → pcValid n goal.toNat = true → ∀ y, d.frameWrite s.fuses n words = .ok y →
          y.stall = true → answer = .next (s.put d)) := by
      intro k hk ha hg
      rw [ha, hg]
      exact ⟨fun hn ho => rcCall_overflow h hk hn ho, fun hfit h0 hv y hy hs hf => rcCall_writes h hk hfit h0 hv hy hs hf,
        fun hfit h0 hv y hy hs => rcCall_waits h hk hfit h0 hv hy hs⟩
    obtain hk | hk := hk
    · refine key .call hk (if_pos hk) ?_
      simp only [goal, callTarget, hk, reduceCtorEq, if_false]
      rfl
    · refine key .callr hk ?_ ?_
      · simp only [answer, hk, reduceCtorEq, if_false]
        rfl
      · simp only [goal, callTarget, hk, if_true]
  · intro x hd d1 sp js hr
    exact ⟨fun hh hm hp vs d2 hrs hfat => rcRet_restores h hk hr hh hm hp hrs hfat, fun hb hn => rcRet_badHeader h hk hr hn hb⟩

end Sys2Proof.Machine

/-! ### O37: a failed store on a table of tiles that lists a tile twice -/

namespace Sys2Proof.Machine

/-- A device whose table of tiles lists tile 0 twice, first with nothing but a core that has a store outstanding, then with one that waits for an
acquire; the response to the store, which failed, is at the core. -/
def twiceListed : Dev :=
  ({ tiles := [(0, { runner := { stores := [(0, 0)] } }), (0, { runner := { wait := some { kind := .acquire } } })] } : Dev).setInbox (rcNode 0) ownLane
    [{ body := .resp { status := 1 } }]

/-- What the core of tile 0 waits for in the state of an outcome. -/
def outcomeWait (o : Host.Outcome State Fault Refusal) : Option CoreWait :=
  match o with
  | .next t => (t.dev.core 0).wait
  | _ => none

/-- The device once the response is taken. -/
def twiceListedTaken : Dev := twiceListed.setInbox (rcNode 0) ownLane []

theorem takeResp_twiceListed : twiceListed.takeResp (rcNode 0) (fun _ => true) = some ({ status := 1 }, twiceListedTaken) := rfl

/-- The model then reads the second entry as the core's, and withdraws its acquire. -/
theorem memoryResponse_twiceListed : outcomeWait (exec (.memoryResponse 0 8) { dev := twiceListed }) = none := by decide +kernel

/-- The statement leaves that acquire as it was. -/
theorem store_failed_twiceListed : outcomeWait (.next (State.put { dev := twiceListed }
    ((twiceListedTaken.modCore 0 (fun x => { x with stores := removeFirst (· == (0, 0)) x.stores })).rcFault 0 (respCause 1) 0))) = some { kind := .acquire } := by
  decide +kernel

/-- Refutes O37: of a failed store, where the table of tiles is not canonical (it lists tile 0 twice) and the first entry's core holds nothing but that store,
the entry is dropped with the store; the core read next is the second entry's, and the acquire it waits for is withdrawn, which the statement does not say. -/
theorem not_runnersSendAndEnd : ¬ Obligations.RunnersSendAndEnd := by
  rintro ⟨-, -, hresp⟩
  obtain ⟨-, -, -, hstore⟩ := hresp 0 { dev := twiceListed } { status := 1 } twiceListedTaken (by decide) rfl takeResp_twiceListed rfl rfl
  have heq := congrArg outcomeWait (hstore (0, 0) rfl rfl (by decide))
  rw [memoryResponse_twiceListed] at heq
  exact absurd (heq.trans store_failed_twiceListed) (by decide)

end Sys2Proof.Machine

/-! ### O38: the Steward's own instructions, its interrupts and its mailbox -/

namespace Sys2Proof.Machine

section
variable (s : State) (e : Ecc)

theorem exec_mtc : exec (.mtc 272 e) s = coreDone s (s.dev.rcMtc 272 e) := rfl
theorem exec_mbPop : exec (.mbPop 272 e) s = coreDone s (s.dev.rcMbPop 272 e) := rfl
theorem exec_eret : exec (.eret 272 e) s = coreDone s (s.dev.rcEret 272 e) := rfl
theorem exec_wfi : exec (.wfi 272 e) s = coreDone s (s.dev.rcWfi 272 e) := rfl
theorem exec_evack : exec (.evack 272 e) s = coreDone s (s.dev.rcEvack 272 e) := rfl
theorem exec_stewardInterrupt : exec .stewardInterrupt s = .next (s.withDev s.dev.stewInterrupt) := rfl
theorem exec_mailboxReceive : exec .mailboxReceive s = .next (s.withDev s.dev.mailboxReceive) := rfl
theorem exec_lockstepMismatch : exec .lockstepMismatch s = .next (s.withDev s.dev.lockstep) := rfl

end

/-- The Steward fetches from its own memories, so nothing is noted: it only wakes. -/
theorem awake_steward (d : Dev) (e : Ecc) : d.awake 272 e = d.modStew (fun s => { s with wfi := false }) := by
  have hf : d.fetchNote 272 e = d := if_pos (.inl rfl)
  rw [Dev.awake, hf]
  exact if_pos rfl

theorem stewIrq_awake (d : Dev) (e : Ecc) : (d.awake 272 e).stewIrq = d.stewIrq := by
  rw [awake_steward]
  rfl

theorem creditExcess_stew (d : Dev) (n : Node) : (d.creditExcess n).stew = d.stew := by
  cases n
  case tile | tileUnit => exact raiseTile_stew ..
  all_goals exact raise_stew ..

theorem e2eBack_stew (d : Dev) (h t k : Nat) : (d.e2eBack h t k).stew = d.stew := by
  unfold Dev.e2eBack
  extract_lets used d1
  split
  · exact creditExcess_stew ..
  · rfl

theorem oweE2e_stew (d : Dev) (n : Node) (h t k : Nat) : (d.oweE2e n h t k).stew = d.stew := by
  unfold Dev.oweE2e
  split
  · exact e2eBack_stew ..
  · rfl

theorem modStew_fatal {d : Dev} {f : Steward → Steward} (hf : ∀ x, (f x).fatal = x.fatal) : (d.modStew f).stew.fatal = d.stew.fatal := hf _

/-! The mailbox's head. -/

section Mailbox
variable {d : Dev} {t : Token} {rest : List (Token × Option Nat)}

theorem mboxPop_own (h : d.stew.mbox = (t, none) :: rest) : d.mboxPop = d.modStew (fun x => { x with mbox := rest }) := by
  simp only [Dev.mboxPop, h]

theorem mboxPop_credit {p : Nat} (h : d.stew.mbox = (t, some p) :: rest) :
    d.mboxPop = (d.modStew (fun x => { x with mbox := rest })).oweE2e .hub p 32 1 := by
  simp only [Dev.mboxPop, h]

end Mailbox

theorem stewInterrupt_taken {d : Dev} (hon : d.stew.on = true) (hw : d.stew.core.wait = none) (hie : d.stew.sstat.getLsbD 0 = true) (hi : d.stewIrq = true) :
    d.stewInterrupt = d.modStew (fun x => { x with
      epc := BitVec.ofNat 64 x.core.pc, cause := if d.eventTop.isSome then 15 else 14, wfi := false
      sstat := (x.sstat &&& 8#4) ||| 6#4, core := { x.core with pc := (x.vbase + 16).toNat } }) := by
  refine if_pos ?_
  rw [hon, hw, hie, hi]
  rfl

/-- A token that the mailbox accepts waits in it, and its place in the receive buffer is free again. -/
theorem mailboxReceive_accepted {d d1 : Dev} {p : Packet} {ps : List Packet} {t t' : Token} {lane : Nat} (hlane : (if (d.inbox (.hubUnit 0) 4).isEmpty then 0 else 4) = lane)
    (hq : d.inbox (.hubUnit 0) lane = p :: ps) (hb : p.body = .token t) (hroom : d.stew.mbox.length < 1024) (hon : d.stew.on = true)
    (ht : d.blockTag (.hubUnit 0) t (infieldIs t.tag 0 0 0 && t.tag.graph == 0) = (some t', d1)) :
    d.mailboxReceive = ((d1.setInbox (.hubUnit 0) lane ps).oweHop (some ⟨.hub, .hubUnit 0⟩) lane 1).modStew (fun x => { x with mbox := x.mbox ++ [(t', p.part)] }) := by
  obtain ⟨⟩ := p
  cases hb
  simp only [Dev.mailboxReceive, show rcNode stewCore = .hubUnit 0 from rfl, hlane, hq, Nat.not_le.2 hroom, hon, ht, decide_false, Bool.not_true, Bool.or_self, Bool.false_eq_true, if_false]
  rfl

/-- Settles O38: each instruction's update of the Steward, the interrupt and the mailbox. -/
theorem stewardInstructions : Obligations.StewardInstructions := by
  intro s hon st
  refine ⟨fun e i h => ?_, fun hw hie hi => ?_, fun p ps t t' d1 => ?_, ?_⟩
  · intro d v
    have hfat : d.stew.fatal = none := awake_fatal_none h
    have hmbox : d.stew.mbox = st.mbox := by rw [show d = _ from awake_steward s.dev e]; rfl
    have hmtc : ∀ {f : Steward → Steward}, (∀ x, (f x).fatal = x.fatal) → ((d.modStew f).rcNext 272 id).stew.fatal = none := fun hf => by
      rw [rcNext_fatal, modStew_fatal hf, hfat]
    refine ⟨fun hk => ?_, fun hk => ⟨fun hb => ?_, fun hb => ?_, fun hb => ?_, fun hb => ?_⟩, fun hk t rest hm => ?_, fun hk t p rest hm => ?_, fun hk => ?_, fun hk => ?_,
      fun hk => ?_, fun hk => ?_⟩
    · exact coreDone_rcNext h hk rfl
    · rw [exec_mtc, Dev.rcMtc, rcStep_executes h hk, hb]
      exact coreDone_eq s (hmtc fun _ => rfl)
    · rw [exec_mtc, Dev.rcMtc, rcStep_executes h hk, hb]
      exact coreDone_eq s (hmtc fun _ => rfl)
    · rw [exec_mtc, Dev.rcMtc, rcStep_executes h hk, hb]
      exact coreDone_eq s (hmtc fun _ => rfl)
    · rw [exec_mtc, Dev.rcMtc, rcStep_executes h hk, hb]
      exact coreDone_eq s (hmtc fun _ => rfl)
    · rw [exec_mbPop, Dev.rcMbPop, rcStep_executes h hk, mboxPop_own (hmbox.trans hm)]
      exact coreDone_eq s (hmtc fun _ => rfl)
    · rw [exec_mbPop, Dev.rcMbPop, rcStep_executes h hk, mboxPop_credit (hmbox.trans hm)]
      refine coreDone_eq s ?_
      rw [rcNext_fatal, oweE2e_stew]
      exact hfat
    · rw [exec_eret, Dev.rcEret, rcStep_executes h hk]
      exact coreDone_eq s hfat
    · rw [exec_wfi, Dev.rcWfi, rcStep_executes h hk, stewIrq_awake]
      refine coreDone_eq s ?_
      refine (modStew_fatal ?_).trans ((rcNext_fatal ..).trans hfat)
      exact fun _ => rfl
    · rw [exec_evack, Dev.rcEvack, rcStep_executes h hk]
      refine coreDone_eq s ?_
      rw [rcNext_fatal, Dev.setEvtPending, Dev.setBit_stew, hfat]
    · intro t
      refine ⟨fun hr => ?_, fun hr => ?_⟩
      · have hroom : (!d.sendRoom (.hubUnit 0)) = false := by rw [hr]; rfl
        refine (congrArg (coreDone s) ((rcStep_executes h hk _).trans (if_neg (Bool.eq_false_iff.1 hroom)))).trans (coreDone_eq s ?_)
        rw [rcNext_fatal, sendToken_stew]
        exact hfat
      · have hroom : (!d.sendRoom (.hubUnit 0)) = true := by rw [hr]; rfl
        exact coreDone_stay h hk (if_pos hroom)
  · rw [exec_stewardInterrupt, stewInterrupt_taken hon hw hie hi]
  · intro lane hq hb hroom ht
    rw [exec_mailboxReceive, mailboxReceive_accepted rfl hq hb hroom hon ht]
  · rw [exec_lockstepMismatch, Dev.lockstep, if_pos hon]

end Sys2Proof.Machine

/-! ### O39: atomic flows, ageing, boosts, cancels and the pacer -/

namespace Sys2Proof.Machine

section
variable (g : Fin 16) (t : Fin 17) (s : State)

theorem exec_flowreq : exec (.flowreq g t) s = .next (s.withDev (s.dev.flowRequest (tileKey g t))) := rfl
theorem exec_flowrel : exec (.flowrel g t) s = .next (s.withDev (s.dev.flowReleased (tileKey g t))) := rfl
theorem exec_flowcancel : exec (.flowcancel g t) s = .next (s.withDev (s.dev.flowCancelled (tileKey g t))) := rfl
theorem exec_flowgrant : exec (.flowgrant g t) s = .next (s.withDev (s.dev.flowGranted (tileKey g t))) := rfl
theorem exec_flowRequestRetry : exec (.flowRequestRetry g t) s = .next (s.withDev (s.dev.flowRetry (tileKey g t))) := rfl
theorem exec_ageingStep (q : Fin 10) (n : Fin 64) : exec (.ageingStep g t q n) s = .next (s.withDev (s.dev.ageStep (tileKey g t) q n)) := rfl
theorem exec_boost (n : Fin 288) : exec (.boost n) s = .next (s.withDev (s.dev.boostArrive n)) := rfl
theorem exec_cancel (f : Fin 8) (c : BitVec 22) : exec (.cancel g t f c) s = .next (s.withDev (s.dev.cancel (fuKey g t f) c)) := rfl
theorem exec_pacerRelease : exec (.pacerRelease g) s = .next (s.withDev (s.dev.pacerRelease g)) := rfl

end

/-! A request at its home. -/

theorem flowRequest_test {sv : List (BitVec 20 × Nat × Bool)} {fl : BitVec 20} {p : Nat} (hs : inService sv fl = true ∨ serviceRoom sv p = false) :
    ¬ (!inService sv fl && serviceRoom sv p) = true := by
  obtain hs | hs := hs
  · simp only [hs, Bool.not_true, Bool.false_and, Bool.false_eq_true, not_false_eq_true]
  · simp only [hs, Bool.and_false, Bool.false_eq_true, not_false_eq_true]

section Request
variable {d d1 : Dev} {tl no : Nat} {fl : BitVec 20} {c : BitVec 8} {p : BitVec 4} (h : d.takeMgmt (schedNode tl) isFlowReq = some (.flowReq fl c p no, d1))
include h

theorem flowRequest_granted (hs : inService (d1.tile tl).sched.service fl = false) (hr : serviceRoom (d1.tile tl).sched.service p.toNat = true) :
    d.flowRequest tl = d1.grantFlow tl { flow := fl, clu := c.toNat, eprio := p.toNat, no := no } := by
  simp only [Dev.flowRequest, h, hs, hr, Bool.not_false, Bool.and_self, if_true]

variable (hs : inService (d1.tile tl).sched.service fl = true ∨ serviceRoom (d1.tile tl).sched.service p.toNat = false)
include hs

theorem flowRequest_waits (hp : (d1.tile tl).sched.pend.length < 256) :
    d.flowRequest tl = d1.modSched tl (fun s => { s with pend := s.pend ++ [{ flow := fl, clu := c.toNat, eprio := p.toNat, no := no }] }) := by
  simp only [Dev.flowRequest, h, if_neg (flowRequest_test hs), hp, if_true]

theorem flowRequest_refused (hp : 256 ≤ (d1.tile tl).sched.pend.length) :
    d.flowRequest tl = d1.send (schedNode tl) { dest := schedDest c.toNat, log := true, body := .mgmt (.flowRefuse fl no) } := by
  simp only [Dev.flowRequest, h, if_neg (flowRequest_test hs), Nat.not_lt.2 hp, if_false]

end Request

/-! A release. -/

section Release
variable {d d1 d2 : Dev} {tl : Nat} {fl : BitVec 20} {c : BitVec 8} {x : FlowReq} (h : d.takeMgmt (schedNode tl) isFlowRel = some (.flowRel fl c, d1))
include h

theorem flowReleased_other (hm : (d1.tile tl).sched.service.any (fun e => e.1 == fl && e.2.1 == c.toNat) = false) : d.flowReleased tl = d1 := by
  simp only [Dev.flowReleased, h, hm, Bool.not_false, if_true]

variable (hm : (d1.tile tl).sched.service.any (fun e => e.1 == fl && e.2.1 == c.toNat) = true)
  (h2 : d1.modSched tl (fun s => { s with service := removeFirst (fun e => e.1 == fl && e.2.1 == c.toNat) s.service }) = d2)
include hm h2

theorem flowReleased_sameFlow (hx : (d2.tile tl).sched.pend.find? (fun r => r.flow == fl && serviceRoom (d2.tile tl).sched.service r.eprio) = some x) :
    d.flowReleased tl = (d2.modSched tl (fun s => { s with pend := removeFirst (· == x) s.pend })).grantFlow tl x := by
  simp only [Dev.flowReleased, h, hm, h2, hx, Bool.not_true, Bool.false_eq_true, if_false]

theorem flowReleased_otherFlow (hx : (d2.tile tl).sched.pend.find? (fun r => r.flow == fl && serviceRoom (d2.tile tl).sched.service r.eprio) = none)
    (hb : bestRequest (d2.tile tl).sched = some x) :
    d.flowReleased tl = (d2.modSched tl (fun s => { s with pend := removeFirst (· == x) s.pend })).grantFlow tl x := by
  simp only [Dev.flowReleased, h, hm, h2, hx, hb, Bool.not_true, Bool.false_eq_true, if_false]

theorem flowReleased_none (hp : (d2.tile tl).sched.pend = []) : d.flowReleased tl = d2 := by
  have hb : bestRequest (d2.tile tl).sched = none := by rw [bestRequest, hp]; rfl
  simp only [Dev.flowReleased, h, hm, h2, hp, hb, List.find?_nil, Bool.not_true, Bool.false_eq_true, if_false]

end Release

theorem flowCancelled_taken {d d1 : Dev} {tl no : Nat} {fl : BitVec 20} {c : BitVec 8} (h : d.takeMgmt (schedNode tl) isFlowCancel = some (.flowCancel fl c no, d1)) :
    d.flowCancelled tl = d1.modSched tl (fun s => { s with pend := removeFirst (fun r => r.flow == fl && r.clu == c.toNat && r.no == no) s.pend }) := by
  simp only [Dev.flowCancelled, h]

/-! An answer at the cluster that asked. -/

section Answer
variable {d d1 : Dev} {tl no : Nat} {fl : BitVec 20}

theorem flowGranted_gone (h : d.takeMgmt (schedNode tl) isFlowGrant = some (.flowGrant fl no, d1)) (hf : (d1.tile tl).sched.flowW.find? (asks fl no) = none) :
    d.flowGranted tl = d1.releaseFlow tl fl := by
  simp only [Dev.flowGranted, h, hf]

theorem flowGranted_waiting {w : FlowWait} (h : d.takeMgmt (schedNode tl) isFlowGrant = some (.flowGrant fl no, d1))
    (hf : (d1.tile tl).sched.flowW.find? (asks fl no) = some w) :
    d.flowGranted tl = ((d1.modSched tl (fun s => { s with flowW := replaceFirst (asks fl no) (fun x => { x with granted := true }) s.flowW })).askNext tl fl).grantMove w.fu := by
  simp only [Dev.flowGranted, h, hf]

theorem flowRetry_waiting (h : d.takeMgmt (schedNode tl) isFlowRefuse = some (.flowRefuse fl no, d1)) (hf : (d1.tile tl).sched.flowW.any (asks fl no) = true) :
    d.flowRetry tl = (d1.modSched tl (fun s => { s with flowW := replaceFirst (asks fl no) (fun x => { x with asked := false }) s.flowW })).askNext tl fl := by
  simp only [Dev.flowRetry, h, hf, if_true]

theorem flowRetry_gone (h : d.takeMgmt (schedNode tl) isFlowRefuse = some (.flowRefuse fl no, d1)) (hf : (d1.tile tl).sched.flowW.any (asks fl no) = false) :
    d.flowRetry tl = d1 := by
  simp only [Dev.flowRetry, h, hf, Bool.false_eq_true, if_false]

end Answer

section Ask
variable {d : Dev} {tl : Nat} {fl : BitVec 20} {w : FlowWait}

theorem askNext_asks (hw : (d.tile tl).sched.flowW.find? (fun w => Firing.flow w.fir == fl && !w.granted) = some w) (ha : w.asked = false) :
    d.askNext tl fl = (d.modSched tl (fun x => { x with
      flowW := replaceFirst (fun w => Firing.flow w.fir == fl && !w.granted) (fun y => { y with asked := true, no := (d.tile tl).sched.reqNo }) x.flowW
      reqNo := (d.tile tl).sched.reqNo + 1 })).toFlowHome tl fl (.flowReq fl (d.ownClu tl) (BitVec.ofNat 4 (d.eprio tl w.fir)) (d.tile tl).sched.reqNo) := by
  simp only [Dev.askNext, hw, ha, Bool.false_eq_true, if_false]

theorem askNext_asked (hw : (d.tile tl).sched.flowW.find? (fun w => Firing.flow w.fir == fl && !w.granted) = some w) (ha : w.asked = true) : d.askNext tl fl = d := by
  simp only [Dev.askNext, hw, ha, if_true]

theorem askNext_none (hw : (d.tile tl).sched.flowW.find? (fun w => Firing.flow w.fir == fl && !w.granted) = none) : d.askNext tl fl = d := by
  simp only [Dev.askNext, hw]

end Ask

/-! Ageing, boosts and cancels. -/

section Ageing
variable {d : Dev} {g q n : Nat} {t : Fin 17}

theorem ageStep_off (h : d.rfld (schReg g t 0) 19 0 = 0) : d.ageStep (tileKey g t) q n = d := by
  rw [Dev.ageStep, tileKey_div, tileKey_mod, if_pos h]

theorem ageStep_issue (h : d.rfld (schReg g t 0) 19 0 ≠ 0) (hq : q < 8) :
    d.ageStep (tileKey g t) q n = d.modFu (tileKey g t * 8 + q) (fun u => { u with issue := ageQueue u.issue n }) := by
  rw [Dev.ageStep, tileKey_div, tileKey_mod, if_neg h, if_pos hq]

end Ageing

section Boost
variable {d d1 : Dev} {n : Nat} {c : BitVec 22} {u b : BitVec 4}

theorem boostArrive_sched (hn : n < 272) (h : d.takeMgmt (schedNode n) isBoost = some (.boost c u b, d1)) : d.boostArrive n = d1.boostSched n c u.toNat b.toNat := by
  simp only [Dev.boostArrive, hn, h, if_true]

theorem boostArrive_pool {g : Nat} (hn : n = 272 + g) (h : d.takeMgmt (poolNode g) isBoost = some (.boost c u b, d1)) : d.boostArrive n = d1.boostPool c u.toNat b.toNat := by
  have h1 : ¬ n < 272 := by omega
  have h2 : n - 272 = g := by omega
  simp only [Dev.boostArrive, h1, h2, h, if_false]

variable (d1 c) in
/-- The home pool with the unit's value recorded. -/
def Dev.boostNoted (u b : Nat) : Dev := d1.modPool (c.toNat / 2 ^ 18) (fun p => { p with boosts := setBoost p.boosts c u b })

theorem boostPool_free {u b : Nat} (h : cdState ((d1.boostNoted c u b).ctxDesc c) = 0) : d1.boostPool c u b = d1.boostNoted c u b := if_pos h

theorem boostPool_used {u b : Nat} (h : cdState ((d1.boostNoted c u b).ctxDesc c) ≠ 0) :
    d1.boostPool c u b = (d1.boostNoted c u b).setCtxDesc c
      (putFld ((d1.boostNoted c u b).ctxDesc c) 47 44 (boostOf ((d1.boostNoted c u b).region (c.toNat / 2 ^ 18)).pool.boosts c)) := if_neg h

end Boost

section Cancel
variable {d : Dev} {k : Nat} {c : BitVec 22}

theorem cancel_sweeping (h : cdState (d.ctxDesc c) = 2) : d.cancel k c = d.cancelItems k (fun x => Firing.ctx x == c) := if_pos (.inl h)

theorem cancel_active (h : cdState (d.ctxDesc c) = 1) (h5 : (d.graph (cdGraph (d.ctxDesc c))).st ≠ 5) (h0 : (d.graph (cdGraph (d.ctxDesc c))).st ≠ 0) : d.cancel k c = d :=
  if_neg (by simp only [h, h5, h0, Nat.reduceEqDiff, or_self, not_false_eq_true])

end Cancel

/-! The pacer's next entry: of the reached deadlines the oldest, then the highest priority. -/

/-- `x` is no better than `e`: not longer overdue, and where equal not of higher priority. -/
def PacEnt.notBefore (now : W64) (x e : PacEnt) : Prop :=
  (now - x.deadline).toNat ≤ (now - e.deadline).toNat ∧ ((now - x.deadline).toNat = (now - e.deadline).toNat → x.eprio ≤ e.eprio)

theorem PacEnt.notBefore_trans {now : W64} {x y z : PacEnt} (h1 : x.notBefore now y) (h2 : y.notBefore now z) : x.notBefore now z := by
  unfold PacEnt.notBefore at *
  omega

/-- One comparison of the pacer's choice. -/
def pacBetter (now : W64) (m : Option PacEnt) (e : PacEnt) : Option PacEnt :=
  match m with
  | none => some e
  | some x =>
    let a := (now - e.deadline).toNat
    let b := (now - x.deadline).toNat
    if b < a ∨ (a = b ∧ x.eprio < e.eprio) then some e else some x

theorem pacBetter_some (now : W64) (x e : PacEnt) : ∃ y, pacBetter now (some x) e = some y ∧ (y = x ∨ y = e) ∧ x.notBefore now y ∧ e.notBefore now y := by
  unfold pacBetter PacEnt.notBefore
  dsimp only
  split
  · exact ⟨e, rfl, .inr rfl, by omega, by omega⟩
  · exact ⟨x, rfl, .inl rfl, by omega, by omega⟩

theorem foldl_pacBetter (now : W64) : ∀ (l : List PacEnt) (x : PacEnt), ∃ e, l.foldl (pacBetter now) (some x) = some e ∧ (e = x ∨ e ∈ l) ∧
    x.notBefore now e ∧ ∀ y ∈ l, y.notBefore now e
  | [], x => ⟨x, rfl, .inl rfl, ⟨Nat.le_refl _, fun _ => Nat.le_refl _⟩, fun _ h => absurd h List.not_mem_nil⟩
  | z :: l, x => by
    obtain ⟨y, hy, hmem, hx, hz⟩ := pacBetter_some now x z
    obtain ⟨e, he, hin, hye, hall⟩ := foldl_pacBetter now l y
    refine ⟨e, by rw [List.foldl_cons, hy, he], ?_, PacEnt.notBefore_trans hx hye, fun w hw => ?_⟩
    · obtain rfl | hin := hin
      · exact hmem.imp_right (fun hz : e = z => hz ▸ List.mem_cons_self)
      · exact .inr (List.mem_cons_of_mem _ hin)
    · obtain rfl | hw := List.mem_cons.1 hw
      · exact PacEnt.notBefore_trans hz hye
      · exact hall w hw

theorem pacerNext_eq (now : W64) (q : List PacEnt) : pacerNext now q = (q.filter (fun e => reached now e.deadline)).foldl (pacBetter now) none := rfl

theorem pacerNext_some {now : W64} {q : List PacEnt} {e : PacEnt} (h : pacerNext now q = some e) :
    e ∈ q ∧ reached now e.deadline = true ∧ ∀ x ∈ q, reached now x.deadline = true → x.notBefore now e := by
  rw [pacerNext_eq] at h
  generalize hl : q.filter (fun e => reached now e.deadline) = l at h
  cases l with
  | nil => cases h
  | cons z l =>
    obtain ⟨y, hy, hin, hz, hall⟩ := foldl_pacBetter now l z
    obtain rfl : y = e := Option.some.inj (hy.symm.trans h)
    have hmem : y ∈ q.filter (fun e => reached now e.deadline) := hl ▸ List.mem_cons.2 hin
    refine ⟨(List.mem_filter.1 hmem).1, (List.mem_filter.1 hmem).2, fun x hx hr => ?_⟩
    obtain rfl | hx := List.mem_cons.1 (hl ▸ List.mem_filter.2 ⟨hx, hr⟩ : x ∈ z :: l)
    · exact hz
    · exact hall x hx

theorem pacerNext_none {now : W64} {q : List PacEnt} (h : ∀ x ∈ q, reached now x.deadline = false) : pacerNext now q = none := by
  have hl : q.filter (fun e => reached now e.deadline) = [] := by simpa [List.filter_eq_nil_iff] using h
  rw [pacerNext_eq, hl]
  rfl

section Pacer
variable {d : Dev} {g : Nat}

theorem pacerRelease_none (h : pacerNext d.time (d.region g).pacer = none) : d.pacerRelease g = d := by
  simp only [Dev.pacerRelease, h]

theorem pacerRelease_token {e : PacEnt} {t : Token} {ts : List Token} (h : pacerNext d.time (d.region g).pacer = some e) (ht : e.toks = t :: ts) :
    d.pacerRelease g = (d.modRegion g (fun r => { r with
      pacer := if ts.isEmpty then removeFirst (· == e) r.pacer else replaceFirst (· == e) (fun x => { x with toks := ts }) r.pacer })).sendToken (pacNode g) t := by
  simp only [Dev.pacerRelease, h, ht]

end Pacer

/-- Settles O39: each message at its receiver, the ageing and cancel of a queue, and the pacer's choice. -/
theorem flowsAreServedOneAtATime : Obligations.FlowsAreServedOneAtATime := by
  refine ⟨fun g t s fl c p no d1 => ?_, fun d tl fl => ⟨fun w hw ha => askNext_asks hw ha, fun w hw ha => askNext_asked hw ha, fun hw => askNext_none hw⟩,
    fun g t q n s => ⟨fun h => ?_, fun hq h => ?_⟩, fun s c u b d1 => ⟨fun g h => ?_, fun n hn h => ?_⟩, fun g t f c s => ⟨fun h => ?_, fun h h5 h0 => ?_⟩, fun g s => ?_⟩
  · refine ⟨fun h => ⟨fun hs hr => ?_, fun hs hp => ?_, fun hs hp => ?_⟩, fun h => ?_, fun h => ?_, ⟨fun h => ⟨fun hf => ?_, fun w hf => ?_⟩, fun h => ⟨fun hf => ?_, fun hf => ?_⟩⟩⟩
    · rw [exec_flowreq, flowRequest_granted h hs hr]
      rfl
    · rw [exec_flowreq, flowRequest_waits h hs hp]
    · rw [exec_flowreq, flowRequest_refused h hs hp]
    · intro mine d2 sc2 granted
      refine ⟨fun hm => ?_, fun hm => ⟨fun x hx => ?_, fun hx x hb => ?_, fun hp => ?_⟩⟩
      · rw [exec_flowrel, flowReleased_other h hm]
      · rw [exec_flowrel, flowReleased_sameFlow h hm rfl hx]
      · rw [exec_flowrel, flowReleased_otherFlow h hm rfl hx hb]
      · rw [exec_flowrel, flowReleased_none h hm rfl hp]
    · rw [exec_flowcancel, flowCancelled_taken h]
    · rw [exec_flowgrant, flowGranted_gone h hf]
    · rw [exec_flowgrant, flowGranted_waiting h hf]
      rfl
    · rw [exec_flowRequestRetry, flowRetry_waiting h hf]
      rfl
    · rw [exec_flowRequestRetry, flowRetry_gone h hf]
  · rw [exec_ageingStep, ageStep_off h, withDev_self]
  · rw [exec_ageingStep, ageStep_issue h hq]
    refine congrArg (fun f => Host.Outcome.next (s.withDev (s.dev.modFu (tileKey g t * 8 + q) f))) (funext fun u => ?_)
    unfold ageQueue
    cases u.issue[n.val]? <;> rfl
  · intro home d2 n hn
    refine ⟨fun h0 => ?_, fun h0 => ?_⟩
    · rw [exec_boost, boostArrive_pool hn h, boostPool_free h0]
      rfl
    · rw [exec_boost, boostArrive_pool hn h, boostPool_used h0]
      rfl
  · rw [exec_boost, boostArrive_sched hn h]
  · rw [exec_cancel, cancel_sweeping h]
  · rw [exec_cancel, cancel_active h h5 h0, withDev_self]
  · refine ⟨fun h => ?_, fun e t ts h ht => ⟨?_, pacerNext_some h⟩⟩
    · rw [exec_pacerRelease, pacerRelease_none (pacerNext_none h), withDev_self]
    · rw [exec_pacerRelease, pacerRelease_token h ht]

end Sys2Proof.Machine

/-! ### O40: what a hurdle makes of an arrival -/

namespace Sys2Proof.Machine

theorem exec_hurdleArrival (g : Fin 16) (s : State) : exec (.hurdleArrival g) s = .next (s.withDev (s.dev.hurdleArrival g)) := rfl

/-! The arrival reaches its hurdle, or none. -/

section Arrive
variable {d : Dev} {g : Nat} {a : HrdArr} {as : List HrdArr} (hq : (d.region g).hrdIn = a :: as)
include hq

theorem hurdleArrival_none (hh : (d.modRegion g (fun r => { r with hrdIn := as })).hurdleOf g a.tok.tag.graph a.entry = none) :
    d.hurdleArrival g = (d.modRegion g (fun r => { r with hrdIn := as })).hrdError g a.tok stBAD_NODE a.slot.toNat true := by
  simp only [Dev.hurdleArrival, hq, hh]

variable {d' d1 : Dev} {slot src : Nat} {h0 h : Hurdle} (hd : d.modRegion g (fun r => { r with hrdIn := as }) = d')
  (hh : d'.hurdleOf g a.tok.tag.graph a.entry = some (slot, h0)) (hs : h0.slots.contains a.slot = true) (hf : h0.fu / 8 = d'.originOf a.fu / 8)
  (hsrc : h0.slots.findIdx (· == a.slot) = src) (hseen : h0.seen src a.tok.tag.ctx = h) (hd1 : d'.setHurdle g slot h = d1)
include hd hh hs hf hsrc hseen hd1

theorem hurdleArrival_kept : d.hurdleArrival g =
    if isClose a.tok then d1.hrdClose g slot src h a.tok
    else if isRetire a.tok then (if h.retired.contains src then d1 else d1.setHurdle g slot { h with retired := h.retired ++ [src] })
    else d1.hrdValue g slot src h a := by
  have hne : (h0.fu / 8 != d'.originOf a.fu / 8) = false := by rw [hf, bne_self_eq_false]
  simp only [Dev.hurdleArrival, hq, hd, hh, hs, hne, hsrc, hseen, hd1, Bool.not_true, Bool.or_self, Bool.false_eq_true, if_false]

theorem hurdleArrival_close (hc : isClose a.tok = true) : d.hurdleArrival g = d1.hrdClose g slot src h a.tok :=
  (hurdleArrival_kept hq hd hh hs hf hsrc hseen hd1).trans (if_pos hc)

theorem hurdleArrival_retire (hc : isClose a.tok = false) (hr : isRetire a.tok = true) :
    d.hurdleArrival g = if h.retired.contains src then d1 else d1.setHurdle g slot { h with retired := h.retired ++ [src] } := by
  rw [hurdleArrival_kept hq hd hh hs hf hsrc hseen hd1, if_neg (Bool.eq_false_iff.1 hc), if_pos hr]

theorem hurdleArrival_value (hc : isClose a.tok = false) (hr : isRetire a.tok = false) : d.hurdleArrival g = d1.hrdValue g slot src h a := by
  rw [hurdleArrival_kept hq hd hh hs hf hsrc hseen hd1, if_neg (Bool.eq_false_iff.1 hc), if_neg (Bool.eq_false_iff.1 hr)]

end Arrive

theorem over_iff {h : Hurdle} {e : BitVec 8} : h.over e = true ↔ h.passed = true ∧ e = h.e := by
  rw [Hurdle.over, Bool.and_eq_true, beq_iff_eq]

/-! A close, by the first of R229's tests that it fails. -/

section Close
variable {d : Dev} {g slot src : Nat} {h : Hurdle} {t : Token}

theorem hrdClose_retired (hr : h.retired.contains src = true) : d.hrdClose g slot src h t = d.hrdCount g slot h t src false := if_pos hr

variable (hr : h.retired.contains src = false)
include hr

theorem hrdClose_behind (hd : 128 ≤ (t.tag.epoch - h.e).toNat) :
    d.hrdClose g slot src h t = (d.setBit (hrdStatus g slot) 4 true).hrdError g t stEPOCH_LATE (t.tag.epoch.toNat + h.e.toNat * 256) false :=
  (if_neg (Bool.eq_false_iff.1 hr)).trans (if_pos hd)

variable (hd : (t.tag.epoch - h.e).toNat < 128)
include hd

theorem hrdClose_ahead (ha : h.ahead < (t.tag.epoch - h.e).toNat) :
    d.hrdClose g slot src h t = (d.setBit (hrdStatus g slot) 3 true).hrdError g t stEPOCH_AHEAD (t.tag.epoch.toNat + h.e.toNat * 256) false :=
  (if_neg (Bool.eq_false_iff.1 hr)).trans ((if_neg (Nat.not_le.2 hd)).trans (if_pos ha))

variable (ha : (t.tag.epoch - h.e).toNat ≤ h.ahead)
include ha

theorem hrdClose_disagrees (hn : h.maxper < statusDetail t.pay % 65536 ∨ mget 0 h.cls (srcKey src t.tag.epoch) ≠ 0 ∨
      statusDetail t.pay % 65536 < mget 0 h.cnt (srcKey src t.tag.epoch)) :
    d.hrdClose g slot src h t = d.hrdCount g slot h t src false :=
  (if_neg (Bool.eq_false_iff.1 hr)).trans ((if_neg (Nat.not_le.2 hd)).trans ((if_neg (Nat.not_lt.2 ha)).trans (if_pos hn)))

variable (hn : ¬ (h.maxper < statusDetail t.pay % 65536 ∨ mget 0 h.cls (srcKey src t.tag.epoch) ≠ 0 ∨
  statusDetail t.pay % 65536 < mget 0 h.cnt (srcKey src t.tag.epoch)))
include hn

theorem hrdClose_over (ho : h.over t.tag.epoch = true) :
    d.hrdClose g slot src h t = (d.setBit (hrdStatus g slot) 4 true).hrdError g t stEPOCH_LATE (t.tag.epoch.toNat + h.e.toNat * 256) false :=
  (if_neg (Bool.eq_false_iff.1 hr)).trans ((if_neg (Nat.not_le.2 hd)).trans ((if_neg (Nat.not_lt.2 ha)).trans ((if_neg hn).trans (if_pos ho))))

theorem hrdClose_recorded (ho : ¬ h.over t.tag.epoch = true) :
    d.hrdClose g slot src h t = d.setHurdle g slot { h with cls := mset 0 h.cls (srcKey src t.tag.epoch) (statusDetail t.pay % 65536 + 1) } :=
  (if_neg (Bool.eq_false_iff.1 hr)).trans ((if_neg (Nat.not_le.2 hd)).trans ((if_neg (Nat.not_lt.2 ha)).trans ((if_neg hn).trans (if_neg ho))))

end Close

/-! The verdict on a value (R229). -/

section Judge
variable {h : Hurdle} {src : Nat} {e : BitVec 8}

theorem judge_retired (hr : h.retired.contains src = true) : h.judge src e = .count := if_pos hr

variable (hr : h.retired.contains src = false)
include hr

theorem judge_behind (hd : 128 ≤ (e - h.e).toNat) : h.judge src e = .late := (if_neg (Bool.eq_false_iff.1 hr)).trans (if_pos hd)

variable (hd : (e - h.e).toNat < 128)
include hd

theorem judge_ahead (ha : h.ahead < (e - h.e).toNat) : h.judge src e = .ahead :=
  (if_neg (Bool.eq_false_iff.1 hr)).trans ((if_neg (Nat.not_le.2 hd)).trans (if_pos ha))

variable (ha : (e - h.e).toNat ≤ h.ahead)
include ha

theorem judge_within (hw : mget 0 h.cnt (srcKey src e) < h.maxper ∧ (mget 0 h.cls (srcKey src e) = 0 ∨ mget 0 h.cnt (srcKey src e) + 2 ≤ mget 0 h.cls (srcKey src e))) :
    h.judge src e = if h.over e then .late else .hold := by
  have hn : ¬ (h.maxper < mget 0 h.cnt (srcKey src e) + 1 ∨ mget 0 h.cls (srcKey src e) ≠ 0 ∧ mget 0 h.cls (srcKey src e) < mget 0 h.cnt (srcKey src e) + 2) := by omega
  exact (if_neg (Bool.eq_false_iff.1 hr)).trans ((if_neg (Nat.not_le.2 hd)).trans ((if_neg (Nat.not_lt.2 ha)).trans (if_neg hn)))

theorem judge_above (hw : ¬ (mget 0 h.cnt (srcKey src e) < h.maxper ∧ (mget 0 h.cls (srcKey src e) = 0 ∨ mget 0 h.cnt (srcKey src e) + 2 ≤ mget 0 h.cls (srcKey src e)))) :
    h.judge src e = .count := by
  have hn : h.maxper < mget 0 h.cnt (srcKey src e) + 1 ∨ mget 0 h.cls (srcKey src e) ≠ 0 ∧ mget 0 h.cls (srcKey src e) < mget 0 h.cnt (srcKey src e) + 2 := by omega
  exact (if_neg (Bool.eq_false_iff.1 hr)).trans ((if_neg (Nat.not_le.2 hd)).trans ((if_neg (Nat.not_lt.2 ha)).trans (if_pos hn)))

end Judge

/-! The value, by its verdict. -/

section Value
variable {d : Dev} {g slot src : Nat} {h : Hurdle} {a : HrdArr}

theorem hrdValue_hold (hj : h.judge src a.tok.tag.epoch = .hold) : d.hrdValue g slot src h a =
    (d.setHurdle g slot (h.counted src a)).hwm (gwReg g 0x10) 18 0 ((d.setHurdle g slot (h.counted src a)).holdUsed g) := by
  simp only [Dev.hrdValue, hj]

/-- A token that is only counted raises no outcome of its own. -/
theorem hrdValue_gone (hj : h.judge src a.tok.tag.epoch ≠ .hold) (hg : a.gone = true) : d.hrdValue g slot src h a = d := by
  unfold Dev.hrdValue
  extract_lets t both
  cases hv : h.judge src t.tag.epoch with
  | hold => exact absurd hv hj
  | late => exact if_pos hg
  | ahead => exact if_pos hg
  | count => exact if_pos hg

variable (hg : a.gone = false)
include hg

theorem hrdValue_late (hj : h.judge src a.tok.tag.epoch = .late) (hr : Token.replay a.tok = false) : d.hrdValue g slot src h a =
    (d.setBit (hrdStatus g slot) 4 true).hrdError g a.tok stEPOCH_LATE (a.tok.tag.epoch.toNat + h.e.toNat * 256) true := by
  simp only [Dev.hrdValue, hj, hg, hr, Bool.false_eq_true, if_false]

theorem hrdValue_replayed (hj : h.judge src a.tok.tag.epoch = .late) (hr : Token.replay a.tok = true) : d.hrdValue g slot src h a =
    if a.rep then d else d.hrdSend g (d.toksTo h (h.lateFeeds a.tok.tag.epoch) { src := src, tok := a.tok }) := by
  simp only [Dev.hrdValue, hj, hg, hr, Bool.false_eq_true, if_false, if_true]

theorem hrdValue_ahead (hj : h.judge src a.tok.tag.epoch = .ahead) : d.hrdValue g slot src h a =
    (d.setBit (hrdStatus g slot) 3 true).hrdError g a.tok stEPOCH_AHEAD (a.tok.tag.epoch.toNat + h.e.toNat * 256) true := by
  simp only [Dev.hrdValue, hj, hg, Bool.false_eq_true, if_false]

theorem hrdValue_count (hj : h.judge src a.tok.tag.epoch = .count) : d.hrdValue g slot src h a = d.hrdCount g slot h a.tok src (!h.retired.contains src) := by
  simp only [Dev.hrdValue, hj, hg, Bool.false_eq_true, if_false]

end Value

/-- Settles O40: an arrival by R229's rows in their order. -/
theorem hurdlesJudgeArrivals : Obligations.HurdlesJudgeArrivals := by
  intro g s a as d after hq
  refine ⟨fun hh => ?_, fun slot h0 hh hs hf => ?_⟩
  · rw [exec_hurdleArrival, hurdleArrival_none hq hh]
  · intro src h d1 e dd k cnt cls both late ahead inside left
    have hover : h.over e = true ↔ left := over_iff
    have hin : inside → h.retired.contains src = false ∧ dd < 128 ∧ dd ≤ h.ahead := fun ⟨hr, ha, hd⟩ => ⟨hr, hd, ha⟩
    refine ⟨fun hc hr => ?_, fun hc => ?_, fun hc hr => ?_⟩
    · rw [exec_hurdleArrival, hurdleArrival_retire hq rfl hh hs hf rfl rfl rfl hc hr]
      rfl
    · have hexec : exec (.hurdleArrival g) s = after (d1.hrdClose g slot src h a.tok) := by
        rw [exec_hurdleArrival, hurdleArrival_close hq rfl hh hs hf rfl rfl rfl hc]
        rfl
      rw [hexec]
      intro n
      have hagree : n ≤ h.maxper → cls = 0 → cnt ≤ n → ¬ (h.maxper < n ∨ cls ≠ 0 ∨ n < cnt) := by
        clear_value n cls cnt
        omega
      refine ⟨fun hi h1 h2 h3 hl => ?_, fun hx => ?_, fun hx => ?_, fun hr hd ha => ?_⟩
      · obtain ⟨hr, hd, ha⟩ := hin hi
        exact congrArg after (hrdClose_recorded hr hd ha (hagree h1 h2 h3) (fun ho => hl (hover.1 ho)))
      · obtain hr | ⟨hi, hn⟩ := hx
        · exact congrArg after (hrdClose_retired hr)
        · obtain ⟨hr, hd, ha⟩ := hin hi
          exact congrArg after (hrdClose_disagrees hr hd ha hn)
      · obtain ⟨hr, hd⟩ | ⟨hi, h1, h2, h3, hl⟩ := hx
        · exact congrArg after (hrdClose_behind hr hd)
        · obtain ⟨hr, hd, ha⟩ := hin hi
          exact congrArg after (hrdClose_over hr hd ha (hagree h1 h2 h3) (hover.2 hl))
      · exact congrArg after (hrdClose_ahead hr hd ha)
    · have hexec : exec (.hurdleArrival g) s = after (d1.hrdValue g slot src h a) := by
        rw [exec_hurdleArrival, hurdleArrival_value hq rfl hh hs hf rfl rfl rfl hc hr]
        rfl
      rw [hexec]
      intro within
      have hlate : (h.retired.contains src = false ∧ 128 ≤ dd) ∨ (inside ∧ within ∧ left) → h.judge src e = .late := fun hx => by
        obtain ⟨hr, hd⟩ | ⟨hi, hw, hl⟩ := hx
        · exact judge_behind hr hd
        · obtain ⟨hr, hd, ha⟩ := hin hi
          exact (judge_within hr hd ha hw).trans (if_pos (hover.2 hl))
      refine ⟨fun hi hw hl => ?_, fun hg hx => ?_, fun hg => ⟨fun hx => ⟨fun hp => ?_, fun hp => ?_⟩, fun hr hd ha => ?_, fun hr => ?_, fun hi hw => ?_⟩⟩
      · obtain ⟨hr, hd, ha⟩ := hin hi
        exact congrArg after (hrdValue_hold ((judge_within hr hd ha hw).trans (if_neg fun ho => hl (hover.1 ho))))
      · refine congrArg after (hrdValue_gone (fun hj => ?_) hg)
        cases hr : h.retired.contains src with
        | true => rw [judge_retired hr] at hj; cases hj
        | false =>
          by_cases hd : dd < 128
          · by_cases ha : dd ≤ h.ahead
            · by_cases hw : within
              · rw [judge_within hr hd ha hw] at hj
                obtain hx | hx | hx := hx
                · exact hx ⟨hr, ha, hd⟩
                · exact hx hw
                · rw [if_pos (hover.2 hx)] at hj
                  cases hj
              · rw [judge_above hr hd ha hw] at hj; cases hj
            · rw [judge_ahead hr hd (Nat.not_le.1 ha)] at hj; cases hj
          · rw [judge_behind hr (Nat.not_lt.1 hd)] at hj; cases hj
      · exact congrArg after (hrdValue_late hg (hlate hx) hp)
      · exact congrArg after (hrdValue_replayed hg (hlate hx) hp)
      · exact congrArg after (hrdValue_ahead hg (judge_ahead hr hd ha))
      · exact congrArg after ((hrdValue_count hg (judge_retired hr)).trans (by rw [hr]; rfl))
      · obtain ⟨hr, hd, ha⟩ := hin hi
        exact congrArg after ((hrdValue_count hg (judge_above hr hd ha hw)).trans (by rw [hr]; rfl))

end Sys2Proof.Machine

/-! ### O41: the release of epochs, stops, and the stall watch -/

namespace Sys2Proof.Machine

section
variable (g : Fin 16) (v : W32) (s : State)

theorem exec_hurdleRelease (slot : BitVec 8) : exec (.hurdleRelease g slot) s = .next (s.withDev (s.dev.hurdleRelease g slot.toNat)) := rfl
theorem exec_hurdleWaitTimeout (slot : BitVec 8) : exec (.hurdleWaitTimeout g slot) s = .next (s.withDev (s.dev.hurdleLate g slot.toNat)) := rfl
theorem exec_hrdForce : exec (.hrdForce g v) s = .next (s.withDev (s.dev.writes (gwReg g 0x30) (s.dev.hrdForce g v))) := rfl
theorem exec_hrdStopWrite : exec (.hrdStopWrite g v) s = .next (s.withDev (s.dev.writes (gwReg g 0x2C) (s.dev.hrdStopSet g (s.dev.hrdSel g) v))) := rfl
theorem exec_holdConfigWrite (a : BitVec 4) :
    exec (.holdConfigWrite g a v) s = .next (s.withDev (s.dev.writes (gwReg g a.toNat) (s.dev.holdConfig g a.toNat v))) := rfl
theorem exec_stallWindowExpiry : exec (.stallWindowExpiry g) s = .next (s.withDev (s.dev.stallExpiry g)) := rfl
theorem exec_abortReplayRelease : exec (.abortReplayRelease g) s = .next (s.withDev (s.dev.abortRelease g)) := rfl

end

/-! Release and waiting. -/

section Release
variable {d : Dev} {g k : Nat}

theorem hurdleRelease_ready (hc : (d.hurdle g k).complete = true) (hs : d.hrdStopped g k = false) (hb : (d.hurdle g k).beyond = false) :
    d.hurdleRelease g k = d.hrdRelease g k false := by
  simp only [Dev.hurdleRelease, hc, hs, hb, Bool.not_false, Bool.and_self, if_true]

theorem hurdleRelease_held (h : (d.hurdle g k).complete = false ∨ d.hrdStopped g k = true ∨ (d.hurdle g k).beyond = true) : d.hurdleRelease g k = d := by
  refine if_neg ?_
  rw [Bool.and_eq_true, Bool.and_eq_true, Bool.not_eq_true', Bool.not_eq_true']
  rintro ⟨⟨hc, hs⟩, hb⟩
  rw [hc, hs, hb] at h
  simp only [or_self, Bool.true_eq_false, Bool.false_eq_true] at h

theorem hurdleLate_incomplete (hn : (d.hurdle g k).nsrc ≠ 0) (hw : (d.hurdle g k).waitus ≠ 0) (hc : (d.hurdle g k).complete = false) (hl : (d.hurdle g k).late = false)
    (hp : (d.hurdle g k).passed = false) :
    d.hurdleLate g k = ((d.setHurdle g k { d.hurdle g k with late := true }).setBit (hrdStatus g k) 1 true).raise (258 + 4 * g) 2 k := by
  simp only [Dev.hurdleLate, hn, hw, hc, hl, hp, Bool.false_eq_true, or_self, if_false]

theorem hurdleLate_done (h : (d.hurdle g k).late = true ∨ (d.hurdle g k).passed = true) : d.hurdleLate g k = d :=
  if_pos (.inr (.inr (.inr h)))

end Release

/-! To advance. -/

section Advance
variable {d : Dev} {g k : Nat}

theorem hrdAdvance_stop (hen : (d.reg (hrdStop g k)).getLsbD 8 = true) (he : (d.reg (hrdStop g k)).extractLsb' 0 8 = (d.hurdle g k).e) :
    d.hrdAdvance g k = d.setHurdle g k { d.hurdle g k with passed := true } := by
  simp only [Dev.hrdAdvance, hen, he, beq_self_eq_true, Bool.and_self, if_true]

theorem hrdAdvance_next (h : (d.reg (hrdStop g k)).getLsbD 8 = false ∨ (d.reg (hrdStop g k)).extractLsb' 0 8 ≠ (d.hurdle g k).e) (ho : (d.hurdle g k).old = none) :
    d.hrdAdvance g k = (d.setHurdle g k { d.hurdle g k with
      e := (d.hurdle g k).e + 1, passed := false, late := false, old := none
      cnt := mclear (d.hurdle g k).cnt (fun j => j % 256 == (d.hurdle g k).e.toNat), cls := mclear (d.hurdle g k).cls (fun j => j % 256 == (d.hurdle g k).e.toNat)
      errs := mclear (d.hurdle g k).errs (fun j => j % 256 == (d.hurdle g k).e.toNat) }).sendHorizon g k := by
  have hno : ((d.reg (hrdStop g k)).getLsbD 8 && (d.reg (hrdStop g k)).extractLsb' 0 8 == (d.hurdle g k).e) = false := by
    obtain h | h := h
    · rw [h, Bool.false_and]
    · rw [beq_false_of_ne h, Bool.and_false]
  simp only [Dev.hrdAdvance, hno, ho, Bool.false_eq_true, if_false]

end Advance

/-! The writes. -/

section Writes
variable {d : Dev} {g : Nat} {v : W32}

theorem hrdForce_forces (hv : v.getLsbD 0 = true) (hn : (d.hurdle g (d.hrdSel g)).nsrc ≠ 0) (hc : (d.hurdle g (d.hrdSel g)).complete = false)
    (hs : d.hrdStopped g (d.hrdSel g) = false) :
    d.hrdForce g v = (d.setBit (hrdStatus g (d.hrdSel g)) 2 true).hrdRelease g (d.hrdSel g) true := by
  simp only [Dev.hrdForce, hv, hc, hs, beq_false_of_ne hn, Bool.not_true, Bool.or_self, Bool.false_eq_true, if_false]

theorem hrdForce_nothing (h : v.getLsbD 0 = false ∨ (d.hurdle g (d.hrdSel g)).nsrc = 0 ∨ (d.hurdle g (d.hrdSel g)).complete = true ∨ d.hrdStopped g (d.hrdSel g) = true) :
    d.hrdForce g v = d := by
  refine if_pos ?_
  rw [Bool.or_eq_true, Bool.or_eq_true, Bool.or_eq_true, Bool.not_eq_true', beq_iff_eq]
  exact or_assoc.2 (or_assoc.2 h)

theorem hrdStopSet_eq (k : Nat) : d.hrdStopSet g k v =
    if (d.hurdle g k).passed then (d.setReg (hrdStop g k) (v &&& 0x1FF#32)).hrdAdvance g k else d.setReg (hrdStop g k) (v &&& 0x1FF#32) := by
  have hk : (d.setReg (hrdStop g k) (v &&& 0x1FF#32)).hurdle g k = d.hurdle g k := by
    rw [Dev.hurdle, Dev.region, Dev.setReg_regions, Dev.hurdle, Dev.region]
  rw [Dev.hrdStopSet, hk]

section Config
variable (ho : d.regionOpen g = false) (hu : d.holdUsed g = 0)
include ho hu

theorem holdConfig_hi : d.holdConfig g 4 v = d.pairWrite (gwReg g 0) v := by
  simp only [Dev.holdConfig, ho, hu, bne_self_eq_false, Bool.or_self, Bool.false_eq_true, if_false, Nat.reduceEqDiff, if_true]

theorem holdConfig_size : d.holdConfig g 8 v = d.setFld (gwReg g 8) 2 0 (fld v 2 0) := by
  simp only [Dev.holdConfig, ho, hu, bne_self_eq_false, Bool.or_self, Bool.false_eq_true, if_false, Nat.reduceEqDiff, if_true, show ¬ (8 = 4) by omega]
  rfl

end Config

section Busy
variable (h : d.regionOpen g = true ∨ d.holdUsed g ≠ 0)
include h

theorem holdConfig_busy : (d.regionOpen g || d.holdUsed g != 0) = true := by
  rwa [Bool.or_eq_true, bne_iff_ne]

theorem holdConfig_hi_busy : d.holdConfig g 4 v = { d with loHeld := mdel d.loHeld (gwReg g 0) } := by
  simp only [Dev.holdConfig, holdConfig_busy h, Nat.reduceEqDiff, if_false, if_true]

theorem holdConfig_size_busy : d.holdConfig g 8 v = d := by
  simp only [Dev.holdConfig, holdConfig_busy h, Nat.reduceEqDiff, if_false, if_true, show ¬ (8 = 4) by omega]

end Busy

end Writes

/-! The stall watch's stages. -/

section Stall
variable {d : Dev} {g : Nat}

theorem stallExpiry_off (h : d.rbit (stwReg g 0) 0 = false ∨ d.regionOpen g = false) :
    d.stallExpiry g = d.setStw g (fun s => { s with stage := 0, progress := false }) := by
  refine if_pos ?_
  rwa [Bool.or_eq_true, Bool.not_eq_true', Bool.not_eq_true']

variable (hen : d.rbit (stwReg g 0) 0 = true) (ho : d.regionOpen g = true)
include hen ho

theorem stallExpiry_progress (h : (d.region g).stw.progress = true ∨ d.heldWork g = false) :
    d.stallExpiry g = d.setStw g (fun s => { s with stage := 0, progress := false, forceFail := false }) := by
  have hp : ((d.region g).stw.progress || !d.heldWork g) = true := by rwa [Bool.or_eq_true, Bool.not_eq_true']
  simp only [Dev.stallExpiry, hen, ho, hp, Bool.not_true, Bool.or_self, Bool.false_eq_true, if_false, if_true]

variable (hp : (d.region g).stw.progress = false) (hw : d.heldWork g = true)
include hp hw

theorem stallExpiry_force (hs : (d.region g).stw.stage = 0) :
    d.stallExpiry g = (d.setStw g (fun s => { s with stage := 1, forceFail := false })).forcedSpill g := by
  simp only [Dev.stallExpiry, hen, ho, hp, hw, hs, Bool.not_true, Bool.or_self, Bool.false_eq_true, if_false, if_true]

variable (hs : (d.region g).stw.stage ≠ 0)
include hs

theorem stallExpiry_room (hf : ((regionFus g).any (fun k => (d.fu k).oflFull) || (d.region g).stw.forceFail) = false) :
    d.stallExpiry g = ((d.setStw g (fun s => { s with stage := 3 })).setBit (stwReg g 0x10) 5 true).raise (256 + 4 * g) 2 1 := by
  simp only [Dev.stallExpiry, hen, ho, hp, hw, hs, hf, Bool.not_true, Bool.or_self, Bool.false_and, Bool.false_eq_true, if_false]

theorem stallExpiry_abort (hf : ((regionFus g).any (fun k => (d.fu k).oflFull) || (d.region g).stw.forceFail) = true) :
    d.stallExpiry g = ((d.setStw g (fun s => { s with stage := 3 })).stallAbort g).raise (256 + 4 * g) 2
      (if ((d.setStw g (fun s => { s with stage := 3 })).victims g).isEmpty then 4 else 2) := by
  simp only [Dev.stallExpiry, hen, ho, hp, hw, hs, hf, Bool.not_true, Bool.or_self, Bool.true_and, Bool.false_eq_true, if_false, if_true]
  cases ((d.setStw g (fun s => { s with stage := 3 })).victims g).isEmpty <;> rfl

end Stall

/-- Settles O41: each command of the hurdle unit and of the stall watch, by its condition. -/
theorem hurdlesReleaseEpochs : Obligations.HurdlesReleaseEpochs := by
  intro g s d
  refine ⟨fun slot => ?_, fun x k => ⟨fun hen he => hrdAdvance_stop hen he, fun h ho => hrdAdvance_next h ho⟩, fun v => ?_, fun hen ho => ?_, fun h => ?_, fun h => ?_, fun h => ?_⟩
  · intro k h
    refine ⟨fun hc hs hb => ?_, fun hx => ?_, fun hn hw hc hl hp => ?_, fun hx => ?_⟩
    · rw [exec_hurdleRelease, hurdleRelease_ready hc hs hb]
      rfl
    · rw [exec_hurdleRelease, hurdleRelease_held hx, withDev_self]
    · rw [exec_hurdleWaitTimeout, hurdleLate_incomplete hn hw hc hl hp]
    · rw [exec_hurdleWaitTimeout, hurdleLate_done hx, withDev_self]
  · intro k h d1 after
    refine ⟨fun hv hn hc hs => ?_, fun hx => ?_, fun hp => ?_, fun hp => ?_, rfl, fun ho hu => ⟨?_, ?_⟩, fun hx => ⟨?_, ?_⟩, rfl⟩
    · rw [exec_hrdForce, hrdForce_forces hv hn hc hs]
    · rw [exec_hrdForce, hrdForce_nothing hx, writes_self, withDev_self]
    · rw [exec_hrdStopWrite, hrdStopSet_eq, if_neg (Bool.eq_false_iff.1 hp)]
    · rw [exec_hrdStopWrite, hrdStopSet_eq, if_pos hp]
    · rw [exec_holdConfigWrite, show (4 : BitVec 4).toNat = 4 from rfl, holdConfig_hi ho hu]
    · rw [exec_holdConfigWrite, show (8 : BitVec 4).toNat = 8 from rfl, holdConfig_size ho hu]
    · rw [exec_holdConfigWrite, show (4 : BitVec 4).toNat = 4 from rfl, holdConfig_hi_busy hx]
    · rw [exec_holdConfigWrite, show (8 : BitVec 4).toNat = 8 from rfl, holdConfig_size_busy hx, writes_self, withDev_self]
  · intro x
    refine ⟨fun hx => ?_, fun hp hw hs => ?_, fun hp hw hs => ?_⟩
    · rw [exec_stallWindowExpiry, stallExpiry_progress hen ho hx]
    · rw [exec_stallWindowExpiry, stallExpiry_force hen ho hp hw hs]
    · intro full d1
      refine ⟨fun hf => ?_, fun hf => ?_⟩
      · rw [exec_stallWindowExpiry, stallExpiry_room hen ho hp hw hs hf]
      · rw [exec_stallWindowExpiry, stallExpiry_abort hen ho hp hw hs hf]
  · rw [exec_stallWindowExpiry, stallExpiry_off h]
  · rw [exec_abortReplayRelease, Dev.abortRelease, if_pos h]
  · rw [exec_abortReplayRelease, Dev.abortRelease, if_neg (Bool.eq_false_iff.1 h), withDev_self]

end Sys2Proof.Machine

/-! ### O42: DMA transfers -/

namespace Sys2Proof.Machine

section
variable (g : Fin 16) (c : Fin 32) (s : State)

theorem exec_dmaHandover : exec (.dmaHandover g c) s = .next (s.withDev (s.dev.dmaHandover g c)) := rfl
theorem exec_dmaBurstIssue : exec (.dmaBurstIssue g) s = .next (s.withDev (s.dev.dmaIssue g)) := rfl
theorem exec_dmaReadResponse : exec (.dmaReadResponse g) s = .next (s.withDev (s.dev.dmaRead g)) := rfl
theorem exec_dmaWriteResponse : exec (.dmaWriteResponse g) s = .next (s.withDev (s.dev.dmaWrite g)) := rfl
theorem exec_dmaRequestPulse : exec .dmaRequestPulse s = .next (s.withDev s.dev.dmaPulse) := rfl
theorem exec_dmaChEnWrite (en : Bool) : exec (.dmaChEnWrite g c en) s = .next (s.withDev (s.dev.dmaEn g c en)) := rfl
theorem exec_abort : exec (.abort g c) s = .next (s.withDev (s.dev.dmaAbort g c)) := rfl
theorem exec_shadowValidWrite (v : Bool) : exec (.shadowValidWrite g c v) s = .next (s.withDev (s.dev.dmaShadow g c v)) := rfl
theorem exec_shadowRegisterWrite (o : Fin 16) (v : W32) :
    exec (.shadowRegisterWrite g c o v) s = .next (s.withDev (s.dev.dmaShadowReg g c (0x20 + 4 * o) v)) := rfl
theorem exec_chSrstWrite (v : Bool) : exec (.chSrstWrite g c v) s = .next (s.withDev (s.dev.dmaChSrst g c v)) := rfl
theorem exec_dmaSrstWrite (v : Bool) : exec (.dmaSrstWrite g v) s = .next (s.withDev (s.dev.dmaSrst g v)) := rfl

end

/-! Hand-over. -/

section Handover
variable {d : Dev} {g c : Nat}

/-- The channel with the shadow's registers as its active set. -/
def Dev.dmaTaken (d : Dev) (g c : Nat) : DmaCh := { d.dmaCh g c with
  busy := true, set := shadowOffsets.foldl (fun m o => mset 0 m o (d.reg (dmaChReg g c o))) [], issued := 0, bursts := [], abort := false, cmpAt := none, err := 0, bad := false }

/-- The device once the shadow is taken. -/
def Dev.dmaTake (d : Dev) (g c : Nat) : Dev := (d.setBit (chCtrl g c) 3 false).modDma g c (fun _ => d.dmaTaken g c)

theorem dmaHandover_takes (hb : (d.dmaCh g c).busy = false) (hf : d.dmaFree g c = true) (hen : d.rbit (chCtrl g c) 0 = true) (hv : d.rbit (chCtrl g c) 3 = true) :
    d.dmaHandover g c =
      if (d.dmaTaken g c).descOk ((d.dmaTake g c).rfld (chCtrl g c) 14 12) then d.dmaTake g c else (d.dmaTake g c).dmaComplete g c true := by
  have h1 : ¬ (!d.dmaFree g c || !d.rbit (chCtrl g c) 0) = true := by rw [hf, hen]; exact Bool.false_ne_true
  have h2 : ¬ (!d.rbit (chCtrl g c) 3) = true := by rw [hv]; exact Bool.false_ne_true
  exact (if_neg h1).trans ((if_neg (Bool.eq_false_iff.1 hb)).trans (if_neg h2))

theorem dmaHandover_nothing (h : d.dmaFree g c = false ∨ d.rbit (chCtrl g c) 0 = false ∨ ((d.dmaCh g c).busy = true ∧ (d.dmaCh g c).bad = false) ∨
      ((d.dmaCh g c).busy = false ∧ d.rbit (chCtrl g c) 3 = false)) :
    d.dmaHandover g c = d := by
  unfold Dev.dmaHandover
  extract_lets x
  obtain h | h | ⟨hb, hbad⟩ | ⟨hb, hv⟩ := h
  · exact if_pos (by rw [h]; rfl)
  · exact if_pos (by rw [h, Bool.not_false, Bool.or_true])
  · rw [if_pos hb, if_neg (Bool.eq_false_iff.1 hbad), ite_self]
  · have h2 : (!d.rbit (chCtrl g c) 3) = true := by rw [hv]; rfl
    exact (ite_congr rfl (fun _ => rfl) (fun _ => (if_neg (Bool.eq_false_iff.1 hb)).trans (if_pos h2))).trans (ite_self d)

end Handover

/-! Issue. -/

section Issue
variable {d : Dev} {g c : Nat}

theorem dmaIssue_none (h : 64 ≤ d.dmaOutstanding g ∨ d.dmaPick g = none) : d.dmaIssue g = d := by
  unfold Dev.dmaIssue
  obtain h | h := h
  · exact if_pos h
  · rw [h]
    exact ite_self d

/-- The device with the next burst of the chosen channel noted. -/
def Dev.dmaNoted (d : Dev) (g c : Nat) : Dev :=
  let x := d.dmaCh g c
  (d.modRegion g (fun r => { r with dmaRr := mset 0 r.dmaRr (d.dmaLevel g c) ((c + 1) % 32) })).modDma g c (fun y => { y with
    issued := y.issued + x.burstLen x.issued, nextTag := x.freeTag / 2 + 1
    bursts := y.bursts ++ [{ rtag := x.freeTag, off := x.issued, len := x.burstLen x.issued, wr := x.mode == 1 }]
    pend := if d.rfld (chCtrl g c) 14 12 = 0 then y.pend else y.pend - 1 })

theorem dmaNoted_permits (a : Nat) (wr : Bool) : (d.dmaNoted g c).dmaPermits a wr = d.dmaPermits a wr := rfl

variable (ho : d.dmaOutstanding g < 64) (hp : d.dmaPick g = some c)
include ho hp

theorem dmaIssue_fill (hm : (d.dmaCh g c).mode = 1) (hw : d.dmaPermits ((d.dmaCh g c).dstAt (d.dmaCh g c).issued) true = true) :
    d.dmaIssue g = (d.dmaNoted g c).dmaReq g c 1 (d.dmaCh g c).freeTag ((d.dmaCh g c).dstAt (d.dmaCh g c).issued)
      ((d.dmaCh g c).burstLen (d.dmaCh g c).issued) ((d.dmaCh g c).fillBytes ((d.dmaCh g c).burstLen (d.dmaCh g c).issued)) := by
  have hw' : ¬ (!(d.dmaNoted g c).dmaPermits ((d.dmaCh g c).dstAt (d.dmaCh g c).issued) true) = true := by
    rw [dmaNoted_permits, hw]
    exact Bool.false_ne_true
  rw [Dev.dmaIssue, if_neg (Nat.not_le.2 ho), hp]
  exact (if_neg (fun h => h.1 hm)).trans ((if_neg (fun h => absurd (hm.symm.trans h.1) (by decide))).trans ((if_neg (fun h => hw' h.2)).trans (if_pos hm)))

theorem dmaIssue_copy (hm : (d.dmaCh g c).mode = 0) (hr : d.dmaPermits ((d.dmaCh g c).srcAt (d.dmaCh g c).issued) false = true)
    (hw : d.dmaPermits ((d.dmaCh g c).dstAt (d.dmaCh g c).issued) true = true) :
    d.dmaIssue g = (d.dmaNoted g c).dmaReq g c 0 (d.dmaCh g c).freeTag ((d.dmaCh g c).srcAt (d.dmaCh g c).issued)
      ((d.dmaCh g c).burstLen (d.dmaCh g c).issued) [] := by
  have hr' : ¬ (!(d.dmaNoted g c).dmaPermits ((d.dmaCh g c).srcAt (d.dmaCh g c).issued) false) = true := by
    rw [dmaNoted_permits, hr]
    exact Bool.false_ne_true
  have hw' : ¬ (!(d.dmaNoted g c).dmaPermits ((d.dmaCh g c).dstAt (d.dmaCh g c).issued) true) = true := by
    rw [dmaNoted_permits, hw]
    exact Bool.false_ne_true
  have h1 : (d.dmaCh g c).mode ≠ 1 := by rw [hm]; decide
  rw [Dev.dmaIssue, if_neg (Nat.not_le.2 ho), hp]
  exact (if_neg (fun h => hr' h.2)).trans ((if_neg (fun h => absurd (hm.symm.trans h.1) (by decide))).trans ((if_neg (fun h => hw' h.2)).trans
    ((if_neg h1).trans (if_pos hm))))

end Issue


/-! Responses. -/

section Response
variable {d d1 : Dev} {g : Nat} {r : MemResp} {b : Burst}

theorem dmaRead_gone (h : d.takeResp (dmaNode g) (fun r => r.op == 0) = some (r, d1))
    (hg : (d1.dmaCh g (r.rtag.toNat / 128)).gone.contains (r.rtag.toNat % 128) = true) :
    d.dmaRead g = d1.dmaGone g (r.rtag.toNat / 128) (r.rtag.toNat % 128) := by
  simp only [Dev.dmaRead, h, hg, if_true]

theorem dmaWrite_gone (h : d.takeResp (dmaNode g) (fun r => r.op == 1) = some (r, d1))
    (hg : (d1.dmaCh g (r.rtag.toNat / 128)).gone.contains (r.rtag.toNat % 128) = true) :
    d.dmaWrite g = d1.dmaGone g (r.rtag.toNat / 128) (r.rtag.toNat % 128) := by
  simp only [Dev.dmaWrite, h, hg, if_true]

variable (hg : (d1.dmaCh g (r.rtag.toNat / 128)).gone.contains (r.rtag.toNat % 128) = false) (hs : r.status = 0)
include hg hs

theorem dmaRead_copy (h : d.takeResp (dmaNode g) (fun r => r.op == 0) = some (r, d1))
    (hb : (d1.dmaCh g (r.rtag.toNat / 128)).bursts.find? (fun b => b.rtag == r.rtag.toNat % 128 / 2 * 2 && !b.wr) = some b)
    (hm : (d1.dmaCh g (r.rtag.toNat / 128)).mode = 0) (he : (d1.dmaCh g (r.rtag.toNat / 128)).err = 0) :
    d.dmaRead g = (d1.setBurst g (r.rtag.toNat / 128) b.rtag (some { b with wr := true })).dmaReq g (r.rtag.toNat / 128) 1 b.rtag
      ((d1.dmaCh g (r.rtag.toNat / 128)).dstAt b.off) b.len r.data := by
  simp only [Dev.dmaRead, h, hg, hb, hs, hm, he, Bool.false_eq_true, if_false, ne_eq, not_true_eq_false, Nat.reduceEqDiff]

theorem dmaWrite_ends (h : d.takeResp (dmaNode g) (fun r => r.op == 1) = some (r, d1))
    (hb : (d1.dmaCh g (r.rtag.toNat / 128)).bursts.find? (fun b => b.rtag == r.rtag.toNat % 128 && b.wr) = some b) :
    d.dmaWrite g = (d1.setBurst g (r.rtag.toNat / 128) b.rtag none).dmaFinish g (r.rtag.toNat / 128) := by
  simp only [Dev.dmaWrite, h, hg, hb, hs, Bool.false_eq_true, if_false, if_true]

end Response

/-! Completion. -/

section Finish
variable {d : Dev} {g c : Nat} (hbusy : (d.dmaCh g c).busy = true) (hbursts : (d.dmaCh g c).bursts = []) (herr : (d.dmaCh g c).err = 0)
  (habort : (d.dmaCh g c).abort = false) (hcmp : (d.dmaCh g c).cmpAt = none) (htotal : (d.dmaCh g c).total ≤ (d.dmaCh g c).issued)
include herr

/-- The device with DONE set. -/
def Dev.dmaDone (d : Dev) (g c : Nat) : Dev := (d.setBit (chStatus g c) 1 true).setBit (dmaReg g 4) c true

include habort hcmp in
theorem dmaComplete_clean (htok : (d.dmaCh g c).r 0x48 / 16 % 2 = 0) :
    d.dmaComplete g c false =
      let again := (d.dmaDone g c).rbit (chCtrl g c) 4 && !(d.dmaDone g c).rbit (chCtrl g c) 3
      (d.dmaDone g c).modDma g c (fun y => { y with
        busy := again, issued := if again then 0 else y.issued, bursts := [], abort := false, cmpAt := none, err := 0, bad := false }) := by
  simp only [Dev.dmaComplete, herr, habort, hcmp, htok, bne_self_eq_false, Bool.or_self, Bool.false_eq_true, if_false, Option.isSome_none, Nat.zero_ne_one, Bool.and_false, Dev.dmaDone]
  rfl

include hbusy hbursts htotal in
omit herr in
theorem dmaFinish_done : d.dmaFinish g c = d.dmaComplete g c false := by
  refine if_pos ?_
  rw [hbusy, hbursts, decide_eq_true htotal, Bool.or_true]
  rfl

end Finish

/-! Writes to a channel. -/

section Writes
variable {d : Dev} {g c : Nat}

theorem dmaAbort_free (hf : d.dmaFree g c = true) :
    d.dmaAbort g c = if (d.dmaCh g c).busy then (d.modDma g c (fun y => { y with abort := true })).dmaFinish g c else d := by
  rw [Dev.dmaAbort, hf, Bool.and_true]

theorem dmaAbort_held (hf : d.dmaFree g c = false) : d.dmaAbort g c = d := by
  rw [Dev.dmaAbort, hf, Bool.and_false]
  exact if_neg Bool.false_ne_true

theorem dmaEn_free (hf : d.dmaFree g c = true) (en : Bool) :
    d.dmaEn g c en = if en then d.setBit (chCtrl g c) 0 en else (d.setBit (chCtrl g c) 0 en).dmaAbort g c := by
  rw [Dev.dmaEn, hf]
  exact if_neg Bool.false_ne_true

theorem dmaEn_held (hf : d.dmaFree g c = false) (en : Bool) : d.dmaEn g c en = d := by
  rw [Dev.dmaEn, hf]
  exact if_pos rfl

/-- An address of a region of a die, taken apart again. -/
theorem regionAddr_split {q r x : Nat} (hr : r < 4) (hx : x < 0x400000) :
    (q * 0x2000000 + (r * 0x400000 + x)) / 0x2000000 = q ∧ (q * 0x2000000 + (r * 0x400000 + x)) % 0x2000000 = r * 0x400000 + x ∧
      r * 0x400000 + x < 0x1000000 ∧ (r * 0x400000 + x) / 0x400000 = r ∧ (r * 0x400000 + x) % 0x400000 = x := by
  have hlow : r * 0x400000 + x < 0x1000000 := by omega
  refine ⟨?_, ?_, hlow, ?_, ?_⟩
  · omega
  · omega
  · omega
  · omega

/-- The block, channel and offset of a channel register's address. -/
theorem blkOf_dmaCh {o : Nat} (hg : g < 16) (hc : c < 32) (ho : o < 0x80) : blkOf (dmaChReg g c o) = some (.dmaCh, g * 32 + c, o) := by
  obtain ⟨x, hx⟩ : ∃ x, x = 0x320400 + c * 0x80 + o := ⟨_, rfl⟩
  have hlim : x < 0x400000 ∧ ¬ x < 0x220000 ∧ ¬ x < 0x300000 ∧ (x - 0x300000) / 0x10000 = 2 ∧ x % 0x10000 = 0x400 + (c * 0x80 + o) := by omega
  obtain ⟨hwin, hnode, htile, hblk, hoff⟩ := hlim
  have hch : (c * 0x80 + o) / 0x80 = c ∧ (c * 0x80 + o) % 0x80 = o ∧ ¬ 0x400 + (c * 0x80 + o) < 0x400 := by omega
  obtain ⟨hch, hreg, hown⟩ := hch
  obtain ⟨hq, hw, hlow, hq2, hr⟩ := regionAddr_split (q := g / 4) (Nat.mod_lt g (by omega)) hwin
  have ha : dmaChReg g c o = configBase + (g / 4 * 0x2000000 + (g % 4 * 0x400000 + x)) := by
    simp only [dmaChReg, dmaReg, regionAddr, hx]
    omega
  have hrange : configBase ≤ dmaChReg g c o ∧ dmaChReg g c o < hubBase := by
    rw [ha]
    simp only [configBase, hubBase]
    omega
  have hsub : dmaChReg g c o - configBase = g / 4 * 0x2000000 + (g % 4 * 0x400000 + x) := by rw [ha, Nat.add_sub_cancel_left]
  simp only [blkOf, hrange, and_self, if_true, hsub, hq, hw, hq2, hr, hblk, hoff, hch, hreg, hc, Nat.add_sub_cancel_left,
    hlow, hnode, htile, hown, if_false]
  rw [Nat.div_add_mod']

theorem findReg_shadow : ∀ o : Fin 16, (findReg (0x20 + 4 * o) Blk.dmaCh.regs).isSome = true := by decide +kernel

theorem regLoc_shadow (hg : g < 16) (hc : c < 32) (o : Fin 16) : ∃ l, regLoc (dmaChReg g c (0x20 + 4 * o)) = some l := by
  obtain ⟨⟨r, j⟩, h⟩ := Option.isSome_iff_exists.1 (findReg_shadow o)
  exact ⟨⟨.dmaCh, g * 32 + c, 0x20 + 4 * o, j, r⟩, by
    rw [regLoc, blkOf_dmaCh hg hc (show 0x20 + 4 * o.val < 0x80 by omega)]
    dsimp only
    rw [h]⟩

section Shadow
variable {o : Fin 16} {v : W32} (hf : d.dmaFree g c = true)
include hf

theorem dmaShadowReg_taken (hv : d.rbit (chCtrl g c) 3 = true) : d.dmaShadowReg g c (0x20 + 4 * o) v = d.setBit (chStatus g c) 7 true := by
  simp only [Dev.dmaShadowReg, hf, hv, Bool.not_true, Bool.false_eq_true, if_false, if_true]

variable (hv : d.rbit (chCtrl g c) 3 = false)
include hv

theorem dmaShadowReg_open {l : RegLoc} (hl : regLoc (dmaChReg g c (0x20 + 4 * o)) = some l) : d.dmaShadowReg g c (0x20 + 4 * o) v =
    if o.val = 0 ∨ o.val = 2 ∨ o.val = 11 then d.holdLo (dmaChReg g c (0x20 + 4 * o)) v
    else if o.val = 1 ∨ o.val = 3 ∨ o.val = 12 then d.pairWrite (dmaChReg g c (0x20 + 4 * o) - 4) v
    else d.setReg (dmaChReg g c (0x20 + 4 * o)) (accessWrite l.spec false (d.reg (dmaChReg g c (0x20 + 4 * o))) v) := by
  have hlo : (0x20 + 4 * o.val = 0x20 ∨ 0x20 + 4 * o.val = 0x28 ∨ 0x20 + 4 * o.val = 0x4C) ↔ (o.val = 0 ∨ o.val = 2 ∨ o.val = 11) := by omega
  have hhi : (0x20 + 4 * o.val = 0x24 ∨ 0x20 + 4 * o.val = 0x2C ∨ 0x20 + 4 * o.val = 0x50) ↔ (o.val = 1 ∨ o.val = 3 ∨ o.val = 12) := by omega
  simp only [Dev.dmaShadowReg, hf, hv, hl, hlo, hhi, Bool.not_true, Bool.false_eq_true, if_false]

end Shadow

theorem dmaShadowReg_held (hf : d.dmaFree g c = false) (o : Nat) (v : W32) : d.dmaShadowReg g c o v = d := by
  rw [Dev.dmaShadowReg, hf]
  exact if_pos rfl

theorem dmaChSrst_eq (hr : d.resetting = false) (hh : d.dmaHeld g = false) (v : Bool) :
    d.dmaChSrst g c v = if v then (d.dmaReset g c).setBit (chCtrl g c) 2 true else d.setBit (chCtrl g c) 2 false := by
  rw [Dev.dmaChSrst, hr, hh]
  exact if_neg Bool.false_ne_true

theorem dmaSrst_eq (hr : d.resetting = false) (hb : d.rbit (rstReg 0x10) g = false) (v : Bool) :
    d.dmaSrst g v = if v then
        (((((List.range 32).foldl (fun d c => d.dmaReset g c) d).setReg (dmaReg g 4) 0).setReg (dmaReg g 8) 0).setReg (dmaReg g 0xC) 1).modRegion g
          (fun r => { r with dmaRr := [] })
      else d.setReg (dmaReg g 0xC) 0 := by
  rw [Dev.dmaSrst, hr, hb]
  exact if_neg Bool.false_ne_true

end Writes

/-- Settles O42: each command of the engine, by the channel's state. -/
theorem dmaTransfersProceed : Obligations.DmaTransfersProceed := by
  refine ⟨fun g c s => ?_, fun g c s ho hp => ?_, fun g s h => ?_, fun g s r d1 b => ?_, fun d g c => ?_, fun s src idx g0 rest => ?_, fun g c s => ?_⟩
  · intro d x set y d1
    refine ⟨fun hb hf hen hv => ?_, fun h => ?_⟩
    · have hs : exec (.dmaHandover g c) s = .next (s.withDev (if y.descOk (d1.rfld (chCtrl g c) 14 12) then d1 else d1.dmaComplete g c true)) := by
        rw [exec_dmaHandover, dmaHandover_takes hb hf hen hv]
        rfl
      rw [hs]
      exact ⟨fun hd => by rw [if_pos hd], fun hd => by rw [if_neg (Bool.eq_false_iff.1 hd)]⟩
    · rw [exec_dmaHandover, dmaHandover_nothing h, withDev_self]
  · intro d x n tag lv d1
    refine ⟨fun hm hw => ?_, fun hm hr hw => ?_⟩
    · rw [exec_dmaBurstIssue, dmaIssue_fill ho hp hm hw]
      rfl
    · rw [exec_dmaBurstIssue, dmaIssue_copy ho hp hm hr hw]
      rfl
  · rw [exec_dmaBurstIssue, dmaIssue_none h, withDev_self]
  · intro c tag x
    refine ⟨fun hg hs => ⟨fun h hb hm he => ?_, fun h hb => ?_⟩, fun hg => ⟨fun h => ?_, fun h => ?_⟩⟩
    · rw [exec_dmaReadResponse, dmaRead_copy hg hs h hb hm he]
    · rw [exec_dmaWriteResponse, dmaWrite_ends hg hs h hb]
    · rw [exec_dmaReadResponse, dmaRead_gone h hg]
    · rw [exec_dmaWriteResponse, dmaWrite_gone h hg]
  · intro x d1 again hbusy hbursts herr habort hcmp htotal htok
    rw [dmaFinish_done hbusy hbursts htotal, dmaComplete_clean herr habort hcmp htok]
    rfl
  · intro paced hit
    refine ⟨fun h => ?_, fun h => ?_⟩
    · rw [exec_dmaRequestPulse, Dev.dmaPulse, h, withDev_self]
    · rw [exec_dmaRequestPulse, Dev.dmaPulse, h]
      rfl
  · intro d x stop
    refine ⟨fun hf => ⟨?_, fun hb => ?_, fun hb => ?_, ?_, fun v => ?_, fun o v => ?_⟩, fun hf b o v => ⟨?_, ?_, ?_, ?_⟩, fun hr hh => ⟨?_, ?_⟩, fun hr hb => ⟨?_, ?_⟩⟩
    · rw [exec_dmaChEnWrite, dmaEn_free hf, if_pos rfl]
    · rw [exec_abort, dmaAbort_free hf, if_neg (Bool.eq_false_iff.1 hb), withDev_self]
    · rw [exec_abort, dmaAbort_free hf, if_pos hb]
    · rw [exec_dmaChEnWrite, dmaEn_free hf, if_neg Bool.false_ne_true]
    · rw [exec_shadowValidWrite, Dev.dmaShadow, if_pos hf]
    · intro a
      refine ⟨fun hv => ?_, fun hv ho => ?_, fun hv ho => ?_, fun hv ho l hl => ?_⟩
      · rw [exec_shadowRegisterWrite, dmaShadowReg_taken hf hv]
      · obtain ⟨l, hl⟩ := regLoc_shadow g.isLt c.isLt o
        rw [exec_shadowRegisterWrite, dmaShadowReg_open hf hv hl, if_pos (by omega)]
      · obtain ⟨l, hl⟩ := regLoc_shadow g.isLt c.isLt o
        rw [exec_shadowRegisterWrite, dmaShadowReg_open hf hv hl, if_neg (by omega), if_pos (by omega)]
      · simp only [List.mem_cons, List.not_mem_nil, or_false] at ho
        rw [exec_shadowRegisterWrite, dmaShadowReg_open hf hv hl, if_neg (by omega), if_neg (by omega)]
    · rw [exec_dmaChEnWrite, dmaEn_held hf, withDev_self]
    · rw [exec_abort, dmaAbort_held hf, withDev_self]
    · rw [exec_shadowValidWrite, Dev.dmaShadow, if_neg (Bool.eq_false_iff.1 hf), withDev_self]
    · rw [exec_shadowRegisterWrite, dmaShadowReg_held hf, withDev_self]
    · rw [exec_chSrstWrite, dmaChSrst_eq hr hh, if_pos rfl]
    · rw [exec_chSrstWrite, dmaChSrst_eq hr hh, if_neg Bool.false_ne_true]
    · rw [exec_dmaSrstWrite, dmaSrst_eq hr hb, if_pos rfl]
    · rw [exec_dmaSrstWrite, dmaSrst_eq hr hb, if_neg Bool.false_ne_true]

end Sys2Proof.Machine

/-! ### O43: input channels -/

namespace Sys2Proof.Machine

section
variable (n : Fin 64) (s : State)

theorem exec_sampleDeliver (c : BitVec 32) : exec (.sampleDeliver n c) s = .next (s.withDev (s.dev.sampleDeliver n c)) := rfl
theorem exec_channelBlockComplete :
    exec (.channelBlockComplete n) s = .next (s.withDev (s.dev.afeComplete n ((s.dev.afe n).writes.length + 1))) := rfl
theorem exec_channelCreditResume : exec (.channelCreditResume n) s = .next (s.withDev (s.dev.afeResume n)) := rfl
theorem exec_settlingEnd : exec (.settlingEnd n) s = .next (s.withDev (s.dev.settlingEnd n)) := rfl
theorem exec_chCfgWrite (v : W32) : exec (.chCfgWrite n v) s = .next (s.withDev (s.dev.chCfgWrite n v)) := rfl

end

/-! A field under a mask, and a field written with its own value. -/

section Fields
variable {w : Nat} {v m : BitVec w} {hi lo : Nat}

theorem fld_and (hm : ∀ i, lo ≤ i → i ≤ hi → m.getLsbD i = true) : fld (v &&& m) hi lo = fld v hi lo := by
  refine Nat.eq_of_testBit_eq fun i => ?_
  rw [testBit_fld, testBit_fld, BitVec.getLsbD_and]
  by_cases hi' : i < hi + 1 - lo
  · rw [hm (lo + i) (Nat.le_add_right _ _) (by omega), Bool.and_true]
  · rw [decide_eq_false hi', Bool.false_and, Bool.false_and]

theorem putFld_own : putFld v hi lo (fld v hi lo) = v := by
  refine BitVec.eq_of_getLsbD_eq fun i hlt => ?_
  simp only [putFld, BitVec.getLsbD_or, BitVec.getLsbD_and, BitVec.getLsbD_not, BitVec.getLsbD_ofNat, Nat.testBit_shiftLeft,
    testBit_fld, Nat.testBit_two_pow_sub_one, hlt, decide_true, Bool.true_and]
  by_cases hl : lo ≤ i
  · by_cases hh : i - lo < hi + 1 - lo
    · rw [decide_eq_true hl, decide_eq_true hh, Nat.add_sub_cancel' hl]
      simp only [Bool.and_true, Bool.true_and, Bool.not_true, Bool.and_false, Bool.false_or]
    · rw [decide_eq_true hl, decide_eq_false hh]
      simp only [Bool.false_and, Bool.and_false, Bool.not_false, Bool.and_true, Bool.or_false]
  · rw [decide_eq_false hl]
    simp only [Bool.false_and, Bool.not_false, Bool.and_true, Bool.or_false]

end Fields

section
variable {d : Dev} {n : Nat}

theorem sampleDeliver_off (c : BitVec 32) (h : d.afeOn n = false ∨ d.afeValid n = false) : d.sampleDeliver n c = d := by
  refine if_pos ?_
  rw [Bool.or_eq_true, Bool.not_eq_true', Bool.not_eq_true']
  exact h

theorem afeComplete_none {k : Nat} (h : d.afeWritten n = none) : d.afeComplete n (k + 1) = d := by
  rw [Dev.afeComplete, h]

theorem afeComplete_last {k : Nat} {d1 : Dev} (h : d.afeWritten n = some (true, d1)) : d.afeComplete n (k + 1) = d1.afePush n := by
  rw [Dev.afeComplete, h]
  exact if_pos rfl

theorem afeResume_full (hf : (d.afe n).full = true) (hr : d.afeRoom n = true) :
    d.afeResume n = (d.modAfe n (fun c => { c with full := false })).afeGap n := by
  refine if_pos ?_
  rw [hf, hr]
  rfl

theorem afeResume_not (h : (d.afe n).full = false ∨ d.afeRoom n = false) : d.afeResume n = d := by
  refine if_neg (Bool.eq_false_iff.1 ?_)
  rw [Bool.and_eq_false_iff]
  exact h

theorem settlingEnd_settled (h : (d.afe n).settle = false) : d.settlingEnd n = d := by
  refine if_pos ?_
  rw [h]
  rfl

theorem settlingEnd_valid (hs : (d.afe n).settle = true) (ho : d.afeOn n = true) (hp : d.domOn (44 + n / 16) = true) :
    d.settlingEnd n =
      let i := firstIndex d.time.toNat (d.rfld (afeReg n 0) 24 21)
      ((((d.setBit (afeReg n 0x48) 31 true).setBit (afeReg n 0x48) 30 false).setPair (afeReg n 0x50) i).modAfe n
        (fun c => { c with settle := false, next := i })).tripUpdate := by
  refine if_neg ?_
  rw [hs, ho, hp]
  exact Bool.false_ne_true

theorem chCfgWrite_held (h : d.meas.cal = some (n / 16)) (v : W32) :
    d.chCfgWrite n v = d.modAfe n (fun c => { c with held := c.held ++ [(0, v)] }) := if_pos h

theorem chCfgWrite_now (h : d.meas.cal ≠ some (n / 16)) (v : W32) : d.chCfgWrite n v = d.chCfg n v :=
  by
  simp only [Dev.chCfgWrite, Dev.chWrite, h, if_false, Dev.chWriteNow, if_true]

/-- The bits that CH_CFG keeps of a written word hold each of its fields. -/
theorem fld_cfgBits {v : W32} {hi lo : Nat} (hlo : 8 ≤ lo) (hhi : hi < 32) : fld (v &&& 0xFFFFFF00#32) hi lo = fld v hi lo := by
  have hmask : ∀ i : Fin 32, 8 ≤ i.val → (0xFFFFFF00#32).getLsbD i = true := by decide
  exact fld_and fun i h1 h2 => hmask ⟨i, by omega⟩ (by simp only; omega)

section Config
variable {v : W32} (hc : fld v 27 25 ≠ 0) (hrange : fld v 30 29 ≠ 3) (hcls : fld v 27 25 < 6) (hrate : fld v 24 21 < 10) (hmode : fld v 18 17 ≠ 3)
  (hen : v.getLsbD 31 = false)
include hc hrange hcls hrate hmode hen

theorem chCfg_off (hoff : d.afeOn n = false) : d.chCfg n v = d.setReg (afeReg n 0) (v &&& 0xFFFFFF00#32) := by
  have hoff' : (d.reg (afeReg n 0)).getLsbD 31 = false := hoff
  have hen' : (v &&& 0xFFFFFF00#32).getLsbD 31 = false := by rw [BitVec.getLsbD_and, hen, Bool.false_and]
  simp only [Dev.chCfg, fld_cfgBits (v := v) (show 8 ≤ 29 by decide) (show 30 < 32 by decide),
    fld_cfgBits (v := v) (show 8 ≤ 25 by decide) (show 27 < 32 by decide), fld_cfgBits (v := v) (show 8 ≤ 21 by decide) (show 24 < 32 by decide),
    fld_cfgBits (v := v) (show 8 ≤ 17 by decide) (show 18 < 32 by decide), hc, hrange, hmode, Nat.not_le.2 hcls, Nat.not_le.2 hrate, hoff',
    Bool.false_eq_true, if_false, hen', Bool.not_false, if_true]

theorem chCfg_goesOff (hv : v = d.reg (afeReg n 0) &&& 0x7FFFFF00#32) (hon : d.afeOn n = true) :
    d.chCfg n v = (d.setReg (afeReg n 0) v).afeOffline n 3 false := by
  have hon' : (d.reg (afeReg n 0)).getLsbD 31 = true := hon
  have hsame : v &&& 0xFFFFFF00#32 = v := by
    rw [hv, BitVec.and_assoc]
    rfl
  have hmask : ∀ i : Fin 31, 8 ≤ i.val → (0x7FFFFF00#32).getLsbD i = true := by decide
  have hfld : ∀ hi lo, 8 ≤ lo → hi < 31 → fld (d.reg (afeReg n 0)) hi lo = fld v hi lo := fun hi lo hlo hhi => by
    rw [hv, fld_and fun i h1 h2 => hmask ⟨i, by omega⟩ (by simp only; omega)]
  simp only [Dev.chCfg, hsame, hc, hrange, hmode, Nat.not_le.2 hcls, Nat.not_le.2 hrate, hon', if_false, if_true,
    hfld 19 19 (by decide) (by decide), hfld 18 17 (by decide) (by decide), hfld 15 12 (by decide) (by decide), hfld 11 8 (by decide) (by decide),
    putFld_own, hen, Bool.not_false]

end Config

end

/-- Settles O43: a delivered sample goes to the ring, to its block and on as the horizon permits, and a channel's configuration acts, waits or
takes it offline. -/
theorem channelsDeliverSamples : Obligations.ChannelsDeliverSamples := by
  intro n s d
  refine ⟨fun c h => ?_, fun c hon hval => ?_, fun d1 h => ?_, fun h => ?_, ⟨fun hf hr => ?_, fun h => ?_⟩, fun hs ho hp => ?_, fun h => ?_,
    fun v h => ?_, fun v h hoff hen hc hrange hcls hrate hmode => ?_, ?_⟩
  · rw [exec_sampleDeliver, sampleDeliver_off c h, withDev_self]
  · refine congrArg (fun x => Host.Outcome.next (s.withDev x)) (if_neg ?_)
    rw [hon, hval]
    exact Bool.false_ne_true
  · rw [exec_channelBlockComplete, afeComplete_last h]
  · rw [exec_channelBlockComplete, afeComplete_none h, withDev_self]
  · rw [exec_channelCreditResume, afeResume_full hf hr]
  · rw [exec_channelCreditResume, afeResume_not h, withDev_self]
  · rw [exec_settlingEnd, settlingEnd_valid hs ho hp]
  · rw [exec_settlingEnd, settlingEnd_settled h, withDev_self]
  · rw [exec_chCfgWrite, chCfgWrite_held h]
  · rw [exec_chCfgWrite, chCfgWrite_now h, chCfg_off hc hrange hcls hrate hmode hen hoff]
  · intro v h hon hc hrange hcls hrate hmode
    have hen : v.getLsbD 31 = false := by
      rw [BitVec.getLsbD_and, show (0x7FFFFF00#32).getLsbD 31 = false from rfl, Bool.and_false]
    rw [exec_chCfgWrite, chCfgWrite_now h, chCfg_goesOff hc hrange hcls hrate hmode hen rfl hon]

end Sys2Proof.Machine

/-! ### O44: sensors, limits, calibration and tachometers -/

namespace Sys2Proof.Machine

section
variable (n : Fin 64) (t : Fin 8) (s : State)

theorem exec_biasMeasure (mv : W16) : exec (.biasMeasure n mv) s = .next (s.withDev (s.dev.biasMeasure n mv.toNat)) := rfl
theorem exec_faultClassAdopt : exec (.faultClassAdopt n) s = .next (s.withDev (s.dev.faultAdopt n)) := rfl
theorem exec_limitActivate (cs : List (BitVec 24)) : exec (.limitActivate n cs) s = .next (s.withDev (s.dev.limitOn n cs)) := rfl
theorem exec_limitDeactivate (cs : List (BitVec 24)) : exec (.limitDeactivate n cs) s = .next (s.withDev (s.dev.limitOff n cs)) := rfl
theorem exec_calEnd (co : List (Option (W32 × BitVec 24))) : exec (.calEnd co) s = .next (s.withDev (s.dev.calEnd co)) := rfl
theorem exec_tachTimeout : exec (.tachTimeout t) s = .next (s.withDev (s.dev.tachTimeout t)) := rfl

end

section Bias
variable {mv viepe win : Nat}

theorem biasClass_low (h : mv < 1000) : biasClass mv viepe win = 4 := if_pos h

theorem biasClass_supply (h : 1000 ≤ mv) (hv : viepe < mv + 3000) : biasClass mv viepe win = 3 :=
  (if_neg (Nat.not_lt.2 h)).trans (if_pos hv)

theorem biasClass_window (h : 1000 ≤ mv) (hv : mv + 3000 ≤ viepe) :
    biasClass mv viepe win = if mv < win % 65536 then 1 else if win / 65536 < mv then 2 else 0 :=
  (if_neg (Nat.not_lt.2 h)).trans (if_neg (Nat.not_lt.2 hv))

end Bias

section Channel
variable {d : Dev} {n : Nat}

theorem faultAdopt_same (h : d.rfld (afeStatus n) 27 25 = (d.afe n).cls) : d.faultAdopt n = d := if_pos (Or.inr h)

theorem faultAdopt_other (ht : d.rfld (afeReg n 0) 27 25 ≠ 0) (h : d.rfld (afeStatus n) 27 25 ≠ (d.afe n).cls) :
    d.faultAdopt n =
      (if (d.afe n).cls = 0 then d.setFld (afeStatus n) 27 25 (d.afe n).cls
        else (d.setFld (afeStatus n) 27 25 (d.afe n).cls).setBit (afeStatus n) 3 true).raiseFree (400 + n) 0 :=
  if_neg (not_or.2 ⟨ht, h⟩)

theorem limitOn_beyond {cs : List (BitVec 24)} (ha : d.rbit (afeReg n 0x38) 4 = true) (hv : d.afeValid n = true) (hl : d.rbit (afeStatus n) 28 = false)
    (hr : lastRun (d.rfld (afeReg n 0x38) 3 0) cs (d.beyond n) = true) :
    d.limitOn n cs = (((d.setBit (afeStatus n) 28 true).setBit (afeStatus n) 4 true).raiseFree (400 + n) 0).tripUpdate := by
  refine if_pos ?_
  rw [ha, hv, hl, hr]
  rfl

theorem limitOn_set {cs : List (BitVec 24)} (h : d.rbit (afeStatus n) 28 = true) : d.limitOn n cs = d := by
  refine if_neg (Bool.eq_false_iff.1 ?_)
  rw [h, Bool.not_true, Bool.and_false, Bool.false_and]

theorem limitOff_within {cs : List (BitVec 24)} (hl : d.rbit (afeStatus n) 28 = true)
    (hr : lastRun (d.rfld (afeReg n 0x38) 3 0) cs (fun c => !d.beyond n c) = true) :
    d.limitOff n cs = (d.setBit (afeStatus n) 28 false).tripUpdate := by
  refine if_pos ?_
  rw [hl, hr]
  rfl

theorem limitOff_clear {cs : List (BitVec 24)} (h : d.rbit (afeStatus n) 28 = false) : d.limitOff n cs = d := by
  refine if_neg (Bool.eq_false_iff.1 ?_)
  rw [h, Bool.false_and]

theorem tachTimeout_set {t : Nat} (h : d.rbit (tchReg t 0x30) 2 = true) : d.tachTimeout t = d := by
  refine if_pos ?_
  rw [h, Bool.or_true]

theorem tachTimeout_stops {t : Nat} (hon : d.rbit (tchReg t 0) 31 = true) (hto : d.rfld (tchReg t 0xC) 15 0 ≠ 0) (h : d.rbit (tchReg t 0x30) 2 = false) :
    d.tachTimeout t =
      let d1 := (d.setBit (tchReg t 0x30) 2 true).raiseFree (464 + t) 0
      if d1.rbit (tchReg t 0x18) 7 then d1.tachSend t (status stTACH_STOPPED originBlock t) (tyByte 6 false false false) else d1 := by
  refine if_neg ?_
  rw [hon, h, beq_false_of_ne hto]
  exact Bool.false_ne_true

theorem calEnd_none {co : List (Option (W32 × BitVec 24))} (h : d.meas.cal = none) : d.calEnd co = d := by
  rw [Dev.calEnd, h]

end Channel

/-- Settles O44: each command of the sensors, the calibration and the tachometers does what its condition says. -/
theorem sensorsLimitsAndTachometers : Obligations.SensorsLimitsAndTachometers := by
  refine ⟨fun n s => ?_, fun v s => ?_, fun co s => ?_, fun t s => ?_, fun mv b s => ⟨rfl, rfl⟩⟩
  · intro d st
    refine ⟨fun mv ht => ?_, fun mv ht => ?_, ?_, fun h => ?_, fun cs ha hv hl hr => ?_, fun cs h => ?_, fun cs hl hr => ?_, fun cs h => ?_⟩
    · intro d1 viepe win
      refine ⟨biasClass mv.toNat viepe win, congrArg (fun x => Host.Outcome.next (s.withDev x)) (if_neg ht), biasClass_low, biasClass_supply,
        fun h hv => ⟨fun hw => ?_, fun hw => ⟨fun hh => ?_, fun hh => ?_⟩⟩⟩
      · rw [biasClass_window h hv, if_pos hw]
      · rw [biasClass_window h hv, if_neg (Nat.not_lt.2 hw), if_pos hh]
      · rw [biasClass_window h hv, if_neg (Nat.not_lt.2 hw), if_neg (Nat.not_lt.2 hh)]
    · rw [exec_biasMeasure, Dev.biasMeasure, if_pos ht, withDev_self]
    · intro k ht hk
      rw [exec_faultClassAdopt, faultAdopt_other ht hk]
      rfl
    · rw [exec_faultClassAdopt, faultAdopt_same h, withDev_self]
    · rw [exec_limitActivate, limitOn_beyond ha hv hl hr]
      rfl
    · rw [exec_limitActivate, limitOn_set h, withDev_self]
    · rw [exec_limitDeactivate, limitOff_within hl hr]
      rfl
    · rw [exec_limitDeactivate, limitOff_clear h, withDev_self]
  · intro a d1 d g
    refine ⟨fun hv => ?_, fun hv h => ?_, fun hv hc hp hs => ?_⟩
    · refine congrArg (fun x => Host.Outcome.next (s.withDev x)) (if_pos ?_)
      rw [hv]
      rfl
    · refine congrArg (fun x => Host.Outcome.next (s.withDev x)) ((if_neg ?_).trans (if_pos ?_))
      · rw [hv]
        exact Bool.false_ne_true
      · rw [Bool.or_eq_true, Bool.or_eq_true, Bool.not_eq_true', Bool.not_eq_true']
        exact or_assoc.2 h
    · refine congrArg (fun x => Host.Outcome.next (s.withDev x)) ((if_neg ?_).trans (if_neg ?_))
      · rw [hv]
        exact Bool.false_ne_true
      · change ¬ (d.meas.cal.isSome || !d.domOn (44 + g) || !d.rbit (afeCtlReg 4) 2) = true
        rw [hc, hp, hs]
        exact Bool.false_ne_true
  · intro held one
    refine ⟨fun g h => ?_, fun h => ?_⟩
    · rw [exec_calEnd, Dev.calEnd, h]
      rfl
    · rw [exec_calEnd, calEnd_none h, withDev_self]
  · intro d st
    refine ⟨fun w h => ?_, fun w h hw => ?_, fun w h hw => ?_, ?_, fun h => ?_, ⟨fun hon hto h => ?_, fun h => ?_⟩⟩
    · refine congrArg (fun x => Host.Outcome.next (s.withDev x)) (if_pos ?_)
      change (!d.rbit (tchReg t 0) 31) = true
      rw [h]
      rfl
    · refine congrArg (fun x => Host.Outcome.next (s.withDev x)) ((if_neg ?_).trans (if_pos hw))
      change ¬ (!d.rbit (tchReg t 0) 31) = true
      rw [h]
      exact Bool.false_ne_true
    · have hstart : ¬ (!d.rbit (tchReg t 0) 31) = true := by
        rw [h]
        exact Bool.false_ne_true
      intro d1 x
      refine ⟨fun hx => congrArg (fun y => Host.Outcome.next (s.withDev y)) ((if_neg hstart).trans ((if_neg (Nat.not_lt.2 hw)).trans (if_pos hx))), ?_⟩
      intro hx _ c a d2 d3 h3
      refine congrArg (fun y => Host.Outcome.next (s.withDev y))
        ((if_neg hstart).trans ((if_neg (Nat.not_lt.2 hw)).trans ((if_neg (Nat.not_lt.2 hx)).trans (if_pos ?_))))
      change (!d3.rbit (tchReg t 0x18) 7) = true
      rw [h3]
      rfl
    · intro x hx
      exact congrArg (fun y => Host.Outcome.next (s.withDev y)) (if_pos hx)
    · exact congrArg (fun y => Host.Outcome.next (s.withDev y)) (if_neg (Bool.eq_false_iff.1 h))
    · rw [exec_tachTimeout, tachTimeout_stops hon hto h]
    · rw [exec_tachTimeout, tachTimeout_set h, withDev_self]

end Sys2Proof.Machine

/-! ### O45: trips and analog outputs -/

namespace Sys2Proof.Machine

section
variable (l : Fin 32) (m : Fin 16) (s : State)

theorem exec_tripRequest : exec .tripRequest s = .next (s.withDev s.dev.tripRequest) := rfl
theorem exec_tripWatchdog (b : Bool) : exec (.tripWatchdog l b) s = .next (s.withDev (s.dev.tripWatchdog l b)) := rfl
theorem exec_copyDisagree : exec (.copyDisagree l) s = .next (s.withDev (s.dev.copyDisagree l)) := rfl
theorem exec_aoutRequest : exec .aoutRequest s = .next (s.withDev s.dev.aoutRequest) := rfl
theorem exec_aoutUpdate : exec (.aoutUpdate m) s = .next (s.withDev (s.dev.aoutUpdate m)) := rfl

end

/-! The demand register after an update of the lines. -/

section Lines
variable {d : Dev}

theorem reg_tripUpdate (h : keysRise d.regs) :
    d.tripUpdate.reg (tripReg 0x10) = d.tripRaw ||| (d.meas.trip.latched ||| (d.tripRaw &&& ~~~d.reg (tripReg 0x10) &&& d.reg (tripReg 8))) := by
  have hne : tripReg 0x10 ≠ tripReg 0x14 := by decide
  rw [Dev.tripUpdate, reg_setReg_other _ _ _ _ (keysRise_mset _ _ h) hne]
  exact reg_setReg_same (d.modMeas _) _ _ h

theorem tripUpdate_raw {l : Nat} (h : keysRise d.regs) (hr : d.tripRaw.getLsbD l = true) : (d.tripUpdate.reg (tripReg 0x10)).getLsbD l = true := by
  rw [reg_tripUpdate h, BitVec.getLsbD_or, hr, Bool.true_or]

theorem tripUpdate_latched {l : Nat} (h : keysRise d.regs) (hl : d.meas.trip.latched.getLsbD l = true) :
    (d.tripUpdate.reg (tripReg 0x10)).getLsbD l = true := by
  rw [reg_tripUpdate h, BitVec.getLsbD_or, BitVec.getLsbD_or, hl, Bool.true_or, Bool.or_true]

theorem tripUpdate_quiet {l : Nat} (h : keysRise d.regs) (hr : d.tripRaw.getLsbD l = false) (hl : d.meas.trip.latched.getLsbD l = false) :
    (d.tripUpdate.reg (tripReg 0x10)).getLsbD l = false := by
  simp only [reg_tripUpdate h, BitVec.getLsbD_or, BitVec.getLsbD_and, hr, hl, Bool.false_and, Bool.or_self]

/-- A line that is not armed, is forced, or has a hardware demand is in demand. -/
theorem tripRaw_of {l : Nat} (hl : l < 32)
    (h : (d.reg (tripReg 0)).getLsbD l = false ∨ (d.reg (tripReg 4)).getLsbD l = true ∨ d.hwDemand.getLsbD l = true) : d.tripRaw.getLsbD l = true := by
  simp only [Dev.tripRaw, BitVec.getLsbD_or, BitVec.getLsbD_not, hl, decide_true, Bool.true_and, Bool.or_eq_true, Bool.not_eq_true']
  rcases h with h | h | h
  · exact Or.inl (Or.inl (Or.inl (Or.inl (Or.inl (Or.inl h)))))
  · exact Or.inl (Or.inl (Or.inl (Or.inl (Or.inl (Or.inr h)))))
  · exact Or.inr h

end Lines

/-! A request at the trip block and at the analog outputs. -/

section Requests
variable {dev d d1 : Dev} {q : Packet} {t t' : Token} {b : Bool}

section Trip
variable (hq : dev.takeTok measNode (fun t => t.tag.clu != 1) = some (q, t, d)) (ht : d.blockTag measNode t (infieldIs t.tag 1 0 0) = (some t', d1))
include hq ht

theorem tripRequest_far (hl : 32 ≤ t'.tag.node.toNat) :
    dev.tripRequest = (d1.blockError measNode t' stBAD_NODE t'.tag.node.toNat).ioAnswer q.src none := by
  simp only [Dev.tripRequest, hq, ht, hl, if_true]

theorem tripRequest_unbound (hl : t'.tag.node.toNat < 32)
    (hc : copyOf (d1.reg (tripReg (0x100 + 8 * t'.tag.node.toNat))) (d1.reg (tripReg (0x104 + 8 * t'.tag.node.toNat))) t'.tag = none) :
    dev.tripRequest = (d1.blockError measNode t' stIO_UNBOUND t'.tag.node.toNat).ioAnswer q.src none := by
  simp only [Dev.tripRequest, hq, ht, Nat.not_le.2 hl, hc, if_false]

theorem tripRequest_bound (hl : t'.tag.node.toNat < 32)
    (hc : copyOf (d1.reg (tripReg (0x100 + 8 * t'.tag.node.toNat))) (d1.reg (tripReg (0x104 + 8 * t'.tag.node.toNat))) t'.tag = some b) :
    dev.tripRequest =
      let l := t'.tag.node.toNat
      let dem := if Token.err t' || t'.pay != 0 then 1 else 0
      (d1.modTrip (fun r =>
        if b then { r with latB := putFld r.latB l l dem, wdB := putFld r.wdB l l 0 } else { r with latA := putFld r.latA l l dem, wdA := putFld r.wdA l l 0 })).ioSignal q.src := by
  simp only [Dev.tripRequest, hq, ht, Nat.not_le.2 hl, hc, if_false]

end Trip

theorem aoutRequest_bound (hq : dev.takeTok measNode (fun t => t.tag.clu == 1) = some (q, t, d))
    (ht : d.blockTag measNode t (infieldIs t.tag 1 1 0) = (some t', d1)) (hm : t'.tag.node.toNat < 16)
    (hc : copyOf (d1.reg (aoutReg t'.tag.node.toNat 0xC)) (d1.reg (aoutReg t'.tag.node.toNat 0x10)) t'.tag = some b) :
    dev.aoutRequest =
      let m := t'.tag.node.toNat
      let v : W32 := t'.pay.extractLsb' 0 32
      let ok := !Token.err t' && !isNan f32 v.toNat
      let d2 := if ok && (dacCode v.toNat).2 then d1.setBit (aoutReg m 0x14) 3 true else d1
      (d2.modAout m (fun o => if b then { o with b := some (v, ok) } else { o with a := some (v, ok) })).ioSignal q.src := by
  simp only [Dev.aoutRequest, hq, ht, Nat.not_le.2 hm, hc, if_false]

end Requests

/-! A line's watchdog and its copies; an output's update. -/

section Single
variable {d : Dev} {l m : Nat} {b : Bool}

theorem tripWatchdog_off (h : d.rfld (tripReg 0x24) 15 0 = 0 ∨ (if b then d.boundB else d.boundA).getLsbD l = false) : d.tripWatchdog l b = d := by
  refine if_pos ?_
  rw [Bool.not_eq_true']
  exact h

theorem tripWatchdog_expired {d1 : Dev} (hw : d.rfld (tripReg 0x24) 15 0 ≠ 0) (hb : (if b then d.boundB else d.boundA).getLsbD l = true)
    (hd : d1 = d.modTrip (fun r => if b then { r with wdB := putFld r.wdB l l 1 } else { r with wdA := putFld r.wdA l l 1 }))
    (hn : (d1.graph (d1.rfld (tripReg (0x100 + 8 * l)) 11 0)).dup = false ∨ d1.copyLost (d1.rfld (tripReg (0x100 + 8 * l)) 11 0) b = false) :
    d.tripWatchdog l b = d1 := by
  subst hd
  refine (if_neg ?_).trans (if_neg (Bool.eq_false_iff.1 (Bool.and_eq_false_iff.2 hn)))
  rw [hb]
  exact not_or.2 ⟨hw, Bool.false_ne_true⟩

theorem copyDisagree_differ (hb : (d.boundA &&& d.boundB).getLsbD l = true) (hn : d.meas.trip.latA.getLsbD l ≠ d.meas.trip.latB.getLsbD l) :
    d.copyDisagree l = (d.setBit (tripReg 0x1C) l true).raiseFree (472 + l) 0 := by
  refine if_pos ?_
  rw [hb, bne_iff_ne.2 hn]
  rfl

theorem copyDisagree_agree (h : (d.boundA &&& d.boundB).getLsbD l = false ∨ d.meas.trip.latA.getLsbD l = d.meas.trip.latB.getLsbD l) :
    d.copyDisagree l = d := by
  refine if_neg (Bool.eq_false_iff.1 (Bool.and_eq_false_iff.2 ?_))
  rw [bne_eq_false_iff_eq]
  exact h

theorem aoutUpdate_off (h : d.rbit (aoutReg m 0) 31 = false) : d.aoutUpdate m = d.modAout m (fun o => { o with a := none, b := none }) := by
  refine if_pos ?_
  rw [h]
  rfl

section On
variable (hon : d.rbit (aoutReg m 0) 31 = true)
include hon

theorem aoutUpdate_value {v : W32} (hact : d.rbit (aoutReg m 0x14) 7 = false) (ha : (mget {} d.meas.aout m).a = some (v, true))
    (hb : (mget {} d.meas.aout m).b = none ∨ (mget {} d.meas.aout m).b = some (v, true)) :
    d.aoutUpdate m = (d.modAout m (fun o => { o with a := none, b := none })).aoutDrive m v := by
  have hact' : (d.reg (aoutReg m 0x14)).getLsbD 7 = false := hact
  by_cases hcopy : d.rfld (aoutReg m 0x10) 31 16 = 0
  · simp only [Dev.aoutUpdate, hon, hact', ha, hcopy, Bool.not_true, Bool.false_eq_true, if_false, if_true]
  · rcases hb with hb | hb <;>
      simp only [Dev.aoutUpdate, hon, hact', ha, hb, hcopy, Bool.not_true, Bool.false_eq_true, if_false, if_true]

theorem aoutUpdate_missing (ha : (mget {} d.meas.aout m).a = none) (hb : (mget {} d.meas.aout m).b = none) :
    d.aoutUpdate m =
      let d2 := ((d.modAout m (fun o => { o with a := none, b := none })).setBit (aoutReg m 0x14) 1 true).modAout m (fun o => { o with miss := o.miss + 1 })
      if d2.rfld (aoutReg m 0) 23 16 < (mget {} d.meas.aout m).miss + 1 then d2.aoutSafe m true else d2 := by
  simp only [Dev.aoutUpdate, hon, ha, hb, ite_self, Option.isNone_none, Bool.and_self, Bool.not_true, Bool.false_eq_true, if_false, if_true]

end On

end Single

/-- Settles O45: the lines follow every change of their masks, requests reach the copies that are bound, and an output updates from the active
copy. -/
theorem tripsAndOutputsAct : Obligations.TripsAndOutputsAct := by
  refine ⟨fun v s => ⟨rfl, rfl⟩, fun d l hl hw => ⟨fun h => ?_, fun hr hlat => ?_⟩, fun s q t t' d d1 b hq ht => ⟨fun hl => ?_, fun hl hc => ?_, fun hl hc => ?_⟩,
    fun l s => ⟨fun b h => ?_, fun b hw hb => ?_, fun v => rfl, fun hb hn => ?_, fun h => ?_⟩, fun k v s => ⟨fun hk regs => ?_, fun hk regs => ?_⟩,
    fun s q t t' d d1 b hq ht => fun hm hc => ?_, fun m s => ⟨fun h => ?_, fun v w hon hact ha hb hvw => ?_, fun v hon hact ha hb => ?_, fun hon ha hb => ?_, rfl⟩⟩
  · obtain ⟨hk, _⟩ := keysRise_of_mwf hw
    rcases h with h | h | h | h
    · exact tripUpdate_raw hk (tripRaw_of hl (Or.inl h))
    · exact tripUpdate_raw hk (tripRaw_of hl (Or.inr (Or.inl h)))
    · exact tripUpdate_raw hk (tripRaw_of hl (Or.inr (Or.inr h)))
    · exact tripUpdate_latched hk h
  · exact tripUpdate_quiet (keysRise_of_mwf hw).left hr hlat
  · rw [exec_tripRequest, tripRequest_far hq ht hl]
  · rw [exec_tripRequest, tripRequest_bound hq ht hl hc]
  · rw [exec_tripRequest, tripRequest_unbound hq ht hl hc]
  · rw [exec_tripWatchdog, tripWatchdog_off h, withDev_self]
  · intro d1 hn
    rw [exec_tripWatchdog, tripWatchdog_expired hw hb rfl hn]
  · rw [exec_copyDisagree, copyDisagree_differ hb hn]
  · rw [exec_copyDisagree, copyDisagree_agree h, withDev_self]
  · exact congrArg (fun x => Host.Outcome.next (s.withDev x)) (if_pos hk)
  · exact congrArg (fun x => Host.Outcome.next (s.withDev x)) (if_neg (Nat.not_lt.2 hk))
  · rw [exec_aoutRequest, aoutRequest_bound hq ht hm hc]
  · rw [exec_aoutUpdate, aoutUpdate_off h]
  · rw [exec_aoutUpdate, aoutUpdate_value hon hact ha (Or.inr (hvw ▸ hb))]
  · rw [exec_aoutUpdate, aoutUpdate_value hon hact ha (Or.inl hb)]
  · rw [exec_aoutUpdate, aoutUpdate_missing hon ha hb]

end Sys2Proof.Machine

/-! ### O46: streams and the call room -/

namespace Sys2Proof.Machine

section
variable (k : BitVec 16) (s : State)

theorem exec_frameClassify (f : FrameFrom) : exec (.frameClassify f) s = .next (s.withDev (s.dev.frameClassify f)) := rfl
theorem exec_ftWrite : exec .ftWrite s = .next (s.withDev (s.dev.writes (ingReg 0xA0) s.dev.ftWrite)) := rfl
theorem exec_bindRequest : exec .bindRequest s = .next (s.withDev s.dev.bindRequest) := rfl
theorem exec_streamData : exec .streamData s = .next (s.withDev s.dev.streamData) := rfl
theorem exec_streamCreditResume : exec (.streamCreditResume k) s = .next (s.withDev (s.dev.strResume k.toNat)) := rfl
theorem exec_streamGoneTimeout : exec (.streamGoneTimeout k) s = .next (s.withDev (s.dev.strGo k.toNat)) := rfl
theorem exec_crDataRead : exec .crDataRead s = .next (s.withDev s.dev.crRead.2) := rfl
theorem exec_retire : exec .retire s = .next (s.withDev s.dev.retireRow) := rfl
theorem exec_announce (pol : Fin 3) (hb : W16) (ents : List (List W32)) :
    exec (.announce pol hb ents) s = .next (s.withDev (s.dev.announce pol hb.toNat ents)) := rfl
theorem exec_nodeHeartbeatLost (src : W64) : exec (.nodeHeartbeatLost src) s = .next (s.withDev (s.dev.heartbeatLost src)) := rfl
theorem exec_flowEntryRelease (fl : BitVec 20) : exec (.flowEntryRelease fl) s = .next (s.withDev (s.dev.flowRelease fl.toNat)) := rfl
theorem exec_crTxSend (v : W32) : exec (.crTxSend v) s = .next (s.withDev (s.dev.writes (ingReg 0x44) (s.dev.crTxCtrl v))) := rfl
theorem exec_plcaCollision (k : Fin 8) (id : BitVec 6) : exec (.plcaCollision k id) s = .next (s.withDev (s.dev.plcaCollision k id.toNat)) := rfl
theorem exec_horizonReceive (o : Fin 19) : exec (.horizonReceive o) s = .next (s.withDev (s.dev.horizonReceive o)) := rfl

/-- With no tag of an ended binding outstanding nothing is dropped first. -/
theorem exec_streamBlockComplete (h : s.dev.ing.late = []) :
    exec (.streamBlockComplete k) s = .next (s.withDev (s.dev.strComplete k.toNat ((s.dev.str k.toNat).writes.length + 1))) := by
  have hdrop : s.dev.strDrop s.dev.ing.late.length = s.dev := by
    rw [h]
    rfl
  change Host.Outcome.next (s.withDev ((s.dev.strDrop s.dev.ing.late.length).strComplete k.toNat _)) = _
  rw [hdrop]

end

/-! An entry of the flow table is read back as it was stored. -/

theorem leNat_leBytes : ∀ n v, leNat (leBytes n v) = v % 256 ^ n
  | 0, v => by rw [Nat.pow_zero, Nat.mod_one]; rfl
  | n + 1, v => by
    rw [leBytes, leNat, leNat_leBytes n, BitVec.toNat_ofNat, Nat.pow_succ' (n := n), Nat.mod_mul (a := 256)]

/-- The words that a stored list of 32-bit words holds, one by one. -/
theorem readMem_words (m : List Host.Cell) (h : Memory.wf m = true) : ∀ (ws : List W32) (a i : Nat), (hi : i < ws.length) →
    leNat (readMem (writeMem m a (ws.flatMap (fun w => leBytes 4 w.toNat))) (a + 4 * i) 4) = ws[i].toNat := by
  intro ws a i hi
  have hsplit : ws = ws.take i ++ ws[i] :: ws.drop (i + 1) := by
    rw [List.getElem_cons_drop, List.take_append_drop]
  have hlen : ((ws.take i).flatMap (fun w : W32 => leBytes 4 w.toNat)).length = 4 * i := by
    simp only [List.length_flatMap, leBytes_length, List.map_const', List.sum_replicate_nat, List.length_take]
    omega
  have hbytes : ws.flatMap (fun w => leBytes 4 w.toNat) =
      (ws.take i).flatMap (fun w => leBytes 4 w.toNat) ++ (leBytes 4 ws[i].toNat ++ (ws.drop (i + 1)).flatMap (fun w => leBytes 4 w.toNat)) := by
    conv => lhs; rw [hsplit]
    rw [List.flatMap_append, List.flatMap_cons]
  have hmem := wf_writeMem ((ws.take i).flatMap (fun w => leBytes 4 w.toNat)) m a h
  have hmem2 := wf_writeMem (leBytes 4 ws[i].toNat) _ (a + 4 * i) hmem
  rw [hbytes, writeMem_append, writeMem_append, hlen, leBytes_length]
  have hread : readMem (writeMem (writeMem (writeMem m a ((ws.take i).flatMap (fun w => leBytes 4 w.toNat))) (a + 4 * i) (leBytes 4 ws[i].toNat))
      (a + 4 * i + 4) ((ws.drop (i + 1)).flatMap (fun w => leBytes 4 w.toNat))) (a + 4 * i) 4 = leBytes 4 ws[i].toNat := by
    have hback := readMem_writeMem (leBytes 4 ws[i].toNat) _ (a + 4 * i) hmem
    rw [leBytes_length] at hback
    refine Eq.trans ?_ hback
    simp only [readMem]
    rw [mget_writeMem_other _ _ _ _ hmem2 (Or.inl (by omega)), mget_writeMem_other _ _ _ _ hmem2 (Or.inl (by omega)),
      mget_writeMem_other _ _ _ _ hmem2 (Or.inl (by omega)), mget_writeMem_other _ _ _ _ hmem2 (Or.inl (by omega))]
  rw [hread, leNat_leBytes]
  exact Nat.mod_eq_of_lt ws[i].isLt

theorem ftEntry_ftStore (d : Dev) (flow : Nat) (ws : List W32) (hlen : ws.length = 16) (h : Memory.wf d.mem = true) :
    (d.ftStore flow ws).ftEntry flow = ws := by
  refine List.ext_getElem ?_ fun i h1 h2 => ?_
  · rw [Dev.ftEntry, List.length_map, List.length_range, hlen]
  · simp only [Dev.ftEntry, List.getElem_map, List.getElem_range]
    have hword := readMem_words d.mem h ws (d.ftAddr flow) i h2
    change BitVec.ofNat 32 (leNat (readMem (writeMem d.mem (d.ftAddr flow) _) (d.ftAddr flow + 4 * i) 4)) = ws[i]
    rw [hword, BitVec.ofNat_toNat, BitVec.setWidth_eq]

section Table
variable {d : Dev}

theorem ftWrite_legal (he : entOk ((List.range 16).map (fun i => d.reg (ingReg (0x60 + 4 * i)))) = true) (hb : d.flowBound (d.rfld (ingReg 0x50) 19 0) = false) :
    d.ftWrite = d.ftStore (d.rfld (ingReg 0x50) 19 0) ((List.range 16).map (fun i => d.reg (ingReg (0x60 + 4 * i)))) := by
  refine if_neg ?_
  rw [he, hb]
  exact Bool.false_ne_true

theorem ftWrite_refused (h : entOk ((List.range 16).map (fun i => d.reg (ingReg (0x60 + 4 * i)))) = false ∨ d.flowBound (d.rfld (ingReg 0x50) 19 0) = true) :
    d.ftWrite = d.setBit (ingReg 0xA0) 2 true := by
  refine if_pos ?_
  rw [Bool.or_eq_true, Bool.not_eq_true']
  exact h

end Table

/-! Binding a stream. -/

section Bind
variable {d : Dev} {key : W64} {graph : BitVec 12} {ctx : BitVec 22} (hres : fld key 63 33 = 0) (hen : key.getLsbD 20 = false)
include hres hen

theorem bindStream_unknown (h : fld key 19 0 = 0 ∨ (d.ftWord (fld key 19 0) 0).getLsbD 31 = false) : d.bindStream key graph ctx = (0xA01, d) := by
  have h' : fld key 19 0 = 0 ∨ (!(d.ftWord (fld key 19 0) 0).getLsbD 31) = true := by rwa [Bool.not_eq_true']
  simp only [Dev.bindStream, hres, hen, Bool.false_and, Bool.false_eq_true, ne_eq, not_true_eq_false, or_self, if_false, h', if_true]

theorem bindStream_fresh (h0 : fld key 19 0 ≠ 0) (hv : (d.ftWord (fld key 19 0) 0).getLsbD 31 = true)
    (hn : d.ing.streams.find? (fun c => c.2.flow == fld key 19 0) = none) (hk : lowestFree (d.ing.streams.map (·.1)) 0 < 65536) :
    d.bindStream key graph ctx = (0, d.modIng (fun i => { i with
      streams := mput i.streams (lowestFree (d.ing.streams.map (·.1)) 0) { flow := fld key 19 0, graph := graph, ctx := ctx, ent := d.ftEntry (fld key 19 0) } })) := by
  simp only [Dev.bindStream, hres, hen, Bool.false_and, Bool.false_eq_true, ne_eq, not_true_eq_false, or_self, if_false, h0, hv, Bool.not_true, hn,
    Nat.not_le.2 hk]

end Bind

/-! Packets of a stream. -/

section Stream
variable {d dev : Dev} {p : StrPkt} {ps : List StrPkt} {k : Nat}

section Packet
variable (hq : dev.ing.data = p :: ps) (hd : d = dev.modIng (fun i => { i with data := ps }))
include hq hd

theorem streamData_unbound (h : d.boundSlot (fun x => !x.going && x.source == p.source && x.id == p.stream) = none) :
    dev.streamData = d.setBit (ingReg 0x30) 2 true := by
  subst hd
  simp only [Dev.streamData, hq, h]
  rfl

variable (hk : d.boundSlot (fun x => !x.going && x.source == p.source && x.id == p.stream) = some k)
include hk

theorem streamData_bad (h : p.fmt ≠ fld (d.str k).cfg 31 28 ∨ p.rate ≠ fld (d.str k).cfg 27 24 ∨ p.nsamp = 0 ∨ p.len ≠ p.nsamp * strElemSize p.fmt) :
    dev.streamData = d.setBit (ingReg 0x30) 3 true := by
  subst hd
  simp only [Dev.streamData, hq, hk]
  exact if_pos h

theorem streamData_good (hf : p.fmt = fld (d.str k).cfg 31 28) (hr : p.rate = fld (d.str k).cfg 27 24) (hn : p.nsamp ≠ 0)
    (hl : p.len = p.nsamp * strElemSize p.fmt) (hs : p.sstat % 8 = 0) : dev.streamData = d.strPacket k p := by
  subst hd
  simp only [Dev.streamData, hq, hk]
  refine (if_neg ?_).trans (congrArg (fun x : Dev => x.strPacket k p) (if_neg (Classical.not_not.2 hs)))
  exact not_or.2 ⟨Classical.not_not.2 hf, not_or.2 ⟨Classical.not_not.2 hr, not_or.2 ⟨hn, Classical.not_not.2 hl⟩⟩⟩

end Packet

section Good
variable (hg : p.gone = false)
include hg

theorem strPacket_first (h : (d.str k).next = none) : d.strPacket k p = (d.strPut k p.index ((d.str k).samples p)).strPush k := by
  simp only [Dev.strPacket, h, hg, Bool.false_eq_true, if_false]

variable (hr : p.resync = false)
include hr

theorem strPacket_next (h : (d.str k).next = some p.index) : d.strPacket k p = (d.strPut k p.index ((d.str k).samples p)).strPush k := by
  simp only [Dev.strPacket, h, hg, hr, Bool.false_eq_true, if_false, if_true]

omit hg in
theorem strPacket_late {a : Nat} (h : (d.str k).next = some a) (hn : p.nsamp ≠ 0) (hl : p.index + p.nsamp ≤ a) :
    d.strPacket k p = d.setBit (ingReg 0x30) 1 true := by
  have hne : ¬ p.index = a := by omega
  have hfar : ¬ a + (d.str k).s ≤ p.index := by omega
  have hgap : ¬ a < p.index := by omega
  simp only [Dev.strPacket, h, hr, Bool.false_eq_true, if_false, hne, hfar, hgap, hl, if_true]
  rfl

end Good

theorem strComplete_last {d1 : Dev} {n : Nat} (h : d.strWritten k = some (true, d1)) : d.strComplete k (n + 1) = d1.strPush k := by
  rw [Dev.strComplete, h]
  exact if_pos rfl

theorem strResume_full (hf : (d.str k).full = true) (hr : d.strRoom k = true) :
    d.strResume k = (d.modStr k (fun x => { x with full := false })).strGap k := by
  refine if_pos ?_
  rw [hf, hr]
  rfl

theorem strGo_bound (hb : (d.ing.streams.find? (fun c => c.1 == k)).isSome = true) (hg : (d.str k).going = false) :
    d.strGo k = ((d.strFillBlock k).modStr k (fun x => { x with going := true })).strPush k := by
  refine if_neg ?_
  rw [hg, Bool.or_false, Option.isNone_iff_eq_none]
  exact Option.isSome_iff_ne_none.1 hb

end Stream

/-! The call room. -/

section CallRoom
variable {d d1 : Dev} {c : CrPkt}

theorem crRead_empty (h : d.ing.cr = []) : d.crRead.2 = d := by
  simp only [Dev.crRead, h]

theorem crRead_head {cs : List CrPkt} (h : d.ing.cr = c :: cs) :
    d.crRead.2 = d.modIng (fun i => { i with cr := if c.bytes.length ≤ c.pos + 4 then cs else { c with pos := c.pos + 4 } :: cs }) := by
  simp only [Dev.crRead, h]

theorem retireRow_packet (h : d.takeCr 4 = some (c, d1)) : d.retireRow = d1.retireNode (BitVec.ofNat 64 (be c.bytes 4 8)) := by
  simp only [Dev.retireRow, h]

theorem announce_malformed {pol hb : Nat} {ents : List (List W32)} (h : d.takeCr 1 = some (c, d1))
    (hm : be (c.bytes.drop 32) 0 1 = 0 ∨ 16 < be (c.bytes.drop 32) 0 1 ∨ (c.bytes.drop 32).length < 4 + 8 * be (c.bytes.drop 32) 0 1) :
    d.announce pol hb ents = d1 := by
  simp only [Dev.announce, h]
  exact if_pos hm

theorem announce_one {hb : Nat} {ents : List (List W32)} {x : CrStream} {d3 : Dev} {src : W64} {b : List Byte} (h : d.takeCr 1 = some (c, d1))
    (hsrc : BitVec.ofNat 64 (be c.bytes 4 8) = src) (hb' : c.bytes.drop 32 = b) (ho : c.origin < 8) (hns : be b 0 1 = 1) (hlen : 12 ≤ b.length)
    (ha : (d1.retireNode src).admitStream src c.origin [] (be b 4 2) (be b 6 1) (be b 7 1) (be b 8 2) (ents.getD 0 []) = (0, some x, d3)) :
    d.announce 0 hb ents =
      let e := d3.modIng (fun i => { i with nodes := i.nodes ++ [{ source := src, origin := c.origin, plca := 0, streams := [x] }] })
      e.crSend c.origin none (crMessage 2 (be c.bytes 14 2) e.time.toNat ([0, 0] ++ beBytes 2 hb ++ (beBytes 2 (be b 4 2) ++ [0, 0]))) := by
  have hwell : ¬ ((1 : Nat) = 0 ∨ 16 < 1 ∨ b.length < 4 + 8 * 1) := by omega
  simp only [Dev.announce, h, hsrc, hb', hns, hwell, ho, if_false, if_true, List.range_one, List.foldl_cons, List.foldl_nil, Nat.mul_zero, Nat.add_zero,
    Nat.zero_ne_one, show ¬ (0 : Nat) = 2 by decide, Option.isNone_some, Bool.false_eq_true, ne_eq, not_true_eq_false, ha]
  rfl

theorem heartbeatLost_node {src : W64} {n : CrNode} (h : d.ing.nodes.find? (fun n => n.source == src) = some n) :
    d.heartbeatLost src = (d.sendRetire n.origin 2).retireNode src := by
  simp only [Dev.heartbeatLost, h]

theorem flowRelease_waiting {f : Nat} (h : d.ing.rel.contains f = true) (hb : d.flowBound f = false) :
    d.flowRelease f = (d.modIng (fun i => { i with rel := i.rel.filter (· != f) })).ftStore f ((d.ftWord f 0 &&& 0x7FFFFFFF#32) :: (d.ftEntry f).drop 1) := by
  refine if_neg ?_
  rw [h, hb]
  exact Bool.false_ne_true

theorem plcaCollision_off {k id : Nat} (h : d.segOn k = false) : d.plcaCollision k id = d := by
  refine if_pos ?_
  rw [h]
  rfl

theorem horizonReceive_ing {r sl e : Byte} (h : d.takeMgmt ingNode isHorizon = some (.horizon r sl e, d1)) :
    d.horizonReceive 16 = d1.ingHorizon r.toNat sl.toNat e := by
  simp only [Dev.horizonReceive, Nat.lt_irrefl, if_false, if_true, h]

theorem horizonReceive_meas {r sl e : Byte} (h : d.takeMgmt measNode isHorizon = some (.horizon r sl e, d1)) :
    d.horizonReceive 17 = d1.measHorizon r.toNat sl.toNat e := by
  simp only [Dev.horizonReceive, show ¬ 17 < 16 by decide, show ¬ 17 = 16 by decide, if_false, if_true, h]

end CallRoom

/-- Settles O46: each command of ingest and the call room does what its condition says. -/
theorem streamsAndCallRoom : Obligations.StreamsAndCallRoom := by
  refine ⟨fun p f fs s h => ?_, fun k bs fcs jabber s => ⟨fun h => ?_, fun h => ⟨?_, ?_⟩⟩, fun s => ?_, fun s q t t' d d1 hq ht => ?_, fun s p ps hq => ?_,
    fun k s => ⟨fun d1 hlate h => ?_, fun hf hr => ?_, fun hb hg => ?_⟩, fun s => ?_⟩
  · rw [exec_frameClassify, Dev.frameClassify, h]
  · rw [exec_frameClassify, Dev.frameClassify, h]
    rfl
  · rw [exec_frameClassify, Dev.frameClassify, h]
    rfl
  · rw [exec_frameClassify, Dev.frameClassify, h]
    rfl
  · intro d flow ws
    refine ⟨fun he hb => ⟨?_, ftEntry_ftStore d flow ws rfl⟩, fun h => ?_, rfl⟩
    · rw [exec_ftWrite, ftWrite_legal he hb]
    · rw [exec_ftWrite, ftWrite_refused h]
  · intro flow answer hres hen
    refine ⟨fun h => ?_, fun h0 hv hn => ?_⟩
    · simp only [exec_bindRequest, Dev.bindRequest, hq, ht, bindStream_unknown hres hen h]
      rfl
    · intro k hk
      simp only [exec_bindRequest, Dev.bindRequest, hq, ht, bindStream_fresh hres hen h0 hv hn hk]
      rfl
  · intro d
    refine ⟨fun h => ?_, fun k hk => ⟨fun h => ?_, fun hf hr hn hl hs hg hy => ⟨fun h => ?_, fun a ha hlate => ?_⟩⟩⟩
    · rw [exec_streamData, streamData_unbound hq rfl h]
    · rw [exec_streamData, streamData_bad hq rfl hk h]
    · rw [exec_streamData, streamData_good hq rfl hk hf hr hn hl hs]
      rcases h with h | h
      · rw [strPacket_first hg h]
      · rw [strPacket_next hg hy h]
    · rw [exec_streamData, streamData_good hq rfl hk hf hr hn hl hs, strPacket_late hy ha hn hlate]
  · rw [exec_streamBlockComplete k s hlate, strComplete_last h]
  · rw [exec_streamCreditResume, strResume_full hf hr]
  · rw [exec_streamGoneTimeout, strGo_bound hb hg]
  · intro d
    refine ⟨fun h => ?_, fun c cs h => ?_, fun v => rfl, fun c d1 h => ?_, fun pol hb ents c d1 h => ⟨fun hm => ?_, fun x d3 hpol ho hns hlen ha => ?_⟩,
      fun src n h => ?_, fun fl h hb => ?_, fun v h => ?_, fun v h => ?_, fun k id h => ?_, fun k id h => ?_, rfl, fun r sl e d1 h => ?_, fun r sl e d1 h => ?_⟩
    · rw [exec_crDataRead, crRead_empty h, withDev_self]
    · rw [exec_crDataRead, crRead_head h]
    · rw [exec_retire, retireRow_packet h]
    · rw [exec_announce, announce_malformed h hm]
    · subst hpol
      rw [exec_announce]
      exact congrArg (fun x => Host.Outcome.next (s.withDev x)) (announce_one h rfl rfl ho hns hlen ha)
    · rw [exec_nodeHeartbeatLost, heartbeatLost_node h]
    · rw [exec_flowEntryRelease, flowRelease_waiting h hb]
    · rw [exec_crTxSend, Dev.crTxCtrl, if_pos h]
    · rw [exec_crTxSend, Dev.crTxCtrl, if_neg (Bool.eq_false_iff.1 h)]
    · rw [exec_plcaCollision, plcaCollision_off h, withDev_self]
    · rw [exec_plcaCollision, Dev.plcaCollision, h]
      rfl
    · rw [exec_horizonReceive]
      exact congrArg (fun x => Host.Outcome.next (s.withDev x)) (horizonReceive_ing h)
    · rw [exec_horizonReceive]
      exact congrArg (fun x => Host.Outcome.next (s.withDev x)) (horizonReceive_meas h)

end Sys2Proof.Machine

/-! ### O47, O48: Ethernet ports and device time -/

namespace Sys2Proof.Machine

section
variable (p : Fin 2) (sub : Fin 4) (s : State)

theorem exec_ethFrameReceive (bs : List Byte) (fcs : Bool) : exec (.ethFrameReceive p sub bs fcs) s = .next (s.withDev (s.dev.ethReceive p sub bs fcs)) := rfl
theorem exec_pfcFrame (c : Fin 8) (pause : Bool) : exec (.pfcFrame p sub c pause) s = .next (s.withDev (s.dev.pfcFrame p sub c pause)) := rfl
theorem exec_xon (c : Fin 8) : exec (.xon p c) s = .next (s.withDev (s.dev.xon p c)) := rfl
theorem exec_ethTxGo (v : W32) : exec (.ethTxGo p v) s = .next (s.withDev (s.dev.writes (ethReg p 0x44) (s.dev.ethTxCtrl p v))) := rfl
theorem exec_ethTxDone : exec (.ethTxDone p) s = .next (s.withDev (s.dev.ethTxDone p)) := rfl
theorem exec_subportLinkChange (up : Bool) : exec (.subportLinkChange p sub up) s = .next (s.withDev (s.dev.subLink p sub up)) := rfl
theorem exec_ppsInLost : exec .ppsInLost s = .next (s.withDev s.dev.ppsInLost) := rfl
theorem exec_synceLost : exec .synceLost s = .next (s.withDev s.dev.synceLost) := rfl
theorem exec_synceRelock : exec .synceRelock s = .next (s.withDev s.dev.synceLock) := rfl

end

section Receive
variable {d : Dev} {p sub : Nat} {bs : List Byte}

theorem ethReceive_down {fcs : Bool} (h : d.subUp p sub = false) : d.ethReceive p sub bs fcs = d := by
  refine if_pos ?_
  rw [h]
  rfl

variable (hup : d.subUp p sub = true)
include hup

theorem ethReceive_badFcs : d.ethReceive p sub bs false = d.ethCount p sub 2 := by
  simp only [Dev.ethReceive, hup, Bool.not_true, Bool.not_false, Bool.false_eq_true, if_false, if_true]

theorem ethReceive_runt (h : bs.length + 4 < 64) : d.ethReceive p sub bs true = d := by
  simp only [Dev.ethReceive, hup, h, Bool.not_true, Bool.false_eq_true, if_false, if_true]

variable (hlen : 64 ≤ bs.length + 4)
include hlen

theorem ethReceive_giant (h : d.rfld (ethReg p 0xC) 13 0 < bs.length + 4) :
    d.ethReceive p sub bs true = (d.setBit (ethReg p 0x48) 1 true).ethCount p sub 4 := by
  simp only [Dev.ethReceive, hup, Nat.not_lt.2 hlen, h, Bool.not_true, Bool.false_eq_true, if_false, if_true]

variable (hmax : bs.length + 4 ≤ d.rfld (ethReg p 0xC) 13 0) {d1 : Dev}
include hmax

theorem ethReceive_closed (h : (d.ethCount p sub 0).msecReceive p sub bs = (none, d1)) : d.ethReceive p sub bs true = d1 := by
  simp only [Dev.ethReceive, hup, Nat.not_lt.2 hlen, Nat.not_lt.2 hmax, h, Bool.not_true, Bool.false_eq_true, if_false]

theorem ethReceive_opened {f : List Byte} (h : (d.ethCount p sub 0).msecReceive p sub bs = (some f, d1)) :
    d.ethReceive p sub bs true = d1.ethBuffer p sub f := by
  simp only [Dev.ethReceive, hup, Nat.not_lt.2 hlen, Nat.not_lt.2 hmax, h, Bool.not_true, Bool.false_eq_true, if_false]

end Receive

section Port
variable {d : Dev} {p sub : Nat}

/-- A frame that finds room, of a priority without PFC, is kept. -/
theorem ethBuffer_room {f : List Byte} (hall : (d.ethPort p).used (fun _ => true) + (f.length + 4) ≤ 0x3C0000)
    (hother : (d.ethPort p).used (· != d.fcpPcp p) + (f.length + 4) ≤ 0x3C0000)
    (hpfc : (d.modEth p (fun x => { x with rx := x.rx ++ [{ sub := sub, prio := pcpOf f, ts := d.time, bytes := f }] })).pfcOn p (pcpOf f) = false) :
    d.ethBuffer p sub f = d.modEth p (fun x => { x with rx := x.rx ++ [{ sub := sub, prio := pcpOf f, ts := d.time, bytes := f }] }) := by
  refine (if_neg ?_).trans (if_neg ?_)
  · rw [decide_eq_true (Nat.le_trans hall (by decide : 0x3C0000 ≤ 0x400000)), decide_eq_true hother, Bool.or_true]
    exact Bool.false_ne_true
  · rw [hpfc, Bool.false_and]
    exact Bool.false_ne_true

theorem ethBuffer_full {f : List Byte} (h : 0x400000 < (d.ethPort p).used (fun _ => true) + (f.length + 4)) :
    d.ethBuffer p sub f = ((d.setBit (ethReg p 0x48) 0 true).raiseFree (346 + p) 0).ethCount p sub 3 := by
  refine if_pos ?_
  rw [decide_eq_false (Nat.not_le.2 h), Bool.false_and]
  rfl

section Pfc
variable (hup : d.subUp p sub = true)
include hup

theorem pfcFrame_off {c : Nat} {pause : Bool} (h : (d.ethCount p sub 5).pfcOn p c = false) : d.pfcFrame p sub c pause = d.ethCount p sub 5 := by
  simp only [Dev.pfcFrame, hup, h, Bool.not_true, Bool.not_false, Bool.false_eq_true, if_false, if_true]

theorem pfcFrame_on {c : Nat} (h : (d.ethCount p sub 5).pfcOn p c = true) (pause : Bool) : d.pfcFrame p sub c pause =
    if pause then (d.ethCount p sub 5).modEth p (fun x => { x with paused := (8 * sub + c) :: x.paused.filter (· != 8 * sub + c) })
    else ((d.ethCount p sub 5).modEth p (fun x => { x with paused := x.paused.filter (· != 8 * sub + c) })).ethKick p := by
  simp only [Dev.pfcFrame, hup, h, Bool.not_true, Bool.false_eq_true, if_false]

end Pfc

theorem xon_below {c : Nat} (h : (d.ethPort p).xoff.contains c = true) (hu : (d.ethPort p).used (· == c) < 0x40000) :
    d.xon p c = (d.modEth p (fun x => { x with xoff := x.xoff.filter (· != c) })).sendPfc p c false := by
  refine if_pos ?_
  rw [h, decide_eq_true hu]
  rfl

theorem xon_not {c : Nat} (h : (d.ethPort p).xoff.contains c = false) : d.xon p c = d := by
  refine if_neg ?_
  rw [h, Bool.false_and]
  exact Bool.false_ne_true

theorem ethTxCtrl_busy {v : W32} (h : (d.ethPort p).busy = true) : d.ethTxCtrl p v = d := if_pos h

section Send
variable {v : W32} (h : (d.ethPort p).busy = false)
include h

theorem ethTxCtrl_still (hv : v.getLsbD 31 = false) : d.ethTxCtrl p v = d.setReg (ethReg p 0x44) (v &&& 0x2000FFFF#32) := by
  simp only [Dev.ethTxCtrl, h, hv, Bool.not_false, Bool.false_eq_true, if_false, if_true]

theorem ethTxCtrl_go (hv : v.getLsbD 31 = true) : d.ethTxCtrl p v =
    let d1 := d.setReg (ethReg p 0x44) (v &&& 0x2000FFFF#32)
    let bs := d1.read (d1.pair (ethReg p 0x3C)) (fld v 13 0)
    (d1.modEth p (fun x => { x with busy := true })).ethSend p (fld v 15 14) (pcpOf bs) 1 bs := by
  simp only [Dev.ethTxCtrl, h, hv, Bool.not_true, Bool.false_eq_true, if_false]

theorem ethTxDone_still : d.ethTxDone p = d := by
  refine if_pos ?_
  rw [h]
  rfl

end Send

theorem ethTxDone_left (h : (d.ethPort p).busy = true) (hq : (d.ethPort p).txq.any (fun f => f.mark == 1) = false) :
    d.ethTxDone p =
      let d1 := d.modEth p (fun x => { x with busy := false })
      if d1.rbit (ethReg p 0x44) 29 then d1.setPair (ethReg p 0x58) d1.time.toNat else d1 := by
  refine if_neg ?_
  rw [h, hq]
  exact Bool.false_ne_true

theorem subLink_same {up : Bool} (h : up = d.subUp p sub) : d.subLink p sub up = d := if_pos (Or.inl h)

theorem subLink_down (h : d.subUp p sub = true) : d.subLink p sub false =
    ((((d.setBit (ethReg p 4) sub false).setBit (ethReg p 4) (4 + sub) true).raiseFree (336 + 4 * p + sub) 0).relayLink p sub false).ethKick p := by
  refine if_neg ?_
  rw [h, Bool.false_and]
  exact not_or.2 ⟨Bool.false_ne_true, Bool.false_ne_true⟩

theorem subLink_up (h : d.subUp p sub = false) (hm : sub < subports (d.rfld (ethReg p 0) 2 0)) (hp : d.domOn (37 + p) = true)
    (hi : d.islands.contains (301 + p) = true) (hr : d.rbit (rstReg 0xC) (12 + p) = false) : d.subLink p sub true =
    (((d.setBit (ethReg p 4) sub true).raiseFree (336 + 4 * p + sub) 0).relayLink p sub true).ethKick p := by
  refine if_neg ?_
  rw [h, decide_eq_true hm, hp, hi, hr]
  exact not_or.2 ⟨Bool.false_ne_true.symm, Bool.false_ne_true⟩

end Port

/-- Settles O47: each command of the ports does what its condition says. -/
theorem portsSendAndReceive : Obligations.PortsSendAndReceive := by
  intro p sub s d x
  refine ⟨fun bs fcs h => ?_, fun bs hup => ⟨?_, fun h => ?_, fun hlen h => ?_, fun hlen hmax => ⟨fun d1 h => ?_, fun f d1 h _ => ⟨fun hall hother hpfc => ?_, fun hfull => ?_⟩⟩⟩,
    fun c pause hup => ⟨fun h => ?_, fun h => ⟨?_, ?_⟩⟩, fun c h hu => ?_, fun c h => ?_, fun v => ⟨fun h => ?_, fun h hv => ?_, fun h hv => ?_⟩,
    fun h hq => ?_, fun h => ?_, fun up h => ?_, fun h => ?_, fun h hm hp hi hr => ?_, fun v => rfl⟩
  · rw [exec_ethFrameReceive, ethReceive_down h, withDev_self]
  · rw [exec_ethFrameReceive, ethReceive_badFcs hup]
  · rw [exec_ethFrameReceive, ethReceive_runt hup h, withDev_self]
  · rw [exec_ethFrameReceive, ethReceive_giant hup hlen h]
  · rw [exec_ethFrameReceive, ethReceive_closed hup hlen hmax h]
  · rw [exec_ethFrameReceive, ethReceive_opened hup hlen hmax h, ethBuffer_room hall hother hpfc]
  · rw [exec_ethFrameReceive, ethReceive_opened hup hlen hmax h, ethBuffer_full hfull]
  · rw [exec_pfcFrame, pfcFrame_off hup h]
  · rw [exec_pfcFrame, pfcFrame_on hup h]
    rfl
  · rw [exec_pfcFrame, pfcFrame_on hup h]
    rfl
  · rw [exec_xon, xon_below h hu]
  · rw [exec_xon, xon_not h, withDev_self]
  · rw [exec_ethTxGo, ethTxCtrl_busy h]
  · rw [exec_ethTxGo, ethTxCtrl_still h hv]
  · rw [exec_ethTxGo, ethTxCtrl_go h hv]
  · rw [exec_ethTxDone, ethTxDone_left h hq]
  · rw [exec_ethTxDone, ethTxDone_still h, withDev_self]
  · rw [exec_subportLinkChange, subLink_same h, withDev_self]
  · rw [exec_subportLinkChange, subLink_down h]
  · rw [exec_subportLinkChange, subLink_up h hm hp hi hr]

/-! Device time. -/

section Time
variable {d : Dev}

theorem not_inColdReset_of (h : d.rst.phase = 0 ∨ d.rst.cold = false) : ¬ d.inColdReset := by
  rintro ⟨hp, hc⟩
  rcases h with h | h
  · exact hp h
  · rw [h] at hc
    exact Bool.false_ne_true hc

/-- A tick adds 2^32 and the clamped adjustment to device time with its fraction, modulo 2^96. -/
theorem tick_adds (h : ¬ d.inColdReset) :
    ((d.tick.time.toNat * 2 ^ 32 + d.tick.frac.toNat : Nat) : Int) =
      ((d.time.toNat * 2 ^ 32 + d.frac.toNat : Nat) + (2 ^ 32 + max (-2147484) (min 2147484 (d.reg (ptpReg 0x10)).toInt))) % 2 ^ 96 := by
  rw [tick_of_running h]
  have hpos : 0 ≤ (((d.time.toNat * 2 ^ 32 + d.frac.toNat : Nat) : Int) + (2 ^ 32 + max (-2147484) (min 2147484 (d.reg (ptpReg 0x10)).toInt))) := by omega
  generalize (((d.time.toNat * 2 ^ 32 + d.frac.toNat : Nat) : Int) + (2 ^ 32 + max (-2147484) (min 2147484 (d.reg (ptpReg 0x10)).toInt))) = n at hpos
  obtain ⟨m, rfl⟩ := Int.eq_ofNat_of_zero_le hpos
  simp only [Int.toNat_natCast, BitVec.toNat_ofNat]
  omega

/-- A step forwards that passes no deadline of any pacer is noted at none. -/
theorem pacerStep_none {was step : W64} (hf : step.msb = false)
    (h : ∀ g < 16, ∀ e ∈ (d.region g).pacer, reached was e.deadline = true ∨ reached (was + step) e.deadline = false) : d.pacerStep was step = d := by
  have hstep : ∀ gs : List Nat, (∀ g ∈ gs, g < 16) → gs.foldl (fun (d : Dev) g =>
      if step.msb then d.setBit (pacReg g 0x10) 2 true
      else if (d.region g).pacer.any (fun e => !reached was e.deadline && reached (was + step) e.deadline) then d.setBit (pacReg g 0x10) 1 true
      else d) d = d := by
    intro gs
    induction gs with
    | nil => exact fun _ => rfl
    | cons g gs ih =>
      intro hgs
      have hnone : (d.region g).pacer.any (fun e => !reached was e.deadline && reached (was + step) e.deadline) = false := by
        refine List.any_eq_false.2 fun e he => ?_
        rcases h g (hgs g List.mem_cons_self) e he with hr | hr <;> simp [hr]
      rw [List.foldl_cons, if_neg (Bool.eq_false_iff.1 hf), if_neg (Bool.eq_false_iff.1 hnone)]
      exact ih fun g' hg' => hgs g' (List.mem_cons_of_mem _ hg')
  exact hstep (List.range 16) fun g hg => List.mem_range.1 hg

theorem synceLost_locked (hon : d.rbit (ptpReg 0x24) 7 = true) (hl : d.rbit (ptpReg 0x24) 5 = true) : d.synceLost =
    (((d.setBit (ptpReg 0x24) 5 false).setBit (ptpReg 0x24) 6 true).setBit (ptpReg 0x28) 0 true).raiseFree 350 0 := by
  refine if_pos ?_
  rw [hon, hl]
  rfl

theorem synceLost_off (h : d.rbit (ptpReg 0x24) 7 = false) : d.synceLost = d := by
  refine if_neg ?_
  rw [h, Bool.false_and]
  exact Bool.false_ne_true

end Time

/-- Settles O48: device time takes its steps, and the commands of the clocks do what their conditions say. -/
theorem deviceTimeIsKept : Obligations.DeviceTimeIsKept := by
  intro s d
  refine ⟨fun h hadj => tick_of_no_adj (not_inColdReset_of h) hadj, fun h => tick_adds (not_inColdReset_of h), fun hi => rfl, fun was step hf h => pacerStep_none hf h,
    rfl, rfl, fun h => ?_, fun h => ?_, fun hon hl => ?_, fun hon => ?_, fun h => ⟨?_, ?_⟩⟩
  · exact congrArg (fun x => Host.Outcome.next (s.withDev x)) (if_pos h)
  · rw [exec_ppsInLost, Dev.ppsInLost, if_neg (Bool.eq_false_iff.1 h), withDev_self]
  · rw [exec_synceLost, synceLost_locked hon hl]
  · exact congrArg (fun x => Host.Outcome.next (s.withDev x)) (if_pos hon)
  · rw [exec_synceLost, synceLost_off h, withDev_self]
  · rw [exec_synceRelock, Dev.synceLock, if_neg (Bool.eq_false_iff.1 h), withDev_self]

end Sys2Proof.Machine

/-! ### O49: relay sessions -/

namespace Sys2Proof.Machine

section
variable (p : BitVec 8) (s : State)

theorem exec_relayTokenEnqueue : exec .relayTokenEnqueue s = .next (s.withDev s.dev.relayEnqueue) := rfl
theorem exec_relayFrameClose : exec (.relayFrameClose p) s = .next (s.withDev (s.dev.frameClose p.toNat)) := rfl
theorem exec_relayRto : exec (.relayRto p) s = .next (s.withDev (s.dev.relayRto p.toNat)) := rfl
theorem exec_relayHoldExpiry :
    exec (.relayHoldExpiry p) s = .next (s.withDev (if (s.dev.peer p.toNat).st = 3 then s.dev.peerDown p.toNat else s.dev)) := rfl
theorem exec_syncTimer : exec (.syncTimer p) s = .next (s.withDev (s.dev.syncTimer p.toNat)) := rfl
theorem exec_relayAckTimer : exec (.relayAckTimer p) s = .next (s.withDev (s.dev.relayAckTimer p.toNat)) := rfl
theorem exec_relayRecordDeliver : exec (.relayRecordDeliver p) s = .next (s.withDev (s.dev.sideLists.recordOut p.toNat)) := rfl
theorem exec_relayData : exec .relayData s = .next (s.withDev s.dev.dataFrame) := rfl
theorem exec_ack : exec .ack s = .next (s.withDev (s.dev.ackFrame 1)) := rfl
theorem exec_nak : exec .nak s = .next (s.withDev (s.dev.ackFrame 2)) := rfl
theorem exec_sync : exec .sync s = .next (s.withDev s.dev.syncFrame) := rfl
theorem exec_rlyRouteWrite (v : W32) : exec (.rlyRouteWrite v) s = .next (s.withDev (s.dev.writes (rlyReg 0x48) (s.dev.routeWrite v))) := rfl

end

/-! The token that waits to be queued. -/

section Enqueue
variable {dev d : Dev} {q : Packet} {t : Token} (hq : dev.takeTok rlyNode (fun _ => true) = some (q, t, d))
include hq

theorem relayEnqueue_own (h : t.tag.dev = d.devNo) : dev.relayEnqueue = d.blockSend rlyNode t := by
  simp only [Dev.relayEnqueue, hq, Dev.relayRoute, h, if_true]

variable (hd : t.tag.dev ≠ d.devNo)
include hd

theorem relayEnqueue_noRoute (h : d.routeOf t.tag.dev.toNat = none) :
    dev.relayEnqueue = (d.setBit (rlyReg 0x7C) 3 true).blockError rlyNode t stRELAY_NOROUTE t.tag.dev.toNat := by
  simp only [Dev.relayEnqueue, hq, Dev.relayRoute, hd, h, if_false]

theorem relayEnqueue_ring {p : Nat} (h : d.routeOf t.tag.dev.toNat = some p) (hm : d.rly.moves.any (fun m => m.1 == t.tag.dev.toNat) = false)
    (hs : (d.peer p).st = 2 ∨ (d.peer p).st = 3) (hr : (d.peer p).ring.length < d.ringRecs) :
    dev.relayEnqueue = d.modPeer p (fun x => { x with q := x.q ++ [.token t], full := false }) := by
  have hto : d.toPeer p t = .ok (d.modPeer p (fun x => { x with q := x.q ++ [.token t], full := false })) := by
    rcases hs with hs | hs <;> simp [Dev.toPeer, hs, Nat.not_le.2 hr]
  simp only [Dev.relayEnqueue, hq, Dev.relayRoute, hd, h, hm, hto, if_false, Bool.false_eq_true]

end Enqueue

/-! A session's frames and timers. -/

section Session
variable {d : Dev} {p : Nat}

theorem frameClose_not (h : (d.peer p).st ≠ 2 ∨ d.peerWin p ≤ (d.peer p).frames.length) : d.frameClose p = d := if_pos h

section Close
variable (hs : (d.peer p).st = 2) (hw : (d.peer p).frames.length < d.peerWin p) {r : List RRec × List RRec}
  (hr : takeRecs (d.frameRecs p) ((d.peer p).rq - ((d.peer p).sent - (d.peer p).grant).toNat) (d.peer p).q = r)
include hs hw hr

theorem frameClose_empty (h : r.1 = []) : d.frameClose p = d := by
  simp only [Dev.frameClose, hr, hs, Nat.not_le.2 hw, ne_eq, not_true_eq_false, or_self, if_false, h, List.isEmpty_nil, if_true]

theorem frameClose_some (h : r.1 ≠ []) : d.frameClose p = (d.modPeer p (fun x => { x with
    q := r.2, frames := x.frames ++ [(x.seq, r.1)], seq := x.seq + 1, sent := x.sent + BitVec.ofNat 32 (r.1.filter (·.isTok)).length })).relayData p
      ((d.peer p).seq, r.1) := by
  have hne : r.1.isEmpty = false := List.isEmpty_eq_false_iff.2 h
  simp only [Dev.frameClose, hr, hs, Nat.not_le.2 hw, ne_eq, not_true_eq_false, or_self, if_false, hne, Bool.false_eq_true]

end Close

section Rto
variable (hs : (d.peer p).st = 2) (hf : (d.peer p).frames ≠ [])
include hs hf

theorem relayRto_open : d.relayRto p =
    if max 1 (d.rfld (rlyReg 0x10) 31 24) ≤ (d.peer p).tries + 1 then d.peerDown p
    else (d.modPeer p (fun x => { x with tries := x.tries + 1 })).goBack p := by
  refine if_neg ?_
  rw [List.isEmpty_iff]
  exact not_or.2 ⟨Classical.not_not.2 hs, hf⟩

theorem relayRto_resends (h : (d.peer p).tries + 1 < max 1 (d.rfld (rlyReg 0x10) 31 24)) :
    d.relayRto p = (d.modPeer p (fun x => { x with tries := x.tries + 1 })).goBack p := by
  rw [relayRto_open hs hf, if_neg (Nat.not_le.2 h)]

theorem relayRto_limit (h : max 1 (d.rfld (rlyReg 0x10) 31 24) ≤ (d.peer p).tries + 1) : d.relayRto p = d.peerDown p := by
  rw [relayRto_open hs hf, if_pos h]

end Rto

theorem relayRto_not (hs : (d.peer p).st ≠ 2) : d.relayRto p = d := if_pos (Or.inl hs)

theorem syncTimer_sends (he : (d.peerCfg p).getLsbD 31 = true) (hs : (d.peer p).st ≤ 1) (hu : d.subUp (peerPort (d.peerCfg p)) (peerSub (d.peerCfg p)) = true) :
    d.syncTimer p = (d.modPeer p (fun x => { x with st := 1 })).relaySync p := by
  refine if_pos ?_
  rw [he, decide_eq_true hs, hu]
  rfl

theorem syncTimer_not (h : (d.peerCfg p).getLsbD 31 = false ∨ 2 ≤ (d.peer p).st) : d.syncTimer p = d := by
  refine if_neg (Bool.eq_false_iff.1 (Bool.and_eq_false_iff.2 (Or.inl (Bool.and_eq_false_iff.2 ?_))))
  rw [decide_eq_false_iff_not, Nat.not_le]
  exact h

theorem recordOut_empty (h : (d.peer p).rx = []) : d.recordOut p = d := by
  rw [Dev.recordOut, h]

section Record
variable {t : Token} {b : Bool} {rest : List (Token × Bool)} (h : (d.peer p).rx = (t, b) :: rest)
include h

theorem recordOut_badTag (hc : Tag.crcOk t.tag = false) : d.recordOut p = (d.recTaken p).raiseFree 355 p := by
  simp only [Dev.recordOut, h, hc, Bool.not_false, if_true]

theorem recordOut_sends (hc : Tag.crcOk t.tag = true) (hdev : t.tag.dev = d.devNo) (hcr : d.hubCredit t = true)
    (hside : mget [] d.rly.side (regionOf t.tag.die.toNat t.tag.rgn.toNat) = []) : d.recordOut p = (d.recTaken p).blockSend rlyNode t := by
  simp only [Dev.recordOut, h, hc, hdev, hcr, hside, Bool.not_true, Bool.false_eq_true, if_false, if_true]
  simp

end Record

/-! Acknowledgements. -/

section Ack
variable {ack grant first : W32} (hfirst : ((d.peer p).frames.head?.map (·.1)).getD (d.peer p).seq = first)
include hfirst

theorem relayAck_before (h : (ack - first).msb = true) : d.relayAck p ack grant = d.modPeer p (fun x => { x with grant := grant }) := by
  simp only [Dev.relayAck, hfirst, h, if_true, Nat.not_lt_zero, if_false]

theorem relayAck_first (h : ack = first) : d.relayAck p ack grant = d.modPeer p (fun x => { x with grant := grant }) := by
  have hz : (ack - first).msb = false ∧ (ack - first).toNat = 0 := by
    rw [h, BitVec.sub_self]
    exact ⟨rfl, rfl⟩
  obtain ⟨hm, hn⟩ := hz
  simp only [Dev.relayAck, hfirst, hm, hn, Bool.false_eq_true, if_true, Nat.not_lt_zero, if_false]

variable (hm : (ack - first).msb = false)
include hm

theorem relayAck_unsent (h : (d.peer p).frames.length < (ack - first).toNat) :
    d.relayAck p ack grant = (d.modPeer p (fun x => { x with grant := grant })).setBit (rlyReg 0x7C) 1 true := by
  simp only [Dev.relayAck, hfirst, hm, Bool.false_eq_true, if_false, h, if_true]

theorem relayAck_drops (hne : ack ≠ first) (h : (ack - first).toNat ≤ (d.peer p).frames.length) :
    d.relayAck p ack grant = (((d.modPeer p (fun x => { x with grant := grant })).modPeer p (fun x => { x with
      frames := x.frames.drop (ack - first).toNat, tries := 0, full := false })).stopResend p (((d.peer p).frames.take (ack - first).toNat).map (·.1))).relayMoves := by
  have hpos : (ack - first).toNat ≠ 0 := fun h0 => hne (BitVec.sub_eq_iff_eq_add.1 (BitVec.eq_of_toNat_eq h0) |>.trans (BitVec.zero_add _))
  simp only [Dev.relayAck, hfirst, hm, Bool.false_eq_true, if_false, Nat.not_lt.2 h, hpos]

end Ack

end Session

/-! Frames of a peer. -/

section Frames
variable {dev d : Dev} {f : RelayRx}

section Data
variable {rs : List RRec} (hf : dev.relayFront 0 = some (f, d)) (hs : (d.peer f.peer).st = 2) (hh : relayHdrOk f.bytes (d.frameRecs f.peer) = true)
  (hr : recsOf f.bytes (be f.bytes 6 2) = some rs)
include hf hs hh hr

theorem dataFrame_inOrder (he : be f.bytes 8 4 = (d.peer f.peer).expect.toNat) : dev.dataFrame =
    ((rs.foldl (fun (d' : Dev) r => match r with | .horizon g k e => d'.importHz (d.peer f.peer).dev g k e | _ => d') (d.modPeer f.peer (fun x => { x with
      expect := x.expect + 1, nak := false
      rx := x.rx ++ rs.filterMap (fun r => match r with | .token t => some (t, true) | _ => none) }))).relayAck f.peer
        (BitVec.ofNat 32 (be f.bytes 12 4)) (BitVec.ofNat 32 (be f.bytes 16 4))) := by
  simp only [Dev.dataFrame, hf, hs, hh, hr, he, ne_eq, not_true_eq_false, Bool.not_true, Bool.false_eq_true, or_self, if_false] <;> rfl

theorem dataFrame_again (he : be f.bytes 8 4 ≠ (d.peer f.peer).expect.toNat) : dev.dataFrame =
    if (d.peer f.peer).nak then d else (d.modPeer f.peer (fun x => { x with nak := true })).relaySend f.peer 2 0 [] := by
  simp only [Dev.dataFrame, hf, hs, hh, hr, ne_eq, not_true_eq_false, Bool.not_true, Bool.false_eq_true, or_self, if_false]
  exact if_pos he

end Data

theorem ackFrame_good {kind : Nat} (hf : dev.relayFront kind = some (f, d)) (hs : (d.peer f.peer).st = 2) (hh : relayHdrOk f.bytes 0 = true)
    (hz : be f.bytes 8 4 = 0) : dev.ackFrame kind =
      let e := d.relayAck f.peer (BitVec.ofNat 32 (be f.bytes 12 4)) (BitVec.ofNat 32 (be f.bytes 16 4))
      if kind = 2 then e.goBack f.peer else e := by
  simp only [Dev.ackFrame, hf, hs, hh, hz, ne_eq, not_true_eq_false, Bool.not_true, Bool.false_eq_true, or_self, if_false]

section Sync
variable {bs r : List Byte} (hbs : f.bytes = bs) (hrec : (bs.drop 28).take 32 = r) (hf : dev.relayFront 3 = some (f, d)) (hh : relayHdrOk bs 1 = true)
  (hn : be bs 6 2 = 1) (hk : be r 25 1 = 2) (hz : be r 26 6 = 0) (hz' : be r 12 13 = 0)
include hbs hrec hf hh hn hk hz hz'

theorem syncFrame_foreign (h : be bs 20 4 ≠ (d.reg (rlyReg 4)).toNat ∨ be bs 2 2 = d.devNo.toNat) :
    dev.syncFrame = (d.setBit (rlyReg 0x7C) 2 true).raiseFree 354 f.peer := by
  simp only [Dev.syncFrame, hf, hbs, hrec, hh, hn, hk, hz, hz', bne_self_eq_false, Bool.not_true, Bool.or_self, Bool.false_eq_true, if_false]
  exact if_pos h

theorem syncFrame_peer (hkey : be bs 20 4 = (d.reg (rlyReg 4)).toNat) (hsrc : be bs 2 2 ≠ d.devNo.toNat) : dev.syncFrame =
    let p := f.peer
    let x := d.peer p
    let up := decide (2 ≤ x.st)
    let mine := be bs 4 2 == d.devNo.toNat
    let d1 := (if up then ((d.peerLost p (x.ring.filter (·.isTok)).length).stopResend p (x.frames.map (·.1))).raiseFree 352 p else d).modPeer p (fun x => { x with
      st := if mine then 2 else 1, dev := BitVec.ofNat 14 (be bs 2 2), known := true, rq := be r 0 4, q := if up then [] else x.q, frames := [], seq := 0
      expect := BitVec.ofNat 32 (be r 8 4), sent := 0, grant := 0, taken := 0, nak := false, tries := 0, full := false, rx := x.rx.map (fun r => (r.1, false)) })
    (if !mine || !(d1.peer p).told then d1.relaySync p else d1).relayMoves := by
  simp only [Dev.syncFrame, hf, hbs, hrec, hh, hn, hk, hz, hz', bne_self_eq_false, Bool.not_true, Bool.or_self, Bool.false_eq_true, if_false]
  exact if_neg (not_or.2 ⟨Classical.not_not.2 hkey, hsrc⟩)

end Sync

end Frames

section Route
variable {d : Dev} {v : W32}

theorem routeWrite_off (h : v.getLsbD 31 = false) : d.routeWrite v = d.setReg (banked (rlyReg 0x48) (d.rfld (rlyReg 0x44) 13 0)) (v &&& 0x800000FF#32) := by
  refine if_pos ?_
  rw [h]
  rfl

theorem routeWrite_on (h : v.getLsbD 31 = true) : d.routeWrite v =
    let dev := d.rfld (rlyReg 0x44) 13 0
    let d1 := d.setReg (banked (rlyReg 0x48) dev) (v &&& 0x800000FF#32)
    let old := (d1.rly.peers.filter (fun c => c.1 != fld v 7 0 && decide (2 ≤ c.2.st) && c.2.ring.any (fun r => r.dev? == some dev))).map (fun c => (dev, c.1))
    d1.modRly (fun r => { r with moves := r.moves ++ old.filter (fun m => !r.moves.contains m) }) := by
  refine if_neg ?_
  rw [h]
  exact Bool.false_ne_true

end Route

/-- Settles O49: each command of the relay does what its condition says. -/
theorem relayLinkKeepsOrder : Obligations.RelayLinkKeepsOrder := by
  refine ⟨fun s q t d hq => ⟨fun h => ?_, fun hd h => ?_, fun p hd h hm hs hr => ?_⟩, fun p s => ?_, fun s f d => ?_, fun d p ack grant => ?_, fun v s => ⟨fun h => ?_, fun h => ?_⟩⟩
  · rw [exec_relayTokenEnqueue, relayEnqueue_own hq h]
  · rw [exec_relayTokenEnqueue, relayEnqueue_noRoute hq hd h]
  · rw [exec_relayTokenEnqueue, relayEnqueue_ring hq hd h hm hs hr]
  · intro d n x c
    refine ⟨fun h => ?_, fun hs hw => ⟨fun h => ?_, fun h => ?_⟩, fun hs hf => ⟨fun h => ?_, fun h => ?_⟩, fun h => ?_, fun h => ?_, fun h => ?_, fun he hs hu => ?_,
      fun h => ?_, fun h => ?_, fun h => ?_, ⟨fun h => ?_, fun t b rest h hc => ?_, fun t b rest h hc hdev hcr hside => ?_⟩⟩
    · rw [exec_relayFrameClose, frameClose_not h, withDev_self]
    · rw [exec_relayFrameClose, frameClose_empty hs hw rfl h, withDev_self]
    · rw [exec_relayFrameClose, frameClose_some hs hw rfl h]
    · rw [exec_relayRto, relayRto_resends hs hf h]
    · rw [exec_relayRto, relayRto_limit hs hf h]
    · rw [exec_relayRto, relayRto_not h, withDev_self]
    · rw [exec_relayHoldExpiry, if_pos h]
    · rw [exec_relayHoldExpiry, if_neg h, withDev_self]
    · rw [exec_syncTimer, syncTimer_sends he hs hu]
    · rw [exec_syncTimer, syncTimer_not h, withDev_self]
    · exact congrArg (fun x => Host.Outcome.next (s.withDev x)) (if_pos h)
    · rw [exec_relayAckTimer, Dev.relayAckTimer, if_neg h, withDev_self]
    · rw [exec_relayRecordDeliver, recordOut_empty h]
    · rw [exec_relayRecordDeliver, recordOut_badTag h hc]
    · rw [exec_relayRecordDeliver, recordOut_sends h hc hdev hcr hside]
  · intro p bs x ack grant
    refine ⟨fun rs hf hs hh hr => ⟨fun he => ?_, fun he hn => ?_, fun he hn => ?_⟩, fun hs hh hz => ⟨fun hf => ?_, fun hf => ?_⟩, ?_⟩
    · exact congrArg (fun x => Host.Outcome.next (s.withDev x)) (dataFrame_inOrder hf hs hh hr he)
    · rw [exec_relayData, dataFrame_again hf hs hh hr he, if_pos hn]
    · rw [exec_relayData, dataFrame_again hf hs hh hr he, if_neg (Bool.eq_false_iff.1 hn)]
    · rw [exec_ack, ackFrame_good hf hs hh hz]
      rfl
    · rw [exec_nak, ackFrame_good hf hs hh hz]
      rfl
    · intro r src up mine hf hh hn hk hz hz'
      refine ⟨fun h => ?_, fun hkey hsrc => ?_⟩
      · rw [exec_sync, syncFrame_foreign rfl rfl hf hh hn hk hz hz' h]
      · rw [exec_sync, syncFrame_peer rfl rfl hf hh hn hk hz hz' hkey hsrc]
  · intro x first d1
    exact ⟨fun h => relayAck_before rfl h, fun hm h => relayAck_unsent rfl hm h, fun h => relayAck_first rfl h, fun hne hm h => relayAck_drops rfl hm hne h⟩
  · rw [exec_rlyRouteWrite, routeWrite_off h]
  · rw [exec_rlyRouteWrite, routeWrite_on h]

end Sys2Proof.Machine

/-! ### O50: FCP packets, requests and sessions -/

namespace Sys2Proof.Machine

section
variable (k : Fin 65) (s : State)

theorem exec_fcpPacketReceive : exec .fcpPacketReceive s = .next (s.withDev s.dev.fcpPacket) := rfl
theorem exec_fcpPendingTimer : exec (.fcpPendingTimer k) s = .next (s.withDev (s.dev.fcpPending k)) := rfl
theorem exec_sessionHalfOpenTimeout : exec (.sessionHalfOpenTimeout k) s = .next (s.withDev (s.dev.halfOpenEnd k)) := rfl
theorem exec_sessionIdleTimeout : exec (.sessionIdleTimeout k) s = .next (s.withDev (s.dev.idleEnd k)) := rfl
theorem exec_sessionOpen : exec (.sessionOpen k) s = .next (s.withDev (s.dev.sessionOpen s.fuses k)) := rfl
theorem exec_sessionAuth : exec (.sessionAuth k) s = .next (s.withDev (s.dev.sessionAuth k)) := rfl
theorem exec_sessionClose : exec (.sessionClose k) s = .next (s.withDev (s.dev.sessionClose k)) := rfl

end

/-! A command with its parameters in order. -/

section Fields
variable {par : List Byte} {sizes : List Nat} {bad : List (Nat × Bool)} {tail : Nat → Option Nat}

theorem badField_good (hb : ∀ x ∈ bad, x.2 = false) (hlen : sizes.foldl (· + ·) 0 ≤ par.length) (ht : tail (par.length - sizes.foldl (· + ·) 0) = none) :
    badField par sizes bad tail = none := by
  have hfind : bad.find? (fun x => x.2 && decide (x.1 < shortAt sizes 0 par.length)) = none := by
    refine List.find?_eq_none.2 fun x hx => ?_
    rw [hb x hx, Bool.false_and]
    exact Bool.false_ne_true
  simp only [badField, hfind, Nat.not_lt.2 hlen, if_false, ht]

theorem badField_exact (hb : ∀ x ∈ bad, x.2 = false) (hlen : par.length = sizes.foldl (· + ·) 0) :
    badField par sizes bad (exact (sizes.foldl (· + ·) 0)) = none := by
  refine badField_good hb (Nat.le_of_eq hlen.symm) ?_
  rw [hlen, Nat.sub_self]
  exact if_pos rfl

theorem fcpFixed_act {d : Dev} {s o : Nat} {bad : List Byte → List (Nat × Bool)} {act : Dev → FcpCmd → Dev} {c : FcpCmd} (hr : d.fcpRun s o = some c)
    (hb : ∀ x ∈ bad c.par, x.2 = false) (hlen : c.par.length = sizes.foldl (· + ·) 0) : d.fcpFixed s o sizes bad act = act d c := by
  simp only [Dev.fcpFixed, hr, badField_exact hb hlen]

end Fields

/-! Packets. -/

section Packet
variable {dev d : Dev} {p : FcpRx} {ps : List FcpRx} (hq : dev.fcp.rx = p :: ps) (hd : d = dev.modFcp (fun f => { f with rx := ps }))
include hq hd

theorem fcpPacket_unserved (h : d.fcpServed = false) : dev.fcpPacket = d := by
  subst hd
  simp only [Dev.fcpPacket, hq, h, Bool.not_false, if_true]

variable (hs : d.fcpServed = true)
include hs

theorem fcpPacket_malformed (h : p.bytes.length < 32 ∨ be p.bytes 0 4 ≠ 0x46455257) : dev.fcpPacket = d.cmdBit 0 := by
  subst hd
  simp only [Dev.fcpPacket, hq, hs, Bool.not_true, Bool.false_eq_true, if_false]
  exact if_pos (h.imp_right Or.inl)

/-- What the tests of R450 ask of a packet before its session is looked at. -/
def FcpWhole (b : List Byte) : Prop :=
  32 ≤ b.length ∧ be b 0 4 = 0x46455257 ∧ be b 4 1 = 1 ∧ be b 16 4 ≤ 8192 ∧ be b 24 4 + be b 16 4 ≤ be b 28 4 ∧ be b 28 4 ≤ 65536

variable (hw : FcpWhole p.bytes)
include hw

section Plain
variable (hf : be p.bytes 5 1 = 0) (hl : 32 + be p.bytes 16 4 ≤ p.bytes.length)
include hf hl

theorem fcpPacket_plain : dev.fcpPacket =
    if be p.bytes 6 2 = 0 then d.fcpFragment 0 (be p.bytes 24 4) (be p.bytes 28 4)
      { seq := BitVec.ofNat 32 (be p.bytes 8 4), op := be p.bytes 12 2, rtag := BitVec.ofNat 32 (be p.bytes 20 4), route := p.route, par := sub p.bytes 32 (be p.bytes 16 4) }
    else d.cmdBit 0 := by
  subst hd
  obtain ⟨hlen, hmagic, hver, hplen, hfofs, htotal⟩ := hw
  by_cases hn : be p.bytes 6 2 = 0
  · simp only [Dev.fcpPacket, hq, hs, hf, hn, hmagic, hver, Nat.not_lt.2 hlen, Nat.not_lt.2 hplen, Nat.not_lt.2 hfofs, Nat.not_lt.2 htotal, Nat.not_lt.2 hl,
      Nat.zero_div, Nat.zero_mod, Nat.zero_ne_one, decide_false, Bool.false_eq_true, if_false, Nat.add_zero, ne_eq, not_true_eq_false, or_self, Nat.reduceEqDiff,
      Nat.le_zero_eq, Bool.not_true, bne_self_eq_false, false_and, if_true]
  · simp only [Dev.fcpPacket, hq, hs, hf, hn, hmagic, hver, Nat.not_lt.2 hlen, Nat.not_lt.2 hplen, Nat.not_lt.2 hfofs, Nat.not_lt.2 htotal, Nat.not_lt.2 hl,
      Nat.zero_div, Nat.zero_mod, Nat.zero_ne_one, decide_false, Bool.false_eq_true, if_false, Nat.add_zero, ne_eq, not_true_eq_false, or_self, Nat.reduceEqDiff,
      Nat.le_zero_eq, Bool.not_true, not_false_eq_true, decide_true, bne_iff_ne, if_true]

end Plain

section Sealed
variable (hf : be p.bytes 5 1 = 2) (hn : be p.bytes 6 2 ≠ 0) (hl : 48 + be p.bytes 16 4 ≤ p.bytes.length)
include hf hn hl

theorem fcpPacket_noSession (h : 64 < be p.bytes 6 2 ∨ (d.sess (be p.bytes 6 2)).st = 0) : dev.fcpPacket = d.cmdBit 1 := by
  subst hd
  obtain ⟨hlen, hmagic, hver, hplen, hfofs, htotal⟩ := hw
  have hl' : ¬ p.bytes.length < 32 + be p.bytes 16 4 + 16 := by omega
  simp only [Dev.fcpPacket, hq, hs, hf, hn, hmagic, hver, Nat.not_lt.2 hlen, Nat.not_lt.2 hplen, Nat.not_lt.2 hfofs, Nat.not_lt.2 htotal, hl',
    show 2 / 2 % 2 = 1 from rfl, show 2 % 2 = 0 from rfl, show ¬ 4 ≤ 2 by decide, decide_true, if_true, ne_eq, not_true_eq_false, not_false_eq_true, or_self,
    Bool.not_true, Bool.false_eq_true, bne_self_eq_false, if_false, true_and, h]

theorem fcpPacket_notOpened (h64 : be p.bytes 6 2 ≤ 64) (hst : (d.sess (be p.bytes 6 2)).st ≠ 0)
    (h : Config.gcmOpen (d.sess (be p.bytes 6 2)).h2d (fcpNonce 0 (BitVec.ofNat 32 (be p.bytes 8 4)) (be p.bytes 24 4)) (p.bytes.take 32)
      (sub p.bytes 32 (be p.bytes 16 4 + 16)) = none) : dev.fcpPacket = (d.cmdBit 2).sessEvent (be p.bytes 6 2) 4 := by
  subst hd
  obtain ⟨hlen, hmagic, hver, hplen, hfofs, htotal⟩ := hw
  have hl' : ¬ p.bytes.length < 32 + be p.bytes 16 4 + 16 := by omega
  simp only [Dev.fcpPacket, hq, hs, hf, hn, hmagic, hver, Nat.not_lt.2 hlen, Nat.not_lt.2 hplen, Nat.not_lt.2 hfofs, Nat.not_lt.2 htotal, hl',
    show 2 / 2 % 2 = 1 from rfl, show 2 % 2 = 0 from rfl, show ¬ 4 ≤ 2 by decide, decide_true, if_true, ne_eq, not_true_eq_false, not_false_eq_true, or_self,
    Bool.not_true, Bool.false_eq_true, bne_self_eq_false, if_false, Nat.not_lt.2 h64, hst, and_false, h]

end Sealed

end Packet

/-! Requests. -/

section Request
variable {d : Dev} {n : Nat} {c : FcpCmd} (hn : n ≠ 0)
include hn

theorem fcpRequest_runs (hq : c.seq = (d.sess n).last) (hr : (d.sess n).run.isSome = true) : d.fcpRequest n c = d.fcpAnswer n c fPENDING 0 := by
  simp only [Dev.fcpRequest, hn, hq, hr, Bool.true_or, if_false, if_true]

theorem fcpRequest_stored (hq : c.seq = (d.sess n).last) (hr : (d.sess n).run = none) (hc : (d.sess n).close = none) {r : FcpCmd} {st : Nat} {par : List Byte}
    (h : (d.sess n).reply = some (r, st, par)) : d.fcpRequest n c = d.fcpSendReply n { r with route := c.route } st 1 par := by
  simp only [Dev.fcpRequest, hn, hq, hr, hc, h, Option.isSome_none, Bool.or_self, Bool.false_eq_true, if_false, if_true]

theorem fcpRequest_exhausted (hq : c.seq ≠ (d.sess n).last) (h : (d.sess n).last.toNat = 2 ^ 32 - 1) : d.fcpRequest n c = d.fcpAnswer n c fSEQ_EXHAUSTED 0 :=
  (if_neg hn).trans ((if_neg hq).trans (if_pos h))

theorem fcpRequest_older (hq : c.seq.toNat < (d.sess n).last.toNat) (h : (d.sess n).last.toNat ≠ 2 ^ 32 - 1) : d.fcpRequest n c = d :=
  (if_neg hn).trans ((if_neg fun he => Nat.ne_of_lt hq (congrArg BitVec.toNat he)).trans ((if_neg h).trans (if_pos hq)))

section Newer
variable (hq : (d.sess n).last.toNat < c.seq.toNat)
include hq

theorem fcpRequest_newer :
    d.fcpRequest n c = if (d.sess n).run.isSome && c.op != 0x12 then d.fcpAnswer n c fBUSY 0 else d.fcpAccept n c := by
  have hlast : (d.sess n).last.toNat ≠ 2 ^ 32 - 1 := by
    have := c.seq.isLt
    omega
  exact (if_neg hn).trans ((if_neg fun he => Nat.ne_of_gt hq (congrArg BitVec.toNat he)).trans ((if_neg hlast).trans (if_neg (Nat.lt_asymm hq))))

theorem fcpRequest_busy (hr : (d.sess n).run.isSome = true) (ho : c.op ≠ 0x12) : d.fcpRequest n c = d.fcpAnswer n c fBUSY 0 := by
  rw [fcpRequest_newer hn hq, hr, bne_iff_ne.2 ho]
  rfl

theorem fcpRequest_accepted (hr : (d.sess n).run = none) (ht : (d.modSess n (fun x => { x with last := c.seq, reply := none })).opcodeTest n c.op = none) :
    d.fcpRequest n c = (d.modSess n (fun x => { x with last := c.seq, reply := none })).modSess n (fun x => { x with run := some c }) := by
  rw [fcpRequest_newer hn hq, hr, Option.isSome_none, Bool.false_and, if_neg Bool.false_ne_true]
  simp only [Dev.fcpAccept, hr, ht, Option.isSome_none, Bool.and_false, Bool.false_eq_true, if_false]

end Newer

end Request

/-! Timers and the handshake. -/

section Timers
variable {d : Dev} {k : Nat} {c : FcpCmd}

theorem fcpPending_short (hr : (d.sess k).run = some c) (hl : c.long = false) :
    d.fcpPending k = (d.modSess k (fun x => { x with run := some { c with long := true } })).fcpAnswer k c fPENDING 0 := by
  simp only [Dev.fcpPending, hr, hl, Bool.false_eq_true, if_false]

theorem fcpPending_long (hr : (d.sess k).run = some c) (hl : c.long = true) : d.fcpPending k = d := by
  simp only [Dev.fcpPending, hr, hl, if_true]

section Open
variable {f : Fuses} (hr : d.fcpRun k 0x10 = some c) (hlen : c.par.length = 1220) (hz : be c.par 1 3 = 0) (hfuse : d.fuseBad = false)
include hr hlen hz hfuse

/-- The tests that a SESSION_OPEN of good parameters passes through. -/
theorem sessionOpen_tests : d.sessionOpen f k =
    if 64 ≤ d.sessCount 1 + d.sessCount 2 then d.fcpFinal k c fNO_SESSION 0 []
    else if 4 ≤ d.sessCount 1 then d.fcpFinal k c fBUSY 0 []
    else if 64 ≤ be c.par 0 1 ∨ (d.keySlot (be c.par 0 1)).typ ≠ 1 ∨ (d.keySlot (be c.par 0 1)).roles = 0 then d.fcpFinal k c fAUTH_FAILED 0 []
    else d.sessionOpen f k := by
  have hrsvd : ∀ x ∈ [rsvd c.par 1 3], x.2 = false := by
    intro x hx
    rw [List.mem_singleton.1 hx, rsvd, hz]
    rfl
  have hact : ∀ act, d.fcpFixed k 0x10 [1, 3, 32, 1184] (fun p => [rsvd p 1 3]) act = act d c := fun act => fcpFixed_act hr hrsvd hlen
  by_cases h1 : 64 ≤ d.sessCount 1 + d.sessCount 2
  · rw [if_pos h1, Dev.sessionOpen, hact]
    exact (if_neg (Bool.eq_false_iff.1 hfuse)).trans (if_pos h1)
  · by_cases h2 : 4 ≤ d.sessCount 1
    · rw [if_neg h1, if_pos h2, Dev.sessionOpen, hact]
      exact (if_neg (Bool.eq_false_iff.1 hfuse)).trans ((if_neg h1).trans (if_pos h2))
    · rw [if_neg h1, if_neg h2]
      split
      next h3 =>
        rw [Dev.sessionOpen, hact]
        exact (if_neg (Bool.eq_false_iff.1 hfuse)).trans ((if_neg h1).trans ((if_neg h2).trans (if_pos h3)))
      next => rfl

theorem sessionOpen_opens (h1 : ¬ 64 ≤ d.sessCount 1 + d.sessCount 2) (h2 : ¬ 4 ≤ d.sessCount 1)
    (h3 : ¬ (64 ≤ be c.par 0 1 ∨ (d.keySlot (be c.par 0 1)).typ ≠ 1 ∨ (d.keySlot (be c.par 0 1)).roles = 0)) {n : Nat} (hfree : d.freeSession = some n) :
    ∃ (nd ct key t1 : List Byte) (d1 : Dev), d1 = { d with fresh := d1.fresh } ∧
      d.sessionOpen f k = (d1.modSess n (fun x => { st := 1, slot := be c.par 0 1, t1 := t1, key := key, ev := x.ev })).fcpFinal k c fOK 0
        (beBytes 2 n ++ [0, 0] ++ nd ++ ct ++ beBytes 4 17088 ++ fit 17088 (Config.slhSign (idSeed f) t1)) := by
  have hrsvd : ∀ x ∈ [rsvd c.par 1 3], x.2 = false := by
    intro x hx
    rw [List.mem_singleton.1 hx, rsvd, hz]
    rfl
  have hact : ∀ act, d.fcpFixed k 0x10 [1, 3, 32, 1184] (fun p => [rsvd p 1 3]) act = act d c := fun act => fcpFixed_act hr hrsvd hlen
  let nd := (d.freeStr 32).1
  let d1 := (d.freeStr 32).2.free.2
  let kem := Config.kemEncaps (sub c.par 36 1184) (d.freeStr 32).2.free.1.toNat
  let ct := fit 1088 kem.1
  let t1 := beBytes 48 (Config.sha384 (strOpen ++ c.par.take 1 ++ sub c.par 4 1216 ++ beBytes 2 n ++ nd ++ ct)).toNat
  refine ⟨nd, ct, fit 32 kem.2, t1, d1, rfl, ?_⟩
  rw [Dev.sessionOpen, hact]
  refine (if_neg (Bool.eq_false_iff.1 hfuse)).trans ((if_neg h1).trans ((if_neg h2).trans ((if_neg h3).trans ?_)))
  rw [hfree]

end Open

section Auth
variable (hr : d.fcpRun k 0x11 = some c) (h4 : 4 ≤ c.par.length) (hlen : c.par.length = 4 + be c.par 0 4)
include hr h4 hlen

theorem sessionAuth_verdict : d.sessionAuth k =
    let key := d.keySlot (d.sess k).slot
    if be c.par 0 4 = sigLen key.pset ∧
        Config.slhVerify key.pset (KeySlot.pk key) (beBytes 48 (Config.sha384 ((d.sess k).t1 ++ strHost)).toNat) (c.par.drop 4) = true then
      ((d.modSess k (fun x => { x with st := 2, roles := key.roles })).fcpFinal k c fOK 0 []).sessEvent k 1
    else (((d.fcpFinal k c fAUTH_FAILED 0 []).freeSess k).cmdBit 3).sessEvent k 7 := by
  have hgood : badField c.par [4] [] (fun n => if n = be c.par 0 4 then none else if n < be c.par 0 4 then some 4 else some (4 + be c.par 0 4)) = none := by
    refine badField_good (fun x hx => absurd hx List.not_mem_nil) h4 (if_pos ?_)
    change c.par.length - 4 = be c.par 0 4
    omega
  simp only [Dev.sessionAuth, hr, hgood]

end Auth

theorem fcpServed_of_fcpRun {o : Nat} (h : d.fcpRun k o = some c) : d.fcpServed = true := by
  cases hs : d.fcpServed with
  | true => rfl
  | false =>
    rw [Dev.fcpRun, hs] at h
    cases h

theorem sessionClose_runs (hr : d.fcpRun k 0x12 = some c) (hp : c.par = []) (hc : (d.sess k).close = none) :
    d.sessionClose k = ((d.fcpFinal k c fOK 0 []).freeSess k).sessEvent k 2 := by
  have hact : ∀ act, d.fcpFixed k 0x12 [] (fun _ => []) act = act d c :=
    fun act => fcpFixed_act hr (fun x hx => absurd hx List.not_mem_nil) (by rw [hp]; rfl)
  simp only [Dev.sessionClose, fcpServed_of_fcpRun hr, hc, hact, Bool.not_true, Bool.false_eq_true, if_false]

theorem sessionClose_beside (hs : d.fcpServed = true) (hc : (d.sess k).close = some c) (hp : c.par = []) :
    d.sessionClose k = ((d.fcpAnswer k c fOK 0).freeSess k).sessEvent k 2 := by
  simp only [Dev.sessionClose, hs, hc, hp, List.isEmpty_nil, Bool.not_true, Bool.false_eq_true, if_false]

end Timers

/-- Settles O50: a packet meets the first test it fails, a request is answered by its SEQ, and sessions open, authenticate and end. -/
theorem fcpPacketsAreTested : Obligations.FcpPacketsAreTested := by
  refine ⟨fun s p ps hq => ?_, fun d n c hn => ?_, fun n k s => ?_, fun k s c => ?_⟩
  · intro d b n seq plen fofs total whole c
    refine ⟨fun hs => ?_, fun hs => ⟨fun h => ?_, fun hw hf hn hl => ?_, fun hw hf hn hl => ?_, fun hw hf hn hl => ⟨fun h => ?_, fun h64 hst h => ?_⟩⟩⟩
    · rw [exec_fcpPacketReceive, fcpPacket_unserved hq rfl hs]
    · rw [exec_fcpPacketReceive, fcpPacket_malformed hq rfl hs h]
    · rw [exec_fcpPacketReceive, fcpPacket_plain hq rfl hs hw hf hl, if_pos hn]
    · rw [exec_fcpPacketReceive, fcpPacket_plain hq rfl hs hw hf hl, if_neg hn]
    · rw [exec_fcpPacketReceive, fcpPacket_noSession hq rfl hs hw hf hn hl h]
    · rw [exec_fcpPacketReceive, fcpPacket_notOpened hq rfl hs hw hf hn hl h64 hst h]
  · exact ⟨fun hq hr => fcpRequest_runs hn hq hr, fun hq hr hc r st par h => fcpRequest_stored hn hq hr hc h, fun hq h => fcpRequest_exhausted hn hq h,
      fun hq h => fcpRequest_older hn hq h, fun hq hr ho => fcpRequest_busy hn hq hr ho, fun hq hr _ ht => fcpRequest_accepted hn hq hr ht⟩
  · intro d x
    refine ⟨rfl, fun c hr hl => ?_, fun c hr hl => ?_, fun h => ?_, fun h => ?_, fun h hi => ?_, fun h => ?_⟩
    · rw [exec_fcpPendingTimer, fcpPending_short hr hl]
    · rw [exec_fcpPendingTimer, fcpPending_long hr hl, withDev_self]
    · rw [exec_sessionHalfOpenTimeout, Dev.halfOpenEnd, if_pos h]
    · rw [exec_sessionHalfOpenTimeout, Dev.halfOpenEnd, if_neg h, withDev_self]
    · rw [exec_sessionIdleTimeout, Dev.idleEnd, if_pos ⟨h, hi⟩]
    · rw [exec_sessionIdleTimeout, Dev.idleEnd, if_neg fun hb => h hb.1, withDev_self]
  · intro d
    refine ⟨fun hr hlen hz hfuse => ?_, fun hr h4 hlen => ?_, fun hr hp hc => ?_, fun hs hc hp => ?_⟩
    · intro slot
      refine ⟨fun h => ?_, fun h1 h => ?_, fun h1 h2 => ⟨fun h => ?_, fun n hslot htyp hroles hfree => ?_⟩⟩
      · rw [exec_sessionOpen, sessionOpen_tests hr hlen hz hfuse, if_pos h]
      · rw [exec_sessionOpen, sessionOpen_tests hr hlen hz hfuse, if_neg (Nat.not_le.2 h1), if_pos h]
      · rw [exec_sessionOpen, sessionOpen_tests hr hlen hz hfuse, if_neg (Nat.not_le.2 h1), if_neg (Nat.not_le.2 h2), if_pos h]
      · obtain ⟨nd, ct, key, t1, d1, hd1, he⟩ := sessionOpen_opens (f := s.fuses) hr hlen hz hfuse (Nat.not_le.2 h1) (Nat.not_le.2 h2)
          (not_or.2 ⟨Nat.not_le.2 hslot, not_or.2 ⟨Classical.not_not.2 htyp, hroles⟩⟩) hfree
        exact ⟨nd, ct, key, t1, d1, hd1, by rw [exec_sessionOpen, he]⟩
    · intro x key ok
      refine ⟨fun h => ?_, fun h => ?_⟩
      · rw [exec_sessionAuth, sessionAuth_verdict hr h4 hlen]
        exact congrArg (fun x => Host.Outcome.next (s.withDev x)) (if_pos h)
      · rw [exec_sessionAuth, sessionAuth_verdict hr h4 hlen]
        exact congrArg (fun x => Host.Outcome.next (s.withDev x)) (if_neg h)
    · rw [exec_sessionClose, sessionClose_runs hr hp hc]
    · rw [exec_sessionClose, sessionClose_beside hs hc hp]

end Sys2Proof.Machine

/-! ### O51: FCP commands on the device -/

namespace Sys2Proof.Machine

section
variable (k : Fin 65) (s : State)

theorem exec_ping : exec (.ping k) s = .next (s.withDev (s.dev.fcpPing k)) := rfl
theorem exec_getInfo : exec (.getInfo k) s = .next (s.withDev (s.dev.fcpInfo s.fuses k)) := rfl
theorem exec_regRead (e : Ecc) : exec (.regRead k e) s = .next (s.withDev (s.dev.fcpRegRead s.fuses k e)) := rfl
theorem exec_regWrite (e : Ecc) : exec (.regWrite k e) s = .next (s.put (s.dev.fcpRegWrite s.fuses k e)) := rfl
theorem exec_imageWrite : exec (.imageWrite k) s = .next (s.withDev (s.dev.imageWrite k)) := rfl
theorem exec_streamBind : exec (.streamBind k) s = .next (s.withDev (s.dev.fcpBind k)) := rfl
theorem exec_streamUnbind : exec (.streamUnbind k) s = .next (s.withDev (s.dev.fcpUnbind k)) := rfl
theorem exec_quiesce : exec (.quiesce k) s = .next (s.withDev (s.dev.fcpQuiesce k)) := rfl
theorem exec_resume : exec (.resume k) s = .next (s.withDev (s.dev.fcpResume k)) := rfl
theorem exec_fwStage : exec (.fwStage k) s = .next (s.withDev (s.dev.fwStage s.fuses k)) := rfl
theorem exec_fwCommit : exec (.fwCommit k) s = .next (s.withDev (s.dev.fwCommit k)) := rfl
theorem exec_reset : exec (.reset k) s = .next (s.withDev (s.dev.fcpResetCmd k)) := rfl
theorem exec_fcpResetAct (i : Nat) : exec (.fcpResetAct i) s = .next (s.withDev (s.dev.fcpResetAct i)) := rfl
theorem exec_attest : exec (.attest k) s = .next (s.withDev (s.dev.attest s.fuses k)) := rfl
theorem exec_power : exec (.power k) s = .next (s.withDev (s.dev.fcpPower k)) := rfl
theorem exec_repair : exec (.repair k) s = .next (s.withDev (s.dev.fcpRepair k)) := rfl
theorem exec_healthQuery : exec (.healthQuery k) s = .next (s.withDev (s.dev.healthQuery s.fuses k)) := rfl
theorem exec_warmupAnnounce : exec .warmupAnnounce s = .next (s.withDev (s.dev.warmupAnnounce s.fuses)) := rfl

end

/-! Parameters in order. -/

theorem rsvd_of_zero {p : List Byte} {o n : Nat} (h : be p o n = 0) : (rsvd p o n).2 = false := by
  rw [rsvd, h]
  rfl

section Flags
variable {a b c e : Nat × Bool}

theorem flags_one (ha : a.2 = false) : ∀ x ∈ [a], x.2 = false := List.forall_mem_singleton.2 ha

theorem flags_two (ha : a.2 = false) (hb : b.2 = false) : ∀ x ∈ [a, b], x.2 = false := List.forall_mem_cons.2 ⟨ha, flags_one hb⟩

theorem flags_three (ha : a.2 = false) (hb : b.2 = false) (hc : c.2 = false) : ∀ x ∈ [a, b, c], x.2 = false := List.forall_mem_cons.2 ⟨ha, flags_two hb hc⟩

theorem flags_four (ha : a.2 = false) (hb : b.2 = false) (hc : c.2 = false) (he : e.2 = false) : ∀ x ∈ [a, b, c, e], x.2 = false :=
  List.forall_mem_cons.2 ⟨ha, flags_three hb hc he⟩

end Flags

/-- The items of a list of one, with nothing reserved set. -/
theorem badItems_one {p : List Byte} {size : Nat} (hlen : p.length = 4 + size) (h1 : be p 0 2 = 1) (hz : be p 2 2 = 0) : badItems p size = none := by
  have hsize : p.length - 4 = 1 * size := by omega
  have hfour : 4 ≤ p.length := by omega
  simp only [badItems, h1]
  exact badField_good (flags_two rfl (rsvd_of_zero hz)) hfour (if_pos hsize)

theorem leNat_append : ∀ as bs : List Byte, leNat (as ++ bs) = leNat as + 256 ^ as.length * leNat bs
  | [], bs => by rw [List.nil_append, leNat, List.length_nil, Nat.pow_zero, Nat.one_mul, Nat.zero_add]
  | a :: as, bs => by
    rw [List.cons_append, leNat, leNat, leNat_append as bs, List.length_cons, Nat.pow_succ', Nat.mul_add, Nat.mul_assoc, Nat.add_assoc]

/-- Of a field of value 0 both parts are 0. -/
theorem be_parts_zero {p : List Byte} {o m n : Nat} (h : be p o (m + n) = 0) : be p o m = 0 ∧ be p (o + m) n = 0 := by
  rw [be, List.take_add, beNat, List.reverse_append, leNat_append, List.drop_drop] at h
  obtain ⟨hlow, hhigh⟩ := Nat.add_eq_zero_iff.1 h
  exact ⟨(Nat.mul_eq_zero.1 hhigh).resolve_left (Nat.pos_iff_ne_zero.1 (Nat.pow_pos (by decide))), hlow⟩

theorem be_three_zero {p : List Byte} (h : be p 1 3 = 0) : be p 1 1 = 0 ∧ be p 2 1 = 0 ∧ be p 3 1 = 0 := by
  obtain ⟨h1, h23⟩ := be_parts_zero (m := 1) (n := 2) h
  exact ⟨h1, be_parts_zero (m := 1) (n := 1) h23⟩

section Commands
variable {d : Dev} {k : Nat} {c : FcpCmd} {f : Fuses}

theorem fcpPing_short (hr : d.fcpRun k 0x01 = some c) (h : c.par.length ≤ 1024) : d.fcpPing k = d.fcpFinal k c fOK 0 c.par := by
  simp only [Dev.fcpPing, hr, Nat.not_lt.2 h, if_false]

theorem fcpPing_long (hr : d.fcpRun k 0x01 = some c) (h : 1024 < c.par.length) : d.fcpPing k = d.fcpFinal k c fBAD_PARAM 1024 [] := by
  simp only [Dev.fcpPing, hr, h, if_true]

/-! A register access of one word of the Steward's SRAM. -/

section Sram
variable {a : Nat} (hlo : sramBase ≤ a) (hhi : a + 4 ≤ sramBase + 0x800000)
include hlo hhi

theorem sram_isLocal : isLocal a = true := by
  simp only [isLocal, Bool.or_eq_true, decide_eq_true_eq]
  simp only [sramBase, romBase] at hlo hhi ⊢
  omega

omit hlo in
theorem sram_not_far : ¬ 2 ^ 48 ≤ a := by
  simp only [sramBase] at hhi
  omega

theorem sram_not_config : isConfig a = false := by
  simp only [isConfig, Bool.or_eq_false_iff, decide_eq_false_iff_not]
  simp only [sramBase, configBase, lockBase, bakBase] at hlo hhi ⊢
  omega

theorem sram_fcpNoWrite : fcpNoWrite a = false := by
  rw [fcpNoWrite, sram_not_config hlo hhi]
  simp only [inBlock, Bool.false_and, Bool.or_false, Bool.or_eq_false_iff, decide_eq_false_iff_not]
  simp only [sramBase, romBase, secReg, bootReg, flashReg, hubBase] at hlo hhi ⊢
  omega

theorem fcpRegRead_word (hr : d.fcpAny k 0x20 = some c) (hb : badItems c.par 8 = none) (h1 : be c.par 0 2 = 1) (ha : be c.par 4 8 = a) (hst : c.stage = 0)
    (haux : c.aux = []) {e : Ecc} (he : isUe e = false) (hbar : d.fcpBarred a false = false) :
    d.fcpRegRead f k e = d.fcpFinal k c fOK 0 (beBytes 4 (d.readLe a 4)) := by
  have hmem := memSync_local_load (d := d) (f := f) (n := stewCore) (w := 4) (v := 0) (sram_isLocal hlo hhi) he
  simp only [Dev.fcpRegRead, hr, hb, h1, hst, haux, Nat.sub_zero, Dev.regReadFrom, Nat.mul_zero, Nat.add_zero, ha, hbar, sram_not_far hhi, hmem,
    Bool.false_eq_true, if_false, ne_eq, not_true_eq_false, List.nil_append, List.flatMap_cons, List.flatMap_nil, List.append_nil]

theorem fcpRegWrite_word (hr : d.fcpAny k 0x21 = some c) (hb : badItems c.par 12 = none) (h1 : be c.par 0 2 = 1) (ha : be c.par 4 8 = a) (hst : c.stage = 0)
    (hbar : d.fcpBarred a true = false) : d.fcpRegWrite f k .ok = (d.writeLe a 4 (be c.par 12 4)).fcpFinal k c fOK 0 [] := by
  have hmem := memSync_sram_store (d := d) (f := f) (n := stewCore) (w := 4) (v := be c.par 12 4) (x := .ok) hlo (by omega)
  have hrun : (d.writeLe a 4 (be c.par 12 4)).fcpAny k 0x21 = some c := hr
  simp only [Dev.fcpRegWrite, hr, hb, h1, hst, Nat.sub_zero, Dev.regWriteFrom, Nat.mul_zero, Nat.add_zero, ha, hbar, sram_not_far hhi,
    sram_fcpNoWrite hlo hhi, sram_not_config hlo hhi, hmem, hrun, Bool.or_self, Bool.false_eq_true, if_false, ne_eq, not_true_eq_false, Option.isNone_some]

end Sram

theorem imageWrite_fits (hr : d.fcpRun k 0x30 = some c) (h4 : 4 ≤ c.par.length) (hs : be c.par 0 4 + (c.par.length - 4) ≤ d.stageSize)
    (hh : d.hbmReady (d.stageBase k + be c.par 0 4) (c.par.length - 4) = true) :
    d.imageWrite k = (d.write (d.stageBase k + be c.par 0 4) (c.par.drop 4)).fcpFinal k c fOK 0 [] := by
  have hgood : badField c.par [4] [(0, decide (d.stageSize < be c.par 0 4 + (c.par.length - 4)))] (fun _ => none) = none :=
    badField_good (flags_one (decide_eq_false (Nat.not_lt.2 hs))) h4 rfl
  simp only [Dev.imageWrite, hr, hgood, hh, Bool.not_true, Bool.false_eq_true, if_false]

theorem fcpBind_good (hr : d.fcpRun k 0x50 = some c) (hlen : c.par.length = 16) (hg : be c.par 8 2 ≤ 4095) (hz : be c.par 10 2 = 0) (hc : be c.par 12 4 < 2 ^ 22) :
    d.fcpBind k =
      let x := d.bindStream (BitVec.ofNat 64 (be c.par 0 8)) (BitVec.ofNat 12 (be c.par 8 2)) (BitVec.ofNat 22 (be c.par 12 4))
      if x.1 = 0 then x.2.fcpFinal k c fOK 0 [] else x.2.fcpFinal k c fSTREAM x.1 [] :=
  fcpFixed_act hr (flags_three (decide_eq_false (Nat.not_lt.2 hg)) (rsvd_of_zero hz) (decide_eq_false (Nat.not_le.2 hc))) hlen

section Unbind
variable (hr : d.fcpRun k 0x51 = some c) (hlen : c.par.length = 8) (hf : be c.par 0 4 < 2 ^ 20) (hm : be c.par 4 1 ≤ 1) (hz : be c.par 5 3 = 0)
include hr hlen hf hm hz

theorem fcpUnbind_bound {j : Nat} {x : Stream} (h : d.ing.streams.find? (fun x => x.2.flow == be c.par 0 4) = some (j, x)) :
    d.fcpUnbind k = (if be c.par 4 1 = 1 then d.strGo j else d.unbind j).fcpFinal k c fOK 0 [] := by
  refine Eq.trans (fcpFixed_act hr (flags_three (decide_eq_false (Nat.not_le.2 hf)) (decide_eq_false (Nat.not_lt.2 hm)) (rsvd_of_zero hz)) hlen) ?_
  simp only [h]

theorem fcpUnbind_not (h : d.ing.streams.find? (fun x => x.2.flow == be c.par 0 4) = none) : d.fcpUnbind k = d.fcpFinal k c fOK 0 [] := by
  refine Eq.trans (fcpFixed_act hr (flags_three (decide_eq_false (Nat.not_le.2 hf)) (decide_eq_false (Nat.not_lt.2 hm)) (rsvd_of_zero hz)) hlen) ?_
  simp only [h]

end Unbind

section Quiesce
variable (hlen : c.par.length = 16) (ht : be c.par 0 1 ≤ 4) (hz : be c.par 1 7 = 0) (hq : quietBad c.par = false)
include hlen ht hz hq

omit hlen in
theorem quietParams_good : ∀ x ∈ quietParams c.par, x.2 = false := flags_three (decide_eq_false (Nat.not_lt.2 ht)) (rsvd_of_zero hz) hq

theorem fcpQuiesce_again (hr : d.fcpRun k 0x52 = some c) {i : Nat}
    (h : d.ing.quiesce.findIdx? (· == some (be c.par 0 1, BitVec.ofNat 64 (be c.par 8 8))) = some i) : d.fcpQuiesce k = d.fcpFinal k c fOK 0 (beBytes 1 i) := by
  refine Eq.trans (fcpFixed_act hr (quietParams_good ht hz hq) hlen) ?_
  simp only [h]

theorem fcpQuiesce_new (hr : d.fcpRun k 0x52 = some c)
    (h : d.ing.quiesce.findIdx? (· == some (be c.par 0 1, BitVec.ofNat 64 (be c.par 8 8))) = none) (hn : d.ing.quiesce.findIdx? (·.isNone) = none)
    (hroom : d.ing.quiesce.length < 64) :
    d.fcpQuiesce k = (d.modIng (fun g => { g with quiesce := d.ing.quiesce ++ [some (be c.par 0 1, BitVec.ofNat 64 (be c.par 8 8))] })).fcpFinal k c fOK 0
      (beBytes 1 d.ing.quiesce.length) := by
  refine Eq.trans (fcpFixed_act hr (quietParams_good ht hz hq) hlen) ?_
  simp only [h, hn, Nat.not_le.2 hroom, if_false]

theorem fcpResume_good (hr : d.fcpRun k 0x53 = some c) : d.fcpResume k = (d.modIng (fun g => { g with
    quiesce := g.quiesce.map (fun r => if r == some (be c.par 0 1, BitVec.ofNat 64 (be c.par 8 8)) then none else r) })).fcpFinal k c fOK 0 [] :=
  fcpFixed_act hr (quietParams_good ht hz hq) hlen

end Quiesce

section Stage
variable (hr : d.fcpRun k 0x60 = some c) (hlen : c.par.length = 4) (hs : be c.par 0 4 ≤ d.stageSize)
include hr hlen hs

theorem fwStage_passes (h : imageCheck (d.shadows f) d.secMin (d.staged k) (some (be c.par 0 4)) 6 = 0) : d.fwStage f k = d.fcpStage k c 1 [be c.par 0 4] := by
  refine Eq.trans (fcpFixed_act hr (flags_one (decide_eq_false (Nat.not_lt.2 hs))) hlen) ?_
  simp only [h]

theorem fwStage_fails {r : Nat} (hc : imageCheck (d.shadows f) d.secMin (d.staged k) (some (be c.par 0 4)) 6 = r) (h : r ≠ 0) :
    d.fwStage f k = d.fcpFinal k c fIMAGE_BAD r [] := by
  obtain ⟨r, rfl⟩ := Nat.exists_eq_succ_of_ne_zero h
  refine Eq.trans (fcpFixed_act hr (flags_one (decide_eq_false (Nat.not_lt.2 hs))) hlen) ?_
  simp only [hc]

end Stage

section Commit
variable (hr : d.fcpRun k 0x61 = some c) (hlen : c.par.length = 4) (hm : be c.par 0 1 ≤ 1) (hz : be c.par 1 3 = 0)
include hr hlen hm hz

theorem fwCommit_none (h : d.boot.staged = none) : d.fwCommit k = d.fcpFinal k c fIMAGE_BAD 9 [] := by
  refine Eq.trans (fcpFixed_act hr (flags_two (decide_eq_false (Nat.not_lt.2 hm)) (rsvd_of_zero hz)) hlen) ?_
  simp only [h]

theorem fwCommit_staged {slot : Nat} {h : List Byte} (hs : d.boot.staged = some (slot, h)) : d.fwCommit k =
    let d1 := (d.leaveWarmup.writeRec slot true h).fcpFinal k c fOK 0 []
    if be c.par 0 1 = 1 then d1.fcpLater 7 0 else d1 := by
  refine Eq.trans (fcpFixed_act hr (flags_two (decide_eq_false (Nat.not_lt.2 hm)) (rsvd_of_zero hz)) hlen) ?_
  simp only [hs]

end Commit

/-! A reset, by its kind. -/

section Reset
variable (hr : d.fcpRun k 0x70 = some c) (hlen : c.par.length = 4)
include hr hlen

theorem fcpResetCmd_device (hk : be c.par 0 1 ≤ 1 ∨ be c.par 0 1 = 7) (hz : be c.par 1 3 = 0) :
    d.fcpResetCmd k = ((if be c.par 0 1 ≤ 1 then d.leaveWarmup else d).fcpFinal k c fOK 0 []).fcpLater (be c.par 0 1) 0 := by
  obtain ⟨h1, h2, h3⟩ := be_three_zero hz
  have hgood : ∀ x ∈ resetParams c.par, x.2 = false := by
    refine flags_four (decide_eq_false ?_) (decide_eq_false ?_) (decide_eq_false ?_) (decide_eq_false ?_)
    · omega
    · rw [h1]; exact Nat.not_lt_zero _
    · rw [h2]; exact Nat.not_lt_zero _
    · rw [h3]; exact Nat.not_lt_zero _
  refine Eq.trans (fcpFixed_act hr hgood hlen) ?_
  exact if_pos hk

/-- A block's reset, of a kind that names one, whose other parameters are in their ranges. -/
theorem fcpResetCmd_block (hlo : 2 ≤ be c.par 0 1) (hhi : be c.par 0 1 ≤ 6) (h1 : be c.par 1 1 ≤ 3) (h2 : be c.par 2 1 ≤ if be c.par 0 1 ≤ 5 then 3 else 0)
    (h3 : be c.par 3 1 ≤ if be c.par 0 1 ≤ 4 then 16 else 0) : d.fcpResetCmd k =
      let g := 4 * be c.par 1 1 + be c.par 2 1
      let n := if be c.par 0 1 = 6 then be c.par 1 1 else if be c.par 0 1 = 5 then g else tileKey g (be c.par 3 1)
      ((d.blockReset (be c.par 0 1) n true).fcpFinal k c fOK 0 []).fcpLater (be c.par 0 1) n := by
  have hgood : ∀ x ∈ resetParams c.par, x.2 = false := by
    refine flags_four (decide_eq_false ?_) (decide_eq_false ?_) (decide_eq_false ?_) (decide_eq_false ?_)
    · omega
    · rw [decide_eq_true ⟨hlo, hhi⟩]
      exact Nat.not_lt.2 h1
    · by_cases h5 : be c.par 0 1 ≤ 5
      · rw [decide_eq_true ⟨hlo, h5⟩]
        rw [if_pos h5] at h2
        exact Nat.not_lt.2 h2
      · rw [if_neg h5] at h2
        rw [Nat.le_zero.1 h2]
        exact Nat.not_lt_zero _
    · by_cases h4 : be c.par 0 1 ≤ 4
      · rw [decide_eq_true ⟨hlo, h4⟩]
        rw [if_pos h4] at h3
        exact Nat.not_lt.2 h3
      · rw [if_neg h4] at h3
        rw [Nat.le_zero.1 h3]
        exact Nat.not_lt_zero _
  refine Eq.trans (fcpFixed_act hr hgood hlen) ?_
  exact if_neg (by omega)

end Reset

theorem attest_signs (hr : d.fcpRun k 0x71 = some c) (hlen : c.par.length = 32) (hf : d.fuseBad = false) : d.attest f k =
    d.fcpFinal k c fOK 0 (beBytes 4 d.logBytes.length ++ d.logBytes ++
      fit 17088 (Config.slhSign (idSeed f) (beBytes 48 (Config.sha384 (c.par ++ d.logBytes)).toNat))) := by
  refine Eq.trans (fcpFixed_act hr (fun x hx => absurd hx List.not_mem_nil) hlen) ?_
  exact if_neg (Bool.eq_false_iff.1 hf)

theorem fcpPower_good (hr : d.fcpRun k 0x72 = some c) (hlen : c.par.length = 4) (hk : be c.par 0 1 ≤ 47) (ha : be c.par 1 1 ≤ 2) (hz : be c.par 2 2 = 0) :
    d.fcpPower k =
      if be c.par 1 1 = 2 then d.fcpFinal k c fOK 0 (d.powerState (be c.par 0 1))
      else if be c.par 1 1 = 0 ∧ d.powerHeld c (be c.par 0 1) = true then d.fcpFinalFree k c fIN_USE
      else
        let d1 := d.domWrite (be c.par 0 1) (BitVec.ofNat 32 (2 + be c.par 1 1))
        if d1.rbit (domReg (be c.par 0 1)) 1 then d1.fcpFinalFree k c fHW_FAULT else d1.powerWait k c :=
  fcpFixed_act hr (flags_three (decide_eq_false (Nat.not_lt.2 hk)) (decide_eq_false (Nat.not_lt.2 ha)) (rsvd_of_zero hz)) hlen

theorem fcpPower_zero (hr : d.fcpRun k 0x72 = some c) (hlen : c.par.length = 4) (hk : be c.par 0 1 ≤ 47) (ha : be c.par 1 1 = 0) (hz : be c.par 2 2 = 0) :
    d.fcpPower k =
      if d.powerHeld c (be c.par 0 1) = true then d.fcpFinalFree k c fIN_USE
      else
        let d1 := d.domWrite (be c.par 0 1) (BitVec.ofNat 32 (2 + 0))
        if d1.rbit (domReg (be c.par 0 1)) 1 then d1.fcpFinalFree k c fHW_FAULT else d1.powerWait k c := by
  rw [fcpPower_good hr hlen hk (by omega) hz, ha, if_neg (by decide : ¬ 0 = 2)]
  simp only [true_and]

theorem fcpPower_one (hr : d.fcpRun k 0x72 = some c) (hlen : c.par.length = 4) (hk : be c.par 0 1 ≤ 47) (ha : be c.par 1 1 = 1) (hz : be c.par 2 2 = 0) :
    d.fcpPower k =
      let d1 := d.domWrite (be c.par 0 1) (BitVec.ofNat 32 (2 + 1))
      if d1.rbit (domReg (be c.par 0 1)) 1 then d1.fcpFinalFree k c fHW_FAULT else d1.powerWait k c := by
  rw [fcpPower_good hr hlen hk (by omega) hz, ha, if_neg (by decide : ¬ 1 = 2), if_neg fun h => absurd h.left (by decide)]

theorem fcpRepair_spare (hr : d.fcpRun k 0x73 = some c) (hlen : c.par.length = 4) (h0 : be c.par 0 1 ≤ 15) (h1 : be c.par 1 1 ≤ 15) (h2 : be c.par 2 1 ≤ 16)
    (hz : be c.par 3 1 = 0) (hm : (d.map (be c.par 0 1)).contains (be c.par 2 1) = false) (ho : d.regionOpen (be c.par 0 1) = true) :
    d.fcpRepair k = ((d.parkSet (be c.par 0 1) true).openSet (be c.par 0 1) false).fcpStage k c 1 [] := by
  refine Eq.trans (fcpFixed_act hr (flags_four (decide_eq_false (Nat.not_lt.2 h0)) (decide_eq_false (Nat.not_lt.2 h1)) (decide_eq_false (Nat.not_lt.2 h2))
    (rsvd_of_zero hz)) hlen) ?_
  refine if_neg ?_
  rw [hm, ho]
  exact not_or.2 ⟨Bool.false_ne_true, Bool.false_ne_true⟩

theorem healthQuery_good (hr : d.fcpRun k 0x74 = some c) (hlen : c.par.length = 4) (h0 : be c.par 0 1 ≤ 2) (h1 : be c.par 0 1 = 1 → be c.par 1 2 ≤ 15)
    (hz : be c.par 3 1 = 0) : d.healthQuery f k =
      if be c.par 0 1 = 2 ∧ (d.graph (be c.par 1 2)).st = 0 then d.fcpFinal k c fNO_GRAPH (be c.par 1 2) []
      else d.fcpFinal k c fOK 0 (d.healthBytes f (be c.par 0 1) (be c.par 1 2)) := by
  have hrgn : (be c.par 0 1 == 1 && decide (15 < be c.par 1 2)) = false := by
    refine Bool.eq_false_iff.2 fun h => ?_
    rw [Bool.and_eq_true, beq_iff_eq, decide_eq_true_eq] at h
    exact Nat.not_le.2 h.right (h1 h.left)
  exact fcpFixed_act hr (flags_three (decide_eq_false (Nat.not_lt.2 h0)) hrgn (rsvd_of_zero hz)) hlen

theorem fcpResetAct_none {i : Nat} (h : d.fcp.acts[i]? = none) : d.fcpResetAct i = d := by
  rw [Dev.fcpResetAct, h]

theorem fcpResetAct_some {i kind n : Nat} (h : d.fcp.acts[i]? = some (kind, n)) : d.fcpResetAct i =
    let d1 := d.modFcp (fun x => { x with acts := x.acts.eraseIdx i })
    if kind = 0 then d1.coldReset 6 0 else if kind = 1 then d1.warmReset 7 0 else if kind = 7 then d1.stewReset 12 0 else d1.blockReset kind n false := by
  simp only [Dev.fcpResetAct, h]

theorem warmupAnnounce_off (h : d.inWarmup = false) : d.warmupAnnounce f = d := by
  refine if_pos ?_
  rw [h]
  rfl

end Commands

/-- Settles O51: each FCP command on the device replies what its parameters and the device's state say. -/
theorem hostCommandsReply : Obligations.HostCommandsReply := by
  intro k s c d f reply refuse p
  refine ⟨fun hr => ⟨fun h => ?_, fun h => ?_⟩, fun hr hp => ?_, fun hr hlen h1 hz hst haux e he => ?_, fun hr hlen h1 hz hst => ?_, fun hr h4 hs => ?_,
    fun hr hlen hg hz hc => ?_, fun hr hlen hf hm hz => ⟨fun j x h => ?_, fun h => ?_⟩, fun hlen ht hz hq => ?_, fun hr hlen hs => ⟨fun h => ?_, fun h => ?_⟩,
    fun hr hlen hm hz => ⟨fun h => ?_, fun slot h hst => ?_⟩, fun hr hlen => ⟨fun hk hz => ?_, fun hk hz => ?_, fun hlo hhi h1 h2 h3 => ?_, fun hk h1 h2 h3 => ?_, fun hk h1 h2 h3 => ?_⟩,
    fun i kind n h => ?_, fun i h => ?_, fun hr hlen hf => ?_, fun hr hlen hk hz => ⟨fun ha => ?_, fun ha hh => ?_, fun ha => ?_⟩, fun hr hlen h0 h1 h2 hz hm ho => ?_,
    fun hr hlen h0 h1 hz => ⟨fun hk hg => ?_, fun hk => ?_⟩, fun h => ?_, fun h hi hu => ?_⟩
  · rw [exec_ping, fcpPing_short hr h]
  · rw [exec_ping, fcpPing_long hr h]
  · have hnil : c.par.length = 0 := List.length_eq_zero_iff.2 hp
    rw [exec_getInfo]
    exact congrArg (fun x => Host.Outcome.next (s.withDev x)) (fcpFixed_act hr (fun x hx => absurd hx List.not_mem_nil) hnil)
  · intro a hlo hhi hbar
    have hue : isUe e = false := by
      cases e with
      | ue b => exact absurd rfl (he b)
      | _ => rfl
    rw [exec_regRead, fcpRegRead_word hlo hhi hr (badItems_one hlen h1 hz) h1 rfl hst haux hue hbar]
  · intro a hlo hhi hbar
    rw [exec_regWrite, fcpRegWrite_word hlo hhi hr (badItems_one hlen h1 hz) h1 rfl hst hbar]
  · intro a hh
    rw [exec_imageWrite, imageWrite_fits hr h4 hs hh]
  · rw [exec_streamBind, fcpBind_good hr hlen hg hz hc]
  · rw [exec_streamUnbind, fcpUnbind_bound hr hlen hf hm hz h]
  · rw [exec_streamUnbind, fcpUnbind_not hr hlen hf hm hz h]
  · intro rule q
    refine ⟨fun hr => ⟨fun i h => ?_, fun h hn hroom => ?_⟩, fun hr => ?_⟩
    · rw [exec_quiesce, fcpQuiesce_again hlen ht hz hq hr h]
    · rw [exec_quiesce, fcpQuiesce_new hlen ht hz hq hr h hn hroom]
    · rw [exec_resume, fcpResume_good hlen ht hz hq hr]
  · rw [exec_fwStage, fwStage_passes hr hlen hs h]
  · rw [exec_fwStage, fwStage_fails hr hlen hs rfl h]
  · rw [exec_fwCommit, fwCommit_none hr hlen hm hz h]
  · rw [exec_fwCommit, fwCommit_staged hr hlen hm hz hst]
  · rw [exec_reset, fcpResetCmd_device hr hlen (Or.inr hk) hz, hk]
    rfl
  · rw [exec_reset, fcpResetCmd_device hr hlen (Or.inl hk) hz, if_pos hk]
  · have h5 : be c.par 0 1 ≤ 5 := Nat.le_succ_of_le hhi
    rw [exec_reset, fcpResetCmd_block hr hlen hlo (Nat.le_succ_of_le h5) h1 (by rw [if_pos h5]; exact h2) (by rw [if_pos hhi]; exact h3)]
    dsimp only
    rw [if_neg (fun h6 : be c.par 0 1 = 6 => absurd h5 (by rw [h6]; decide)), if_neg (fun h6 : be c.par 0 1 = 5 => absurd (h6 ▸ hhi : 5 ≤ 4) (by decide))]
  · rw [exec_reset, fcpResetCmd_block hr hlen (by rw [hk]; decide) (by rw [hk]; decide) h1 (by rw [hk]; exact h2) (by rw [hk]; exact Nat.le_of_eq h3), hk]
    rfl
  · rw [exec_reset, fcpResetCmd_block hr hlen (by rw [hk]; decide) (Nat.le_of_eq hk) h1 (by rw [hk]; exact Nat.le_of_eq h2) (by rw [hk]; exact Nat.le_of_eq h3), hk]
    rfl
  · rw [exec_fcpResetAct, fcpResetAct_some h]
  · rw [exec_fcpResetAct, fcpResetAct_none h, withDev_self]
  · rw [exec_attest, attest_signs hr hlen hf]
  · rw [exec_power, fcpPower_good hr hlen hk (Nat.le_of_eq ha) hz, if_pos ha]
  · rw [exec_power, fcpPower_zero hr hlen hk ha hz, if_pos hh]
  · rcases ha with ha | ⟨ha, hh⟩
    · rw [exec_power, fcpPower_one hr hlen hk ha hz, ha]
    · rw [exec_power, fcpPower_zero hr hlen hk ha hz, if_neg (Bool.eq_false_iff.1 hh), ha]
  · rw [exec_repair, fcpRepair_spare hr hlen h0 h1 h2 hz hm ho]
  · rw [exec_healthQuery, healthQuery_good hr hlen h0 h1 hz, if_pos ⟨hk, hg⟩]
  · rw [exec_healthQuery, healthQuery_good hr hlen h0 h1 hz, if_neg fun hb => hk.elim (fun h => h hb.1) (fun h => h hb.2)]
  · rw [exec_warmupAnnounce, warmupAnnounce_off h, withDev_self]
  · refine congrArg (fun x => Host.Outcome.next (s.withDev x)) (if_neg ?_)
    rw [h, hu, beq_false_of_ne hi]
    exact Bool.false_ne_true

end Sys2Proof.Machine

/-! ### O52: FCP commands on graphs -/

namespace Sys2Proof.Machine

section
variable (k : Fin 65) (s : State)

theorem exec_graphLoad : exec (.graphLoad k) s = .next (s.withDev (s.dev.graphLoad k)) := rfl
theorem exec_graphQuery : exec (.graphQuery k) s = .next (s.withDev (s.dev.graphQuery k)) := rfl
theorem exec_graphStart : exec (.graphStart k) s = .next (s.withDev (s.dev.graphStart k)) := rfl
theorem exec_graphStop : exec (.graphStop k) s = .next (s.withDev (s.dev.graphStop k)) := rfl
theorem exec_graphUnload : exec (.graphUnload k) s = .next (s.withDev (s.dev.graphUnload k)) := rfl
theorem exec_graphSwap : exec (.graphSwap k) s = .next (s.withDev (s.dev.graphSwap k)) := rfl
theorem exec_tokenInject : exec (.tokenInject k) s = .next (s.withDev (s.dev.tokenInject k)) := rfl
theorem exec_swapRedirect (g : Fin 16) (slot : BitVec 8) : exec (.swapRedirect g slot) s = .next (s.withDev (s.dev.swapRedirect g slot.toNat)) := rfl
theorem exec_fcpCommandComplete (ok : Bool) : exec (.fcpCommandComplete k ok) s = .next (s.withDev (s.dev.fcpComplete s.fuses k ok)) := rfl

end

section Graph
variable {d : Dev} {k : Nat} {c : FcpCmd}

theorem onGraph_there {act : Nat → Dev} (h : d.graphThere (be c.par 0 2) = true) : d.onGraph k c act = act (be c.par 0 2) := if_pos h

theorem onGraph_not {act : Nat → Dev} (h : d.graphThere (be c.par 0 2) = false) : d.onGraph k c act = d.fcpFinal k c fNO_GRAPH (be c.par 0 2) [] :=
  if_neg (Bool.eq_false_iff.1 h)

theorem not_bnot_of_true {b : Bool} (h : b = true) : ¬ (!b) = true := by
  rw [h]
  exact Bool.false_ne_true

theorem be_two_zero {p : List Byte} (h : be p 2 2 = 0) : be p 2 1 = 0 ∧ be p 3 1 = 0 := be_parts_zero (m := 1) (n := 1) h

section Load
variable (hr : d.fcpRun k 0x31 = some c) (hlen : c.par.length = 36) (hs : be c.par 0 4 ≤ d.stageSize) {bs : List Byte} (hbs : d.staged k 0 (be c.par 0 4) = bs)
include hr hlen hs hbs

theorem graphLoad_refused {r : Nat} (hreason : d.loadReason bs (be c.par 0 4) (byteNats (sub c.par 4 16)) (byteNats (sub c.par 20 16)) = r) (h : r ≠ 0) :
    d.graphLoad k = d.fcpFinal k c fLOAD_REFUSED r [] := by
  obtain ⟨r, rfl⟩ := Nat.exists_eq_succ_of_ne_zero h
  refine Eq.trans (fcpFixed_act hr (flags_one (decide_eq_false (Nat.not_lt.2 hs))) hlen) ?_
  simp only [hbs, hreason]

theorem graphLoad_loads {id : Nat} (h : d.loadReason bs (be c.par 0 4) (byteNats (sub c.par 4 16)) (byteNats (sub c.par 20 16)) = 0) (hid : d.imgId bs = some id) :
    d.graphLoad k =
      let d1 := d.loadGraph bs id (byteNats (sub c.par 4 16)) (byteNats (sub c.par 20 16))
      d1.fcpFinal k c fOK 0 (beBytes 2 id ++ [0, 0] ++ beBytes 4 (d1.graph id).slots.length) := by
  refine Eq.trans (fcpFixed_act hr (flags_one (decide_eq_false (Nat.not_lt.2 hs))) hlen) ?_
  simp only [hbs, h, hid]

end Load

/-! The commands whose parameters are a graph and nothing else. -/

section Four
variable (hlen : c.par.length = 4) (hz : be c.par 2 2 = 0)
include hlen hz

theorem graphQuery_not (hr : d.fcpRun k 0x36 = some c) (h : d.graphThere (be c.par 0 2) = false) :
    d.graphQuery k = d.fcpFinal k c fNO_GRAPH (be c.par 0 2) [] :=
  Eq.trans (fcpFixed_act hr (flags_one (rsvd_of_zero hz)) hlen) (onGraph_not h)

theorem graphQuery_noHurdles (hr : d.fcpRun k 0x36 = some c) (h : d.graphThere (be c.par 0 2) = true) (hh : d.allHurdles = []) :
    d.graphQuery k = d.fcpFinal k c fOK 0 (beBytes 1 (d.graph (be c.par 0 2)).st ++ [0] ++ beBytes 2 (regionBits (d.graph (be c.par 0 2)).regsA.contains) ++
      beBytes 2 (regionBits (d.graph (be c.par 0 2)).regsB.contains) ++ [0, 0]) := by
  have hone : beBytes 1 0 = [0] := by decide
  have htwo : beBytes 2 0 = [0, 0] := by decide
  refine Eq.trans (fcpFixed_act hr (flags_one (rsvd_of_zero hz)) hlen) ((onGraph_there h).trans ?_)
  simp only [hh, List.filter_nil, List.any_nil, List.filterMap_nil, List.head?_nil, Option.map_none, Option.getD_none, Bool.false_eq_true, if_false, hone, htwo]

theorem graphStart_act (hr : d.fcpRun k 0x32 = some c) : d.graphStart k = d.onGraph k c (fun n =>
    if (d.graph n).st ≠ 1 ∧ (d.graph n).st ≠ 4 then d.fcpFinal k c fGRAPH_STATE (d.graph n).st []
    else ((if (d.graph n).st = 4 then (d.feeders n).foldl (fun (d : Dev) x => d.hrdStopSet x.1 x.2 0) d else d).setSt n 2).fcpFinal k c fOK 0 (beBytes 4 0)) := by
  obtain ⟨_, h3⟩ := be_two_zero hz
  have hflag : decide (1 < be c.par 3 1) = false := decide_eq_false (by omega)
  refine Eq.trans (fcpFixed_act hr (flags_one hflag) hlen) ?_
  simp only [h3, Nat.zero_ne_one, if_false]

theorem graphStop_act (hr : d.fcpRun k 0x33 = some c) : d.graphStop k = d.onGraph k c (fun n =>
    if (d.graph n).st ≠ 2 then d.fcpFinal k c fGRAPH_STATE (d.graph n).st []
    else (((d.setSt n 3).feeders n).foldl (fun (d : Dev) x => d.hrdStopSet x.1 x.2 256#32) (d.setSt n 3)).stopWait k c) := by
  obtain ⟨h2, h3⟩ := be_two_zero hz
  have hflag : decide (1 < be c.par 2 1) = false := decide_eq_false (by omega)
  refine Eq.trans (fcpFixed_act hr (flags_one hflag) hlen) ?_
  simp only [h2, h3, Nat.reduceBEq, Bool.false_and, Bool.or_false, Bool.false_eq_true, if_false, Bool.not_eq_true', beq_eq_false_iff_ne, Nat.add_zero]

theorem graphUnload_act (hr : d.fcpRun k 0x35 = some c) : d.graphUnload k = d.onGraph k c (fun n =>
    if ((d.graph n).st ≠ 1 ∧ (d.graph n).st ≠ 4) ∨ d.armedNew n then d.fcpFinal k c fGRAPH_STATE (d.graph n).st []
    else
      let d1 := (d.endBindings n).freeAnchors n
      (d1.keepOnly n (d1.allHurdles.filter (fun x => x.2.2.graph.toNat == n && x.2.2.redirect.isSome))).fcpFinal k c fOK 0 []) :=
  fcpFixed_act hr (flags_one (rsvd_of_zero hz)) hlen

end Four

section Swap
variable (hr : d.fcpRun k 0x34 = some c) (hlen : c.par.length = 12) (h9 : be c.par 9 1 ≤ 1) (hz : be c.par 10 2 = 0) (hold : d.graphThere (be c.par 0 2) = true)
include hr hlen h9 hz hold

theorem graphSwap_noGraph (h : d.graphThere (be c.par 2 2) = false) : d.graphSwap k = d.fcpFinal k c fNO_GRAPH (be c.par 2 2) [] := by
  refine Eq.trans (fcpFixed_act hr (flags_two (decide_eq_false (Nat.not_lt.2 h9)) (rsvd_of_zero hz)) hlen) ((onGraph_there hold).trans (if_pos ?_))
  rw [h]
  rfl

variable (hnew : d.graphThere (be c.par 2 2) = true)
include hnew

theorem graphSwap_state (h : (d.graph (be c.par 2 2)).st ≠ 1) : d.graphSwap k = d.fcpFinal k c fGRAPH_STATE (d.graph (be c.par 2 2)).st [] :=
  Eq.trans (fcpFixed_act hr (flags_two (decide_eq_false (Nat.not_lt.2 h9)) (rsvd_of_zero hz)) hlen)
    ((onGraph_there hold).trans ((if_neg (not_bnot_of_true hnew)).trans (if_pos h)))

theorem graphSwap_arms (hst : (d.graph (be c.par 2 2)).st = 1) {hos : List (Nat × Nat × Hurdle)} {es : BitVec 8} (hhos : d.entryHurdles (be c.par 0 2) (be c.par 4 2) = hos)
    (hes : BitVec.ofNat 8 (be c.par 8 1) = es) (hne : hos.isEmpty = false)
    (hsrc : hos.any (fun x => (d.entryOf (be c.par 2 2) (be c.par 6 2) x.2.2.copyB).map (·.nsrc) != some x.2.2.nsrc) = false)
    (harm : hos.any (fun x => x.2.2.armed.isSome || d.rbit (hrdStop x.1 x.2.1) 8) = false) (hlate : hos.any (fun x => decide (128 ≤ (es - x.2.2.e).toNat)) = false) :
    d.graphSwap k =
      let a : Armed := { new := be c.par 2 2, hn := be c.par 6 2, es := es, sess := k, token := be c.par 9 1 == 1 }
      (hos.foldl (fun (d : Dev) x =>
        (d.setHurdle x.1 x.2.1 { d.hurdle x.1 x.2.1 with armed := some a }).hrdStopSet x.1 x.2.1 (256#32 + es.zeroExtend 32)) d).fcpFinal k c fOK 0 [] := by
  subst hhos hes
  exact Eq.trans (fcpFixed_act hr (flags_two (decide_eq_false (Nat.not_lt.2 h9)) (rsvd_of_zero hz)) hlen)
    ((onGraph_there hold).trans ((if_neg (not_bnot_of_true hnew)).trans ((if_neg (Classical.not_not.2 hst)).trans
      ((if_neg (Bool.eq_false_iff.1 hne)).trans ((if_neg (Bool.eq_false_iff.1 hsrc)).trans ((if_neg (Bool.eq_false_iff.1 harm)).trans
        (if_neg (Bool.eq_false_iff.1 hlate))))))))

end Swap

/-! TOKEN_INJECT of one record. -/

section Inject
variable (hr : d.fcpRun k 0x40 = some c) (hlen : c.par.length = 36) (h1 : be c.par 0 2 = 1) (hz : be c.par 2 2 = 0) (hrec : be c.par 29 7 = 0)
include hr hlen h1 hz hrec

theorem tokenInject_one : d.tokenInject k =
    if d.recBad (d.sess k).roles (recToken c.par 0) ≠ 0 then
      d.injectWait k { c with aux := [fTOKEN_REFUSED, 0 + d.recBad (d.sess k).roles (recToken c.par 0) * 65536] }
    else (d.blockSend cmdNode (recToken c.par 0)).injectWait k { c with aux := [fOK, 0] } := by
  obtain ⟨h29, h30⟩ := be_parts_zero (o := 29) (m := 1) (n := 6) hrec
  have hfields : (recFields c.par).find? (·.2) = none := by
    rw [recFields, h1]
    change [((29 : Nat), be c.par 29 1 != 0), (30, be c.par 30 6 != 0)].find? (·.2) = none
    rw [h29, h30]
    rfl
  have hitems : badItems c.par 32 = none := badItems_one hlen h1 hz
  by_cases hbad : d.recBad (d.sess k).roles (recToken c.par 0) ≠ 0
  · rw [if_pos hbad]
    simp only [Dev.tokenInject, hr, hitems, hfields, Option.map_none, h1, Dev.injectFrom, if_pos hbad]
  · rw [if_neg hbad]
    simp only [Dev.tokenInject, hr, hitems, hfields, Option.map_none, h1, Dev.injectFrom, if_neg hbad]

end Inject

theorem recToken_crcOk (p : List Byte) (i : Nat) : Tag.crcOk (recToken p i).tag = true := crcOk_seal _

/-! A hurdle's armed swap, and commands under way. -/

section Armed
variable {g j : Nat} {a : Armed} (ha : (d.hurdle g j).armed = some a)
include ha

theorem swapRedirect_runs (h : d.hrdStopped g j = false) : d.swapRedirect g j = d := by
  simp only [Dev.swapRedirect, ha, h, Bool.not_false, if_true]

theorem swapRedirect_stopped (h : d.hrdStopped g j = true) (ht : a.token = false) {d1 : Dev}
    (hd : d1 = (d.setHurdle g j { d.hurdle g j with
      armed := none, redirect := some (a.new, a.hn), old := some ((d.hurdle g j).feeds.1, (d.hurdle g j).feeds.2, a.es), due := false }).hrdStopSet g j
        (d.reg (hrdStop g j) &&& 0xFF#32))
    (hst : (d1.graph a.new).st ≠ 1) (hdue : (d1.hurdle g j).due = false) : d.swapRedirect g j = d1.sessEvent a.sess 6 := by
  have htok : d1.swapToken g j = d1 := by
    refine if_pos ?_
    rw [hdue]
    rfl
  simp only [Dev.swapRedirect, ha, h, ht, ← hd, hst, htok, Bool.not_true, Bool.false_eq_true, if_false]

end Armed

theorem fcpComplete_none {f : Fuses} {ok : Bool} (h : (d.sess k).run = none) : d.fcpComplete f k ok = d := by
  simp only [Dev.fcpComplete, h, ite_self]

theorem fcpComplete_some {f : Fuses} {ok : Bool} (hs : d.fcpServed = true) (h : (d.sess k).run = some c) (hst : c.stage ≠ 0) : d.fcpComplete f k ok =
    if c.op = 0x32 then d.startWait k c else if c.op = 0x33 then d.stopWait k c else if c.op = 0x40 then d.injectWait k c
    else if c.op = 0x60 then d.fwStaged k c ok else if c.op = 0x72 then d.powerWait k c else if c.op = 0x73 then d.repairStep f k c else d := by
  simp only [Dev.fcpComplete, hs, h, hst, if_true, if_false]

end Graph

/-- Settles O52: each FCP command on a graph replies what the graph's state says, and what is under way completes at its row. -/
theorem graphCommandsReply : Obligations.GraphCommandsReply := by
  refine ⟨fun k s c => ?_, fun g slot s a => ?_, fun k ok s c => ?_⟩
  · intro d reply refuse p n st
    refine ⟨?_, fun hlen hz => ⟨fun hn => ⟨fun hr => ?_, fun hr => ?_, fun hr => ?_, fun hr => ?_⟩,
      fun hn => ⟨fun hr hh => ?_, fun hr => ⟨fun hst => ?_, fun hst1 hst4 => ?_⟩, fun hr => ⟨fun hst => ?_, fun hst => ?_⟩, fun hr => ⟨fun hst1 hst4 => ?_, fun hst ha => ?_⟩⟩⟩,
      fun hr hlen h9 hz hold h => ?_, fun hr hlen h9 hz hold hnew h => ?_, fun hr hlen h9 hz hold hnew hst => ?_, fun hr hlen h1 hz hrec => ?_⟩
    · intro hr hlen hs bs vm dm
      refine ⟨fun h => ?_, fun id h hid => ?_⟩
      · rw [exec_graphLoad, graphLoad_refused hr hlen hs rfl rfl h]
      · rw [exec_graphLoad, graphLoad_loads hr hlen hs rfl h hid]
    · rw [exec_graphQuery, graphQuery_not hlen hz hr hn]
    · rw [exec_graphStart, graphStart_act hlen hz hr, onGraph_not hn]
    · rw [exec_graphStop, graphStop_act hlen hz hr, onGraph_not hn]
    · rw [exec_graphUnload, graphUnload_act hlen hz hr, onGraph_not hn]
    · rw [exec_graphQuery, graphQuery_noHurdles hlen hz hr hn hh]
    · have hnot : ¬ (st ≠ 1 ∧ st ≠ 4) := fun h => h.left hst
      have hstopped : ¬ st = 4 := by
        rw [hst]
        decide
      rw [exec_graphStart, graphStart_act hlen hz hr, onGraph_there hn, if_neg hnot, if_neg hstopped]
      rfl
    · rw [exec_graphStart, graphStart_act hlen hz hr, onGraph_there hn, if_pos ⟨hst1, hst4⟩]
    · rw [exec_graphStop, graphStop_act hlen hz hr, onGraph_there hn, if_pos hst]
    · rw [exec_graphStop, graphStop_act hlen hz hr, onGraph_there hn, if_neg (Classical.not_not.2 hst)]
      rfl
    · rw [exec_graphUnload, graphUnload_act hlen hz hr, onGraph_there hn, if_pos (Or.inl ⟨hst1, hst4⟩)]
    · have hnot : ¬ ((st ≠ 1 ∧ st ≠ 4) ∨ d.armedNew n = true) := by
        rintro (⟨h1, h4⟩ | harm)
        · exact hst.elim h1 h4
        · exact Bool.false_ne_true (ha.symm.trans harm)
      rw [exec_graphUnload, graphUnload_act hlen hz hr, onGraph_there hn, if_neg hnot]
    · rw [exec_graphSwap, graphSwap_noGraph hr hlen h9 hz hold h]
    · rw [exec_graphSwap, graphSwap_state hr hlen h9 hz hold hnew h]
    · intro hos es a hne hsrc harm hlate
      rw [exec_graphSwap, graphSwap_arms hr hlen h9 hz hold hnew hst rfl rfl hne hsrc harm hlate]
    · intro t
      refine ⟨fun h => ⟨?_, recToken_crcOk _ _⟩, fun h => ?_⟩
      · rw [exec_tokenInject, tokenInject_one hr hlen h1 hz hrec, if_neg (Classical.not_not.2 h)]
      · rw [exec_tokenInject, tokenInject_one hr hlen h1 hz hrec, if_pos h, Nat.zero_add]
  · intro d j h ha
    refine ⟨fun hs => ?_, fun hs ht => ?_⟩
    · rw [exec_swapRedirect, swapRedirect_runs ha hs, withDev_self]
    · intro d1 hst hdue
      rw [exec_swapRedirect, swapRedirect_stopped ha hs ht rfl hst hdue]
  · intro d
    refine ⟨fun h => ?_, fun hs h hst => ⟨fun ho => ?_, fun ho => ?_, fun ho => ?_, fun ho => ?_, fun ho => ?_, fun ho => ?_⟩⟩
    · rw [exec_fcpCommandComplete, fcpComplete_none h, withDev_self]
    all_goals rw [exec_fcpCommandComplete, fcpComplete_some hs h hst, ho]
    all_goals rfl

end Sys2Proof.Machine

/-! ### O53: resets -/

namespace Sys2Proof.Machine

section
variable (s : State)

theorem exec_swrstWarm (v : W32) : exec (.swrstWarm v) s = .next (s.withDev (if swrstAsks v 1 then s.dev.warmReset 7 0 else s.dev)) := rfl
theorem exec_swrstCold (v : W32) : exec (.swrstCold v) s = .next (s.withDev (if swrstAsks v 2 then s.dev.coldReset 6 0 else s.dev)) := rfl
theorem exec_swrstSteward (v : W32) : exec (.swrstSteward v) s = .next (s.withDev (if swrstAsks v 3 then s.dev.stewReset 12 0 else s.dev)) := rfl
theorem exec_jtagReset (cold : Bool) : exec (.jtagReset cold) s = .next (s.withDev (s.dev.jtagReset cold)) := rfl
theorem exec_wdogExpiry : exec .wdogExpiry s = .next (s.withDev s.dev.wdogExpiry) := rfl
theorem exec_wdogHalfExpiry : exec .wdogHalfExpiry s = .next (s.withDev s.dev.wdogHalf) := rfl
theorem exec_wdogKick (v : W32) : exec (.wdogKick v) s = .next (s.withDev (s.dev.wdogKick v)) := rfl
theorem exec_stewardRestart : exec .stewardRestart s = .next (s.withDev s.dev.stewRestart) := rfl

end

theorem swrstAsks_of {v : W32} {k : Nat} (hkey : fld v 31 16 = 0x5A17) (hk : fld v 1 0 = k) : swrstAsks v k = true := by
  rw [swrstAsks, hkey, hk, beq_self_eq_true, beq_self_eq_true]
  rfl

theorem swrstAsks_badKey {v : W32} (k : Nat) (h : fld v 31 16 ≠ 0x5A17) : swrstAsks v k = false := by
  rw [swrstAsks, beq_false_of_ne h, Bool.false_and]

section Sources
variable {d : Dev}

theorem wdogHalf_first (hon : d.rbit (rstReg 0x14) 31 = true) (hh : d.rst.half = false) :
    d.wdogHalf = { d with rst := { d.rst with half := true } }.raiseFree 644 0 := by
  refine if_pos ?_
  rw [hon, hh]
  rfl

theorem wdogHalf_off (hon : d.rbit (rstReg 0x14) 31 = false) : d.wdogHalf = d := by
  refine if_neg ?_
  rw [hon, Bool.false_and]
  exact Bool.false_ne_true

theorem stewRestart_held (hh : d.stew.hold = true) (hp : d.rst.phase = 0) : d.stewRestart = { d with stew := { on := true } } := by
  refine if_pos ?_
  rw [hh, hp]
  rfl

theorem stewRestart_not (h : d.stew.hold = false ∨ d.rst.phase ≠ 0) : d.stewRestart = d := by
  refine if_neg (Bool.eq_false_iff.1 (Bool.and_eq_false_iff.2 ?_))
  rw [beq_eq_false_iff_ne]
  exact h

end Sources

/-! A table of which only some keys are kept. -/

theorem keysRise_filter {α : Type} {m : SMap α} (p : Nat × α → Bool) (h : keysRise m) : keysRise (m.filter p) := List.Pairwise.filter p h

theorem mget_of_below {α : Type} {d : α} {m : SMap α} {k : Nat} (h : ∀ c ∈ m, k < c.1) : mget d m k = d := by
  cases m with
  | nil => rfl
  | cons c m =>
    have hc := h c List.mem_cons_self
    rw [mget, if_neg (Nat.ne_of_gt hc), if_pos hc]

theorem mget_filter_rise {α : Type} {d : α} (q : Nat → Bool) (k : Nat) : ∀ {m : SMap α}, keysRise m →
    mget d (m.filter (fun c => q c.1)) k = if q k then mget d m k else d
  | [], _ => (ite_self d).symm
  | (i, w) :: m, h => by
    obtain ⟨hlt, hrest⟩ := List.pairwise_cons.1 h
    have ih := mget_filter_rise (d := d) q k hrest
    by_cases hq : q i = true
    · rw [List.filter_cons_of_pos (p := fun c : Nat × α => q c.1) hq]
      by_cases h1 : i = k
      · subst h1
        rw [mget, mget, if_pos rfl, if_pos rfl, if_pos hq]
      · by_cases h2 : k < i
        · rw [mget, mget, if_neg h1, if_neg h1, if_pos h2, if_pos h2, ite_self]
        · rw [mget, mget, if_neg h1, if_neg h1, if_neg h2, if_neg h2, ih]
    · rw [List.filter_cons_of_neg (p := fun c : Nat × α => q c.1) hq, ih]
      by_cases h1 : i = k
      · subst h1
        rw [if_neg hq, if_neg hq]
      · by_cases h2 : k < i
        · rw [mget, if_neg h1, if_pos h2, mget_of_below fun c hc => Nat.lt_trans h2 (hlt c hc)]
        · rw [mget, if_neg h1, if_neg h2]

/-! The history entry of a reset, in the backup domain. -/

section Record
variable {d : Dev}

theorem bakRegs_bakReg {o : Nat} (ho : o < 0x1000) : bakRegs (bakReg o % 2 ^ 48) = true := by
  have hlast : bakBase + 0x1000 ≤ 2 ^ 48 := by decide
  have hmod : bakReg o % 2 ^ 48 = bakReg o := Nat.mod_eq_of_lt (Nat.lt_of_lt_of_le (Nat.add_lt_add_left ho _) hlast)
  rw [hmod]
  exact decide_eq_true ⟨Nat.le_add_right _ _, Nat.add_lt_add_left ho _⟩

theorem ne_bakReg {a o : Nat} (ha : bakRegs (a % 2 ^ 48) = false) (ho : o < 0x1000) : a ≠ bakReg o := by
  rintro rfl
  rw [bakRegs_bakReg ho] at ha
  exact Bool.noConfusion ha

theorem bakReg_ne {o o' : Nat} (h : o ≠ o') : bakReg o ≠ bakReg o' := fun he => h (Nat.add_left_cancel he)

theorem count32_eq (a : Nat) : d.count32 a = if (d.reg a).toNat = 2 ^ 32 - 1 then d else d.setReg a (d.reg a + 1) := rfl

/-- Of two devices: they differ in registers alone. -/
def OnlyRegs (d e : Dev) : Prop := e = { d with regs := e.regs }

theorem OnlyRegs.trans {d e f : Dev} (h : OnlyRegs d e) (h' : OnlyRegs e f) : OnlyRegs d f := by
  unfold OnlyRegs at h h' ⊢
  rw [h] at h'
  exact h'

theorem onlyRegs_setReg (d : Dev) (a : Nat) (v : W32) : OnlyRegs d (d.setReg a v) := rfl

theorem onlyRegs_setFld (d : Dev) (a hi lo x : Nat) : OnlyRegs d (d.setFld a hi lo x) := onlyRegs_setReg d a _

theorem onlyRegs_count32 (d : Dev) (a : Nat) : OnlyRegs d (d.count32 a) := by
  rw [count32_eq]
  split
  · rfl
  · exact onlyRegs_setReg d a _

theorem keysRise_count32 {a : Nat} (h : keysRise d.regs) : keysRise (d.count32 a).regs := by
  rw [count32_eq]
  split
  · exact h
  · exact keysRise_setReg _ _ _ h

theorem reg_count32_other {a b : Nat} (h : keysRise d.regs) (hb : b ≠ a) : (d.count32 a).reg b = d.reg b := by
  rw [count32_eq]
  split
  · rfl
  · exact reg_setReg_other _ _ _ _ h hb

theorem reg_count32_same {a : Nat} (h : keysRise d.regs) : ((d.count32 a).reg a).toNat = min (2 ^ 32 - 1) ((d.reg a).toNat + 1) := by
  have hlt := (d.reg a).isLt
  rw [count32_eq]
  split
  next hmax => rw [hmax]; rfl
  next hmax =>
    rw [reg_setReg_same _ _ _ h, BitVec.toNat_add]
    change ((d.reg a).toNat + 1) % 2 ^ 32 = _
    omega

variable {code reach detail : Nat}

theorem onlyRegs_recordReset : OnlyRegs d (d.recordReset code reach detail) :=
  (((onlyRegs_count32 d _).trans (onlyRegs_setReg _ _ _)).trans (onlyRegs_setReg _ _ _)).trans (onlyRegs_setFld _ _ _ _ _)

theorem histIndex_lt : d.rfld (bakReg 0xC) 3 0 < 16 := fld_lt _ _ _

variable (h : keysRise d.regs)
include h

theorem reg_recordReset_other {a : Nat} (ha : bakRegs (a % 2 ^ 48) = false) : (d.recordReset code reach detail).reg a = d.reg a := by
  have hn : d.rfld (bakReg 0xC) 3 0 < 16 := histIndex_lt
  have hc := keysRise_count32 (a := bakReg 4) h
  unfold Dev.recordReset
  rw [reg_setFld_other (keysRise_setReg _ _ _ (keysRise_setReg _ _ _ hc)) (ne_bakReg ha (by decide)),
    reg_setReg_other _ _ _ _ (keysRise_setReg _ _ _ hc) (ne_bakReg ha (by omega)), reg_setReg_other _ _ _ _ hc (ne_bakReg ha (by omega)),
    reg_count32_other h (ne_bakReg ha (by decide))]

variable {n : Nat} (hn : d.rfld (bakReg 0xC) 3 0 = n)
include hn

theorem reg_recordReset_entry : (d.recordReset code reach detail).reg (bakReg (0x44 + 8 * n)) = BitVec.ofNat 32 (code * 2 ^ 24 + reach * 2 ^ 22 + detail % 2 ^ 22) := by
  have hc := keysRise_count32 (a := bakReg 4) h
  unfold Dev.recordReset
  rw [hn, reg_setFld_other (keysRise_setReg _ _ _ (keysRise_setReg _ _ _ hc)) (bakReg_ne (by omega)),
    reg_setReg_other _ _ _ _ (keysRise_setReg _ _ _ hc) (bakReg_ne (by omega)), reg_setReg_same _ _ _ hc]

theorem reg_recordReset_time : (d.recordReset code reach detail).reg (bakReg (0x40 + 8 * n)) = d.reg (bakReg 0x10) := by
  have hc := keysRise_count32 (a := bakReg 4) h
  unfold Dev.recordReset
  rw [hn, reg_setFld_other (keysRise_setReg _ _ _ (keysRise_setReg _ _ _ hc)) (bakReg_ne (by omega)), reg_setReg_same _ _ _ (keysRise_setReg _ _ _ hc),
    reg_count32_other h (bakReg_ne (by decide))]

theorem rfld_recordReset_next : (d.recordReset code reach detail).rfld (bakReg 0xC) 3 0 = (n + 1) % 16 := by
  have hc := keysRise_count32 (a := bakReg 4) h
  unfold Dev.recordReset
  rw [hn, rfld_setFld_same (keysRise_setReg _ _ _ (keysRise_setReg _ _ _ hc)) (by decide) (show (n + 1) % 16 < 2 ^ (3 + 1 - 0) from Nat.mod_lt _ (by decide))]

omit hn in
theorem reg_recordReset_count : ((d.recordReset code reach detail).reg (bakReg 4)).toNat = min (2 ^ 32 - 1) ((d.reg (bakReg 4)).toNat + 1) := by
  have hc := keysRise_count32 (a := bakReg 4) h
  unfold Dev.recordReset
  rw [reg_setFld_other (keysRise_setReg _ _ _ (keysRise_setReg _ _ _ hc)) (bakReg_ne (by decide)),
    reg_setReg_other _ _ _ _ (keysRise_setReg _ _ _ hc) (bakReg_ne (by omega)), reg_setReg_other _ _ _ _ hc (bakReg_ne (by omega)), reg_count32_same h]

end Record

/-! A cold reset. -/

section Cold
variable {d : Dev} {code detail : Nat}

/-- What a cold reset leaves, before its cause and its history entry are written. -/
def Dev.coldBase (d : Dev) (code detail : Nat) : Dev :=
  { Dev.init with
    fresh := d.fresh
    regs := keepRegs bakRegs d.regs
    loHeld := keepRegs bakRegs d.loHeld
    hiCap := keepRegs bakRegs d.hiCap
    mem := d.mem.filter (fun c => decide (romBase ≤ c.1 ∧ c.1 < sramBase))
    flash := d.flash
    wire := d.wire
    rst := { hot := d.rst.hot, hist := if code == 1 || code == 3 then d.rst.hist ++ [(code, 2, detail)] else d.rst.hist } }

theorem coldReset_late (h : code = 1 ∨ code = 3) : d.coldReset code detail = (d.coldBase code detail).setCause code 2 := by
  refine if_pos ?_
  rw [Bool.or_eq_true, beq_iff_eq, beq_iff_eq]
  exact h

theorem coldReset_recorded (h1 : code ≠ 1) (h3 : code ≠ 3) :
    d.coldReset code detail = ((d.coldBase code detail).setCause code 2).recordReset code 2 detail := by
  refine if_neg ?_
  rw [beq_false_of_ne h1, beq_false_of_ne h3]
  exact Bool.false_ne_true

theorem onlyRegs_coldReset : OnlyRegs (d.coldBase code detail) (d.coldReset code detail) := by
  by_cases h : code = 1 ∨ code = 3
  · rw [coldReset_late h]
    exact onlyRegs_setReg _ _ _
  · obtain ⟨h1, h3⟩ := not_or.1 h
    rw [coldReset_recorded h1 h3]
    exact (onlyRegs_setReg _ _ _).trans onlyRegs_recordReset

theorem byte_coldReset (h : Memory.wf d.mem = true) (a : Nat) :
    (d.coldReset code detail).byte a = if romBase ≤ a ∧ a < sramBase then d.byte a else unlisted := by
  have hmem : (d.coldReset code detail).mem = d.mem.filter (fun c => decide (romBase ≤ c.1 ∧ c.1 < sramBase)) := congrArg Dev.mem onlyRegs_coldReset
  rw [Dev.byte, hmem, mget_filter (fun c => decide (romBase ≤ c.1 ∧ c.1 < sramBase)) (fun i => decide (romBase ≤ i ∧ i < sramBase)) (fun _ _ => rfl) a h]
  simp only [decide_eq_true_eq]
  rfl

theorem hist_coldReset :
    (d.coldReset code detail).rst.hist = if code == 1 || code == 3 then d.rst.hist ++ [(code, 2, detail)] else d.rst.hist :=
  congrArg (fun e : Dev => e.rst.hist) onlyRegs_coldReset

theorem bakRegs_rstReg {o : Nat} (ho : o < 0x100) : bakRegs (rstReg o % 2 ^ 48) = false := by
  have hlast : rstReg 0x100 ≤ bakBase := by decide
  have hlt : rstReg o < rstReg 0x100 := Nat.add_lt_add_left ho _
  have hle : rstReg o % 2 ^ 48 ≤ rstReg o := Nat.mod_le _ _
  exact decide_eq_false fun hb => by omega

section Registers
variable (h : keysRise d.regs)
include h

theorem keysRise_coldBase : keysRise (d.coldBase code detail).regs := keysRise_filter _ h

theorem reg_coldBase (a : Nat) : (d.coldBase code detail).reg a = if bakRegs (a % 2 ^ 48) then d.reg a else regReset a :=
  mget_filter_rise (fun k => bakRegs (k % 2 ^ 48)) a h

theorem reg_coldCause {a : Nat} (ha : a ≠ rstReg 0) :
    ((d.coldBase code detail).setCause code 2).reg a = if bakRegs (a % 2 ^ 48) then d.reg a else regReset a := by
  rw [Dev.setCause, reg_setReg_other _ _ _ _ (keysRise_coldBase h) ha, reg_coldBase h]

theorem keysRise_coldCause : keysRise ((d.coldBase code detail).setCause code 2).regs := keysRise_setReg _ _ _ (keysRise_coldBase h)

theorem reg_coldReset_cause : (d.coldReset code detail).reg (rstReg 0) = BitVec.ofNat 32 (512 + code) := by
  have hcause : ((d.coldBase code detail).setCause code 2).reg (rstReg 0) = BitVec.ofNat 32 (512 + code) := reg_setReg_same _ _ _ (keysRise_coldBase h)
  by_cases hl : code = 1 ∨ code = 3
  · rw [coldReset_late hl, hcause]
  · obtain ⟨h1, h3⟩ := not_or.1 hl
    rw [coldReset_recorded h1 h3, reg_recordReset_other (keysRise_coldCause h) (bakRegs_rstReg (by decide)), hcause]

theorem reg_coldReset_reset {a : Nat} (hb : bakRegs (a % 2 ^ 48) = false) (ha : a ≠ rstReg 0) : (d.coldReset code detail).reg a = regReset a := by
  have hreg : ((d.coldBase code detail).setCause code 2).reg a = regReset a := by rw [reg_coldCause h ha, if_neg (Bool.eq_false_iff.1 hb)]
  by_cases hl : code = 1 ∨ code = 3
  · rw [coldReset_late hl, hreg]
  · obtain ⟨h1, h3⟩ := not_or.1 hl
    rw [coldReset_recorded h1 h3, reg_recordReset_other (keysRise_coldCause h) hb, hreg]

theorem reg_coldCause_kept {a : Nat} (hb : bakRegs (a % 2 ^ 48) = true) : ((d.coldBase code detail).setCause code 2).reg a = d.reg a := by
  have ha : a ≠ rstReg 0 := by
    rintro rfl
    rw [bakRegs_rstReg (by decide)] at hb
    exact Bool.noConfusion hb
  rw [reg_coldCause h ha, if_pos hb]

theorem histIndex_coldCause : ((d.coldBase code detail).setCause code 2).rfld (bakReg 0xC) 3 0 = d.rfld (bakReg 0xC) 3 0 := by
  rw [Dev.rfld, reg_coldCause_kept h (bakRegs_bakReg (by decide)), Dev.rfld]

end Registers

end Cold

/-! A warm reset. -/

section Warm
variable {d : Dev} {code detail : Nat}

theorem warmReset_absorbed (hp : d.rst.phase ≠ 0) (hc : d.rst.cold = true) :
    d.warmReset code detail = if d.rst.phase = 3 then { d with rst := { d.rst with phase := 2 } } else d := if_pos ⟨hp, hc⟩

/-- What a warm reset leaves of a device whose HBM requests are done, before RST.CAUSE and the history entry are written. -/
def Dev.warmBase (d : Dev) : Dev :=
  { Dev.init with
    fresh := d.fresh, time := d.time, frac := d.frac
    regs := keepRegs warmRegs d.regs
    loHeld := keepRegs (fun (a : Nat) => warmRegs a && !inBlock (secReg 0) (secReg 0x1000) a) d.loHeld
    hiCap := keepRegs (fun (a : Nat) => warmRegs a && !inBlock (secReg 0) (secReg 0x1000) a) d.hiCap
    mem := d.mem.filter (fun c => decide (c.1 < hbmSize ∨ romBase ≤ c.1))
    regions := (List.range 16).map (fun g => (g, { lck := { recov := true } }))
    net := { marsh := d.net.marsh }
    islands := d.islands.filter (fun i => i == 303 || i == 304)
    graphs := (d.graphs.map (fun (c : Nat × Graph) => (c.1, ({ used := c.2.used, lost := c.2.lost } : Graph)))).filter (fun c => c.2 != {})
    evtQ := d.evtQ, evtWait := d.evtWait
    jrn := d.jrn.map (fun (r : JRec) => if r.done then r else { r with kept := true })
    jrnNext := d.jrnNext, jrnLow := d.jrnLow
    groups := d.groups.filter (·.hold) ++ d.warmGroups
    hbm := d.hbm, wire := d.wire, domQ := d.domQ, flash := d.flash
    sec := { keys := d.sec.keys.filter (fun c => c.1 < 64) }
    rst := { phase := 2, cold := false } }

/-- A warm reset of a device whose HBM requests are done. -/
def Dev.warmDone (d : Dev) (code detail : Nat) : Dev :=
  ((d.warmBase.setBit (rstReg 0x14) 31 (d.rbit (rstReg 0x14) 31)).setCause code 1).recordReset code 1 detail

theorem warmReset_done (h : d.rst.phase = 0 ∨ d.rst.cold = false) : d.warmReset code detail = ((d.hbmDrain 0).hbmDrain 1).warmDone code detail := by
  refine if_neg ?_
  rintro ⟨hp, hc⟩
  rcases h with h | h
  · exact hp h
  · exact Bool.false_ne_true (h.symm.trans hc)

theorem onlyRegs_warmDone : OnlyRegs d.warmBase (d.warmDone code detail) :=
  ((onlyRegs_setFld _ _ _ _ _).trans (onlyRegs_setReg _ _ _)).trans onlyRegs_recordReset

/-- The requests that HBM completes before a warm reset change memory alone. -/
theorem hbmDrain_eq (k : Nat) : d.hbmDrain k = { d with mem := (d.hbmDrain k).mem } := by
  have hfold : ∀ (ps : List Packet) (e : Dev), ∃ m, ps.foldl (fun (d : Dev) p =>
      match p.body with
      | .req r => { d with mem := (d.hbmServe k r .ok).1.mem }
      | _ => d) e = { e with mem := m } := by
    intro ps
    induction ps with
    | nil => exact fun e => ⟨e.mem, rfl⟩
    | cons p ps ih =>
      intro e
      rw [List.foldl_cons]
      split
      next r _ =>
        obtain ⟨m, hm⟩ := ih { e with mem := (e.hbmServe k r .ok).1.mem }
        exact ⟨m, hm⟩
      next => exact ih e
  obtain ⟨m, hm⟩ := hfold (d.inbox (hbmNode k) 1) d
  change d.hbmDrain k = { d with mem := m } at hm
  rw [hm]

theorem hbmDrain_none {k : Nat} (h : d.inbox (hbmNode k) 1 = []) : d.hbmDrain k = d := by
  rw [Dev.hbmDrain, h]
  rfl

theorem byte_warmDone (h : Memory.wf d.mem = true) (a : Nat) :
    (d.warmDone code detail).byte a = if a < hbmSize ∨ romBase ≤ a then d.byte a else unlisted := by
  have hmem : (d.warmDone code detail).mem = d.mem.filter (fun c => decide (c.1 < hbmSize ∨ romBase ≤ c.1)) := congrArg Dev.mem onlyRegs_warmDone
  rw [Dev.byte, hmem, mget_filter (fun c => decide (c.1 < hbmSize ∨ romBase ≤ c.1)) (fun i => decide (i < hbmSize ∨ romBase ≤ i)) (fun _ _ => rfl) a h]
  simp only [decide_eq_true_eq]
  rfl

section Registers
variable (h : keysRise d.regs)
include h

theorem keysRise_warmBase : keysRise d.warmBase.regs := keysRise_filter _ h

theorem reg_warmBase (a : Nat) : d.warmBase.reg a = if warmRegs (a % 2 ^ 48) then d.reg a else regReset a :=
  mget_filter_rise (fun k => warmRegs (k % 2 ^ 48)) a h

theorem keysRise_warmBit (en : Bool) : keysRise (d.warmBase.setBit (rstReg 0x14) 31 en).regs := keysRise_setReg _ _ _ (keysRise_warmBase h)

theorem keysRise_warmCause (en : Bool) : keysRise ((d.warmBase.setBit (rstReg 0x14) 31 en).setCause code 1).regs := keysRise_setReg _ _ _ (keysRise_warmBit h en)

theorem reg_warmDone_cause : (d.warmDone code detail).reg (rstReg 0) = BitVec.ofNat 32 (256 + code) := by
  rw [Dev.warmDone, reg_recordReset_other (keysRise_warmCause h _) (bakRegs_rstReg (by decide))]
  exact reg_setReg_same _ _ _ (keysRise_warmBit h _)

theorem reg_warmDone_other {a : Nat} (hb : bakRegs (a % 2 ^ 48) = false) (h0 : a ≠ rstReg 0) (h14 : a ≠ rstReg 0x14) :
    (d.warmDone code detail).reg a = if warmRegs (a % 2 ^ 48) then d.reg a else regReset a := by
  rw [Dev.warmDone, reg_recordReset_other (keysRise_warmCause h _) hb, Dev.setCause, reg_setReg_other _ _ _ _ (keysRise_warmBit h _) h0, Dev.setBit,
    reg_setFld_other (keysRise_warmBase h) h14, reg_warmBase h]

theorem rbit_warmDone : (d.warmDone code detail).rbit (rstReg 0x14) 31 = d.rbit (rstReg 0x14) 31 := by
  have hne : rstReg 0x14 ≠ rstReg 0 := by decide
  rw [Dev.rbit, Dev.warmDone, reg_recordReset_other (keysRise_warmCause h _) (bakRegs_rstReg (by decide)), Dev.setCause,
    reg_setReg_other _ _ _ _ (keysRise_warmBit h _) hne, Dev.setBit, reg_setFld_same (keysRise_warmBase h)]
  cases d.rbit (rstReg 0x14) 31
  · simp [putFld]
  · simp [putFld]

end Registers

theorem warmRegs_rstReg : warmRegs (rstReg 0 % 2 ^ 48) = false ∧ warmRegs (rstReg 0x14 % 2 ^ 48) = false := by decide +kernel

end Warm

/-- Settles O53: every source asserts its reset, and the two resets leave what they say. -/
theorem resetsReachTheirState : Obligations.ResetsReachTheirState := by
  refine ⟨fun s => ?_, fun d code detail hcode hdetail => ?_, fun d code detail => ?_⟩
  · intro d
    refine ⟨rfl, rfl, fun rail => rfl, fun die => rfl, rfl, fun v hk hm => ?_, fun v hk hm => ?_, fun v hk hm => ?_, fun v hk => ⟨?_, ?_, ?_⟩, fun cold h => ?_,
      fun h => ⟨?_, ?_⟩, fun h => ⟨?_, fun hh => ?_⟩, fun h => ⟨?_, ?_⟩, fun v h => ?_, fun v h => ?_, fun die t => ?_, fun hh hp => ?_, fun h => ?_⟩
    · rw [exec_swrstWarm, swrstAsks_of hk hm, if_pos rfl]
    · rw [exec_swrstCold, swrstAsks_of hk hm, if_pos rfl]
    · rw [exec_swrstSteward, swrstAsks_of hk hm, if_pos rfl]
    · rw [exec_swrstWarm, swrstAsks_badKey 1 hk, if_neg Bool.false_ne_true, withDev_self]
    · rw [exec_swrstCold, swrstAsks_badKey 2 hk, if_neg Bool.false_ne_true, withDev_self]
    · rw [exec_swrstSteward, swrstAsks_badKey 3 hk, if_neg Bool.false_ne_true, withDev_self]
    · rw [exec_jtagReset, Dev.jtagReset, if_pos h, withDev_self]
    · rw [exec_jtagReset, Dev.jtagReset, if_neg (Bool.eq_false_iff.1 h), if_pos rfl]
    · rw [exec_jtagReset, Dev.jtagReset, if_neg (Bool.eq_false_iff.1 h), if_neg Bool.false_ne_true]
    · rw [exec_wdogExpiry, Dev.wdogExpiry, if_pos h]
    · rw [exec_wdogHalfExpiry, wdogHalf_first h hh]
    · rw [exec_wdogExpiry, Dev.wdogExpiry, if_neg (Bool.eq_false_iff.1 h), withDev_self]
    · rw [exec_wdogHalfExpiry, wdogHalf_off h, withDev_self]
    · rw [exec_wdogKick, Dev.wdogKick, if_pos h]
    · rw [exec_wdogKick, Dev.wdogKick, if_neg h, withDev_self]
    · intro e limit
      refine ⟨fun hw ht => ?_, fun h => ?_, fun ht => ?_, fun ht => ?_⟩
      · refine congrArg (fun x => Host.Outcome.next (s.withDev x)) (if_neg ?_)
        change ¬ (e.rst.warned || !decide (limit < t.toInt)) = true
        rw [hw, decide_eq_true ht]
        exact Bool.false_ne_true
      · refine congrArg (fun x => Host.Outcome.next (s.withDev x)) (if_pos ?_)
        rw [Bool.or_eq_true, Bool.not_eq_true', decide_eq_false_iff_not]
        exact h.imp_right Int.not_lt.2
      · exact congrArg (fun x => Host.Outcome.next (s.withDev x)) (if_pos (decide_eq_true ht))
      · exact congrArg (fun x => Host.Outcome.next (s.withDev x)) (if_neg (Bool.eq_false_iff.1 (decide_eq_false (Int.not_le.2 ht))))
    · rw [exec_stewardRestart, stewRestart_held hh hp]
    · rw [exec_stewardRestart, stewRestart_not h, withDev_self]
  · intro e
    have hfield : ∀ {α : Type} (f : Dev → α), f e = f { d.coldBase code detail with regs := e.regs } := fun f => congrArg f onlyRegs_coldReset
    refine ⟨hfield (·.rst.phase), hfield (·.rst.cold), hfield (·.rst.hot), hfield (·.islands), hfield (·.net), hfield (·.fus), hfield (·.tiles), hfield (·.regions),
      hfield (·.graphs), hfield (·.jrn), hfield (·.groups), hfield (·.pend), hfield (·.evtQ), hfield (·.time), hfield (·.fcp), hfield (·.stew), hfield (·.domQ), hfield (·.sec),
      hfield (·.flash), byte_coldReset, fun h => ⟨reg_coldReset_cause h, fun a hb ha => reg_coldReset_reset h hb ha, fun hl => ⟨?_, fun a hb => ?_⟩, fun h1 h3 => ?_⟩⟩
    · rw [hist_coldReset, if_pos]
      rw [Bool.or_eq_true, beq_iff_eq, beq_iff_eq]
      exact hl
    · change (d.coldReset code detail).reg a = d.reg a
      rw [coldReset_late hl, reg_coldCause_kept h hb]
    · intro n
      have hk := keysRise_coldCause (code := code) (detail := detail) h
      have hn := histIndex_coldCause (code := code) (detail := detail) h
      have hdet : detail % 2 ^ 22 = detail := Nat.mod_eq_of_lt hdetail
      have he : e = ((d.coldBase code detail).setCause code 2).recordReset code 2 detail := coldReset_recorded h1 h3
      refine ⟨?_, ?_, ?_, ?_, ?_⟩
      · rw [hist_coldReset, beq_false_of_ne h1, beq_false_of_ne h3]
        rfl
      · rw [he, reg_recordReset_entry hk hn, hdet]
      · rw [he, reg_recordReset_time hk hn, reg_coldCause_kept h (bakRegs_bakReg (by decide))]
      · rw [he, rfld_recordReset_next hk hn]
      · rw [he, reg_recordReset_count hk, reg_coldCause_kept h (bakRegs_bakReg (by decide))]
  · intro e
    refine ⟨warmReset_absorbed, fun h => ?_⟩
    have he : e = ((d.hbmDrain 0).hbmDrain 1).warmDone code detail := warmReset_done h
    have hdrain : (d.hbmDrain 0).hbmDrain 1 = { d with mem := ((d.hbmDrain 0).hbmDrain 1).mem } := by
      rw [hbmDrain_eq 1, hbmDrain_eq 0]
    have hfield : ∀ {α : Type} (f : Dev → α), f e = f { Dev.warmBase { d with mem := ((d.hbmDrain 0).hbmDrain 1).mem } with regs := e.regs } := by
      intro α f
      have honly : OnlyRegs ((d.hbmDrain 0).hbmDrain 1).warmBase (((d.hbmDrain 0).hbmDrain 1).warmDone code detail) := onlyRegs_warmDone
      rw [← he, hdrain] at honly
      exact congrArg f honly
    have hquiet : d.inbox (hbmNode 0) 1 = [] → d.inbox (hbmNode 1) 1 = [] → e = d.warmDone code detail := by
      intro h0 h1
      rw [he, hbmDrain_none h0, hbmDrain_none h1]
    refine ⟨hfield (·.rst.phase), hfield (·.rst.cold), hfield (·.time), hfield (·.flash), hfield (·.jrnNext), hfield (·.evtQ), hfield (·.domQ), hfield (·.islands), hfield (·.fus),
      hfield (·.tiles), hfield (·.net.inbox), hfield (·.fcp), hfield (·.boot), fun h0 h1 hw a => ?_, fun h0 h1 hk => ?_⟩
    · rw [hquiet h0 h1, byte_warmDone hw]
    · rw [hquiet h0 h1]
      obtain ⟨hcause, hwdog⟩ := warmRegs_rstReg
      refine ⟨rbit_warmDone hk, fun _ => reg_warmDone_cause hk, fun a hwarm hb => ?_, fun a hwarm ha0 ha14 => ?_⟩
      · have hne0 : a ≠ rstReg 0 := by
          rintro rfl
          exact Bool.false_ne_true (hcause.symm.trans hwarm)
        have hne14 : a ≠ rstReg 0x14 := by
          rintro rfl
          exact Bool.false_ne_true (hwdog.symm.trans hwarm)
        rw [reg_warmDone_other hk hb hne0 hne14, if_pos hwarm]
      · have hb : bakRegs (a % 2 ^ 48) = false := by
          refine Bool.eq_false_iff.2 fun hb => Bool.false_ne_true (hwarm.symm.trans ?_)
          rw [warmRegs, hb]
          rfl
        rw [reg_warmDone_other hk hb ha0 ha14, if_neg (Bool.eq_false_iff.1 hwarm)]

end Sys2Proof.Machine

/-! ### O54: release and block resets -/

namespace Sys2Proof.Machine

section
variable (s : State)

theorem exec_referenceQualified (eth : Bool) : exec (.referenceQualified eth) s = .next (s.withDev (s.dev.refQualified eth)) := rfl
theorem exec_fuseLoadStart : exec .fuseLoadStart s = .next (s.withDev s.dev.fuseStart) := rfl
theorem exec_fuseLoadDone (ok : Bool) : exec (.fuseLoadDone ok) s = .next (s.withDev (s.dev.fuseDone s.fuses ok)) := rfl
theorem exec_islandRelease (i : Fin 307) (straps : BitVec 4) : exec (.islandRelease i straps) s = .next (s.withDev (s.dev.islandRelease i straps.toNat)) := rfl
theorem exec_clockValidTimeout (i : Fin 307) : exec (.clockValidTimeout i) s = .next (s.withDev (s.dev.clockTimeout i)) := rfl
theorem exec_hubSrstWrite (v : W32) : exec (.hubSrstWrite v) s = .next (s.withDev (s.dev.hubSrst v)) := rfl
theorem exec_rgnSrstWrite (v : W32) : exec (.rgnSrstWrite v) s = .next (s.withDev (s.dev.rgnSrst s.fuses v)) := rfl

end

/-! The release. -/

section Release
variable {d : Dev}

theorem refQualified_ends (hp : d.rst.phase = 1) (hh : d.rst.hot = false) : d.refQualified false = { d with rst := { d.rst with phase := 2 } } := by
  refine (if_neg Bool.false_ne_true).trans (if_pos ⟨hp, ?_⟩)
  rw [hh]
  rfl

theorem refQualified_not (h : d.rst.phase ≠ 1 ∨ d.rst.hot = true) : d.refQualified false = d := by
  refine (if_neg Bool.false_ne_true).trans (if_neg ?_)
  rintro ⟨hp, hh⟩
  rcases h with h | h
  · exact h hp
  · rw [h] at hh
    exact Bool.false_ne_true hh

section Loading
variable {f : Fuses} (hp : d.rst.phase = 3)
include hp

theorem fuseDone_good : d.fuseDone f true = { (d.loadShadows f false).setFld (rstReg 4) 1 0 1 with rst := { d.rst with phase := 4 } } :=
  (if_neg (Classical.not_not.2 hp)).trans (if_pos rfl)

theorem fuseDone_again (h : d.rst.fails < 2) : d.fuseDone f false = { d with rst := { d.rst with fails := d.rst.fails + 1 } } :=
  (if_neg (Classical.not_not.2 hp)).trans ((if_neg Bool.false_ne_true).trans (if_pos (Nat.succ_lt_succ h)))

theorem fuseDone_bad (h : 2 ≤ d.rst.fails) : d.fuseDone f false = { (d.loadShadows f true).setFld (rstReg 4) 1 0 2 with rst := { d.rst with phase := 4 } } :=
  (if_neg (Classical.not_not.2 hp)).trans ((if_neg Bool.false_ne_true).trans (if_neg (Nat.not_lt.2 (Nat.succ_le_succ h))))

end Loading

/-- An island waits for its clock. -/
def Dev.IslandWaits (d : Dev) (i : Nat) : Prop :=
  (d.rst.phase = 0 ∨ d.rst.phase = 4) ∧ d.islands.contains i = false ∧ d.rst.noclk.contains i = false ∧ d.islandPowered i = true

theorem islandWaits_iff (i : Nat) :
    (!(d.rst.phase == 0 || d.rst.phase == 4) || d.islands.contains i || d.rst.noclk.contains i || !d.islandPowered i) = false ↔ d.IslandWaits i := by
  rw [Dev.IslandWaits, Bool.or_eq_false_iff, Bool.or_eq_false_iff, Bool.or_eq_false_iff, Bool.not_eq_false', Bool.not_eq_false', Bool.or_eq_true, beq_iff_eq, beq_iff_eq,
    and_assoc, and_assoc]

section Island
variable {i straps : Nat}

theorem islandRelease_not (h : ¬ d.IslandWaits i) : d.islandRelease i straps = d :=
  if_pos (Bool.not_eq_false _ ▸ fun hf => h ((islandWaits_iff i).1 hf))

theorem clockTimeout_not (h : ¬ d.IslandWaits i) : d.clockTimeout i = d :=
  if_pos (Bool.not_eq_false _ ▸ fun hf => h ((islandWaits_iff i).1 hf))

variable (h : d.IslandWaits i)
include h

theorem islandRelease_waits : d.islandRelease i straps =
    let e := d.setBit (rstReg 0x24) (islandClk i) true
    if i = 300 then e.releaseAlwaysOn straps
    else
      let e' := { e with islands := e.islands ++ [i] }
      if i < 272 then (if e'.rst.cold then e' else e'.warmRebuild i).clkApply i else e' :=
  if_neg (Bool.eq_false_iff.1 ((islandWaits_iff i).2 h))

theorem clockTimeout_waits : d.clockTimeout i =
    let e := { (d.setBit (rstReg 4) 2 true).setBit (rstReg 0x24) (islandClk i) false with rst := { d.rst with noclk := d.rst.noclk ++ [i] } }
    if i = 300 then e else e.raiseFree 640 0 :=
  if_neg (Bool.eq_false_iff.1 ((islandWaits_iff i).2 h))

end Island

end Release

section AlwaysOn
variable {d : Dev} {straps : Nat} (hh : d.rst.hist = [])
include hh

theorem releaseAlwaysOn_warm (hc : d.rst.cold = false) :
    d.releaseAlwaysOn straps = { d with islands := d.islands ++ [300], rst := { d.rst with phase := 0, hist := [] }, stew := { on := true } } := by
  simp only [Dev.releaseAlwaysOn, hc, hh, Bool.false_eq_true, if_false, List.foldl_nil, false_and]

theorem releaseAlwaysOn_cold (hc : d.rst.cold = true) (hm : straps / 4 % 4 ≠ 3) (hs : straps < 16) :
    d.releaseAlwaysOn straps =
      let e := d.setReg (bootReg 0) (BitVec.ofNat 32 straps)
      { e with islands := e.islands ++ [300], rst := { e.rst with phase := 0, hist := [] }, stew := { on := true } } := by
  have hhist : ∀ v, (d.setReg (bootReg 0) v).rst.hist = [] := fun _ => hh
  have hcold : ∀ v, (d.setReg (bootReg 0) v).rst.cold = true := fun _ => hc
  simp only [Dev.releaseAlwaysOn, hc, hm, hhist, hcold, if_true, if_false, List.foldl_nil, and_false, Nat.add_zero, Nat.mod_eq_of_lt hs]

end AlwaysOn

/-! Block resets. -/

section Blocks
variable {d : Dev}

theorem hubSrst_held (v : W32) (h : d.resetting = true) : d.hubSrst v = d := if_pos h

theorem rgnSrst_held (f : Fuses) (v : W32) (h : d.resetting = true) : d.rgnSrst f v = d := if_pos h

/-- A choice on a bit, with its branches the other way round. -/
theorem ite_not_bit {α : Type} (b : Bool) (x y : α) : (if b = true then x else y) = if b = false then y else x := by
  cases b <;> rfl

theorem hubSrst_blocks (v : W32) (h : d.resetting = false) : d.hubSrst v = [1, 2, 3, 4, 5, 12, 13].foldl (fun (d : Dev) u =>
    if v.getLsbD u = false then d.setBit (rstReg 0xC) u false
    else if d.rbit (rstReg 0xC) u = true then d
    else (d.hubReset u).setBit (rstReg 0xC) u true) d := by
  rw [Dev.hubSrst, if_neg (Bool.eq_false_iff.1 h)]
  simp only [ite_not_bit (v.getLsbD _)]

theorem rgnSrst_blocks (f : Fuses) (v : W32) (h : d.resetting = false) : d.rgnSrst f v = (List.range 16).foldl (fun (d : Dev) g =>
    if v.getLsbD g = false then (if d.rbit (rstReg 0x10) g = true then (d.setBit (rstReg 0x10) g false).regionClocks g else d)
    else if d.regionOpen g = true then d.setBit (rstReg 4) 3 true
    else if d.rbit (rstReg 0x10) g = true then d
    else (d.regionLost f g).setBit (rstReg 0x10) g true) d := by
  rw [Dev.rgnSrst, if_neg (Bool.eq_false_iff.1 h)]
  simp only [ite_not_bit (v.getLsbD _)]

theorem reg_resetRegs {p : Nat → Bool} (h : keysRise d.regs) (a : Nat) : (d.resetRegs p).reg a = if p (a % 2 ^ 48) then regReset a else d.reg a := by
  have hread := mget_filter_rise (d := regReset a) (fun k => !p (k % 2 ^ 48)) a h
  refine Eq.trans hread ?_
  cases p (a % 2 ^ 48) <;> rfl

/-- The regions' tables of streams do not belong to the ingest block. -/
theorem foldl_modRegion_ing (f : Region → Region) : ∀ (gs : List Nat) (d : Dev), (gs.foldl (fun (d : Dev) g => d.modRegion g f) d).ing = d.ing
  | [], _ => rfl
  | g :: gs, d => (foldl_modRegion_ing f gs (d.modRegion g f)).trans rfl

theorem hubReset_ing : (d.hubReset 1).ing.quiesce = (d.discardAll (fun c => c == 6656 + 1)).ing.quiesce ∧ (d.hubReset 1).ing.streams = [] := by
  have hing := foldl_modRegion_ing (fun r => { r with hurdles := r.hurdles.map (fun h => (h.1, { h.2 with streams := [] })) }) (List.range 16)
    { (d.discardAll (fun c => c == 6656 + 1)).resetRegs (inBlock (ingReg 0) (ingReg 0x1000)) with
      ing := { quiesce := (d.discardAll (fun c => c == 6656 + 1)).ing.quiesce, nodes := (d.discardAll (fun c => c == 6656 + 1)).ing.nodes
               rel := (d.discardAll (fun c => c == 6656 + 1)).ing.rel, seq := (d.discardAll (fun c => c == 6656 + 1)).ing.seq
               segN := (d.discardAll (fun c => c == 6656 + 1)).ing.segN } }
  have hquiet := congrArg Ing.quiesce hing
  have hstreams := congrArg Ing.streams hing
  exact ⟨hquiet, hstreams⟩

theorem hubReset_relay_regs : (d.hubReset 2).regs =
    (((d.discardAll (fun c => c == 6656 + 2)).recover (d.discardAll (fun c => c == 6656 + 2)).relayCtxs).resetRegs (inBlock (rlyReg 0) (rlyReg 0x1000))).regs := rfl

theorem hubReset_cmd_regs : (d.hubReset 3).regs = ((d.discardAll (fun c => c == 6656 + 3)).resetRegs (inBlock (cmdReg 0) (cmdReg 0x1000))).regs := rfl

theorem hubReset_sec_regs : (d.hubReset 4).regs = ((d.discardAll (fun c => c == 6656 + 4)).resetRegs
    (fun a => inBlock (secReg 8) (secReg 0x1000) a && !inBlock (secReg 0x14) (secReg 0x28) a && a != secReg 0xA0)).regs := rfl

/-- A register's value is found in the table of registers alone. -/
theorem reg_of_regs {e e' : Dev} (h : e.regs = e'.regs) (a : Nat) : e.reg a = e'.reg a := by
  rw [Dev.reg, Dev.reg, h]

theorem hubReset_keys : (d.hubReset 4).sec.keys = (d.discardAll (fun c => c == 6656 + 4)).sec.keys.filter (fun c => decide (c.1 < 64)) := rfl

theorem mget_hubReset_keys (h : keysRise (d.discardAll (fun c => c == 6656 + 4)).sec.keys) (k : Nat) :
    mget {} (d.hubReset 4).sec.keys k = if k < 64 then mget {} (d.discardAll (fun c => c == 6656 + 4)).sec.keys k else {} := by
  rw [hubReset_keys, mget_filter_rise (fun k => decide (k < 64)) k h]
  simp only [decide_eq_true_eq]

/-- The set-up of the protection windows is outside what a reset of the security engine clears. -/
theorem secReset_keeps {a : Nat} (h : inBlock (secReg 0x14) (secReg 0x28) a = true) :
    (inBlock (secReg 8) (secReg 0x1000) a && !inBlock (secReg 0x14) (secReg 0x28) a && a != secReg 0xA0) = false := by
  rw [h, Bool.not_true, Bool.and_false, Bool.false_and]

end Blocks

/-- Settles O54: the release goes through its phases, and block resets reset what they name and keep the rest. -/
theorem releaseAndBlockResets : Obligations.ReleaseAndBlockResets := by
  refine ⟨fun s => ?_, fun i straps s => ?_, fun v s => ⟨fun h => ⟨?_, ?_⟩, fun h => ⟨?_, ?_⟩⟩, fun d => ?_⟩
  · intro d
    refine ⟨rfl, fun hp hh => ?_, fun h => ?_, fun hp => ?_, fun hp => ?_, fun ok hp => ?_, fun hp => ⟨?_, fun hf => ?_, fun hf => ?_⟩⟩
    · rw [exec_referenceQualified, refQualified_ends hp hh]
    · rw [exec_referenceQualified, refQualified_not h, withDev_self]
    · exact congrArg (fun x => Host.Outcome.next (s.withDev x)) (if_pos hp)
    · rw [exec_fuseLoadStart, Dev.fuseStart, if_neg hp, withDev_self]
    · rw [exec_fuseLoadDone, Dev.fuseDone, if_pos hp, withDev_self]
    · rw [exec_fuseLoadDone, fuseDone_good hp]
    · rw [exec_fuseLoadDone, fuseDone_again hp hf]
    · rw [exec_fuseLoadDone, fuseDone_bad hp hf]
  · intro d waits
    refine ⟨fun h => ⟨?_, ?_⟩, fun h => ?_⟩
    · rw [exec_islandRelease, islandRelease_not h, withDev_self]
    · rw [exec_clockValidTimeout, clockTimeout_not h, withDev_self]
    · intro e
      refine ⟨fun h300 h272 => ?_, fun h272 => ?_, fun h300 hc hh => ?_, fun h300 hc hh hm => ?_, ⟨fun h300 => ?_, fun h300 => ?_⟩⟩
      · rw [exec_islandRelease, islandRelease_waits h]
        exact congrArg (fun x => Host.Outcome.next (s.withDev x)) ((if_neg h300).trans (if_neg (Nat.not_lt.2 h272)))
      · have h300 : ¬ i.val = 300 := by omega
        rw [exec_islandRelease, islandRelease_waits h]
        exact congrArg (fun x => Host.Outcome.next (s.withDev x)) ((if_neg h300).trans (if_pos h272))
      · rw [exec_islandRelease, islandRelease_waits h]
        exact congrArg (fun x => Host.Outcome.next (s.withDev x)) ((if_pos h300).trans (releaseAlwaysOn_warm hh hc))
      · have hmode : straps.toNat / 4 % 4 ≠ 3 := by
          have := straps.isLt
          omega
        rw [exec_islandRelease, islandRelease_waits h]
        exact congrArg (fun x => Host.Outcome.next (s.withDev x)) ((if_pos h300).trans (releaseAlwaysOn_cold hh hc hmode straps.isLt))
      · rw [exec_clockValidTimeout, clockTimeout_waits h]
        exact congrArg (fun x => Host.Outcome.next (s.withDev x)) (if_neg h300)
      · rw [exec_clockValidTimeout, clockTimeout_waits h]
        exact congrArg (fun x => Host.Outcome.next (s.withDev x)) (if_pos h300)
  · rw [exec_hubSrstWrite, hubSrst_held v h, withDev_self]
  · rw [exec_rgnSrstWrite, rgnSrst_held _ v h, withDev_self]
  · rw [exec_hubSrstWrite, hubSrst_blocks v h]
  · rw [exec_rgnSrstWrite, rgnSrst_blocks _ v h]
  · intro e e2
    obtain ⟨hquiet, hstreams⟩ := hubReset_ing (d := d)
    refine ⟨rfl, rfl, hquiet, hstreams, fun h a => (reg_of_regs hubReset_relay_regs a).trans (reg_resetRegs h a),
      fun h a => (reg_of_regs hubReset_cmd_regs a).trans (reg_resetRegs h a), fun h a ha => ?_, rfl, fun h k => mget_hubReset_keys h k⟩
    exact (reg_of_regs hubReset_sec_regs a).trans ((reg_resetRegs h a).trans (if_neg (Bool.eq_false_iff.1 (secReset_keeps ha))))

end Sys2Proof.Machine

/-! ### O55: power domains, regions and the backup domain -/

namespace Sys2Proof.Machine

section
variable (s : State)

theorem exec_pwrDomWrite (k : Fin 48) (v : W32) : exec (.pwrDomWrite k v) s = .next (s.withDev (s.dev.domWrite k v)) := rfl
theorem exec_domainSwitchDone (k : Fin 48) : exec (.domainSwitchDone k) s = .next (s.withDev (s.dev.domDone s.fuses k)) := rfl
theorem exec_pwrOpenWrite (v : W32) : exec (.pwrOpenWrite v) s = .next (s.withDev (s.dev.openWrite v)) := rfl
theorem exec_regionOpen (g : Fin 16) : exec (.regionOpen g) s = .next (s.withDev (s.dev.openRegion g)) := rfl
theorem exec_regionCloseDone (g : Fin 16) : exec (.regionCloseDone g) s = .next (s.withDev (s.dev.closeDone g)) := rfl
theorem exec_drainTimeout (g : Fin 16) : exec (.drainTimeout g) s = .next (s.withDev (s.dev.drainTimeout g)) := rfl
theorem exec_vbakLow : exec .vbakLow s = .next (s.withDev s.dev.vbakLow) := rfl
theorem exec_vbakLost : exec .vbakLost s = .next (s.withDev s.dev.vbakLost) := rfl
theorem exec_rtcSecond : exec .rtcSecond s = .next (s.withDev s.dev.rtcSecond) := rfl
theorem exec_refOk : exec .refOk s = .next (s.withDev s.dev.refOk) := rfl

end

/-! A bit of a register. -/

section Bits
variable {d : Dev} {a b n m : Nat}

theorem rbit_eq_testBit : d.rbit a n = (d.rfld a n n).testBit 0 := by
  rw [Dev.rfld, testBit_fld, decide_eq_true (by omega : 0 < n + 1 - n), Bool.true_and, Nat.add_zero]
  rfl

variable (h : keysRise d.regs)
include h

theorem rbit_setBit_same (hn : n < 32) (x : Bool) : (d.setBit a n x).rbit a n = x := by
  have hx : (if x then 1 else 0) < 2 ^ (n + 1 - n) := by
    rw [Nat.add_sub_cancel_left]
    cases x <;> decide
  rw [rbit_eq_testBit, Dev.setBit, rfld_setFld_same h hn hx]
  cases x <;> rfl

theorem rbit_setBit_bit (hm : m < 32) (hne : m ≠ n) (x : Bool) : (d.setBit a n x).rbit a m = d.rbit a m := by
  rw [rbit_eq_testBit, rbit_eq_testBit, Dev.setBit, rfld_setFld_beside h hm (by omega)]

theorem rbit_setBit_reg (hb : b ≠ a) (x : Bool) : (d.setBit a n x).rbit b m = d.rbit b m := by
  rw [Dev.rbit, Dev.setBit, reg_setFld_other h hb, Dev.rbit]

theorem keysRise_setBit (x : Bool) : keysRise (d.setBit a n x).regs := keysRise_setReg _ _ _ h

end Bits

/-! Power domains. -/

section Domains
variable {d : Dev} {k : Nat} {v : W32} (hv : v.getLsbD 1 = false)
include hv

theorem domWrite_same (h : v.getLsbD 0 = d.domOn k) (hq : d.domQ.any (fun x => x.1 == k) = false) : d.domWrite k v = d := by
  simp only [Dev.domWrite, hv, h, hq, Bool.false_eq_true, if_false, Bool.not_false, Bool.true_and, beq_self_eq_true, if_true]

variable (hne : v.getLsbD 0 ≠ d.domOn k)
include hne

theorem domWrite_refused (h : d.domMay k (v.getLsbD 0) = false) : d.domWrite k v = (d.setBit (domReg k) 1 true).raiseFree (592 + k) 0 := by
  simp only [Dev.domWrite, hv, beq_false_of_ne hne, h, Bool.false_eq_true, if_false, Bool.and_false, Bool.not_false, if_true]

theorem domWrite_waits (h : d.domMay k (v.getLsbD 0) = true) {x : Nat × Bool} {t : List (Nat × Bool)} (hq : d.domQ = x :: t) (ht : t.any (fun x => x.1 == k) = false) :
    d.domWrite k v = { d.setBit (domReg k) 0 (v.getLsbD 0) with domQ := x :: (t ++ [(k, v.getLsbD 0)]) } := by
  have hq' : (d.setBit (domReg k) 0 (v.getLsbD 0)).domQ = x :: t := hq
  simp only [Dev.domWrite, hv, beq_false_of_ne hne, h, hq', ht, Bool.false_eq_true, if_false, Bool.and_false, Bool.not_true]

theorem domWrite_next (h : d.domMay k (v.getLsbD 0) = true) (hq : d.domQ = []) :
    d.domWrite k v = ({ d.setBit (domReg k) 0 (v.getLsbD 0) with domQ := [(k, v.getLsbD 0)] } : Dev).domNext 1 := by
  have hq' : (d.setBit (domReg k) 0 (v.getLsbD 0)).domQ = [] := hq
  simp only [Dev.domWrite, hv, beq_false_of_ne hne, h, hq', Bool.false_eq_true, if_false, Bool.and_false, Bool.not_true]

end Domains

/-- A request whose domain is in another state than it asks for starts the switch. -/
theorem domNext_starts {e : Dev} {k : Nat} {on : Bool} (hq : e.domQ = [(k, on)]) (hst : e.domState k ≠ if on then 2 else 0) :
    e.domNext 1 = e.setFld (domReg k) 3 2 (if on then 1 else 3) := by
  rw [Dev.domNext, hq]
  exact if_neg hst

/-- The domain whose switch a write starts is in another state than it asks for. -/
theorem domState_ne {d : Dev} {k : Nat} {on : Bool} (hne : on ≠ d.domOn k) (h : keysRise d.regs) :
    (d.setBit (domReg k) 0 on).domState k ≠ if on then 2 else 0 := by
  have hst : (d.setBit (domReg k) 0 on).domState k = d.domState k := rfld_setFld_beside h (by decide) (Or.inr (by decide))
  have hon : d.domOn k = (d.domState k == 2) := rfl
  rw [hst]
  intro heq
  rw [hon, heq] at hne
  cases on <;> exact hne rfl

theorem domState_domQ (e : Dev) (q : List (Nat × Bool)) (k : Nat) : ({ e with domQ := q } : Dev).domState k = e.domState k := rfl

theorem domWrite_starts {d : Dev} {k : Nat} {v : W32} (hv : v.getLsbD 1 = false) (hne : v.getLsbD 0 ≠ d.domOn k) (h : d.domMay k (v.getLsbD 0) = true) (hq : d.domQ = []) (hr : keysRise d.regs) :
    d.domWrite k v = ({ d.setBit (domReg k) 0 (v.getLsbD 0) with domQ := [(k, v.getLsbD 0)] } : Dev).setFld (domReg k) 3 2 (if v.getLsbD 0 then 1 else 3) := by
  rw [domWrite_next hv hne h hq]
  refine domNext_starts rfl ?_
  rw [domState_domQ]
  exact domState_ne hne hr

section Conditions
variable (d : Dev)

theorem domMay_region_on {g : Nat} (hg : g < 16) : d.domMay (2 * g) true = true ↔ d.domOn (2 * g + 1) = true ∧ d.domOn (32 + g / 4) = true := by
  have hlt : 2 * g < 32 := by omega
  have hdie : 2 * g / 8 = g / 4 := by omega
  have hlogic : (2 * g % 2 == 1) = false := beq_false_of_ne (by omega)
  simp only [Dev.domMay, hlt, hdie, hlogic, if_true, Bool.false_or, Bool.and_eq_true]
  exact and_comm

theorem domMay_region_off {g : Nat} (hg : g < 16) : d.domMay (2 * g) false = true ↔ d.regionOpen g = false ∧ d.closing g = false := by
  have hlt : 2 * g < 32 := by omega
  have hrgn : 2 * g / 2 = g := by omega
  have hlogic : 2 * g % 2 = 0 := by omega
  simp only [Dev.domMay, hlt, hrgn, hlogic, if_true, Bool.false_eq_true, if_false, Bool.and_eq_true, Bool.not_eq_true']
  rfl

theorem domMay_group_on {k : Nat} (hk : 44 ≤ k) : d.domMay k true = true ↔ d.domOn 43 = true := by
  have hlt : ¬ k < 32 := by omega
  simp only [Dev.domMay, hlt, hk, if_true, if_false]

end Conditions

section Switch
variable {d : Dev} {f : Fuses} {k j : Nat} {on : Bool} {q : List (Nat × Bool)}

theorem domDone_empty (h : d.domQ = []) : d.domDone f k = d := by
  rw [Dev.domDone, h]

theorem domDone_other (h : d.domQ = (j, on) :: q) (hj : j ≠ k) : d.domDone f k = d := by
  rw [Dev.domDone, h]
  exact if_pos hj

theorem domDone_own (h : d.domQ = (k, on) :: q) : d.domDone f k =
    let e := ({ d.setFld (domReg k) 3 2 (if on then 2 else 0) with domQ := q } : Dev)
    (if on then e.domUp k else e.domDown f k).domNext (q.length + 1) := by
  simp only [Dev.domDone, h, ne_eq, not_true_eq_false, if_false]

/-- A stack that is switched off loses its packets, its unit, its bytes and its registers. -/
theorem domDown_stack (i : Fin 2) (e : Dev) (he : ({ d with islands := d.islands.filter (fun j => islandDom j != some (39 + i.val)) } : Dev).discardAll (fun c => c == Node.code (hbmNode i)) = e) :
    d.domDown f (39 + i) = (({ e with hbm := mdel d.hbm i } : Dev).clearMem (stackBase i) (stackBase (i + 1))).resetRegs (inBlock (hbmReg i 0) (hbmReg i 0x1000)) := by
  have h32 : ¬ 39 + i.val < 32 := by omega
  have h36 : ¬ 39 + i.val < 36 := by omega
  have hhub : ¬ (39 + i.val = 37 ∨ 39 + i.val = 38) := by omega
  have hstack : 39 + i.val = 39 ∨ 39 + i.val = 40 := by omega
  have hi : 39 + i.val - 39 = i.val := Nat.add_sub_cancel_left 39 i.val
  subst he
  rw [Dev.domDown, if_neg h32, if_neg h36, if_neg hhub, if_pos hstack, hi]

theorem domDown_islands (i : Fin 2) : (d.domDown f (39 + i)).islands =
    (({ d with islands := d.islands.filter (fun j => islandDom j != some (39 + i.val)) } : Dev).discardAll (fun c => c == Node.code (hbmNode i))).islands := by
  rw [domDown_stack i _ rfl]
  rfl

theorem byte_domDown (i : Fin 2) (e : Dev) (he : ({ d with islands := d.islands.filter (fun j => islandDom j != some (39 + i.val)) } : Dev).discardAll (fun c => c == Node.code (hbmNode i)) = e)
    (h : Memory.wf e.mem = true) (a : Nat) : (d.domDown f (39 + i)).byte a = if stackBase i ≤ a ∧ a < stackBase (i + 1) then unlisted else e.byte a := by
  rw [domDown_stack i e he]
  refine (byte_clearMem ({ e with hbm := mdel d.hbm i } : Dev) (stackBase i) (stackBase (i + 1)) a h).trans ?_
  simp only [decide_eq_true_eq]
  rfl

end Switch

/-! PWR.OPEN, region by region. -/

/-- What PWR.OPEN does for one region. -/
def openStep (v : W32) (d : Dev) (g : Nat) : Dev :=
  if v.getLsbD g then d.setBit (pwrReg 0) g true
  else if !d.regionOpen g || d.closing g then d.setBit (pwrReg 0) g false
  else if !d.parked g then d.setBit (pwrReg 8) 0 true
  else (d.setBit (pwrReg 0) g false).setBit (pwrReg 4) (16 + g) true

theorem openWrite_eq (d : Dev) (v : W32) : d.openWrite v = (List.range 16).foldl (openStep v) d := rfl

/-- What steps for the regions of `l` leave of a device: all but PWR.OPEN's requests, the closes of these regions, and ERR, which stays set. -/
structure OpenKeeps (l : List Nat) (d e : Dev) : Prop where
  only : OnlyRegs d e
  rise : keysRise e.regs
  reg : ∀ a, a ≠ pwrReg 0 → a ≠ pwrReg 4 → a ≠ pwrReg 8 → e.reg a = d.reg a
  isOpen : ∀ n < 16, e.regionOpen n = d.regionOpen n
  err : d.rbit (pwrReg 8) 0 = true → e.rbit (pwrReg 8) 0 = true
  req : ∀ n < 16, n ∉ l → e.rbit (pwrReg 0) n = d.rbit (pwrReg 0) n
  closing : ∀ n < 16, n ∉ l → e.closing n = d.closing n

section Keeps
variable {l l' : List Nat} {d e e' : Dev} {v : W32} {g : Nat}

theorem OpenKeeps.trans (h : OpenKeeps l d e) (h' : OpenKeeps l' e e') : OpenKeeps (l ++ l') d e' where
  only := h.only.trans h'.only
  rise := h'.rise
  reg a h0 h4 h8 := (h'.reg a h0 h4 h8).trans (h.reg a h0 h4 h8)
  isOpen n hn := (h'.isOpen n hn).trans (h.isOpen n hn)
  err hd := h'.err (h.err hd)
  req n hn hl := (h'.req n hn fun hm => hl (List.mem_append_right _ hm)).trans (h.req n hn fun hm => hl (List.mem_append_left _ hm))
  closing n hn hl := (h'.closing n hn fun hm => hl (List.mem_append_right _ hm)).trans (h.closing n hn fun hm => hl (List.mem_append_left _ hm))

theorem OpenKeeps.parked (h : OpenKeeps l d e) (n : Nat) : e.parked n = d.parked n := by
  rw [Dev.parked, Dev.parked, Dev.rbit, Dev.rbit, h.reg _ (by decide) (by decide) (by decide)]

theorem openKeeps_nil (h : keysRise d.regs) : OpenKeeps [] d d := ⟨rfl, h, fun _ _ _ _ => rfl, fun _ _ => rfl, id, fun _ _ _ => rfl, fun _ _ _ => rfl⟩

variable (h : keysRise d.regs) (hg : g < 16)
include h

theorem openKeeps_request (x : Bool) : OpenKeeps [g] d (d.setBit (pwrReg 0) g x) where
  only := onlyRegs_setFld _ _ _ _ _
  rise := keysRise_setBit h x
  reg a h0 _ _ := reg_setFld_other h h0 _ _ _
  isOpen _ _ := rbit_setBit_reg h (by decide) x
  err hd := (rbit_setBit_reg h (by decide) x).trans hd
  req n hn hl := rbit_setBit_bit h (by omega) (fun he => hl (List.mem_singleton.2 he)) x
  closing _ _ _ := rbit_setBit_reg h (by decide) x

theorem openKeeps_err : OpenKeeps [g] d (d.setBit (pwrReg 8) 0 true) where
  only := onlyRegs_setFld _ _ _ _ _
  rise := keysRise_setBit h true
  reg a _ _ h8 := reg_setFld_other h h8 _ _ _
  isOpen _ _ := rbit_setBit_reg h (by decide) true
  err _ := rbit_setBit_same h (by decide) true
  req _ _ _ := rbit_setBit_reg h (by decide) true
  closing _ _ _ := rbit_setBit_reg h (by decide) true

include hg

theorem openKeeps_close : OpenKeeps [g] d (d.setBit (pwrReg 4) (16 + g) true) where
  only := onlyRegs_setFld _ _ _ _ _
  rise := keysRise_setBit h true
  reg a _ h4 _ := reg_setFld_other h h4 _ _ _
  isOpen n hn := rbit_setBit_bit h (by omega) (by omega) true
  err hd := (rbit_setBit_reg h (by decide) true).trans hd
  req _ _ _ := rbit_setBit_reg h (by decide) true
  closing n hn hl := rbit_setBit_bit h (by omega) (fun he => hl (List.mem_singleton.2 (Nat.add_left_cancel he))) true

theorem openKeeps_step (v : W32) : OpenKeeps [g] d (openStep v d g) := by
  unfold openStep
  split
  · exact openKeeps_request h true
  · split
    · exact openKeeps_request h false
    · split
      · exact openKeeps_err h
      · have hboth := (openKeeps_request (g := g) h false).trans (openKeeps_close (keysRise_setBit h false) hg)
        exact { hboth with
          req := fun n hn hl => hboth.req n hn (fun hm => hl (by simpa using hm))
          closing := fun n hn hl => hboth.closing n hn (fun hm => hl (by simpa using hm)) }

/-- The region's own outcome. -/
theorem openStep_asked (hv : v.getLsbD g = true) : (openStep v d g).rbit (pwrReg 0) g = true ∧ (openStep v d g).closing g = d.closing g := by
  rw [openStep, if_pos hv]
  exact ⟨rbit_setBit_same h (by omega) true, rbit_setBit_reg h (by decide) true⟩

theorem openStep_shut (hv : v.getLsbD g = false) (ho : d.regionOpen g = false) :
    (openStep v d g).rbit (pwrReg 0) g = false ∧ (openStep v d g).closing g = d.closing g := by
  rw [openStep, if_neg (Bool.eq_false_iff.1 hv), if_pos (by rw [ho]; rfl)]
  exact ⟨rbit_setBit_same h (by omega) false, rbit_setBit_reg h (by decide) false⟩

omit hg in
theorem openStep_refused (hv : v.getLsbD g = false) (ho : d.regionOpen g = true) (hc : d.closing g = false) (hp : d.parked g = false) :
    (openStep v d g).rbit (pwrReg 8) 0 = true ∧ (openStep v d g).closing g = false := by
  rw [openStep, if_neg (Bool.eq_false_iff.1 hv), if_neg (by rw [ho, hc]; decide), if_pos (by rw [hp]; rfl)]
  exact ⟨rbit_setBit_same h (by decide) true, (rbit_setBit_reg h (by decide) true).trans hc⟩

theorem openStep_closes (hv : v.getLsbD g = false) (ho : d.regionOpen g = true) (hc : d.closing g = false) (hp : d.parked g = true) :
    (openStep v d g).rbit (pwrReg 0) g = false ∧ (openStep v d g).closing g = true := by
  rw [openStep, if_neg (Bool.eq_false_iff.1 hv), if_neg (by rw [ho, hc]; decide), if_neg (by rw [hp]; decide)]
  have hrise := keysRise_setBit (a := pwrReg 0) (n := g) h false
  exact ⟨(rbit_setBit_reg hrise (by decide) true).trans (rbit_setBit_same h (by omega) false), rbit_setBit_same hrise (by omega) true⟩

end Keeps

theorem openKeeps_foldl (v : W32) : ∀ (l : List Nat) (d : Dev), (∀ g ∈ l, g < 16) → keysRise d.regs → OpenKeeps l d (l.foldl (openStep v) d)
  | [], _, _, h => openKeeps_nil h
  | g :: l, _, hl, h =>
    have hstep := openKeeps_step h (hl g List.mem_cons_self) v
    hstep.trans (openKeeps_foldl v l _ (fun n hn => hl n (List.mem_cons_of_mem _ hn)) hstep.rise)

/-- A region's step stands between those of the regions below and above it. -/
theorem openWrite_split {d : Dev} (v : W32) {g : Nat} (hg : g < 16) (h : keysRise d.regs) :
    ∃ (l l' : List Nat) (e : Dev), g ∉ l ∧ g ∉ l' ∧ OpenKeeps l d e ∧ OpenKeeps l' (openStep v e g) (d.openWrite v) := by
  obtain ⟨l, l', hs⟩ := List.append_of_mem (List.mem_range.2 hg)
  have hnodup : (l ++ g :: l').Nodup := hs ▸ List.nodup_range
  obtain ⟨-, hgl, hdis⟩ := List.nodup_append.1 hnodup
  have hlt : ∀ n ∈ l ++ g :: l', n < 16 := fun n hn => List.mem_range.1 (hs ▸ hn)
  have hl := openKeeps_foldl v l d (fun n hn => hlt n (List.mem_append_left _ hn)) h
  have hstep := openKeeps_step hl.rise hg v
  refine ⟨l, l', l.foldl (openStep v) d, fun hm => hdis g hm g List.mem_cons_self rfl, (List.nodup_cons.1 hgl).1, hl, ?_⟩
  rw [openWrite_eq, hs, List.foldl_append]
  exact openKeeps_foldl v l' _ (fun n hn => hlt n (List.mem_append_right _ (List.mem_cons_of_mem _ hn))) hstep.rise

section OpenWrite
variable {d : Dev} {v : W32} {g : Nat} (hg : g < 16) (h : keysRise d.regs)
include hg h

theorem openWrite_asked (hv : v.getLsbD g = true) : (d.openWrite v).rbit (pwrReg 0) g = true ∧ (d.openWrite v).closing g = d.closing g := by
  obtain ⟨l, l', e, hl, hl', hd, ht⟩ := openWrite_split v hg h
  obtain ⟨hreq, hclose⟩ := openStep_asked hd.rise hg hv
  exact ⟨(ht.req g hg hl').trans hreq, (ht.closing g hg hl').trans (hclose.trans (hd.closing g hg hl))⟩

theorem openWrite_shut (hv : v.getLsbD g = false) (ho : d.regionOpen g = false) :
    (d.openWrite v).rbit (pwrReg 0) g = false ∧ (d.openWrite v).closing g = d.closing g := by
  obtain ⟨l, l', e, hl, hl', hd, ht⟩ := openWrite_split v hg h
  obtain ⟨hreq, hclose⟩ := openStep_shut hd.rise hg hv ((hd.isOpen g hg).trans ho)
  exact ⟨(ht.req g hg hl').trans hreq, (ht.closing g hg hl').trans (hclose.trans (hd.closing g hg hl))⟩

theorem openWrite_refused (hv : v.getLsbD g = false) (ho : d.regionOpen g = true) (hc : d.closing g = false) (hp : d.parked g = false) :
    (d.openWrite v).rbit (pwrReg 8) 0 = true ∧ (d.openWrite v).closing g = false := by
  obtain ⟨l, l', e, hl, hl', hd, ht⟩ := openWrite_split v hg h
  obtain ⟨herr, hclose⟩ := openStep_refused hd.rise hv ((hd.isOpen g hg).trans ho) ((hd.closing g hg hl).trans hc) ((hd.parked g).trans hp)
  exact ⟨ht.err herr, (ht.closing g hg hl').trans hclose⟩

theorem openWrite_closes (hv : v.getLsbD g = false) (ho : d.regionOpen g = true) (hc : d.closing g = false) (hp : d.parked g = true) :
    (d.openWrite v).rbit (pwrReg 0) g = false ∧ (d.openWrite v).closing g = true := by
  obtain ⟨l, l', e, hl, hl', hd, ht⟩ := openWrite_split v hg h
  obtain ⟨hreq, hclose⟩ := openStep_closes hd.rise hg hv ((hd.isOpen g hg).trans ho) ((hd.closing g hg hl).trans hc) ((hd.parked g).trans hp)
  exact ⟨(ht.req g hg hl').trans hreq, (ht.closing g hg hl').trans hclose⟩

end OpenWrite

/-! Regions that open and close. -/

section Regions
variable {d : Dev} {g : Nat}

/-- The condition under which a region opens, as the statement writes it. -/
theorem openRegion_iff : (d.rbit (pwrReg 0) g && !d.regionOpen g && !d.closing g && d.domOn (2 * g) && d.domOn (2 * g + 1) &&
      (regionFus g).all (fun k => !(d.fu k).rebuild)) = true ↔
    d.rbit (pwrReg 0) g = true ∧ d.regionOpen g = false ∧ d.closing g = false ∧ d.domOn (2 * g) = true ∧ d.domOn (2 * g + 1) = true ∧
      ∀ k, k ∈ regionFus g → (d.fu k).rebuild = false := by
  simp only [Bool.and_eq_true, Bool.not_eq_true', List.all_eq_true, and_assoc]

theorem closeDone_home (hc : d.closing g = true) (hh : d.creditsHome g = true) (hr : d.requestsDone g = true) :
    d.closeDone g = ((d.setBit (pwrReg 4) g false).setBit (pwrReg 4) (16 + g) false).raiseFree (592 + 2 * g) 0 :=
  if_pos (by rw [hc, hh, hr]; rfl)

theorem closeDone_waits (h : d.closing g = false ∨ d.creditsHome g = false ∨ d.requestsDone g = false) : d.closeDone g = d := by
  refine if_neg ?_
  rw [Bool.and_eq_true, Bool.and_eq_true]
  rintro ⟨⟨hc, hh⟩, hr⟩
  rw [hc, hh, hr] at h
  simp at h

end Regions

/-! The backup domain. -/

section Backup
variable {d : Dev} (h : keysRise d.regs)
include h

theorem reg_vbakLost : d.vbakLost.reg (bakReg 0) = (d.reg (bakReg 0) &&& 2#32) ||| 1#32 :=
  reg_setReg_same _ _ _ (keysRise_filter _ h)

theorem reg_vbakLost_other {a : Nat} (ha : a ≠ bakReg 0) : d.vbakLost.reg a = if bakRegs (a % 2 ^ 48) then regReset a else d.reg a :=
  (reg_setReg_other _ _ _ _ (keysRise_filter _ h) ha).trans (reg_resetRegs h a)

theorem rtcSecond_count : (d.rtcSecond.reg (bakReg 0x10)).toNat + d.rtcSecond.rfld (bakReg 0x14) 15 0 * 2 ^ 32 =
    ((d.reg (bakReg 0x10)).toNat + d.rfld (bakReg 0x14) 15 0 * 2 ^ 32 + 1) % 2 ^ 48 := by
  have hlow := keysRise_setReg d (bakReg 0x10) (BitVec.ofNat 32 ((d.reg (bakReg 0x10)).toNat + d.rfld (bakReg 0x14) 15 0 * 2 ^ 32 + 1)) h
  have hlo : d.rtcSecond.reg (bakReg 0x10) = BitVec.ofNat 32 ((d.reg (bakReg 0x10)).toNat + d.rfld (bakReg 0x14) 15 0 * 2 ^ 32 + 1) :=
    (reg_setReg_other _ _ _ _ (keysRise_setFld hlow _ _ _) (by decide)).trans ((reg_setFld_other hlow (by decide) _ _ _).trans (reg_setReg_same _ _ _ h))
  have hhi : d.rtcSecond.rfld (bakReg 0x14) 15 0 = ((d.reg (bakReg 0x10)).toNat + d.rfld (bakReg 0x14) 15 0 * 2 ^ 32 + 1) / 2 ^ 32 % 65536 :=
    (congrArg (fld · 15 0) (reg_setReg_other _ _ _ _ (keysRise_setFld hlow _ _ _) (by decide))).trans
      (rfld_setFld_same hlow (by decide) (Nat.mod_lt _ (by decide)))
  rw [hlo, hhi, BitVec.toNat_ofNat]
  omega

theorem rtcSecond_fraction : d.rtcSecond.reg (bakReg 0x18) = 0 := reg_setReg_same _ _ _ (keysRise_setFld (keysRise_setReg _ _ _ h) _ _ _)

theorem rtcSecond_other {a : Nat} (h0 : a ≠ bakReg 0x10) (h4 : a ≠ bakReg 0x14) (h8 : a ≠ bakReg 0x18) : d.rtcSecond.reg a = d.reg a := by
  have hlow := keysRise_setReg d (bakReg 0x10) (BitVec.ofNat 32 ((d.reg (bakReg 0x10)).toNat + d.rfld (bakReg 0x14) 15 0 * 2 ^ 32 + 1)) h
  rw [Dev.rtcSecond, reg_setReg_other _ _ _ _ (keysRise_setFld hlow _ _ _) h8, reg_setFld_other hlow h4, reg_setReg_other _ _ _ _ h h0]

end Backup

/-- Settles O55: domains switch one request at a time; PWR.OPEN acts region by region, which no other region's step disturbs. -/
theorem domainsAndRegionsSwitch : Obligations.DomainsAndRegionsSwitch := by
  unfold Obligations.DomainsAndRegionsSwitch
  refine ⟨fun k v s => ?_, fun d => ⟨rfl, fun g => domMay_region_on d g.isLt, fun g => domMay_region_off d g.isLt, fun k hk => domMay_group_on d hk⟩, fun k s j on q hq => ?_, fun k s hq => ?_,
    fun d f i => ?_, fun v s hrise => ?_, fun g s => ?_, fun s => ?_⟩
  · intro d on hv
    refine ⟨fun hon hq => ?_, fun hne hmay => ?_, fun hne hmay hq hrise => ?_, fun x t hne hmay hq ht => ?_⟩
    · rw [exec_pwrDomWrite, domWrite_same hv hon hq, withDev_self]
    · rw [exec_pwrDomWrite, domWrite_refused hv hne hmay]
    · rw [exec_pwrDomWrite, domWrite_starts hv hne hmay hq hrise]
    · rw [exec_pwrDomWrite, domWrite_waits hv hne hmay hq ht]
  · refine ⟨fun hj => ?_, ?_, ?_⟩
    · rw [exec_domainSwitchDone, domDone_other hq hj, withDev_self]
    · rintro rfl rfl
      rw [exec_domainSwitchDone, domDone_own hq]
      rfl
    · rintro rfl rfl
      rw [exec_domainSwitchDone, domDone_own hq]
      rfl
  · rw [exec_domainSwitchDone, domDone_empty hq, withDev_self]
  · exact ⟨domDown_islands i, byte_domDown i _ rfl⟩
  · have hall := openKeeps_foldl v (List.range 16) s.dev (fun n hn => List.mem_range.1 hn) hrise
    refine ⟨s.dev.openWrite v, exec_pwrOpenWrite s v, hall.only, hall.reg, fun g => ⟨hall.isOpen g g.isLt, openWrite_asked g.isLt hrise, openWrite_closes g.isLt hrise, openWrite_refused g.isLt hrise, openWrite_shut g.isLt hrise⟩⟩
  · refine ⟨fun hmay => ?_, fun hmay => ?_, fun hc hh hr => ?_, fun hw => ?_, fun hc => ?_, fun hc => ?_⟩
    · rw [exec_regionOpen, Dev.openRegion, if_pos (openRegion_iff.2 hmay)]
    · rw [exec_regionOpen, Dev.openRegion, if_neg (fun hb => hmay (openRegion_iff.1 hb)), withDev_self]
    · rw [exec_regionCloseDone, closeDone_home hc hh hr]
    · rw [exec_regionCloseDone, closeDone_waits hw, withDev_self]
    · rw [exec_drainTimeout, Dev.drainTimeout, if_pos hc]
    · rw [exec_drainTimeout, Dev.drainTimeout, if_neg (Bool.eq_false_iff.1 hc), withDev_self]
  · refine ⟨fun hb => ?_, fun hb => ?_, rfl, fun hrise => ⟨_, exec_vbakLost s, ?_, ?_, fun a => reg_vbakLost_other hrise⟩,
      fun hrise => ⟨_, exec_rtcSecond s, rtcSecond_count hrise, rtcSecond_fraction hrise, fun a => rtcSecond_other hrise⟩, fun k t => rfl, fun hon => ?_, fun hoff => ?_⟩
    · rw [exec_vbakLow, Dev.vbakLow, if_neg (Bool.eq_false_iff.1 hb)]
    · rw [exec_vbakLow, Dev.vbakLow, if_pos hb, withDev_self]
    · rw [Dev.rbit, reg_vbakLost hrise, BitVec.getLsbD_or]
      exact Bool.or_true _
    · rw [Dev.rbit, reg_vbakLost hrise, BitVec.getLsbD_or, BitVec.getLsbD_and]
      exact (Bool.or_false _).trans (Bool.and_true _)
    · rw [exec_refOk, Dev.refOk, if_pos hon]
    · rw [exec_refOk, Dev.refOk, if_neg (Bool.eq_false_iff.1 hoff), withDev_self]

end Sys2Proof.Machine

/-! ### O56: boot and trust -/

namespace Sys2Proof.Machine

section
variable (s : State)

theorem exec_bootRomEntry : exec .bootRomEntry s = .next (s.withDev (s.dev.bootRom s.fuses)) := rfl
theorem exec_bootLock (v : W32) : exec (.bootLock v) s = .next (s.withDev (s.dev.bootLockRow v)) := rfl
theorem exec_bootOk (v : W32) : exec (.bootOk v) s = .next (s.withDev (s.dev.bootOk v)) := rfl
theorem exec_bootWindowExpiry : exec .bootWindowExpiry s = .next (s.withDev s.dev.bootWindowEnd) := rfl
theorem exec_flashOpDone (ok : Bool) : exec (.flashOpDone ok) s = .next (s.withDev (s.dev.flashDone ok)) := rfl
theorem exec_keyWrite (v : W32) : exec (.keyWrite v) s = .next (s.withDev (s.dev.writes (secReg 0x90) (s.dev.keyWrite v))) := rfl
theorem exec_keyClear (v : W32) : exec (.keyClear v) s = .next (s.withDev (s.dev.writes (secReg 0x90) (s.dev.keyClear v))) := rfl
theorem exec_secverBurn (v : W32) : exec (.secverBurn v) s = .next (s.put (s.dev.writes (secReg 0xA4) (s.dev.secverBurn v))) := rfl
theorem exec_measAppend (v : W32) : exec (.measAppend v) s = .next (s.withDev (s.dev.writes (secReg 0xB0) (s.dev.measAppend v))) := rfl

/-- The four flash commands start the operation of their number. -/
theorem exec_flash {op : Nat} {c : Instr} {v : W32}
    (h : (op = 0 ∧ c = .flashRead v) ∨ (op = 1 ∧ c = .flashProgram v) ∨ (op = 2 ∧ c = .flashErase v) ∨ (op = 3 ∧ c = .flashCompare v)) :
    exec c s = .next (s.withDev (s.dev.flashGo op v)) := by
  rcases h with ⟨rfl, rfl⟩ | ⟨rfl, rfl⟩ | ⟨rfl, rfl⟩ | ⟨rfl, rfl⟩ <;> rfl

end

/-! The boot ROM. -/

section Rom
variable {d : Dev} {f : Fuses}

/-- The condition under which the boot ROM stays idle, as the model tests it. -/
theorem bootIdle_iff : (!d.stew.on || d.stew.core.pc != 0 || d.rbit (bootReg 4) 0 || d.boot.entry.isSome || d.rbit (bootReg 8) 7) = true ↔
    ¬ (d.stew.on = true ∧ d.stew.core.pc = 0 ∧ d.rbit (bootReg 4) 0 = false ∧ d.boot.entry = none ∧ d.rbit (bootReg 8) 7 = false) := by
  rw [← Bool.not_eq_false]
  refine not_congr ?_
  simp only [Bool.or_eq_false_iff, Bool.not_eq_false', bne_eq_false_iff_eq, Option.isSome_eq_false_iff, Option.isNone_iff_eq_none, and_assoc]

theorem bootRom_idle (h : ¬ (d.stew.on = true ∧ d.stew.core.pc = 0 ∧ d.rbit (bootReg 4) 0 = false ∧ d.boot.entry = none ∧ d.rbit (bootReg 8) 7 = false)) :
    d.bootRom f = d := if_pos (bootIdle_iff.2 h)

/-- What the boot ROM chooses between by the current boot record. -/
def bootByRecord (e : Dev) (f : Fuses) : Dev :=
  match e.currentRec with
  | some r =>
    if r.trial ∧ e.rfld (bakReg 8) 3 0 ≠ 0 then (e.writeRec (1 - r.slot) false (signedHash (e.slotRead (1 - r.slot)))).bootFlash f true
    else if e.rfld (bootReg 0) 1 0 = 3 then e.warmup f 2
    else if e.rfld (bootReg 0) 1 0 = 1 then e.warmup f 5
    else if (e.rfld (rstReg 0) 9 8 = 3 ∨ (e.rfld (rstReg 0) 9 8 = 1 ∧ e.rfld (bootReg 0) 1 0 = 2)) ∧ signedHash e.hbmRead = r.hash ∧ imageCheck (e.shadows f) e.secMin e.hbmRead none 6 = 0 then
      (e.bootStatus r.slot false false).handover e.hbmRead r.slot
    else e.bootFlash f false
  | none => if e.rfld (bootReg 0) 1 0 = 3 then e.warmup f 2 else if e.rfld (bootReg 0) 1 0 = 1 then e.warmup f 5 else e.bootFlash f false

theorem bootRom_ready (h : d.stew.on = true ∧ d.stew.core.pc = 0 ∧ d.rbit (bootReg 4) 0 = false ∧ d.boot.entry = none ∧ d.rbit (bootReg 8) 7 = false)
    {e : Dev} (he : d.identity f = e) :
    d.bootRom f = if e.rbit (rstReg 4) 1 then e.warmup f 4 else if e.fsLimit ≤ e.rfld (bakReg 8) 3 0 then e.warmup f 1 else bootByRecord e f := by
  subst he
  exact (if_neg (fun hb => bootIdle_iff.1 hb h)).trans rfl

variable {e : Dev} {r : BootRec}

theorem bootByRecord_revert (hr : e.currentRec = some r) (ht : r.trial = true) (hs : e.rfld (bakReg 8) 3 0 ≠ 0) :
    bootByRecord e f = (e.writeRec (1 - r.slot) false (signedHash (e.slotRead (1 - r.slot)))).bootFlash f true := by
  rw [bootByRecord, hr]
  exact if_pos ⟨ht, hs⟩

/-- A record that is not reverted: a trial without a false start, or none. -/
theorem trial_kept (h : r.trial = false ∨ e.rfld (bakReg 8) 3 0 = 0) : ¬ (r.trial = true ∧ e.rfld (bakReg 8) 3 0 ≠ 0) := by
  rintro ⟨ht, hs⟩
  rcases h with h | h
  · rw [ht] at h
    exact Bool.noConfusion h
  · exact hs h

variable (h : ∀ r, e.currentRec = some r → r.trial = false ∨ e.rfld (bakReg 8) 3 0 = 0)
include h

theorem bootByRecord_source3 (hs : e.rfld (bootReg 0) 1 0 = 3) : bootByRecord e f = e.warmup f 2 := by
  unfold bootByRecord
  cases hr : e.currentRec with
  | none => exact if_pos hs
  | some r => exact (if_neg (trial_kept (h r hr))).trans (if_pos hs)

theorem bootByRecord_source1 (hs : e.rfld (bootReg 0) 1 0 = 1) : bootByRecord e f = e.warmup f 5 := by
  have h3 : e.rfld (bootReg 0) 1 0 ≠ 3 := by omega
  unfold bootByRecord
  cases hr : e.currentRec with
  | none => exact (if_neg h3).trans (if_pos hs)
  | some r => exact (if_neg (trial_kept (h r hr))).trans ((if_neg h3).trans (if_pos hs))

omit h

theorem bootByRecord_none (hr : e.currentRec = none) (h1 : e.rfld (bootReg 0) 1 0 ≠ 1) (h3 : e.rfld (bootReg 0) 1 0 ≠ 3) :
    bootByRecord e f = e.bootFlash f false := by
  rw [bootByRecord, hr]
  exact (if_neg h3).trans (if_neg h1)

theorem bootByRecord_flash (hr : e.currentRec = some r) (hk : r.trial = false ∨ e.rfld (bakReg 8) 3 0 = 0) (h1 : e.rfld (bootReg 0) 1 0 ≠ 1)
    (h3 : e.rfld (bootReg 0) 1 0 ≠ 3) (hreach : e.rfld (rstReg 0) 9 8 = 2) : bootByRecord e f = e.bootFlash f false := by
  rw [bootByRecord, hr]
  refine (if_neg (trial_kept hk)).trans ((if_neg h3).trans ((if_neg h1).trans (if_neg ?_)))
  rintro ⟨hhot, -⟩
  omega

end Rom

/-! Booting from the flash's slots. -/

section Slots
variable {d : Dev} {f : Fuses} {rev : Bool}

/-- What R502 finds in the image of a slot, and the device that has noted it. -/
def slotCheck (f : Fuses) (d : Dev) (i : Nat) : Nat := imageCheck (d.shadows f) d.secMin (d.slotRead i) none 6
def slotNoted (f : Fuses) (d : Dev) (i : Nat) : Dev := d.setFld (bootReg 0x10) (4 * i + 3) (4 * i) (slotCheck f d i)

theorem trySlot_eq (i : Nat) : d.trySlot f i = (slotCheck f d i, slotNoted f d i) := rfl

theorem bootFlash_active (h : slotCheck f d d.activeSlot = 0) :
    d.bootFlash f rev = ((slotNoted f d d.activeSlot).bootStatus d.activeSlot false rev).handover ((slotNoted f d d.activeSlot).slotRead d.activeSlot) d.activeSlot := by
  simp only [Dev.bootFlash, trySlot_eq, h]

variable (h : slotCheck f d d.activeSlot ≠ 0)
include h

theorem bootFlash_fallback {d1 : Dev} (h1 : slotNoted f d d.activeSlot = d1) (h' : slotCheck f d1 (1 - d.activeSlot) = 0) :
    d.bootFlash f rev = (((slotNoted f d1 (1 - d.activeSlot)).bootStatus (1 - d.activeSlot) true rev).raiseFree 647 0).handover
      ((slotNoted f d1 (1 - d.activeSlot)).slotRead (1 - d.activeSlot)) (1 - d.activeSlot) := by
  obtain ⟨n, hn⟩ := Nat.exists_eq_succ_of_ne_zero h
  simp only [Dev.bootFlash, trySlot_eq, hn, h1, h']

theorem bootFlash_warmup {d1 : Dev} (h1 : slotNoted f d d.activeSlot = d1) (h' : slotCheck f d1 (1 - d.activeSlot) ≠ 0) :
    d.bootFlash f rev = ((slotNoted f d1 (1 - d.activeSlot)).setReg (bootReg 8) 0).warmup f 3 := by
  obtain ⟨n, hn⟩ := Nat.exists_eq_succ_of_ne_zero h
  obtain ⟨n', hn'⟩ := Nat.exists_eq_succ_of_ne_zero h'
  simp only [Dev.bootFlash, trySlot_eq, hn, h1, hn']

end Slots

/-! The lock and the boot window. -/

section Lock
variable {d : Dev} {v : W32}

theorem bootLockRow_idle (h : v.getLsbD 0 = false ∨ d.rbit (bootReg 4) 0 = true) : d.bootLockRow v = d := by
  refine if_pos ?_
  rcases h with h | h <;> rw [h]
  · rfl
  · exact Bool.or_true _

theorem bootLockRow_locks (hv : v.getLsbD 0 = true) (h : d.rbit (bootReg 4) 0 = false) (hn : d.boot.entry = none) : d.bootLockRow v = d.bootLock := by
  have hn' : d.bootLock.boot.entry = none := hn
  simp only [Dev.bootLockRow, hv, h, hn', Bool.not_true, Bool.or_false, Bool.false_eq_true, if_false]

theorem bootLockRow_enters (hv : v.getLsbD 0 = true) (h : d.rbit (bootReg 4) 0 = false) {x : Nat} (hx : d.boot.entry = some x) :
    d.bootLockRow v = { d.bootLock.modStew (fun s => { s with core := { s.core with pc := x } }) with boot := { d.boot with entry := none } } := by
  have hx' : d.bootLock.boot.entry = some x := hx
  simp only [Dev.bootLockRow, hv, h, hx', Bool.not_true, Bool.or_false, Bool.false_eq_true, if_false]
  rfl

theorem bootLockRow_regs (hv : v.getLsbD 0 = true) (h : d.rbit (bootReg 4) 0 = false) : (d.bootLockRow v).regs = d.bootLock.regs := by
  cases hx : d.boot.entry with
  | none => rw [bootLockRow_locks hv h hx]
  | some x =>
    rw [bootLockRow_enters hv h hx]
    rfl

theorem bootLockRow_boot (hv : v.getLsbD 0 = true) (h : d.rbit (bootReg 4) 0 = false) : (d.bootLockRow v).boot = { d.boot with entry := none } := by
  cases hx : d.boot.entry with
  | none =>
    rw [bootLockRow_locks hv h hx, ← hx]
    rfl
  | some x => rw [bootLockRow_enters hv h hx]

section
variable (h : keysRise d.regs)
include h

theorem bootLock_bits : d.bootLock.rbit (secReg 0) 0 = true ∧ d.bootLock.rbit (bootReg 4) 0 = true ∧ d.bootLock.rbit (bootReg 8) 1 = true ∧
    d.bootLock.rbit (bootReg 8) 2 = false := by
  have h1 := keysRise_setBit (a := bootReg 4) (n := 0) h true
  have h2 := keysRise_setBit (a := secReg 0) (n := 0) h1 true
  have h3 := keysRise_setBit (a := bootReg 8) (n := 1) h2 true
  refine ⟨?_, ?_, ?_, rbit_setBit_same h3 (by decide) false⟩
  · exact (rbit_setBit_reg h3 (by decide) false).trans ((rbit_setBit_reg h2 (by decide) true).trans (rbit_setBit_same h1 (by decide) true))
  · exact (rbit_setBit_reg h3 (by decide) false).trans ((rbit_setBit_reg h2 (by decide) true).trans ((rbit_setBit_reg h1 (by decide) true).trans
      (rbit_setBit_same h (by decide) true)))
  · exact (rbit_setBit_bit h3 (by decide) (by decide) false).trans (rbit_setBit_same h2 (by decide) true)

theorem reg_bootLock_other {a : Nat} (h4 : a ≠ bootReg 4) (h8 : a ≠ bootReg 8) (hs : a ≠ secReg 0) : d.bootLock.reg a = d.reg a := by
  have h1 := keysRise_setBit (a := bootReg 4) (n := 0) h true
  have h2 := keysRise_setBit (a := secReg 0) (n := 0) h1 true
  have h3 := keysRise_setBit (a := bootReg 8) (n := 1) h2 true
  exact (reg_setFld_other h3 h8 _ _ _).trans ((reg_setFld_other h2 h8 _ _ _).trans ((reg_setFld_other h1 hs _ _ _).trans (reg_setFld_other h h4 _ _ _)))

end

theorem bootOk_window (hv : v.getLsbD 1 = true) (h : d.rbit (bootReg 8) 1 = true) :
    d.bootOk v = ((d.setBit (bootReg 8) 1 false).setBit (bootReg 8) 2 true).setFld (bakReg 8) 3 0 0 :=
  if_pos (by rw [hv, h]; rfl)

theorem bootOk_idle (h : v.getLsbD 1 = false ∨ d.rbit (bootReg 8) 1 = false) : d.bootOk v = d := by
  refine if_neg ?_
  rw [Bool.and_eq_true]
  rintro ⟨hv, hb⟩
  rw [hv, hb] at h
  exact h.elim Bool.noConfusion Bool.noConfusion

end Lock

/-! Flash commands. -/

section Commands
variable {d : Dev} {op : Nat} {v : W32}

theorem flashGo_idle (h : fld v 1 0 ≠ op ∨ v.getLsbD 31 = false ∨ (d.setFld (flashReg 0x10) 1 0 (fld v 1 0)).rbit (flashReg 0x14) 0 = true) :
    d.flashGo op v = d.setFld (flashReg 0x10) 1 0 (fld v 1 0) :=
  if_pos (h.imp id (Or.imp (fun hv => by rw [hv]; rfl) id))

variable (hop : fld v 1 0 = op) (hgo : v.getLsbD 31 = true) {e : Dev} (he : d.setFld (flashReg 0x10) 1 0 (fld v 1 0) = e)
  (hbusy : e.rbit (flashReg 0x14) 0 = false)
include hop hgo he hbusy

/-- A command with GO on an idle controller, by the test of R507. -/
theorem flashGo_tested : d.flashGo op v =
    if e.flashRefuses op (e.rfld (flashReg 0) 25 0) (e.rfld (flashReg 4) 23 0) || (op != 2 && !bufOk (e.pair (flashReg 8)) (e.rfld (flashReg 4) 23 0)) then
      e.setBit (flashReg 0x14) 1 true
    else { e.setBit (flashReg 0x14) 0 true with boot := { e.boot with flash := some (op, e.rfld (flashReg 0) 25 0, e.rfld (flashReg 4) 23 0, e.pair (flashReg 8)) } } := by
  subst he
  refine if_neg ?_
  rw [hgo, hbusy]
  rintro (h | h | h)
  · exact h hop
  · exact Bool.noConfusion h
  · exact Bool.noConfusion h

theorem flashGo_refused (h : e.flashRefuses op (e.rfld (flashReg 0) 25 0) (e.rfld (flashReg 4) 23 0) = true ∨
      (op ≠ 2 ∧ bufOk (e.pair (flashReg 8)) (e.rfld (flashReg 4) 23 0) = false)) : d.flashGo op v = e.setBit (flashReg 0x14) 1 true := by
  rw [flashGo_tested hop hgo he hbusy]
  refine if_pos ?_
  rcases h with h | ⟨h2, hb⟩
  · rw [h]
    rfl
  · rw [hb, bne_iff_ne.2 h2]
    exact Bool.or_true _

theorem flashGo_starts (h : e.flashRefuses op (e.rfld (flashReg 0) 25 0) (e.rfld (flashReg 4) 23 0) = false)
    (hb : op = 2 ∨ bufOk (e.pair (flashReg 8)) (e.rfld (flashReg 4) 23 0) = true) :
    d.flashGo op v = { e.setBit (flashReg 0x14) 0 true with boot := { e.boot with flash := some (op, e.rfld (flashReg 0) 25 0, e.rfld (flashReg 4) 23 0, e.pair (flashReg 8)) } } := by
  rw [flashGo_tested hop hgo he hbusy, h]
  refine if_neg ?_
  rw [Bool.false_or, Bool.and_eq_true, bne_iff_ne, Bool.not_eq_true']
  rintro ⟨h2, hno⟩
  rw [hno] at hb
  exact hb.elim h2 Bool.noConfusion

end Commands

/-! The bytes of the flash. -/

theorem readFlash_eq (m : SMap Byte) : ∀ n a, readFlash m a n = (List.range n).map (fun i => mget 0xFF m (a + i))
  | 0, _ => rfl
  | n + 1, a => by
    rw [readFlash, readFlash_eq m n, List.range_succ_eq_map, List.map_cons, List.map_map]
    refine congrArg (List.cons _) (List.map_congr_left fun i _ => ?_)
    exact congrArg (mget 0xFF m) (Nat.add_right_comm a 1 i)

theorem readMem_eq (m : List Host.Cell) : ∀ n a, readMem m a n = (List.range n).map (fun i => mget unlisted m (a + i))
  | 0, _ => rfl
  | n + 1, a => by
    rw [readMem, readMem_eq m n, List.range_succ_eq_map, List.map_cons, List.map_map]
    refine congrArg (List.cons _) (List.map_congr_left fun i _ => ?_)
    exact congrArg (mget unlisted m) (Nat.add_right_comm a 1 i)

theorem mwf_writeFlash : ∀ (bs : List Byte) (m : SMap Byte) (a : Nat), mwf 0xFF m = true → mwf 0xFF (writeFlash m a bs) = true
  | [], _, _, h => h
  | b :: bs, _, a, h => mwf_writeFlash bs _ (a + 1) (mwf_mset a b h)

theorem mget_writeFlash : ∀ (bs : List Byte) (m : SMap Byte) (a i : Nat), mwf 0xFF m = true →
    mget 0xFF (writeFlash m a bs) i = if a ≤ i then (bs[i - a]?).getD (mget 0xFF m i) else mget 0xFF m i
  | [], m, a, i, _ => by
    rw [List.getElem?_nil, Option.getD_none, ite_self]
    rfl
  | b :: bs, m, a, i, h => by
    rw [writeFlash, mget_writeFlash bs _ (a + 1) i (mwf_mset a b h)]
    rcases Nat.lt_trichotomy i a with hlt | rfl | hgt
    · rw [if_neg (by omega), if_neg (by omega), mget_mset_other h b (by omega)]
    · rw [if_neg (by omega), if_pos (Nat.le_refl i), Nat.sub_self, mget_mset_same h]
      rfl
    · obtain ⟨j, rfl⟩ : ∃ j, i = a + 1 + j := ⟨i - (a + 1), by omega⟩
      have hj : a + 1 + j - a = j + 1 := by omega
      rw [if_pos (by omega), if_pos (by omega), mget_mset_other h b (by omega), Nat.add_sub_cancel_left, hj, List.getElem?_cons_succ]

/-- Programming leaves the AND of flash and buffer in each byte. -/
theorem mget_program (d : Dev) (a n b i : Nat) (h : mwf 0xFF d.flash = true) :
    mget 0xFF (writeFlash d.flash a ((List.zip (readFlash d.flash a n) (d.read b n)).map (fun x => x.1 &&& x.2))) i =
      if a ≤ i ∧ i < a + n then d.flashByte i &&& d.byte (b + (i - a)) else d.flashByte i := by
  rw [mget_writeFlash _ _ _ _ h, readFlash_eq, Dev.read, readMem_eq, List.zip_map', List.map_map, List.getElem?_map]
  by_cases ha : a ≤ i
  · rw [if_pos ha]
    by_cases hi : i < a + n
    · rw [if_pos ⟨ha, hi⟩, List.getElem?_range (by omega)]
      change mget 0xFF d.flash (a + (i - a)) &&& mget unlisted d.mem (b + (i - a)) = _
      rw [Nat.add_sub_cancel' ha]
      rfl
    · rw [if_neg (fun hh => hi hh.2), List.getElem?_eq_none (by rw [List.length_range]; omega)]
      rfl
  · rw [if_neg ha, if_neg (fun hh => ha hh.1)]
    rfl

theorem readFlash_eq_read (d : Dev) (a n b : Nat) : readFlash d.flash a n = d.read b n ↔ ∀ i < n, d.flashByte (a + i) = d.byte (b + i) := by
  rw [readFlash_eq, Dev.read, readMem_eq, List.map_inj_left]
  simp only [List.mem_range]
  rfl

/-! The end of a flash operation. -/

section Done
variable {d : Dev} {a n b : Nat}

/-- The controller after an operation: idle, with nothing under way. -/
def flashIdle (d : Dev) : Dev := { d.setBit (flashReg 0x14) 0 false with boot := { d.boot with flash := none } }

theorem flashDone_none (h : d.boot.flash = none) (ok : Bool) : d.flashDone ok = d := by
  rw [Dev.flashDone, h]

theorem flashDone_failed {x : Nat × Nat × Nat × Nat} (h : d.boot.flash = some x) : d.flashDone false = (flashIdle d).setBit (flashReg 0x14) 1 true := by
  rw [Dev.flashDone, h]
  rfl

theorem flashDone_read (h : d.boot.flash = some (0, a, n, b)) : d.flashDone true = (flashIdle d).write b (readFlash d.flash a n) := by
  rw [Dev.flashDone, h]
  rfl

theorem flashDone_program (h : d.boot.flash = some (1, a, n, b)) : d.flashDone true =
    { flashIdle d with flash := writeFlash d.flash a ((List.zip (readFlash d.flash a n) (d.read b n)).map (fun x => x.1 &&& x.2)) } := by
  rw [Dev.flashDone, h]
  rfl

theorem flashDone_erase (h : d.boot.flash = some (2, a, n, b)) : d.flashDone true = { flashIdle d with flash := mclear d.flash (inBlock a (a + n)) } := by
  rw [Dev.flashDone, h]
  rfl

theorem flashDone_same (h : d.boot.flash = some (3, a, n, b)) (hs : ∀ i < n, d.flashByte (a + i) = d.byte (b + i)) : d.flashDone true = flashIdle d := by
  rw [Dev.flashDone, h]
  exact if_pos ((readFlash_eq_read d a n b).2 hs)

theorem flashDone_differs (h : d.boot.flash = some (3, a, n, b)) {i : Nat} (hi : i < n) (hne : d.flashByte (a + i) ≠ d.byte (b + i)) :
    d.flashDone true = (flashIdle d).setBit (flashReg 0x14) 2 true := by
  rw [Dev.flashDone, h]
  exact if_neg (fun hb => hne ((readFlash_eq_read d a n b).1 hb i hi))

theorem mget_erase (h : mwf 0xFF d.flash = true) (i : Nat) : mget 0xFF (mclear d.flash (inBlock a (a + n))) i = if a ≤ i ∧ i < a + n then 0xFF else d.flashByte i := by
  rw [mget_mclear _ i h, inBlock]
  simp only [decide_eq_true_eq]
  rfl

end Done

/-! Key slots, SECVER and the measurement log. -/

section Keys
variable {d : Dev} {v : W32} {k : Nat}

theorem keyMay_locked (hk : k < 64) (hl : d.locked = true) (act : Dev → Dev) : d.keyMay k act = d.setBit (secReg 0xF4) 1 true := if_pos ⟨hk, hl⟩

theorem keyMay_free (h : 64 ≤ k ∨ d.locked = false) (act : Dev → Dev) : d.keyMay k act = act d := by
  refine if_neg ?_
  rintro ⟨hk, hl⟩
  rw [hl] at h
  exact h.elim (Nat.not_le_of_lt hk) Bool.noConfusion

theorem keyWrite_idle (h : v.getLsbD 0 = false) : d.keyWrite v = d := if_pos (by rw [h]; rfl)

theorem keyClear_idle (h : v.getLsbD 1 = false) : d.keyClear v = d := if_pos (by rw [h]; rfl)

theorem keyWrite_asked (h : v.getLsbD 0 = true) : d.keyWrite v = d.keyMay (d.rfld (secReg 0x40) 7 0) (fun d' =>
    d'.setKey (d.rfld (secReg 0x40) 7 0) (if d.rfld (secReg 0x40) 7 0 < 64 then
      { typ := 1, roles := fld (d'.reg (banked (secReg 0x44) (d.rfld (secReg 0x40) 7 0))) 10 8, pset := fld (d'.reg (banked (secReg 0x44) (d.rfld (secReg 0x40) 7 0))) 7 4,
        data := (List.range 16).map (fun i => d'.reg (banked (secReg (0x50 + 4 * i)) (d.rfld (secReg 0x40) 7 0))) }
      else { typ := 2, data := ((List.range 16).map (fun i => d'.reg (banked (secReg (0x50 + 4 * i)) (d.rfld (secReg 0x40) 7 0)))).take 8 })) :=
  if_neg (by rw [h]; decide)

theorem keyClear_asked (h : v.getLsbD 1 = true) : d.keyClear v = d.keyMay (d.rfld (secReg 0x40) 7 0) (fun d' => d'.setKey (d.rfld (secReg 0x40) 7 0) {}) :=
  if_neg (by rw [h]; decide)

theorem secverBurn_idle (h : d.rbit (bootReg 8) 2 = false ∨ d.sec.secver < fld v 6 0 ∨ fld v 6 0 ≤ d.secMin) : d.secverBurn v = d :=
  if_pos (h.imp (fun hb => by rw [hb]; rfl) id)

theorem secverBurn_burns (hb : d.rbit (bootReg 8) 2 = true) (hs : fld v 6 0 ≤ d.sec.secver) (hm : d.secMin < fld v 6 0) :
    d.secverBurn v = d.setFld (secReg 0xA0) 6 0 (fld v 6 0) := by
  refine if_neg ?_
  rw [hb]
  rintro (h | h | h)
  · exact Bool.noConfusion h
  · exact absurd h (Nat.not_lt.2 hs)
  · exact absurd h (Nat.not_le.2 hm)

end Keys

/-- Settles O56: the boot ROM decides by the current record and the slots' checks, and a flash operation acts byte by byte. -/
theorem bootAndTrust : Obligations.BootAndTrust := by
  unfold Obligations.BootAndTrust
  refine ⟨fun s => ?_, fun d f rev => ⟨bootFlash_active, fun h => bootFlash_fallback h rfl, fun h => bootFlash_warmup h rfl⟩, fun v s => ?_, fun op c v s hc => ?_, fun s => ?_, fun v s => ?_⟩
  · intro d ready e src starts
    refine ⟨fun hn => ?_, fun hr => ⟨fun hb => ?_, fun hb hl => ?_, fun hb hl => ?_⟩⟩
    · rw [exec_bootRomEntry, bootRom_idle hn, withDev_self]
    · rw [exec_bootRomEntry, bootRom_ready hr rfl, if_pos hb]
    · rw [exec_bootRomEntry, bootRom_ready hr rfl, if_neg (Bool.eq_false_iff.1 hb), if_pos hl]
    · rw [exec_bootRomEntry, bootRom_ready hr rfl, if_neg (Bool.eq_false_iff.1 hb), if_neg (Nat.not_le.2 hl)]
      refine ⟨fun r hr ht hs => ?_, fun hk h3 => ?_, fun hk h1 => ?_, fun h1 h3 => ⟨fun hr => ?_, fun r hr hk hreach => ?_⟩⟩
      · rw [bootByRecord_revert hr ht hs]
      · rw [bootByRecord_source3 hk h3]
      · rw [bootByRecord_source1 hk h1]
      · rw [bootByRecord_none hr h1 h3]
      · rw [bootByRecord_flash hr hk h1 h3 hreach]
  · intro d
    refine ⟨fun h => ?_, fun hv h hrise => ⟨_, exec_bootLock s v, ?_⟩, fun hv h hrise => ⟨_, exec_bootOk s v, ?_⟩, fun h => ?_, fun h => ?_, fun h => ?_⟩
    · rw [exec_bootLock, bootLockRow_idle h, withDev_self]
    · have hreg : ∀ a, (d.bootLockRow v).reg a = d.bootLock.reg a := reg_of_regs (bootLockRow_regs hv h)
      have hbit : ∀ a n, (d.bootLockRow v).rbit a n = d.bootLock.rbit a n := fun a n => congrArg (fun x => x.getLsbD n) (hreg a)
      obtain ⟨hlocked, hlock, hwindow, hok⟩ := bootLock_bits (d := d) hrise
      refine ⟨(hbit _ _).trans hlocked, (hbit _ _).trans hlock, (hbit _ _).trans hwindow, (hbit _ _).trans hok, bootLockRow_boot hv h, fun x hx => ?_, fun hn => ?_,
        fun a h4 h8 hs => (hreg a).trans (reg_bootLock_other hrise h4 h8 hs)⟩
      · rw [bootLockRow_enters hv h hx]
        rfl
      · rw [bootLockRow_locks hv h hn]
        rfl
    · have h1 := keysRise_setBit (a := bootReg 8) (n := 1) hrise false
      have h2 := keysRise_setBit (a := bootReg 8) (n := 2) h1 true
      rw [bootOk_window hv h]
      refine ⟨rfl, ?_, ?_, rfld_setFld_same h2 (by decide) (by decide), fun a h8 hb => ?_⟩
      · rw [Dev.rbit, reg_setFld_other h2 (by decide)]
        exact (rbit_setBit_bit h1 (by decide) (by decide) true).trans (rbit_setBit_same hrise (by decide) false)
      · rw [Dev.rbit, reg_setFld_other h2 (by decide)]
        exact rbit_setBit_same h1 (by decide) true
      · exact (reg_setFld_other h2 hb _ _ _).trans ((reg_setFld_other h1 h8 _ _ _).trans (reg_setFld_other hrise h8 _ _ _))
    · rw [exec_bootOk, bootOk_idle h, withDev_self]
    · rw [exec_bootWindowExpiry, Dev.bootWindowEnd, if_pos h]
    · rw [exec_bootWindowExpiry, Dev.bootWindowEnd, if_neg (Bool.eq_false_iff.1 h), withDev_self]
  · refine ⟨fun h => ?_, fun hop hgo hb => ⟨fun h => ?_, fun h hbuf => ?_⟩⟩
    · rw [exec_flash s hc, flashGo_idle h]
    · rw [exec_flash s hc, flashGo_refused hop hgo rfl hb h]
    · rw [exec_flash s hc, flashGo_starts hop hgo rfl hb h hbuf]
  · refine ⟨fun ok h => ?_, fun x h => ?_, fun a n b h => ?_, fun a n b h hw => ⟨_, exec_flashOpDone s true, ?_⟩, fun a n b h hw => ⟨_, exec_flashOpDone s true, ?_⟩,
      fun a n b h => ⟨fun hs => ?_, fun i hi hne => ?_⟩⟩
    · rw [exec_flashOpDone, flashDone_none h, withDev_self]
    · rw [exec_flashOpDone, flashDone_failed h]
      rfl
    · rw [exec_flashOpDone, flashDone_read h]
      rfl
    · rw [flashDone_program h]
      exact ⟨rfl, mwf_writeFlash _ _ _ hw, fun i => mget_program s.dev a n b i hw⟩
    · rw [flashDone_erase h]
      exact ⟨rfl, mwf_mclear _ hw, mget_erase hw⟩
    · rw [exec_flashOpDone, flashDone_same h hs]
      rfl
    · rw [exec_flashOpDone, flashDone_differs h hi hne]
      rfl
  · intro d k info ws n w
    refine ⟨fun h => ?_, fun h => ?_, fun hk hl => ⟨fun h => ?_, fun h => ?_⟩, fun hf => ⟨fun h hk => ?_, fun h hk => ?_, fun h => ?_⟩, fun h => ?_, fun hb hs hm hh hrise => ?_, fun h => ?_, fun h => ?_⟩
    · rw [exec_keyWrite, keyWrite_idle h]
    · rw [exec_keyClear, keyClear_idle h]
    · rw [exec_keyWrite, keyWrite_asked h, keyMay_locked hk hl]
    · rw [exec_keyClear, keyClear_asked h, keyMay_locked hk hl]
    · rw [exec_keyWrite, keyWrite_asked h, keyMay_free hf, if_pos hk]
    · rw [exec_keyWrite, keyWrite_asked h, keyMay_free hf, if_neg (Nat.not_lt.2 hk)]
    · rw [exec_keyClear, keyClear_asked h, keyMay_free hf]
    · rw [exec_secverBurn, secverBurn_idle h]
    · have hset : (d.setFld (secReg 0xA0) 6 0 n).secMin = n := rfld_setFld_same hrise (by decide) (fld_lt v 6 0)
      refine ⟨s.put (d.setFld (secReg 0xA0) 6 0 n), ?_, rfl, hset, ?_⟩
      · rw [exec_secverBurn, secverBurn_burns hb hs hm, writes_of_not_held _ hh]
      · rw [State.put, hset]
        exact if_neg (Nat.ne_of_gt hm)
    · rw [exec_measAppend, Dev.measAppend, Dev.measure, if_neg (Nat.not_le.2 h)]
    · rw [exec_measAppend, Dev.measAppend, Dev.measure, if_pos h]

end Sys2Proof.Machine

/-! ### O57: events, the journal and replay -/

namespace Sys2Proof.Machine

section
variable (s : State)

theorem exec_eventRaise (src : BitVec 10) (cause : BitVec 27) : exec (.eventRaise src cause) s = .next (s.withDev (s.dev.eventRaise src.toNat cause.toNat)) := rfl
theorem exec_eventTokenSend : exec .eventTokenSend s = .next (s.withDev s.dev.eventSend) := rfl
theorem exec_journalWriteResponse (n : Nat) : exec (.journalWriteResponse n) s = .next (s.withDev (s.dev.journalDone n)) := rfl
theorem exec_contextLifeCheck (g : Fin 16) : exec (.contextLifeCheck g) s = .next (s.withDev (s.dev.lifeCheck g)) := rfl
theorem exec_replayStart (e : Ecc) : exec (.replayStart e) s = .next (s.withDev (s.dev.replayStart e)) := rfl
theorem exec_hltAck (v : W32) : exec (.hltAck v) s = .next (s.withDev (s.dev.healthAck v)) := rfl

end

/-! Sources of the device. -/

section Sources
variable {d : Dev} {n cause : Nat} {op : Option (W64 × Byte)}

theorem eventRaise_source (h : n < 704) : d.eventRaise n cause = d.raiseWith n cause none := if_pos h

theorem eventRaise_request (h : 704 ≤ n) : d.eventRaise n cause = d.eventRequest := if_neg (Nat.not_lt.2 h)

section
variable {d1 : Dev} (h1 : (d.addSat16 (banked (evtReg 0x18) n) 1).setFld (banked (evtReg 0x14) n) 26 0 cause = d1)
include h1

theorem raiseWith_disabled (hon : d1.rbit (banked (evtReg 4) n) 31 = false) : d.raiseWith n cause op = d1 := by
  have hon' : (d1.reg (banked (evtReg 4) n)).getLsbD 31 = false := hon
  simp only [Dev.raiseWith, h1, hon', Bool.not_false, if_true]

variable (hon : d1.rbit (banked (evtReg 4) n) 31 = true)
include hon

theorem raiseWith_steward (ht : d1.rbit (banked (evtReg 4) n) 30 = false) : d.raiseWith n cause op = d1.setEvtPending n true := by
  have hon' : (d1.reg (banked (evtReg 4) n)).getLsbD 31 = true := hon
  have ht' : (d1.reg (banked (evtReg 4) n)).getLsbD 30 = false := ht
  simp only [Dev.raiseWith, h1, hon', ht', Bool.not_false, Bool.not_true, Bool.false_eq_true, if_true, if_false]

variable (ht : d1.rbit (banked (evtReg 4) n) 30 = true)
include ht

/-- An enabled source whose route is a token's. -/
theorem raiseWith_token : d.raiseWith n cause op =
    if !d1.running (d1.rfld (evtReg 0xC) 11 0) then (d1.setEvtPending n true).setBit (evtReg 0x1C) 0 true
    else if d1.evtPending n then d1
    else if (d1.setEvtPending n true).evtQ.length < 64 then { d1.setEvtPending n true with evtQ := (d1.setEvtPending n true).evtQ ++ [(n, d1.evtToken n cause op)] }
    else { d1.setEvtPending n true with evtWait := (d1.setEvtPending n true).evtWait ++ [(n, d1.evtToken n cause op)] } := by
  have hon' : (d1.reg (banked (evtReg 4) n)).getLsbD 31 = true := hon
  have ht' : (d1.reg (banked (evtReg 4) n)).getLsbD 30 = true := ht
  simp only [Dev.raiseWith, h1, hon', ht', Bool.not_true, Bool.false_eq_true, if_false]

theorem raiseWith_stopped (hr : d1.running (d1.rfld (evtReg 0xC) 11 0) = false) :
    d.raiseWith n cause op = (d1.setEvtPending n true).setBit (evtReg 0x1C) 0 true := by
  rw [raiseWith_token h1 hon ht]
  exact if_pos (by rw [hr]; rfl)

variable (hr : d1.running (d1.rfld (evtReg 0xC) 11 0) = true)
include hr

theorem raiseWith_pending (hp : d1.evtPending n = true) : d.raiseWith n cause op = d1 := by
  rw [raiseWith_token h1 hon ht]
  exact (if_neg (by rw [hr]; decide)).trans (if_pos hp)

variable (hp : d1.evtPending n = false)
include hp

theorem raiseWith_queued (hq : d1.evtQ.length < 64) : d.raiseWith n cause op = { d1.setEvtPending n true with evtQ := d1.evtQ ++ [(n, d1.evtToken n cause op)] } := by
  rw [raiseWith_token h1 hon ht]
  exact (if_neg (by rw [hr]; decide)).trans ((if_neg (Bool.eq_false_iff.1 hp)).trans (if_pos hq))

theorem raiseWith_waits (hq : 64 ≤ d1.evtQ.length) : d.raiseWith n cause op = { d1.setEvtPending n true with evtWait := d1.evtWait ++ [(n, d1.evtToken n cause op)] } := by
  rw [raiseWith_token h1 hon ht]
  exact (if_neg (by rw [hr]; decide)).trans ((if_neg (Bool.eq_false_iff.1 hp)).trans (if_neg (Nat.not_lt.2 hq)))

end

end Sources

/-! Requests of the EVENT operation, and the queue of event tokens. -/

section Requests
variable {d d0 d1 : Dev} {q : Packet} {t t1 : Token}

theorem eventRequest_none (h : d.takeTok eventNode (fun _ => true) = none) : d.eventRequest = d := by
  rw [Dev.eventRequest, h]

variable (h : d.takeTok eventNode (fun _ => true) = some (q, t, d0))
include h

theorem eventRequest_refused (ht : d0.blockTag eventNode t (infieldIs t.tag 0 3 0) = (none, d1)) : d.eventRequest = d1.ioAnswer q.src none := by
  simp only [Dev.eventRequest, h, ht]

variable (ht : d0.blockTag eventNode t (infieldIs t.tag 0 3 0) = (some t1, d1))
include ht

theorem eventRequest_badNode (hn : t1.tag.node.toNat < 704 ∨ 1024 ≤ t1.tag.node.toNat) :
    d.eventRequest = (d1.blockError eventNode t1 stBAD_NODE t1.tag.node.toNat).ioAnswer q.src none := by
  simp only [Dev.eventRequest, h, ht, hn, if_true]

theorem eventRequest_raises (hlo : 704 ≤ t1.tag.node.toNat) (hhi : t1.tag.node.toNat < 1024) :
    d.eventRequest = (({ d1 with fresh := d1.fresh + 1 } : Dev).raiseWith t1.tag.node.toNat (causeWord ((Config.freeValue d1.fresh).toNat % 256) 0) (some (t1.pay, t1.ty))).ioSignal q.src := by
  have hn : ¬ (t1.tag.node.toNat < 704 ∨ 1024 ≤ t1.tag.node.toNat) := by omega
  simp only [Dev.eventRequest, h, ht, hn, if_false, Dev.free]

end Requests

section Queue
variable {d : Dev} {src : Nat} {t : Token} {q : List (Nat × Token)}

theorem eventSend_none (h : d.evtQ = []) : d.eventSend = d := by
  rw [Dev.eventSend, h]

theorem eventSend_noCredit (h : d.evtQ = (src, t) :: q) (hc : d.hubCredit t = false) : d.eventSend = d := by
  rw [Dev.eventSend, h]
  exact if_neg (Bool.eq_false_iff.1 hc)

theorem eventSend_sends (h : d.evtQ = (src, t) :: q) (hc : d.hubCredit t = true) : d.eventSend =
    (({ d with evtQ := q ++ d.evtWait.take 1, evtWait := d.evtWait.drop 1 } : Dev).setEvtPending src false).blockSend eventNode t := by
  rw [Dev.eventSend, h]
  exact if_pos hc

end Queue

/-! The journal. -/

section Journal
variable {d : Dev} {n : Nat} {w : JWait} {src : Node}

theorem journalDone_none (h : d.jrnWait.length ≤ n) : d.journalDone n = d.journalRetry := by
  rw [Dev.journalDone, List.getElem?_eq_none h]

theorem journalDone_unwritten (h : d.jrnWait[n]? = some w) (hw : w.written = false) : d.journalDone n = d.journalRetry := by
  rw [Dev.journalDone, h]
  exact if_neg (Bool.eq_false_iff.1 hw)

theorem journalDone_written (h : d.jrnWait[n]? = some w) (hw : w.written = true) :
    d.journalDone n = (({ d with jrnWait := d.jrnWait.set n { w with done := true } } : Dev).jrnFlush w.src).journalRetry := by
  rw [Dev.journalDone, h]
  exact if_pos hw

theorem jrnReady_eq (src : Node) : ∀ ws : List JWait, jrnReady src ws = (ws.filter (fun w => w.src == src)).takeWhile (fun w => w.done)
  | [] => rfl
  | w :: ws => by
    rw [jrnReady, jrnReady_eq src ws]
    cases hs : w.src == src with
    | false => rw [List.filter_cons_of_neg (by rw [hs]; exact Bool.false_ne_true), if_neg Bool.false_ne_true]
    | true =>
      rw [List.filter_cons_of_pos (p := fun w : JWait => w.src == src) hs, if_pos rfl]
      cases hd : w.done with
      | false => rw [List.takeWhile_cons_of_neg (by rw [hd]; exact Bool.false_ne_true), if_neg Bool.false_ne_true]
      | true => rw [List.takeWhile_cons_of_pos hd, if_pos rfl]

theorem jrnFlush_none (h : jrnReady src d.jrnWait = []) : d.jrnFlush src = d := by
  rw [Dev.jrnFlush, h]
  rfl

theorem jrnFlush_one (h : jrnReady src d.jrnWait = [w]) : d.jrnFlush src =
    ({ d with jrnWait := removeFirst (· == w) d.jrnWait } : Dev).send src { d.tokenPacket w.tok with ends := w.ends, src := w.mark } := by
  rw [Dev.jrnFlush, h]
  rfl

/-- What `journalRetry` does for one token that waits. -/
def retryStep (d : Dev) (w : JWait) : Dev :=
  if w.written then { d with jrnWait := d.jrnWait ++ [w] }
  else if d.jrnUsed < d.jrnCap then
    let d := match w.root with | some r => d.journalWrite r w.tok | none => d
    { d with jrnWait := d.jrnWait ++ [{ w with written := true }] }
  else { d with jrnWait := d.jrnWait ++ [w] }

theorem journalRetry_eq (d : Dev) : d.journalRetry = d.jrnWait.foldl retryStep { d with jrnWait := [] } := rfl

theorem foldl_retryStep_written : ∀ (ws : List JWait) (d : Dev), (∀ w ∈ ws, w.written = true) → ws.foldl retryStep d = { d with jrnWait := d.jrnWait ++ ws }
  | [], d, _ => by
    rw [List.append_nil]
    rfl
  | w :: ws, d, h => by
    rw [List.foldl_cons, retryStep, if_pos (h w List.mem_cons_self), foldl_retryStep_written ws _ (fun x hx => h x (List.mem_cons_of_mem _ hx))]
    exact congrArg (fun l => { d with jrnWait := l }) (List.append_assoc d.jrnWait [w] ws)

theorem journalRetry_written (h : ∀ w ∈ d.jrnWait, w.written = true) : d.journalRetry = d := by
  rw [journalRetry_eq, foldl_retryStep_written _ _ h]
  rfl

/-- A part of a device that neither registers nor the waiting event tokens bear on. -/
def BesideEvents {β : Type} (f : Dev → β) : Prop := ∀ (d : Dev) (r : SMap W32) (q w : List (Nat × Token)), f { d with regs := r, evtQ := q, evtWait := w } = f d

theorem raiseWith_beside {β : Type} {f : Dev → β} (hf : BesideEvents f) (d : Dev) (src cause : Nat) (op : Option (W64 × Byte)) : f (d.raiseWith src cause op) = f d := by
  have hreg : ∀ (e : Dev) (a : Nat) (v : W32), f (e.setReg a v) = f e := fun e a v => hf e _ e.evtQ e.evtWait
  unfold Dev.raiseWith
  extract_lets d1 d2 cfg t d3
  have h2 : f d2 = f d := (hreg d1 _ _).trans (hreg d _ _)
  have h3 : f d3 = f d := (hreg d2 _ _).trans h2
  clear_value d3 d2 cfg
  split
  · exact h2
  split
  · exact (hreg d2 _ _).trans h2
  split
  · exact (hreg (d2.setEvtPending src true) _ _).trans ((hreg d2 _ _).trans h2)
  split
  · exact h2
  split
  · exact (hf d3 d3.regs _ d3.evtWait).trans h3
  · exact (hf d3 d3.regs d3.evtQ _).trans h3

theorem raiseFree_jrn (d : Dev) (src index : Nat) : (d.raiseFree src index).jrn = d.jrn := raiseWith_beside (f := Dev.jrn) (fun _ _ _ _ => rfl) _ _ _ _
theorem raiseFree_jrnNext (d : Dev) (src index : Nat) : (d.raiseFree src index).jrnNext = d.jrnNext := raiseWith_beside (f := Dev.jrnNext) (fun _ _ _ _ => rfl) _ _ _ _
theorem raiseFree_jrnWait (d : Dev) (src index : Nat) : (d.raiseFree src index).jrnWait = d.jrnWait := raiseWith_beside (f := Dev.jrnWait) (fun _ _ _ _ => rfl) _ _ _ _

/-- The alarm of a journal that runs low leaves its records. -/
theorem journalAlarm_keeps (e : Dev) (c : Prop) [Decidable c] : (if c then ({ e with jrnLow := true } : Dev).raiseFree 333 0 else e).jrn = e.jrn ∧
    (if c then ({ e with jrnLow := true } : Dev).raiseFree 333 0 else e).jrnNext = e.jrnNext ∧
    (if c then ({ e with jrnLow := true } : Dev).raiseFree 333 0 else e).jrnWait = e.jrnWait := by
  split
  · exact ⟨raiseFree_jrn _ _ _, raiseFree_jrnNext _ _ _, raiseFree_jrnWait _ _ _⟩
  · exact ⟨rfl, rfl, rfl⟩

/-- A record is the journal's last, under the next number; what waits for the journal goes on waiting. -/
theorem journalWrite_records (d : Dev) (r : BitVec 22) (t : Token) :
    (d.journalWrite r t).jrn = d.jrn ++ [{ n := d.jrnNext, root := r, tok := t }] ∧ (d.journalWrite r t).jrnNext = d.jrnNext + 1 ∧
      (d.journalWrite r t).jrnWait = d.jrnWait := by
  unfold Dev.journalWrite Dev.free
  dsimp -zeta only
  extract_lets n a v bs d1 d2 d3 thr
  have h3 : d3.jrn = d2.jrn ∧ d3.jrnNext = d2.jrnNext ∧ d3.jrnWait = d2.jrnWait := by
    unfold d3
    clear_value d2
    split <;> exact ⟨rfl, rfl, rfl⟩
  obtain ⟨hjrn, hnext, hwait⟩ := h3
  obtain ⟨hjrn', hnext', hwait'⟩ := journalAlarm_keeps d3 (thr < d3.jrnUsed ∧ !d3.jrnLow)
  exact ⟨hjrn'.trans hjrn, hnext'.trans hnext, hwait'.trans hwait⟩

section
variable (h : d.jrnWait = [w])
include h

theorem journalRetry_one : d.journalRetry = retryStep { d with jrnWait := [] } w := by
  rw [journalRetry_eq, h]
  rfl

theorem journalRetry_record (hw : w.written = false) (hroom : d.jrnUsed < d.jrnCap) {r : BitVec 22} (hr : w.root = some r) :
    d.journalRetry = { ({ d with jrnWait := [] } : Dev).journalWrite r w.tok with jrnWait := [{ w with written := true }] } := by
  have hwait : (({ d with jrnWait := [] } : Dev).journalWrite r w.tok).jrnWait = [] := (journalWrite_records _ r w.tok).2.2
  rw [journalRetry_one h, retryStep, hr]
  refine (if_neg (Bool.eq_false_iff.1 hw)).trans ((if_pos hroom).trans ?_)
  simp only [hwait, List.nil_append]

theorem journalRetry_noRoot (hw : w.written = false) (hroom : d.jrnUsed < d.jrnCap) (hr : w.root = none) :
    d.journalRetry = { d with jrnWait := [{ w with written := true }] } := by
  rw [journalRetry_one h, retryStep, hr]
  exact (if_neg (Bool.eq_false_iff.1 hw)).trans (if_pos hroom)

theorem journalRetry_full (hfull : d.jrnCap ≤ d.jrnUsed) : d.journalRetry = d := by
  cases hw : w.written with
  | true => exact journalRetry_written (by rw [h]; intro x hx; rw [List.mem_singleton.1 hx, hw])
  | false =>
    rw [journalRetry_one h, retryStep]
    refine (if_neg (Bool.eq_false_iff.1 hw)).trans ((if_neg (Nat.not_lt.2 hfull)).trans ?_)
    rw [List.nil_append, ← h]

end

end Journal

/-! Contexts past their life, groups that are lost, and replay. -/

section Replay
variable {d : Dev} {x : Group}

theorem lifeCheck_none {g : Nat} (h : d.expired g = []) : d.lifeCheck g = d := by
  rw [Dev.lifeCheck, h]
  rfl

theorem loseStranded_none (h : d.groups.filter d.stranded = []) : d.loseStranded = d := by
  rw [Dev.loseStranded, h]
  rfl

theorem loseStranded_one (h : d.groups.filter d.stranded = [x]) : d.loseStranded = ({ d with groups := removeFirst (· == x) d.groups } : Dev).loseGroup x := by
  rw [Dev.loseStranded, h]
  rfl

theorem stranded_eq (d : Dev) (x : Group) : d.stranded x = (x.hold && !d.regionOpen (x.root.toNat / 2 ^ 18) && (d.rst.noclk.contains (272 + x.root.toNat / 2 ^ 18) ||
    ((d.map (x.root.toNat / 2 ^ 18)).all (d.isoTiles (x.root.toNat / 2 ^ 18)).contains && !(d.reserveWord (x.root.toNat / 2 ^ 18)).getLsbD 5))) :=
  (Bool.and_assoc _ _ _).symm

/-- The choice between the group chosen so far and the next: the one whose first record is older. -/
def olderGroup (b : Option Group) (x : Group) : Option Group :=
  match b with
  | none => some x
  | some y => if x.recs.headD 0 < y.recs.headD 0 then some x else b

theorem olderGroup_some (y x : Group) : ∃ z, olderGroup (some y) x = some z ∧ (z = y ∨ z = x) ∧ z.recs.headD 0 ≤ y.recs.headD 0 ∧ z.recs.headD 0 ≤ x.recs.headD 0 := by
  by_cases h : x.recs.headD 0 < y.recs.headD 0
  · exact ⟨x, if_pos h, .inr rfl, Nat.le_of_lt h, Nat.le_refl _⟩
  · exact ⟨y, if_neg h, .inl rfl, Nat.le_refl _, Nat.not_lt.1 h⟩

theorem foldl_olderGroup : ∀ (l : List Group) (y : Group), ∃ z, l.foldl olderGroup (some y) = some z ∧ (z = y ∨ z ∈ l) ∧
    z.recs.headD 0 ≤ y.recs.headD 0 ∧ ∀ x ∈ l, z.recs.headD 0 ≤ x.recs.headD 0
  | [], y => ⟨y, rfl, .inl rfl, Nat.le_refl _, fun _ h => absurd h List.not_mem_nil⟩
  | x :: l, y => by
    obtain ⟨w, hw, hof, hy, hx⟩ := olderGroup_some y x
    obtain ⟨z, hz, hin, hzw, hl⟩ := foldl_olderGroup l w
    refine ⟨z, by rw [List.foldl_cons, hw, hz], ?_, Nat.le_trans hzw hy, ?_⟩
    · rcases hin with rfl | hin
      · exact hof.imp id (fun he => by rw [he]; exact List.mem_cons_self)
      · exact .inr (List.mem_cons_of_mem _ hin)
    · intro v hv
      rcases List.mem_cons.1 hv with rfl | hv
      · exact Nat.le_trans hzw hx
      · exact hl v hv

/-- Of the groups of a list the fold takes one whose first record is oldest. -/
theorem oldestGroup {l : List Group} (h : l.foldl olderGroup none = some x) : x ∈ l ∧ ∀ y ∈ l, x.recs.headD 0 ≤ y.recs.headD 0 := by
  cases l with
  | nil => cases h
  | cons y l =>
    obtain ⟨z, hz, hin, hy, hl⟩ := foldl_olderGroup l y
    obtain rfl : z = x := Option.some.inj (hz.symm.trans h)
    refine ⟨List.mem_cons.2 hin, fun v hv => ?_⟩
    rcases List.mem_cons.1 hv with rfl | hv
    · exact hy
    · exact hl v hv

/-- A group that may replay: held, no Steward's, of an open region and a running graph. -/
def mayReplay (d : Dev) (y : Group) : Prop := y ∈ d.groups ∧ y.hold = true ∧ y.stw = false ∧ d.regionOpen (y.root.toNat / 2 ^ 18) = true ∧ d.running y.graph = true

theorem replayNext_eq (d : Dev) : d.replayNext =
    (d.groups.filter (fun x => x.hold && !x.stw && d.regionOpen (x.root.toNat / 2 ^ 18) && d.running x.graph)).foldl olderGroup none := rfl

theorem mem_mayReplay (y : Group) : y ∈ d.groups.filter (fun x => x.hold && !x.stw && d.regionOpen (x.root.toNat / 2 ^ 18) && d.running x.graph) ↔ mayReplay d y := by
  rw [List.mem_filter, mayReplay]
  simp only [Bool.and_eq_true, Bool.not_eq_true', and_assoc]

theorem replayNext_oldest (h : d.replayNext = some x) : mayReplay d x ∧ ∀ y, mayReplay d y → x.recs.headD 0 ≤ y.recs.headD 0 := by
  obtain ⟨hin, hold⟩ := oldestGroup ((replayNext_eq d).symm.trans h)
  exact ⟨(mem_mayReplay x).1 hin, fun y hy => hold y ((mem_mayReplay y).2 hy)⟩

variable {e : Ecc} {d0 : Dev} (h0 : d.loseStranded = d0)
include h0

theorem replayStart_idle (h : d0.hbmLost = true ∨ d0.replayNext = none) : d.replayStart e = d0.healthUpdate := by
  simp only [Dev.replayStart, h0]
  rcases h with h | h
  · exact if_pos h
  · rw [h]
    exact ite_self _

variable (hlost : d0.hbmLost = false) (hx : d0.replayNext = some x)
include hlost hx

theorem replayStart_uncorrectable (p : Bool) : d.replayStart (.ue p) = (({ d0 with groups := removeFirst (· == x) d0.groups } : Dev).loseGroup x).healthState 2 4 := by
  simp only [Dev.replayStart, h0, hlost, hx, Bool.false_eq_true, if_false]

variable (he : ∀ p, e ≠ .ue p)
include he

theorem replayStart_noRoom (h : d0.mayTake (x.root.toNat / 2 ^ 18) x.prio x.graph false = false) : d.replayStart e = d0 := by
  cases e with
  | ue p => exact absurd rfl (he p)
  | ok => simp only [Dev.replayStart, h0, hlost, hx, h, Bool.false_eq_true, if_false, Bool.not_false, if_true]
  | ce => simp only [Dev.replayStart, h0, hlost, hx, h, Bool.false_eq_true, if_false, Bool.not_false, if_true]

/-- The replay of a group in the context `c`: its records are the group's under `c`, the context is replaying, its owner is reset, and its tokens go out again. -/
def replayed (x : Group) (c : BitVec 22) (d1 : Dev) : Dev :=
  let d2 : Dev := { d1 with
    jrn := d1.jrn.map (fun (r : JRec) => if x.recs.contains r.n then { r with root := c, kept := false } else r)
    groups := d1.groups.map (fun (y : Group) => if y == x then { y with root := c, hold := false } else y) }
  let d3 := (d2.setCtxDesc c (putFld (putFld (d2.ctxDesc c) 31 0 (x.recs.getLastD 0 % d2.jrnCap)) 63 61 3)).ownerReset (poolNode (x.root.toNat / 2 ^ 18)) c
  ((d1.jrn.filter (fun r => x.recs.contains r.n)).foldl (fun (d : Dev) r => d.sendToken healthNode (replayTok r.tok c)) d3).count32 (hltReg 0x24)

theorem replayStart_replays {c : BitVec 22} {d1 : Dev} (h : d0.mayTake (x.root.toNat / 2 ^ 18) x.prio x.graph false = true)
    (ht : d0.takeCtx (x.root.toNat / 2 ^ 18) x.prio x.graph (some none) = some (c, d1)) : d.replayStart e = replayed x c d1 := by
  cases e with
  | ue p => exact absurd rfl (he p)
  | ok =>
    simp only [Dev.replayStart, h0, hlost, hx, h, ht, Bool.false_eq_true, if_false, Bool.not_true]
    rfl
  | ce =>
    simp only [Dev.replayStart, h0, hlost, hx, h, ht, Bool.false_eq_true, if_false, Bool.not_true]
    rfl

end Replay

section Health
variable {d : Dev} {v : W32}

theorem healthAck_clears (hv : v.getLsbD 0 = true) (hc : d.healthCause.1 = 0) (hs : d.rfld (hltReg 0) 1 0 ≠ 0) :
    d.healthAck v = (d.setReg (hltReg 0) 0).raiseFree 651 0 :=
  if_pos (by rw [hv, hc, bne_iff_ne.2 hs]; rfl)

theorem healthAck_idle (h : v.getLsbD 0 = false ∨ d.healthCause.1 ≠ 0 ∨ d.rfld (hltReg 0) 1 0 = 0) : d.healthAck v = d := by
  refine if_neg ?_
  rw [Bool.and_eq_true, Bool.and_eq_true, beq_iff_eq, bne_iff_ne]
  rintro ⟨⟨hv, hc⟩, hs⟩
  rw [hv] at h
  exact h.elim Bool.noConfusion (fun h => h.elim (fun hn => hn hc) hs)

end Health

/-- Settles O57: by the cases of EVENT_RAISE, the journal's retries token by token, and the fold that chooses the group with the oldest record. -/
theorem eventsJournalAndReplay : Obligations.EventsJournalAndReplay := by
  unfold Obligations.EventsJournalAndReplay
  refine ⟨fun src cause s hlt => ?_, fun src cause s hge => ?_, fun s => ?_, fun n s => ?_, jrnReady_eq, fun d src => ⟨jrnFlush_none, fun w => jrnFlush_one⟩, fun d => ?_, fun g s => ?_,
    fun d => ⟨loseStranded_none, fun x => loseStranded_one, stranded_eq d⟩, fun e s => ?_, fun d x h => replayNext_oldest h, fun v s => ?_⟩
  · intro n d on byToken run e tok
    refine ⟨fun hon => ?_, fun hon ht => ?_, fun hon ht hr => ?_, fun hon ht hr hp => ?_, fun hon ht hr hp => ⟨fun hq => ?_, fun hq => ?_⟩⟩
    · rw [exec_eventRaise, eventRaise_source hlt, raiseWith_disabled rfl hon]
    · rw [exec_eventRaise, eventRaise_source hlt, raiseWith_steward rfl hon ht]
    · rw [exec_eventRaise, eventRaise_source hlt, raiseWith_stopped rfl hon ht hr]
    · rw [exec_eventRaise, eventRaise_source hlt, raiseWith_pending rfl hon ht hr hp]
    · rw [exec_eventRaise, eventRaise_source hlt, raiseWith_queued rfl hon ht hr hp hq]
    · rw [exec_eventRaise, eventRaise_source hlt, raiseWith_waits rfl hon ht hr hp hq]
  · refine ⟨fun h => ?_, fun q t d d1 h ht => ?_, fun q t d t1 d1 h ht => ⟨fun hlo hhi => ?_, fun hn => ?_⟩⟩
    · rw [exec_eventRaise, eventRaise_request hge, eventRequest_none h, withDev_self]
    · rw [exec_eventRaise, eventRaise_request hge, eventRequest_refused h ht]
    · rw [exec_eventRaise, eventRaise_request hge, eventRequest_raises h ht hlo hhi]
    · rw [exec_eventRaise, eventRaise_request hge, eventRequest_badNode h ht hn]
  · refine ⟨fun h => ?_, fun src t q h hc => ?_, fun src t q h hc => ?_⟩
    · rw [exec_eventTokenSend, eventSend_none h, withDev_self]
    · rw [exec_eventTokenSend, eventSend_noCredit h hc, withDev_self]
    · rw [exec_eventTokenSend, eventSend_sends h hc]
  · refine ⟨fun h => ?_, fun w h => ⟨fun hw => ?_, fun hw => ?_⟩⟩
    · rw [exec_journalWriteResponse, journalDone_none h]
    · rw [exec_journalWriteResponse, journalDone_unwritten h hw]
    · rw [exec_journalWriteResponse, journalDone_written h hw]
  · refine ⟨journalRetry_written, fun w h hw hroom => ⟨fun r => journalRetry_record h hw hroom, journalRetry_noRoot h hw hroom⟩, fun w h => journalRetry_full h, fun r t => ?_⟩
    obtain ⟨hjrn, hnext, -⟩ := journalWrite_records d r t
    exact ⟨hjrn, hnext⟩
  · refine ⟨fun h => ?_, fun i h => ?_⟩
    · rw [exec_contextLifeCheck, lifeCheck_none h, withDev_self]
    · rw [exec_contextLifeCheck, Dev.lifeCheck, h]
      rfl
  · refine ⟨fun h => ?_, fun x hlost hx => ⟨?_, fun he h => ?_, fun c d1 he h ht => ?_⟩⟩
    · rw [exec_replayStart, replayStart_idle rfl h]
    · rintro p rfl
      rw [exec_replayStart, replayStart_uncorrectable rfl hlost hx]
    · rw [exec_replayStart, replayStart_noRoom rfl hlost hx he h]
    · rw [exec_replayStart, replayStart_replays rfl hlost hx he h ht]
      rfl
  · refine ⟨fun hv hc hs => ?_, fun h => ?_⟩
    · rw [exec_hltAck, healthAck_clears hv hc hs]
    · rw [exec_hltAck, healthAck_idle h, withDev_self]

end Sys2Proof.Machine

/-! ### O58: outputs are held and released -/

namespace Sys2Proof.Machine

section
variable (s : State)

theorem exec_commitRequest : exec .commitRequest s = .next (s.withDev s.dev.commitRequest) := rfl
theorem exec_outputRelease (root : BitVec 22) : exec (.outputRelease root) s = .next (s.withDev (s.dev.outputRelease root)) := rfl

end

/-! COMMIT requests. -/

section Requests
variable {d d1 d2 : Dev} {q : Packet} {t t1 : Token}

theorem commitRequest_full (h : 65536 ≤ d.pend.length) : d.commitRequest = d := if_pos h

theorem commitRequest_none (h : d.takeTok healthNode (fun _ => true) = none) : d.commitRequest = d := by
  rw [Dev.commitRequest, h]
  exact ite_self _

/-- A device whose graph of the request counts the channel as used. -/
def channelUsed (e d2 : Dev) (t : Token) : Dev :=
  if (d2.graph t.tag.graph.toNat).used.contains t.tag.node.toNat then e
  else e.setGraph t.tag.graph.toNat { d2.graph t.tag.graph.toNat with used := (d2.graph t.tag.graph.toNat).used ++ [t.tag.node.toNat] }

/-- The output that a request holds. -/
def heldOutput (d2 : Dev) (t : Token) : Pend :=
  { ch := t.tag.node.toNat, val := t.pay, ty := t.ty, graph := t.tag.graph.toNat, ctx := t.tag.ctx, root := (d2.rootOf t.tag.ctx).getD t.tag.ctx,
    copyB := (d2.graph t.tag.graph.toNat).dup && (d2.graph t.tag.graph.toNat).regsB.contains (t.tag.ctx.toNat / 2 ^ 18) }

variable (hroom : d.pend.length < 65536) (h : d.takeTok healthNode (fun _ => true) = some (q, t, d1))
  (ht : d1.blockTag healthNode t (infieldIs t.tag 0 4 0) = (some t1, d2))
include hroom h ht

theorem commitRequest_badNode (hn : 4096 ≤ t1.tag.node.toNat) :
    d.commitRequest = (d2.blockError healthNode t1 stBAD_NODE t1.tag.node.toNat).ioAnswer q.src none := by
  simp only [Dev.commitRequest, Nat.not_le.2 hroom, h, ht, hn, if_true, if_false]

variable (hn : t1.tag.node.toNat < 4096)
include hn

theorem commitRequest_limit (hl : 64 ≤ (d2.pend.filter (fun p => p.ctx == t1.tag.ctx && !p.lost)).length) : d.commitRequest =
    (({ d2 with fresh := d2.fresh + 1 } : Dev).blockError healthNode t1 stCOMMIT_LIMIT ((Config.freeValue d2.fresh).toNat % 2 ^ 37)).ioAnswer q.src none := by
  simp only [Dev.commitRequest, Nat.not_le.2 hroom, h, ht, Nat.not_le.2 hn, hl, if_true, if_false, Dev.free]

variable (hl : (d2.pend.filter (fun p => p.ctx == t1.tag.ctx && !p.lost)).length < 64)
include hl

theorem commitRequest_dropped {root : BitVec 22} (hroot : (d2.rootOf t1.tag.ctx).getD t1.tag.ctx = root)
    (hg : cdLive (d2.ctxDesc root) = false ∨ cdFault (d2.ctxDesc root) = true) : d.commitRequest = d2.ioSignal q.src := by
  have hg' : (!cdLive (d2.ctxDesc root)) = true ∨ cdFault (d2.ctxDesc root) = true := hg.imp (fun hb => by rw [hb]; rfl) id
  simp only [Dev.commitRequest, Nat.not_le.2 hroom, h, ht, Nat.not_le.2 hn, Nat.not_le.2 hl, hroot, hg', if_true, if_false]

/-- An acceptable request of a group that takes outputs is held. -/
theorem commitRequest_held {root : BitVec 22} (hroot : (d2.rootOf t1.tag.ctx).getD t1.tag.ctx = root) (hlive : cdLive (d2.ctxDesc root) = true)
    (hfault : cdFault (d2.ctxDesc root) = false) {e : Dev}
    (he : (if cdCommit (d2.ctxDesc t1.tag.ctx) = 0 then d2.setCtxDesc t1.tag.ctx (putFld (d2.ctxDesc t1.tag.ctx) 54 52 1) else d2) = e) :
    d.commitRequest = ({ channelUsed e d2 t1 with pend := (channelUsed e d2 t1).pend ++ [heldOutput d2 t1] } : Dev).ioSignal q.src := by
  subst he hroot
  have hg : ¬ ((!cdLive (d2.ctxDesc ((d2.rootOf t1.tag.ctx).getD t1.tag.ctx))) = true ∨ cdFault (d2.ctxDesc ((d2.rootOf t1.tag.ctx).getD t1.tag.ctx)) = true) := by
    rw [hlive, hfault]
    decide
  simp only [Dev.commitRequest, Nat.not_le.2 hroom, h, ht, Nat.not_le.2 hn, Nat.not_le.2 hl, hg, if_false]
  rfl

end Requests

/-! The release of a group's outputs. -/

section Release
variable {d : Dev} {root : BitVec 22}

/-- Whether the group of a root has committed and lives. -/
def groupLive (d : Dev) (root : BitVec 22) : Bool := cdCommit (d.ctxDesc root) == 2 && cdLive (d.ctxDesc root)

/-- The outputs of the root that may be released, those written, and whether a channel's ring has room for all of its own. -/
def releasable (d : Dev) (root : BitVec 22) : List Pend := d.pend.filter (fun p => p.root == root && (p.lost || groupLive d root))
def released (d : Dev) (root : BitVec 22) : List (Pend × Nat) := (releasable d root).filterMap (fun p => (d.outFlags p).map (fun f => (p, f)))
def ringFits (d : Dev) (root : BitVec 22) (x : Pend × Nat) : Bool := d.outRoom x.1.ch ((released d root).filter (fun y => y.1.ch == x.1.ch)).length

/-- The device whose outputs are written and no longer held. -/
def outputsWritten (d : Dev) (root : BitVec 22) : Dev :=
  (released d root).foldl (fun (d : Dev) x => d.outWrite x.1 x.2)
    { d with pend := d.pend.filter (fun p => !(releasable d root).contains p), outHeld := d.outHeld.filter (· != root.toNat) }

/-- The end of a group whose outputs are written and whose record is made: its journal space and its context go back. -/
def groupCommitted (d : Dev) (root : BitVec 22) : Dev := (((d.setCtxDesc root (putFld (d.ctxDesc root) 54 52 3)).reclaim root).returnCtx root).journalRetry

/-- The release by the first output whose ring lacks room. -/
def releaseBy (d : Dev) (root : BitVec 22) : Option (Pend × Nat) → Dev
  | some x => if d.outHeld.contains root.toNat then d else ({ d with outHeld := d.outHeld ++ [root.toNat] } : Dev).raiseFree 334 x.1.ch
  | none =>
    if groupLive d root && decide (d.jrnCap ≤ d.jrnUsed) then d
    else if groupLive d root then groupCommitted ((outputsWritten d root).committed root) root
    else outputsWritten d root

theorem groupLive_iff : groupLive d root = true ↔ cdCommit (d.ctxDesc root) = 2 ∧ cdLive (d.ctxDesc root) = true := by
  rw [groupLive, Bool.and_eq_true, beq_iff_eq]

theorem outputRelease_idle (h : releasable d root = [] ∨ d.hbmLost = true) : d.outputRelease root = d := by
  refine if_pos ?_
  rw [Bool.or_eq_true]
  exact h.imp (fun hm => by rw [List.isEmpty_iff]; exact hm) id

variable (hm : releasable d root ≠ []) (hlost : d.hbmLost = false)
include hm hlost

theorem not_idle : ¬ ((releasable d root).isEmpty || d.hbmLost) = true := by
  rw [hlost, Bool.or_false, List.isEmpty_iff]
  exact hm

/-- With something to release, the first output whose ring lacks room decides. -/
theorem outputRelease_active : d.outputRelease root = releaseBy d root ((released d root).find? (fun x => !ringFits d root x)) :=
  (if_neg (not_idle hm hlost)).trans rfl

theorem outputRelease_waits {x : Pend × Nat} (hx : (released d root).find? (fun x => !ringFits d root x) = some x) (hh : d.outHeld.contains root.toNat = true) :
    d.outputRelease root = d := by
  rw [outputRelease_active hm hlost, hx]
  exact if_pos hh

theorem outputRelease_reports {x : Pend × Nat} (hx : (released d root).find? (fun x => !ringFits d root x) = some x) (hh : d.outHeld.contains root.toNat = false) :
    d.outputRelease root = ({ d with outHeld := d.outHeld ++ [root.toNat] } : Dev).raiseFree 334 x.1.ch := by
  rw [outputRelease_active hm hlost, hx]
  exact if_neg (Bool.eq_false_iff.1 hh)

variable (hfits : ∀ x ∈ released d root, ringFits d root x = true)
include hfits

theorem outputRelease_fits : d.outputRelease root = releaseBy d root none := by
  have hnone : (released d root).find? (fun x => !ringFits d root x) = none := List.find?_eq_none.2 (fun x hx => by rw [hfits x hx]; decide)
  rw [outputRelease_active hm hlost, hnone]

theorem outputRelease_journalFull (hl : groupLive d root = true) (hj : d.jrnCap ≤ d.jrnUsed) : d.outputRelease root = d := by
  rw [outputRelease_fits hm hlost hfits]
  exact if_pos (by rw [hl, decide_eq_true hj]; rfl)

theorem outputRelease_commits (hl : groupLive d root = true) (hj : d.jrnUsed < d.jrnCap) : d.outputRelease root = groupCommitted ((outputsWritten d root).committed root) root := by
  rw [outputRelease_fits hm hlost hfits]
  exact (if_neg (by rw [hl, decide_eq_false (Nat.not_le.2 hj)]; decide)).trans (if_pos hl)

theorem outputRelease_lost (hl : groupLive d root = false) : d.outputRelease root = outputsWritten d root := by
  rw [outputRelease_fits hm hlost hfits]
  exact (if_neg (by rw [hl]; exact Bool.false_ne_true)).trans (if_neg (Bool.eq_false_iff.1 hl))

end Release

section Flags
variable {d : Dev} {p : Pend}

theorem outFlags_disabled (h : d.rbit (outReg 0x34 p.ch) 31 = false) : d.outFlags p = none := if_pos (by rw [h]; rfl)

variable (h : d.rbit (outReg 0x34 p.ch) 31 = true)
include h

theorem outFlags_lost (hl : p.lost = true ∨ d.graphLost p.graph = true) : d.outFlags p = some 1 :=
  (if_neg (by rw [h]; decide)).trans (if_pos (Bool.or_eq_true_iff.2 hl))

variable (hp : p.lost = false) (hg : d.graphLost p.graph = false)
include hp hg

/-- The FLAGS of an output that is not lost, by its graph's copies. -/
theorem outFlags_kept : d.outFlags p = if !(d.graph p.graph).dup then some 0 else if (d.graph p.graph).aliveA then (if p.copyB then none else some 0)
    else if p.copyB then some 2 else none :=
  (if_neg (by rw [h]; decide)).trans (if_neg (by rw [hp, hg]; decide))

end Flags

/-- Settles O58: by the tests of a COMMIT request in order, and the first output of the root whose ring lacks room. -/
theorem outputsAreHeldAndReleased : Obligations.OutputsAreHeldAndReleased := by
  unfold Obligations.OutputsAreHeldAndReleased
  refine ⟨fun s => ?_, fun root s => ?_, fun d p => ?_⟩
  · intro d
    refine ⟨fun h => ?_, fun h => ?_, fun q t d1 t1 d2 hroom h ht => ⟨fun hn => ?_, fun hn hl => ?_, fun hn hl hg => ?_, fun hn hl hlive hfault hc => ?_, fun hn hl hlive hfault hc => ?_⟩⟩
    · rw [exec_commitRequest, commitRequest_full h, withDev_self]
    · rw [exec_commitRequest, commitRequest_none h, withDev_self]
    · rw [exec_commitRequest, commitRequest_badNode hroom h ht hn]
    · rw [exec_commitRequest, commitRequest_limit hroom h ht hn hl]
    · rw [exec_commitRequest, commitRequest_dropped hroom h ht hn hl rfl hg]
    · rw [exec_commitRequest, commitRequest_held hroom h ht hn hl rfl hlive hfault (if_neg hc)]
      rfl
    · rw [exec_commitRequest, commitRequest_held hroom h ht hn hl rfl hlive hfault (if_pos hc)]
      rfl
  · intro d live mine outs fits gone
    refine ⟨fun h => ?_, fun hm hlost => ⟨fun x hx => ⟨fun hh => ?_, fun hh => ?_⟩, fun hf hl hj => ?_, fun hf hl hj => ?_, fun hf hl => ?_⟩⟩
    · rw [exec_outputRelease, outputRelease_idle h, withDev_self]
    · rw [exec_outputRelease, outputRelease_waits hm hlost hx hh, withDev_self]
    · rw [exec_outputRelease, outputRelease_reports hm hlost hx hh]
    · rw [exec_outputRelease, outputRelease_journalFull hm hlost hf (groupLive_iff.2 hl) hj, withDev_self]
    · rw [exec_outputRelease, outputRelease_commits hm hlost hf (groupLive_iff.2 hl) hj]
      rfl
    · rw [exec_outputRelease, outputRelease_lost hm hlost hf (Bool.eq_false_iff.2 (fun h => hl (groupLive_iff.1 h)))]
      rfl
  · intro x
    refine ⟨outFlags_disabled, fun h => ⟨outFlags_lost h, fun hp hg => ⟨fun hd => ?_, fun hd ha hc => ?_, fun hd ha hc => ?_, fun hd ha hc => ?_, fun hd ha hc => ?_⟩⟩⟩
    · rw [outFlags_kept h hp hg, hd]
      rfl
    · rw [outFlags_kept h hp hg, hd, ha, hc]
      rfl
    · rw [outFlags_kept h hp hg, hd, ha, hc]
      rfl
    · rw [outFlags_kept h hp hg, hd, ha, hc]
      rfl
    · rw [outFlags_kept h hp hg, hd, ha, hc]
      rfl

end Sys2Proof.Machine
